-- ==== Sys2Proof/Word.lean ====
section
/-!
DEFINITION. The word, byte, lane and address types of the KX8 (00_scope R1, R2; 03_bundles R71) and their plainest
arithmetic.
-/

namespace Sys2Proof

/-- A 64-bit scalar (R71). -/
abbrev Word := BitVec 64

/-- One byte of memory. -/
abbrev Byte := BitVec 8

/-- One lane of a vector value (R71). -/
abbrev Lane := BitVec 32

/-- The 64 lanes of a vector value (R71); lane `i` is entry `i`. -/
abbrev Lanes := Vector Lane 64

/-- A 4-bit clock tag (R71). -/
abbrev Tag := BitVec 4

/-- The tag 0xF, compatible with every clock (R73). -/
abbrev Tag.any : Tag := 0xF#4

end Sys2Proof
end

