-- ==== Sys2Proof/Config.lean ====
section
/-!
DEFINITION. What an implementation fixes and the values the spec leaves open. A constant without a body is a free
value: no proof can learn what it is.
-/

namespace Sys2Proof
namespace Config

/-- The verification of an RSASSA-PSS signature under the vendor root key (23_system R387, R402, R405): message,
signature. The root key is not in the spec, so the verdict is free (log 12). -/
opaque pssVerifies : List Byte → List Byte → Bool

/-- The device key that the accepted firmware derives from the SRAM start-up pattern of die 0 (R402); free (log 12). -/
opaque deviceKey : List Byte

/-- The digest of the device key, as the bin record and a token of an unprovisioned device name it (R387, R404). -/
opaque deviceKeyDigest : List Byte

/-- The serial of the device's certificate, as a full-debug token names it (R404); free (log 12). -/
opaque certSerial : List Byte

/-- The sealed identity key that provisioning number `n` creates (R403); free (log 12). -/
opaque sealedKey : Nat → List Byte

/-- The certificate chain that a provisioning token installs (R403); free (log 12). -/
opaque certChain : Nat → List Byte

/-- The body of a management response (SPDM or Redfish payload) number `n`; R396 gives its kind, not its bytes; free
(log 13). -/
opaque responseBody : Nat → List Byte

/-- A byte a run leaves open: the contents of a save slot that a program has overwritten and like cases; free, one
value per count of State.freeCount (log 3). -/
opaque freeByte : Nat → Byte

/-- A word a run leaves open; free, one value per count of State.freeCount (log 3). -/
opaque freeWord : Nat → Word

/-- Whether data of another device comes tainted: a flit carries no taint (R392), so the bit is free, one value per
device and address (log 21). -/
opaque remoteTaint : Nat → Nat → Bool

/-- Whether another device holds a pin on the entry of multicast number `n` (R360): no flit tells it, so it is free
(log 24). -/
opaque remotePinned : Nat → Bool

/-- Whether a walk continued here for another device is one of leases, so that what it reads is pinned (R347): no flit tells it,
so it is free, one value per count of State.freeCount (log 145). -/
opaque leaseWalk : Nat → Bool

/-- Whether a store by stamp `w` to a line whose leases crowd their storage also wounds the reader of stamp `r`, which R317 allows:
free, by line, reader and writer (log 130). -/
opaque extraWound : (line r w : Nat) → Bool

/-- What the accepted firmware writes into entry `x` of die `d`'s access table at boot (R402): not in the spec, so free
(log 25). -/
opaque bootAccess : Nat → Nat → BitVec 32

/-- What the accepted firmware writes into COREP of a die at boot (R402); free (log 25). -/
opaque bootCorep : Nat → BitVec 192

/-- What the accepted firmware writes into SUPP of a die at boot (R402); free (log 25). -/
opaque bootSupp : Nat → BitVec 6

/-- What the accepted firmware writes into SLICEP of a die at boot (R402); free (log 25). -/
opaque bootSlicep : Nat → BitVec 96

/-- What the accepted firmware writes into PCHP of a die at boot (R402); free (log 25). -/
opaque bootPchp : Nat → BitVec 480

/-- The setpoint of a die's core rail, as steps of 1 mV above 300 that R408 lets the management firmware choose: free
(log 140). -/
opaque railSetpoint : Nat → Nat

/-- Whether the storage port's receive buffers have passed their threshold as a packet comes (R377): neither their size nor the
threshold is in the spec, so it is free, one value per count of State.freeCount (log 144). -/
opaque bufferPassed : Nat → Bool

/-- The kind of a signed object by its body (R405): 0 a provisioning token, 1 a revoke command, 2 a full-debug token; the spec
does not give its form, so it is free (log 141). -/
opaque objKind : List Byte → Nat

/-- The LBA size of a namespace (R380): a fact of the attached storage, so free (log 26). -/
opaque lbaSize : Nat → Nat

/-- The number of dies, and of stacks, of the package (R6). -/
abbrev dies : Nat := 8

/-- Entries of each engine queue of a core on stepping A1 (R216, R278, R296, R330). -/
abbrev queueDepth : Nat := 16

/-- Pending versions a line holds (R90). -/
abbrev versionsPerLine : Nat := 4

/-- Line versions of an L2 slice on stepping A1 (R415). -/
abbrev versionsPerSlice : Nat := 6144

/-- Reader stamps whose leases a line holds on stepping A1 (R415). -/
abbrev leaseStamps : Nat := 8

/-- Leased lines of an L2 slice on stepping A1 (R415). -/
abbrev leaseLines : Nat := 16384

/-- Entries of a memory-side engine's log on stepping A1 (R415). -/
abbrev msLogEntries : Nat := 65536

/-- Groups in a row after which a context yields beside a ready sibling (R206). -/
abbrev yieldGroups : Nat := 4096

/-- Core cycles a walker waits on migration (R345). -/
abbrev migrationBound : Nat := 2 ^ 24

/-- Pin slots of a device (R360). -/
abbrev pinSlots : Nat := 64

end Config
end Sys2Proof
end

