-- ==== Sys2Proof/Syntax.lean ====
section
/-!
DEFINITION. The instructions of the KX8: one constructor per row of spec/opcode_table.json. A move (03_bundles R56)
holds its source (R70), its destination (R67) and its guard (R57); each trigger move names its operation by its
constructor. The rows from resultLand on are the machine's own steps and the port events
(95_what_each_step_holds); they carry as plain data what the event brings.
-/

namespace Sys2Proof

/-- The guard of a move (R57): always, a clock register `k1`-`k7`, or a stage predicate `p0`-`p3`. -/
inductive Guard where
  | always
  | clk (n : Fin 7)
  | pred (n : Fin 4)
  deriving DecidableEq, Repr

/-- The twelve result ports, in source-address order (R70). -/
inductive Port where
  | x0q | x1q | lsq | brq | ckq | syq | veq | veq2 | mxq | cpq | msq | svq
  deriving DecidableEq, Repr

/-- The eleven units, in block order (R67, R68). -/
inductive Unit11 where
  | x0 | x1 | ls | br | ck | sy | ve | mx | cp | ms | sv
  deriving DecidableEq, Repr

/-- A defined source of a move (R70). -/
inductive Src where
  | g (n : Fin 64)
  | v (n : Fin 32)
  | k (n : Fin 16)
  | imm
  | immZ
  | port (p : Port)
  | short (b : BitVec 8)
  deriving DecidableEq, Repr

/-- A destination of a plain move (R67): a register, a clock register or an operand latch. -/
inductive Dst where
  | g (n : Fin 64)
  | v (n : Fin 32)
  | k (n : Fin 16)
  | o (u : Unit11)
  | p (u : Unit11)
  deriving DecidableEq, Repr

/-- A hardware context: package core number (R8) and context number (R9). -/
structure CtxRef where
  core : Nat
  ctx : Nat
  deriving DecidableEq, Repr

/-- A reaction of a launch, named by its stamp (R38). -/
structure ReactId where
  lid : Nat
  stamp : Nat
  deriving DecidableEq, Repr

/-- A fabric flit (23_system R392). -/
structure Flit where
  fk : BitVec 4
  srcdev : BitVec 6
  dstdev : BitVec 6
  sid : BitVec 16
  seq : BitVec 32
  addr : BitVec 56
  data : List Byte
  mask : BitVec 32
  stamp : BitVec 64
  deriving DecidableEq, Repr

/-- What a clearing message tells (R114; the manual gives no encoding of it): the launch is named by its STATUS
address. -/
inductive ClearMsg where
  | finished (dev status inst : Nat)
  | checked (dev status inst : Nat)
  | cleared (dev status inst : Nat)
  | ended (dev status : Nat) (cause : Byte)
  deriving DecidableEq, Repr

/-- What a lease or version message tells (R114, R323; no encoding is given): a version store of a remote reaction, to a
memory-side page or not, a read lease of one, the discard of a version, or the wound of a reaction by what its lease or set there
met; a touch of an atomic set's lines at their home, the answer that they are held, and that the reaction holds its sets no more,
and whether it has trapped, so that its version is gone. -/
inductive LeaseMsg where
  | store (status stamp addr : Nat) (data : List Byte) (taint ms : Bool)
  | lease (status stamp addr : Nat)
  | discard (status stamp : Nat)
  | wound (status stamp by_ addr kind : Nat)
  | touch (status stamp addr len : Nat)
  | hold (status stamp addr len : Nat)
  | release (status stamp : Nat) (trapped : Bool)
  deriving DecidableEq, Repr

/-- The Redfish resources (R396). -/
inductive RedfishRes where
  | serviceRoot | chassis | thermal | power | systems | updateService | logService
  deriving DecidableEq, Repr

/-- A signed object of the management port (R405): the device it names, its contents and its signature. -/
structure SignedObj where
  names : List Byte
  body : List Byte
  sig : List Byte
  deriving DecidableEq, Repr

/-- A firmware image (R402). -/
structure FwImage where
  version : Nat
  bytes : List Byte
  sig : List Byte
  deriving DecidableEq, Repr

/-- One die's line of the bin record (R387). -/
structure BinDie where
  cores : BitVec 64
  lanes0 : BitVec 8
  lanes1 : BitVec 8
  pch : BitVec 160
  usable : BitVec 64
  deriving DecidableEq, Repr

/-- The bin record (R387). -/
structure BinRecord where
  dies : List BinDie
  keyDigest : List Byte
  sig : List Byte
  deriving DecidableEq, Repr

/-- What UpdateService replaces (R387, R396): a firmware image slot or the bin record. -/
inductive UpdateObj where
  | firmware (slot : Fin 2) (img : FwImage)
  | bin (b : BinRecord)
  deriving DecidableEq, Repr

/-- Where an SRAM error stands (R400): a core, engine or queue; a line of an L2 slice; a slice's own state. -/
inductive SramPlace where
  | core (c : Nat)
  | sliceLine (slice off : Nat)
  | slice (slice : Nat)
  deriving DecidableEq, Repr

/-- The instructions, one constructor per row of spec/opcode_table.json, in the table's order. -/
inductive Instr where
  /-- MOVE (R71). -/
  | move (s : Src) (d : Dst) (g : Guard)
  /-- X0_ADD (R165). -/
  | x0Add (s : Src) (g : Guard)
  /-- X0_SUB (R165). -/
  | x0Sub (s : Src) (g : Guard)
  /-- X0_AND (R165). -/
  | x0And (s : Src) (g : Guard)
  /-- X0_OR (R165). -/
  | x0Or (s : Src) (g : Guard)
  /-- X0_XOR (R165). -/
  | x0Xor (s : Src) (g : Guard)
  /-- X0_SHL (R165). -/
  | x0Shl (s : Src) (g : Guard)
  /-- X0_SHR (R165). -/
  | x0Shr (s : Src) (g : Guard)
  /-- X0_SAR (R165). -/
  | x0Sar (s : Src) (g : Guard)
  /-- X0_ROR (R165). -/
  | x0Ror (s : Src) (g : Guard)
  /-- X0_CEQ (R165). -/
  | x0Ceq (s : Src) (g : Guard)
  /-- X0_CLT_S64 (R165). -/
  | x0CltS64 (s : Src) (g : Guard)
  /-- X0_CLT_N64 (R165). -/
  | x0CltN64 (s : Src) (g : Guard)
  /-- X0_SEL (R165). -/
  | x0Sel (s : Src) (g : Guard)
  /-- X0_MIN_S64 (R165). -/
  | x0MinS64 (s : Src) (g : Guard)
  /-- X0_MAX_S64 (R165). -/
  | x0MaxS64 (s : Src) (g : Guard)
  /-- X0_CLZ (R165). -/
  | x0Clz (s : Src) (g : Guard)
  /-- X0_POPC (R165). -/
  | x0Popc (s : Src) (g : Guard)
  /-- X0_BFX (R165). -/
  | x0Bfx (s : Src) (g : Guard)
  /-- X0_SXT (R165). -/
  | x0Sxt (s : Src) (g : Guard)
  /-- X0_MUL (R166). -/
  | x0Mul (s : Src) (g : Guard)
  /-- X0_MULH_S64 (R166). -/
  | x0MulhS64 (s : Src) (g : Guard)
  /-- X0_MULH_N64 (R166). -/
  | x0MulhN64 (s : Src) (g : Guard)
  /-- X0_DIV_S64 (R166). -/
  | x0DivS64 (s : Src) (g : Guard)
  /-- X0_DIV_N64 (R166). -/
  | x0DivN64 (s : Src) (g : Guard)
  /-- X0_REM_S64 (R166). -/
  | x0RemS64 (s : Src) (g : Guard)
  /-- X0_REM_N64 (R166). -/
  | x0RemN64 (s : Src) (g : Guard)
  /-- X0_ADD_F32 (R167). -/
  | x0AddF32 (s : Src) (g : Guard)
  /-- X0_MUL_F32 (R167). -/
  | x0MulF32 (s : Src) (g : Guard)
  /-- X0_FMA_F32 (R167). -/
  | x0FmaF32 (s : Src) (g : Guard)
  /-- X0_CLT_F32 (R167). -/
  | x0CltF32 (s : Src) (g : Guard)
  /-- X0_ITOF_S64 (R167). -/
  | x0ItofS64 (s : Src) (g : Guard)
  /-- X0_FTOI_S64 (R167). -/
  | x0FtoiS64 (s : Src) (g : Guard)
  /-- X0_CRD (R168). -/
  | x0Crd (s : Src) (g : Guard)
  /-- X0_CWR (R168). -/
  | x0Cwr (s : Src) (g : Guard)
  /-- X1_ADD (R165). -/
  | x1Add (s : Src) (g : Guard)
  /-- X1_SUB (R165). -/
  | x1Sub (s : Src) (g : Guard)
  /-- X1_AND (R165). -/
  | x1And (s : Src) (g : Guard)
  /-- X1_OR (R165). -/
  | x1Or (s : Src) (g : Guard)
  /-- X1_XOR (R165). -/
  | x1Xor (s : Src) (g : Guard)
  /-- X1_SHL (R165). -/
  | x1Shl (s : Src) (g : Guard)
  /-- X1_SHR (R165). -/
  | x1Shr (s : Src) (g : Guard)
  /-- X1_SAR (R165). -/
  | x1Sar (s : Src) (g : Guard)
  /-- X1_ROR (R165). -/
  | x1Ror (s : Src) (g : Guard)
  /-- X1_CEQ (R165). -/
  | x1Ceq (s : Src) (g : Guard)
  /-- X1_CLT_S64 (R165). -/
  | x1CltS64 (s : Src) (g : Guard)
  /-- X1_CLT_N64 (R165). -/
  | x1CltN64 (s : Src) (g : Guard)
  /-- X1_SEL (R165). -/
  | x1Sel (s : Src) (g : Guard)
  /-- X1_MIN_S64 (R165). -/
  | x1MinS64 (s : Src) (g : Guard)
  /-- X1_MAX_S64 (R165). -/
  | x1MaxS64 (s : Src) (g : Guard)
  /-- X1_CLZ (R165). -/
  | x1Clz (s : Src) (g : Guard)
  /-- X1_POPC (R165). -/
  | x1Popc (s : Src) (g : Guard)
  /-- X1_BFX (R165). -/
  | x1Bfx (s : Src) (g : Guard)
  /-- X1_SXT (R165). -/
  | x1Sxt (s : Src) (g : Guard)
  /-- X1_MUL (R166). -/
  | x1Mul (s : Src) (g : Guard)
  /-- X1_MULH_S64 (R166). -/
  | x1MulhS64 (s : Src) (g : Guard)
  /-- X1_MULH_N64 (R166). -/
  | x1MulhN64 (s : Src) (g : Guard)
  /-- X1_DIV_S64 (R166). -/
  | x1DivS64 (s : Src) (g : Guard)
  /-- X1_DIV_N64 (R166). -/
  | x1DivN64 (s : Src) (g : Guard)
  /-- X1_REM_S64 (R166). -/
  | x1RemS64 (s : Src) (g : Guard)
  /-- X1_REM_N64 (R166). -/
  | x1RemN64 (s : Src) (g : Guard)
  /-- X1_ADD_F32 (R167). -/
  | x1AddF32 (s : Src) (g : Guard)
  /-- X1_MUL_F32 (R167). -/
  | x1MulF32 (s : Src) (g : Guard)
  /-- X1_FMA_F32 (R167). -/
  | x1FmaF32 (s : Src) (g : Guard)
  /-- X1_CLT_F32 (R167). -/
  | x1CltF32 (s : Src) (g : Guard)
  /-- X1_ITOF_S64 (R167). -/
  | x1ItofS64 (s : Src) (g : Guard)
  /-- X1_FTOI_S64 (R167). -/
  | x1FtoiS64 (s : Src) (g : Guard)
  /-- X1_CRD (R168). -/
  | x1Crd (s : Src) (g : Guard)
  /-- X1_CWR (R168). -/
  | x1Cwr (s : Src) (g : Guard)
  /-- LS_LD_S8 (R171). -/
  | lsLdS8 (s : Src) (g : Guard)
  /-- LS_LD_N8 (R171). -/
  | lsLdN8 (s : Src) (g : Guard)
  /-- LS_LD_S16 (R171). -/
  | lsLdS16 (s : Src) (g : Guard)
  /-- LS_LD_N16 (R171). -/
  | lsLdN16 (s : Src) (g : Guard)
  /-- LS_LD_S32 (R171). -/
  | lsLdS32 (s : Src) (g : Guard)
  /-- LS_LD_N32 (R171). -/
  | lsLdN32 (s : Src) (g : Guard)
  /-- LS_LD_N64 (R171). -/
  | lsLdN64 (s : Src) (g : Guard)
  /-- LS_ST_N8 (R172). -/
  | lsStN8 (s : Src) (g : Guard)
  /-- LS_ST_N16 (R172). -/
  | lsStN16 (s : Src) (g : Guard)
  /-- LS_ST_N32 (R172). -/
  | lsStN32 (s : Src) (g : Guard)
  /-- LS_ST_N64 (R172). -/
  | lsStN64 (s : Src) (g : Guard)
  /-- LS_ST2_B64 (R172). -/
  | lsSt2B64 (s : Src) (g : Guard)
  /-- LS_LD_FE (R173). -/
  | lsLdFe (s : Src) (g : Guard)
  /-- LS_ST_FE (R173). -/
  | lsStFe (s : Src) (g : Guard)
  /-- LS_BLK (R174). -/
  | lsBlk (s : Src) (g : Guard)
  /-- LS_INV (R174). -/
  | lsInv (s : Src) (g : Guard)
  /-- BR_JMP (R178). -/
  | brJmp (s : Src) (g : Guard)
  /-- BR_JZ (R178). -/
  | brJz (s : Src) (g : Guard)
  /-- BR_JNZ (R178). -/
  | brJnz (s : Src) (g : Guard)
  /-- BR_JR (R178). -/
  | brJr (s : Src) (g : Guard)
  /-- BR_CALL (R178). -/
  | brCall (s : Src) (g : Guard)
  /-- BR_LP0 (R181). -/
  | brLp0 (s : Src) (g : Guard)
  /-- BR_LP1 (R181). -/
  | brLp1 (s : Src) (g : Guard)
  /-- BR_LPEND (R181). -/
  | brLpend (s : Src) (g : Guard)
  /-- BR_LCRD (R181). -/
  | brLcrd (s : Src) (g : Guard)
  /-- BR_MARK (R182). -/
  | brMark (s : Src) (g : Guard)
  /-- CK_DEF (R186). -/
  | ckDef (s : Src) (g : Guard)
  /-- CK_SUB (R186). -/
  | ckSub (s : Src) (g : Guard)
  /-- CK_WHEN (R187). -/
  | ckWhen (s : Src) (g : Guard)
  /-- CK_MERGE (R188). -/
  | ckMerge (s : Src) (g : Guard)
  /-- CK_MERGEP (R188). -/
  | ckMergep (s : Src) (g : Guard)
  /-- CK_UNION (R186). -/
  | ckUnion (s : Src) (g : Guard)
  /-- CK_FBY (R189). -/
  | ckFby (s : Src) (g : Guard)
  /-- CK_HOLD (R189). -/
  | ckHold (s : Src) (g : Guard)
  /-- CK_ISP (R187). -/
  | ckIsp (s : Src) (g : Guard)
  /-- CK_NOT (R186). -/
  | ckNot (s : Src) (g : Guard)
  /-- CK_PRE (R189). -/
  | ckPre (s : Src) (g : Guard)
  /-- SY_ADD (R195). -/
  | syAdd (s : Src) (g : Guard)
  /-- SY_WAIT (R195). -/
  | syWait (s : Src) (g : Guard)
  /-- SY_PEEK (R195). -/
  | syPeek (s : Src) (g : Guard)
  /-- SY_FENCE (R119). -/
  | syFence (s : Src) (g : Guard)
  /-- SY_ASDECL (R197). -/
  | syAsdecl (s : Src) (g : Guard)
  /-- SY_TEND (R198). -/
  | syTend (s : Src) (g : Guard)
  /-- SY_YIELD (R199). -/
  | syYield (s : Src) (g : Guard)
  /-- SY_STAMP (R200). -/
  | syStamp (s : Src) (g : Guard)
  /-- SY_TAINT (R200). -/
  | syTaint (s : Src) (g : Guard)
  /-- VE_ADD_F32 (R250). -/
  | veAddF32 (s : Src) (g : Guard)
  /-- VE_SUB_F32 (R250). -/
  | veSubF32 (s : Src) (g : Guard)
  /-- VE_MUL_F32 (R250). -/
  | veMulF32 (s : Src) (g : Guard)
  /-- VE_FMA_F32 (R250). -/
  | veFmaF32 (s : Src) (g : Guard)
  /-- VE_MIN_F32 (R250). -/
  | veMinF32 (s : Src) (g : Guard)
  /-- VE_MAX_F32 (R250). -/
  | veMaxF32 (s : Src) (g : Guard)
  /-- VE_CEQ_F32 (R251). -/
  | veCeqF32 (s : Src) (g : Guard)
  /-- VE_CLT_F32 (R251). -/
  | veCltF32 (s : Src) (g : Guard)
  /-- VE_DIV_F32 (R252). -/
  | veDivF32 (s : Src) (g : Guard)
  /-- VE_SQRT_F32 (R252). -/
  | veSqrtF32 (s : Src) (g : Guard)
  /-- VE_RSQRT_F32 (R252). -/
  | veRsqrtF32 (s : Src) (g : Guard)
  /-- VE_EXP2_F32 (R252). -/
  | veExp2F32 (s : Src) (g : Guard)
  /-- VE_LOG2_F32 (R252). -/
  | veLog2F32 (s : Src) (g : Guard)
  /-- VE_FTOI_S32 (R253). -/
  | veFtoiS32 (s : Src) (g : Guard)
  /-- VE_ITOF_S32 (R253). -/
  | veItofS32 (s : Src) (g : Guard)
  /-- VE_CVT_BF16 (R253). -/
  | veCvtBf16 (s : Src) (g : Guard)
  /-- VE_CVT_F16 (R253). -/
  | veCvtF16 (s : Src) (g : Guard)
  /-- VE_WID_BF16 (R253). -/
  | veWidBf16 (s : Src) (g : Guard)
  /-- VE_WID_F16 (R253). -/
  | veWidF16 (s : Src) (g : Guard)
  /-- VE_BXENC (R254). -/
  | veBxenc (s : Src) (g : Guard)
  /-- VE_BXDEC (R255). -/
  | veBxdec (s : Src) (g : Guard)
  /-- VE_ADD_S32 (R256). -/
  | veAddS32 (s : Src) (g : Guard)
  /-- VE_SUB_S32 (R256). -/
  | veSubS32 (s : Src) (g : Guard)
  /-- VE_MUL_S32 (R256). -/
  | veMulS32 (s : Src) (g : Guard)
  /-- VE_AND_B32 (R256). -/
  | veAndB32 (s : Src) (g : Guard)
  /-- VE_OR_B32 (R256). -/
  | veOrB32 (s : Src) (g : Guard)
  /-- VE_XOR_B32 (R256). -/
  | veXorB32 (s : Src) (g : Guard)
  /-- VE_SHL_B32 (R256). -/
  | veShlB32 (s : Src) (g : Guard)
  /-- VE_SHR_B32 (R256). -/
  | veShrB32 (s : Src) (g : Guard)
  /-- VE_SAR_B32 (R256). -/
  | veSarB32 (s : Src) (g : Guard)
  /-- VE_MIN_S32 (R256). -/
  | veMinS32 (s : Src) (g : Guard)
  /-- VE_MAX_S32 (R256). -/
  | veMaxS32 (s : Src) (g : Guard)
  /-- VE_CEQ_B32 (R256). -/
  | veCeqB32 (s : Src) (g : Guard)
  /-- VE_CLT_S32 (R256). -/
  | veCltS32 (s : Src) (g : Guard)
  /-- VE_SEL_B32 (R257). -/
  | veSelB32 (s : Src) (g : Guard)
  /-- VE_LID (R257). -/
  | veLid (s : Src) (g : Guard)
  /-- VE_BEQ_N8 (R258). -/
  | veBeqN8 (s : Src) (g : Guard)
  /-- VE_BFIND_N8 (R258). -/
  | veBfindN8 (s : Src) (g : Guard)
  /-- VE_BCMP_N8 (R258). -/
  | veBcmpN8 (s : Src) (g : Guard)
  /-- VE_CRC32C_N8 (R259). -/
  | veCrc32cN8 (s : Src) (g : Guard)
  /-- VE_CRC32C_B32 (R259). -/
  | veCrc32cB32 (s : Src) (g : Guard)
  /-- VE_BURL (R260). -/
  | veBurl (s : Src) (g : Guard)
  /-- VE_BURLF (R260). -/
  | veBurlf (s : Src) (g : Guard)
  /-- VE_RSUM_F32 (R261). -/
  | veRsumF32 (s : Src) (g : Guard)
  /-- VE_RMAX_F32 (R261). -/
  | veRmaxF32 (s : Src) (g : Guard)
  /-- VE_RMIN_F32 (R261). -/
  | veRminF32 (s : Src) (g : Guard)
  /-- VE_PERM (R262). -/
  | vePerm (s : Src) (g : Guard)
  /-- VE_LROT (R262). -/
  | veLrot (s : Src) (g : Guard)
  /-- VE_LEXT (R262). -/
  | veLext (s : Src) (g : Guard)
  /-- VE_LINS (R262). -/
  | veLins (s : Src) (g : Guard)
  /-- VE_FFS (R262). -/
  | veFfs (s : Src) (g : Guard)
  /-- VE_LD_B32 (R264). -/
  | veLdB32 (s : Src) (g : Guard)
  /-- VE_ST_B32 (R264). -/
  | veStB32 (s : Src) (g : Guard)
  /-- VE_LDL_B32 (R265). -/
  | veLdlB32 (s : Src) (g : Guard)
  /-- VE_STL_B32 (R265). -/
  | veStlB32 (s : Src) (g : Guard)
  /-- VE_GATH_B32 (R266). -/
  | veGathB32 (s : Src) (g : Guard)
  /-- VE_SCAT_B32 (R266). -/
  | veScatB32 (s : Src) (g : Guard)
  /-- VE_LD16_B64 (R264). -/
  | veLd16B64 (s : Src) (g : Guard)
  /-- MX_TLD (R283). -/
  | mxTld (s : Src) (g : Guard)
  /-- MX_CLD (R284). -/
  | mxCld (s : Src) (g : Guard)
  /-- MX_CST (R285). -/
  | mxCst (s : Src) (g : Guard)
  /-- MX_ZERO (R284). -/
  | mxZero (s : Src) (g : Guard)
  /-- MX_STEP (R287). -/
  | mxStep (s : Src) (g : Guard)
  /-- MX_LOOP (R288). -/
  | mxLoop (s : Src) (g : Guard)
  /-- MX_OFF (R288). -/
  | mxOff (s : Src) (g : Guard)
  /-- MX_BUSY (R289). -/
  | mxBusy (s : Src) (g : Guard)
  /-- MX_XA (R283). -/
  | mxXa (s : Src) (g : Guard)
  /-- MX_SCL (R286). -/
  | mxScl (s : Src) (g : Guard)
  /-- MX_DRAIN (R290). -/
  | mxDrain (s : Src) (g : Guard)
  /-- CP_LIN (R302). -/
  | cpLin (s : Src) (g : Guard)
  /-- CP_STR2 (R303). -/
  | cpStr2 (s : Src) (g : Guard)
  /-- CP_STR3 (R303). -/
  | cpStr3 (s : Src) (g : Guard)
  /-- CP_GATH (R303). -/
  | cpGath (s : Src) (g : Guard)
  /-- CP_FILL (R302). -/
  | cpFill (s : Src) (g : Guard)
  /-- CP_CVT (R306). -/
  | cpCvt (s : Src) (g : Guard)
  /-- CP_CANOPY (R304). -/
  | cpCanopy (s : Src) (g : Guard)
  /-- CP_STBL (R308). -/
  | cpStbl (s : Src) (g : Guard)
  /-- CP_RESTRICT (R310). -/
  | cpRestrict (s : Src) (g : Guard)
  /-- CP_PROLONG (R310). -/
  | cpProlong (s : Src) (g : Guard)
  /-- CP_CLOSE (R299). -/
  | cpClose (s : Src) (g : Guard)
  /-- CP_WAITB (R300). -/
  | cpWaitb (s : Src) (g : Guard)
  /-- CP_CNT (R301). -/
  | cpCnt (s : Src) (g : Guard)
  /-- MS_ADD_F32 (R331). -/
  | msAddF32 (s : Src) (g : Guard)
  /-- MS_ADD_S64 (R331). -/
  | msAddS64 (s : Src) (g : Guard)
  /-- MS_MAX_S64 (R331). -/
  | msMaxS64 (s : Src) (g : Guard)
  /-- MS_MIN_S64 (R331). -/
  | msMinS64 (s : Src) (g : Guard)
  /-- MS_OR_B64 (R331). -/
  | msOrB64 (s : Src) (g : Guard)
  /-- MS_SWAP_B64 (R331). -/
  | msSwapB64 (s : Src) (g : Guard)
  /-- MS_CAS_B64 (R331). -/
  | msCasB64 (s : Src) (g : Guard)
  /-- MS_RED (R332). -/
  | msRed (s : Src) (g : Guard)
  /-- MS_FENCE (R333). -/
  | msFence (s : Src) (g : Guard)
  /-- MS_MARK (R333). -/
  | msMark (s : Src) (g : Guard)
  /-- SV_LAUNCH (R358). -/
  | svLaunch (s : Src) (g : Guard)
  /-- SV_ABORT (R358). -/
  | svAbort (s : Src) (g : Guard)
  /-- SV_SRD (R359). -/
  | svSrd (s : Src) (g : Guard)
  /-- SV_SWR (R359). -/
  | svSwr (s : Src) (g : Guard)
  /-- SV_SPACE (R359). -/
  | svSpace (s : Src) (g : Guard)
  /-- SV_WALK (R359). -/
  | svWalk (s : Src) (g : Guard)
  /-- SV_PTMC (R360). -/
  | svPtmc (s : Src) (g : Guard)
  /-- SV_TINV (R359). -/
  | svTinv (s : Src) (g : Guard)
  /-- SV_PIN (R360). -/
  | svPin (s : Src) (g : Guard)
  /-- SV_UNPIN (R360). -/
  | svUnpin (s : Src) (g : Guard)
  /-- SV_TFQ (R361). -/
  | svTfq (s : Src) (g : Guard)
  /-- SV_TRES (R361). -/
  | svTres (s : Src) (g : Guard)
  /-- SV_TENT (R362). -/
  | svTent (s : Src) (g : Guard)
  /-- SV_ERET (R362). -/
  | svEret (s : Src) (g : Guard)
  /-- SV_HIRQ (R362). -/
  | svHirq (s : Src) (g : Guard)
  /-- SV_IDLE (R362). -/
  | svIdle (s : Src) (g : Guard)
  /-- RESULT_LAND (R74). -/
  | resultLand (x : CtxRef)
  /-- LATE_RESULT_ARRIVE (R203). -/
  | lateResultArrive (core : Nat)
  /-- IMPLICIT_YIELD (R206). -/
  | implicitYield (x : CtxRef)
  /-- ENGINE_QUEUE_SPACE (R78). -/
  | engineQueueSpace (x : CtxRef)
  /-- RANGE_HOLD_RELEASE (R98). -/
  | rangeHoldRelease (x : CtxRef)
  /-- WAIT_SATISFIED (R195). -/
  | waitSatisfied (x : CtxRef)
  /-- FENCE_COMPLETE (R119). -/
  | fenceComplete (x : CtxRef)
  /-- YIELD_RELEASE (R199). -/
  | yieldRelease (x : CtxRef)
  /-- FE_WAIT_SERVED (R99). -/
  | feWaitServed (x : CtxRef)
  /-- VERSION_SLOT_FREE (R90). -/
  | versionSlotFree (x : CtxRef)
  /-- CP_WAITB_SATISFIED (R300). -/
  | cpWaitbSatisfied (x : CtxRef)
  /-- MX_DRAIN_COMPLETE (R290). -/
  | mxDrainComplete (x : CtxRef)
  /-- MS_FENCE_COMPLETE (R333). -/
  | msFenceComplete (x : CtxRef)
  /-- COUNTER_ADD_APPLY (R116). -/
  | counterAddApply (x : CtxRef)
  /-- TEND_RETIRE (R198). -/
  | tendRetire (x : CtxRef)
  /-- LOAD_BLOCK_FILLED (R174). -/
  | loadBlockFilled (x : CtxRef) (base : Nat)
  /-- MX_COMMAND_START (R278). -/
  | mxCommandStart (core : Nat)
  /-- MX_COMMAND_COMPLETE (R279). -/
  | mxCommandComplete (core : Nat) (array : Bool)
  /-- CP_COMMAND_START (R296). -/
  | cpCommandStart (core : Nat)
  /-- CP_COMMAND_COMPLETE (R298). -/
  | cpCommandComplete (core k : Nat)
  /-- CLOSE_MARKER_RETIRE (R299). -/
  | closeMarkerRetire (core k : Nat)
  /-- MS_OP_ARRIVE (R329). -/
  | msOpArrive (core k : Nat)
  /-- MS_RED_COMPLETE (R332). -/
  | msRedComplete (core k : Nat)
  /-- MS_MARK_FIRE (R333). -/
  | msMarkFire (core k : Nat)
  /-- LAUNCH_CHECK (R230). -/
  | launchCheck (lid : Nat)
  /-- INSTANT_ENQUEUE (R233). -/
  | instantEnqueue (lid : Nat)
  /-- TICKET_TAKE (R235). -/
  | ticketTake (core : Nat)
  /-- TOKEN_GAIN (R234). -/
  | tokenGain (r : ReactId)
  /-- PREEMPT_CHOICE (R238). -/
  | preemptChoice (die : Nat)
  /-- KILL (R240). -/
  | kill (r : ReactId)
  /-- CHECKPOINT (R240). -/
  | checkpoint (r : ReactId)
  /-- CLEAR_INSTANT (R319). -/
  | clearInstant (lid : Nat)
  /-- VERSION_MERGE (R315). -/
  | versionMerge (line lid inst : Nat)
  /-- SET_ACQUIRE (R323). -/
  | setAcquire (x : CtxRef)
  /-- WALK_RESTART (R345). -/
  | walkRestart (w : Nat)
  /-- WALK_MIGRATION_TIMEOUT (R345). -/
  | walkMigrationTimeout (w : Nat)
  /-- PTMC_ORDERED (R353). -/
  | ptmcOrdered (id : Nat)
  /-- PTMC_COMPLETE (R353). -/
  | ptmcComplete (id : Nat)
  /-- TINV_COMPLETE (R359). -/
  | tinvComplete (x : CtxRef)
  /-- IDLE_WAKE (R362). -/
  | idleWake (x : CtxRef)
  /-- FLUSH (R379). -/
  | flush (x : CtxRef)
  /-- HALTREQ (R376). -/
  | haltreq (x : CtxRef)
  /-- RESUME (R376). -/
  | resume (x : CtxRef)
  /-- STEP (R376). -/
  | step (x y : CtxRef)
  /-- SEGMENT_SEAL_TIMER (R379). -/
  | segmentSealTimer
  /-- SEGMENT_WRITE (R380). -/
  | segmentWrite
  /-- PERF_COUNTER_WRITE (R383). -/
  | perfCounterWrite (x : CtxRef) (die off : Nat) (v : Word)
  /-- PERF_CONFIG_WRITE (R383). -/
  | perfConfigWrite (x : CtxRef) (die off : Nat) (v : Word)
  /-- REGISTER_WRITE (R355). -/
  | registerWrite (x : CtxRef) (addr v : Word)
  /-- HOST_RING_WRITE (R389). -/
  | hostRingWrite (off : Nat) (data : List Byte)
  /-- HOST_DOORBELL (R391). -/
  | hostDoorbell (v : Word)
  /-- D2HHEAD_WRITE (R390). -/
  | d2hheadWrite (v : Word)
  /-- D2HTAIL_WRITE (R391). -/
  | d2htailWrite (x : CtxRef) (v : Word)
  /-- H2DHEAD_WRITE (R390). -/
  | h2dheadWrite (x : CtxRef) (v : Word)
  /-- ROUTE_WRITE (R393). -/
  | routeWrite (x : CtxRef) (die off : Nat) (v : Word)
  /-- FLIT_STORE (R110). -/
  | flitStore (link : Nat) (f : Flit)
  /-- FLIT_LOAD_REQUEST (R111). -/
  | flitLoadRequest (link : Nat) (f : Flit)
  /-- FLIT_LOAD_RESPONSE (R111). -/
  | flitLoadResponse (link : Nat) (f : Flit)
  /-- FLIT_COUNTER_ADD (R112). -/
  | flitCounterAdd (link : Nat) (f : Flit)
  /-- FLIT_TABLE_MULTICAST (R353). -/
  | flitTableMulticast (link : Nat) (f : Flit)
  /-- FLIT_CLEARING_MESSAGE (R114). -/
  | flitClearingMessage (link : Nat) (f : Flit) (m : ClearMsg)
  /-- FLIT_LEASE_VERSION_MESSAGE (R114). -/
  | flitLeaseVersionMessage (link : Nat) (f : Flit) (m : LeaseMsg)
  /-- FLIT_CREDIT (R392). -/
  | flitCredit (link : Nat) (f : Flit)
  /-- FLIT_WALK_CONTINUATION (R347). -/
  | flitWalkContinuation (link : Nat) (f : Flit)
  /-- FLIT_UNKNOWN (R392). -/
  | flitUnknown (link : Nat) (f : Flit)
  /-- FLIT_CRC_FAIL (R392). -/
  | flitCrcFail (link : Nat)
  /-- STORAGE_SQ_DOORBELL (R395). -/
  | storageSqDoorbell (x : CtxRef) (q : Nat) (tail : Word)
  /-- FABRICS_CONNECT (R395). -/
  | fabricsConnect (q : Nat)
  /-- PROPERTY_GET (R395). -/
  | propertyGet (q : Nat)
  /-- PROPERTY_SET (R395). -/
  | propertySet (q : Nat)
  /-- IDENTIFY (R395). -/
  | identify (q : Nat)
  /-- GET_LOG_PAGE (R395). -/
  | getLogPage (q : Nat)
  /-- KEEP_ALIVE (R395). -/
  | keepAlive (q : Nat)
  /-- NVME_READ (R395). -/
  | nvmeRead (q : Nat) (data : List Byte)
  /-- NVME_WRITE (R395). -/
  | nvmeWrite (q : Nat)
  /-- NVME_FLUSH (R395). -/
  | nvmeFlush (q : Nat)
  /-- INVALID_COMMAND_OPCODE (R395). -/
  | invalidCommandOpcode (q : Nat)
  /-- NVME_COMPLETION (R395). -/
  | nvmeCompletion (q : Nat) (entry : List Byte)
  /-- KEEP_ALIVE_TIMER (R377). -/
  | keepAliveTimer (conn : Nat)
  /-- ROCE_PACKET (R377), of a queue pair: one of the 520, or the trace queue's, 520. -/
  | rocePacket (q : Nat) (psn : BitVec 24) (good : Bool)
  /-- PFC_PAUSE (R377). -/
  | pfcPause (conn : Nat) (pause : Bool)
  /-- REDFISH_GET (R396). -/
  | redfishGet (res : RedfishRes)
  /-- UPDATE_SERVICE (R387). -/
  | updateService (img : UpdateObj)
  /-- DEVICE_ID_SETTING (R388). -/
  | deviceIdSetting (v : Nat)
  /-- PROVISION (R405). -/
  | provision (o : SignedObj)
  /-- REVOKE (R405). -/
  | revoke (o : SignedObj)
  /-- DEBUG_UNLOCK (R405). -/
  | debugUnlock (o : SignedObj)
  /-- GET_VERSION (R396). -/
  | getVersion
  /-- GET_CAPABILITIES (R396). -/
  | getCapabilities
  /-- NEGOTIATE_ALGORITHMS (R396). -/
  | negotiateAlgorithms
  /-- GET_DIGESTS (R396). -/
  | getDigests
  /-- GET_CERTIFICATE (R396). -/
  | getCertificate
  /-- CHALLENGE (R406). -/
  | challenge (nonce : List Byte)
  /-- GET_MEASUREMENTS (R406). -/
  | getMeasurements (idx : Nat) (nonce : List Byte)
  /-- UNSUPPORTED_REQUEST (R396). -/
  | unsupportedRequest (code : Byte)
  /-- PACKAGE_RESET (R402). -/
  | packageReset
  /-- SRAM_SINGLE_BIT_ERROR (R401). -/
  | sramSingleBitError (die : Nat)
  /-- SRAM_DOUBLE_BIT_ERROR (R401). -/
  | sramDoubleBitError (die : Nat) (p : SramPlace)
  /-- HBM_UNCORRECTABLE_ERROR (R400). -/
  | hbmUncorrectableError (stack off : Nat)
  /-- SCRUB_READ (R401). -/
  | scrubRead
  /-- THROTTLE_STEP_UPDATE (R407). -/
  | throttleStepUpdate (die : Nat) (temp : Byte) (power : Nat)
  /-- THERMAL_CRITICAL (R407). -/
  | thermalCritical (die : Nat) (temp : Byte)
  /-- DBG_WRITE (R404). -/
  | dbgWrite (x : CtxRef) (die : Nat) (v : Word)
  /-- PARTITION_ASSIGN_WRITE (R399). -/
  | partitionAssignWrite (x : CtxRef) (die off : Nat) (v : Word)
  /-- ACCESS_TABLE_WRITE (R397). -/
  | accessTableWrite (x : CtxRef) (die off : Nat) (v : Word)
  /-- PARTITION_PARK (R409). -/
  | partitionPark (x : CtxRef) (p : Nat)
  /-- PARTITION_UNPARK (R409). -/
  | partitionUnpark (x : CtxRef) (p : Nat)
  /-- STANDBY_ENTER (R409). -/
  | standbyEnter (x : CtxRef)
  /-- STANDBY_EXIT (R409). -/
  | standbyExit (x : CtxRef)
  /-- PARK_GATE (R409). -/
  | parkGate (core : Nat)
  /-- RETURN_TO_ACTIVE (R409). -/
  | returnToActive
  /-- CORE_CYCLE (R384). -/
  | coreCycle
  /-- MANAGEMENT_REQUEST_WAKE (R409). -/
  | managementRequestWake (p : Nat)
  /-- PARTITION_RESET_COMPLETE (R400). -/
  | partitionResetComplete (p : Nat)
  deriving DecidableEq, Repr

end Sys2Proof
end

