-- ==== Sys2Proof/WellFormed.lean ====
section
/-!
DEFINITION. Well-formed instructions: the bounds the spec gives what a row carries (core numbers 01_talxia R8,
contexts R9, dies R6, links R11, flits 23_system R392, queue pairs R395, controllers R395). A move is well formed by
its types. Each check has a refused witness in Sys2Proof/Tests/Slice0.lean.
-/

namespace Sys2Proof

/-- Package core numbers are 0 to 528 (R8) and contexts 0 to 3 (R9). -/
def CtxRef.wf (x : CtxRef) : Bool := decide (x.core < 529) && decide (x.ctx < 4)

/-- A flit of kind `k` with its 32 data bytes, on one of the 16 links (R392). -/
def Flit.wf (link : Nat) (f : Flit) (k : BitVec 4 → Bool) : Bool :=
  decide (link < 16) && k f.fk && decide (f.data.length = 32)

/-- The stamp of a reaction is 64 bits (R38). -/
def ReactId.wf (r : ReactId) : Bool := decide (r.stamp < 2 ^ 64)

/-- The parts of the device that an SRAM error can stand in (R6, R8, R90). -/
def SramPlace.wf : SramPlace → Bool
  | .core c => decide (c < 529)
  | .sliceLine n _ => decide (n < 32)
  | .slice n => decide (n < 32)

/-- An instruction's operands lie in their bounds. -/
def Instr.wf : Instr → Bool
  | .move _ _ _ => true
  | .x0Add _ _ | .x0Sub _ _ | .x0And _ _ | .x0Or _ _ | .x0Xor _ _ | .x0Shl _ _ | .x0Shr _ _ | .x0Sar _ _
  | .x0Ror _ _ | .x0Ceq _ _ | .x0CltS64 _ _ | .x0CltN64 _ _ | .x0Sel _ _ | .x0MinS64 _ _ | .x0MaxS64 _ _
  | .x0Clz _ _ | .x0Popc _ _ | .x0Bfx _ _ | .x0Sxt _ _ | .x0Mul _ _ | .x0MulhS64 _ _ | .x0MulhN64 _ _
  | .x0DivS64 _ _ | .x0DivN64 _ _ | .x0RemS64 _ _ | .x0RemN64 _ _ | .x0AddF32 _ _ | .x0MulF32 _ _
  | .x0FmaF32 _ _ | .x0CltF32 _ _ | .x0ItofS64 _ _ | .x0FtoiS64 _ _ | .x0Crd _ _ | .x0Cwr _ _ => true
  | .x1Add _ _ | .x1Sub _ _ | .x1And _ _ | .x1Or _ _ | .x1Xor _ _ | .x1Shl _ _ | .x1Shr _ _ | .x1Sar _ _
  | .x1Ror _ _ | .x1Ceq _ _ | .x1CltS64 _ _ | .x1CltN64 _ _ | .x1Sel _ _ | .x1MinS64 _ _ | .x1MaxS64 _ _
  | .x1Clz _ _ | .x1Popc _ _ | .x1Bfx _ _ | .x1Sxt _ _ | .x1Mul _ _ | .x1MulhS64 _ _ | .x1MulhN64 _ _
  | .x1DivS64 _ _ | .x1DivN64 _ _ | .x1RemS64 _ _ | .x1RemN64 _ _ | .x1AddF32 _ _ | .x1MulF32 _ _
  | .x1FmaF32 _ _ | .x1CltF32 _ _ | .x1ItofS64 _ _ | .x1FtoiS64 _ _ | .x1Crd _ _ | .x1Cwr _ _ => true
  | .lsLdS8 _ _ | .lsLdN8 _ _ | .lsLdS16 _ _ | .lsLdN16 _ _ | .lsLdS32 _ _ | .lsLdN32 _ _ | .lsLdN64 _ _
  | .lsStN8 _ _ | .lsStN16 _ _ | .lsStN32 _ _ | .lsStN64 _ _ | .lsSt2B64 _ _ | .lsLdFe _ _ | .lsStFe _ _
  | .lsBlk _ _ | .lsInv _ _ => true
  | .brJmp _ _ | .brJz _ _ | .brJnz _ _ | .brJr _ _ | .brCall _ _ | .brLp0 _ _ | .brLp1 _ _ | .brLpend _ _
  | .brLcrd _ _ | .brMark _ _ => true
  | .ckDef _ _ | .ckSub _ _ | .ckWhen _ _ | .ckMerge _ _ | .ckMergep _ _ | .ckUnion _ _ | .ckFby _ _
  | .ckHold _ _ | .ckIsp _ _ | .ckNot _ _ | .ckPre _ _ => true
  | .syAdd _ _ | .syWait _ _ | .syPeek _ _ | .syFence _ _ | .syAsdecl _ _ | .syTend _ _ | .syYield _ _
  | .syStamp _ _ | .syTaint _ _ => true
  | .veAddF32 _ _ | .veSubF32 _ _ | .veMulF32 _ _ | .veFmaF32 _ _ | .veMinF32 _ _ | .veMaxF32 _ _
  | .veCeqF32 _ _ | .veCltF32 _ _ | .veDivF32 _ _ | .veSqrtF32 _ _ | .veRsqrtF32 _ _ | .veExp2F32 _ _
  | .veLog2F32 _ _ | .veFtoiS32 _ _ | .veItofS32 _ _ | .veCvtBf16 _ _ | .veCvtF16 _ _ | .veWidBf16 _ _
  | .veWidF16 _ _ | .veBxenc _ _ | .veBxdec _ _ | .veAddS32 _ _ | .veSubS32 _ _ | .veMulS32 _ _ | .veAndB32 _ _
  | .veOrB32 _ _ | .veXorB32 _ _ | .veShlB32 _ _ | .veShrB32 _ _ | .veSarB32 _ _ | .veMinS32 _ _
  | .veMaxS32 _ _ | .veCeqB32 _ _ | .veCltS32 _ _ | .veSelB32 _ _ | .veLid _ _ | .veBeqN8 _ _ | .veBfindN8 _ _
  | .veBcmpN8 _ _ | .veCrc32cN8 _ _ | .veCrc32cB32 _ _ | .veBurl _ _ | .veBurlf _ _ | .veRsumF32 _ _
  | .veRmaxF32 _ _ | .veRminF32 _ _ | .vePerm _ _ | .veLrot _ _ | .veLext _ _ | .veLins _ _ | .veFfs _ _
  | .veLdB32 _ _ | .veStB32 _ _ | .veLdlB32 _ _ | .veStlB32 _ _ | .veGathB32 _ _ | .veScatB32 _ _
  | .veLd16B64 _ _ => true
  | .mxTld _ _ | .mxCld _ _ | .mxCst _ _ | .mxZero _ _ | .mxStep _ _ | .mxLoop _ _ | .mxOff _ _ | .mxBusy _ _
  | .mxXa _ _ | .mxScl _ _ | .mxDrain _ _ => true
  | .cpLin _ _ | .cpStr2 _ _ | .cpStr3 _ _ | .cpGath _ _ | .cpFill _ _ | .cpCvt _ _ | .cpCanopy _ _
  | .cpStbl _ _ | .cpRestrict _ _ | .cpProlong _ _ | .cpClose _ _ | .cpWaitb _ _ | .cpCnt _ _ => true
  | .msAddF32 _ _ | .msAddS64 _ _ | .msMaxS64 _ _ | .msMinS64 _ _ | .msOrB64 _ _ | .msSwapB64 _ _
  | .msCasB64 _ _ | .msRed _ _ | .msFence _ _ | .msMark _ _ => true
  | .svLaunch _ _ | .svAbort _ _ | .svSrd _ _ | .svSwr _ _ | .svSpace _ _ | .svWalk _ _ | .svPtmc _ _
  | .svTinv _ _ | .svPin _ _ | .svUnpin _ _ | .svTfq _ _ | .svTres _ _ | .svTent _ _ | .svEret _ _
  | .svHirq _ _ | .svIdle _ _ => true
  | .resultLand x => x.wf
  | .lateResultArrive core => decide (core < 529)
  | .implicitYield x => x.wf
  | .engineQueueSpace x => x.wf
  | .rangeHoldRelease x => x.wf
  | .waitSatisfied x => x.wf
  | .fenceComplete x => x.wf
  | .yieldRelease x => x.wf
  | .feWaitServed x => x.wf
  | .versionSlotFree x => x.wf
  | .cpWaitbSatisfied x => x.wf
  | .mxDrainComplete x => x.wf
  | .msFenceComplete x => x.wf
  | .counterAddApply x => x.wf
  | .tendRetire x => x.wf
  | .loadBlockFilled x _ => x.wf
  | .mxCommandStart core => decide (core < 529)
  | .mxCommandComplete core _ => decide (core < 529)
  | .cpCommandStart core => decide (core < 529)
  | .cpCommandComplete core _ => decide (core < 529)
  | .closeMarkerRetire core _ => decide (core < 529)
  | .msOpArrive core _ => decide (core < 529)
  | .msRedComplete core _ => decide (core < 529)
  | .msMarkFire core _ => decide (core < 529)
  | .launchCheck _ => true
  | .instantEnqueue _ => true
  | .ticketTake core => decide (core < 529)
  | .tokenGain r => r.wf
  | .preemptChoice die => decide (die < 8)
  | .kill r => r.wf
  | .checkpoint r => r.wf
  | .clearInstant _ => true
  | .versionMerge _ _ _ => true
  | .setAcquire x => x.wf
  | .walkRestart _ => true
  | .walkMigrationTimeout _ => true
  | .ptmcOrdered _ => true
  | .ptmcComplete _ => true
  | .tinvComplete x => x.wf
  | .idleWake x => x.wf
  | .flush x => x.wf
  | .haltreq x => x.wf
  | .resume x => x.wf
  | .step x y => x.wf && y.wf
  | .segmentSealTimer => true
  | .segmentWrite => true
  | .perfCounterWrite x die _ _ => x.wf && decide (die < 8)
  | .perfConfigWrite x die _ _ => x.wf && decide (die < 8)
  | .registerWrite x _ _ => x.wf
  | .hostRingWrite off data => decide (off + data.length ≤ 0x100000)
  | .hostDoorbell _ => true
  | .d2hheadWrite _ => true
  | .d2htailWrite x _ => x.wf
  | .h2dheadWrite x _ => x.wf
  | .routeWrite x die _ _ => x.wf && decide (die < 8)
  | .flitStore link f => f.wf link (fun k => k == 0x1#4)
  | .flitLoadRequest link f => f.wf link (fun k => k == 0x2#4)
  | .flitLoadResponse link f => f.wf link (fun k => k == 0x3#4)
  | .flitCounterAdd link f => f.wf link (fun k => k == 0x4#4)
  | .flitTableMulticast link f => f.wf link (fun k => k == 0x5#4)
  | .flitClearingMessage link f _ => f.wf link (fun k => k == 0x6#4)
  | .flitLeaseVersionMessage link f _ => f.wf link (fun k => k == 0x7#4)
  | .flitCredit link f => f.wf link (fun k => k == 0x8#4)
  | .flitWalkContinuation link f => f.wf link (fun k => k == 0x9#4)
  | .flitUnknown link f => f.wf link (fun k => k == 0#4 || decide (9 < k.toNat))
  | .flitCrcFail link => decide (link < 16)
  | .storageSqDoorbell x q _ => x.wf && decide (q < 520)
  | .fabricsConnect q => decide (q < 520)
  | .propertyGet q => decide (q < 520)
  | .propertySet q => decide (q < 520)
  | .identify q => decide (q < 520)
  | .getLogPage q => decide (q < 520)
  | .keepAlive q => decide (q < 520)
  | .nvmeRead q _ => decide (q < 520)
  | .nvmeWrite q => decide (q < 520)
  | .nvmeFlush q => decide (q < 520)
  | .invalidCommandOpcode q => decide (q < 520)
  | .nvmeCompletion q entry => decide (q < 520) && decide (entry.length = 16)
  | .keepAliveTimer conn => decide (conn < 8)
  | .rocePacket q _ _ => decide (q < 521)
  | .pfcPause conn _ => decide (conn < 8)
  | .redfishGet _ => true
  | .updateService _ => true
  | .deviceIdSetting v => decide (v < 64)
  | .provision _ => true
  | .revoke _ => true
  | .debugUnlock _ => true
  | .getVersion => true
  | .getCapabilities => true
  | .negotiateAlgorithms => true
  | .getDigests => true
  | .getCertificate => true
  | .challenge _ => true
  | .getMeasurements idx _ => decide (1 ≤ idx ∧ idx ≤ 3)
  | .unsupportedRequest _ => true
  | .packageReset => true
  | .sramSingleBitError die => decide (die < 8)
  | .sramDoubleBitError die p => decide (die < 8) && p.wf
  | .hbmUncorrectableError stack _ => decide (stack < 8)
  | .scrubRead => true
  | .throttleStepUpdate die _ _ => decide (die < 8)
  | .thermalCritical die _ => decide (die < 8)
  | .dbgWrite x die _ => x.wf && decide (die < 8)
  | .partitionAssignWrite x die _ _ => x.wf && decide (die < 8)
  | .accessTableWrite x die _ _ => x.wf && decide (die < 8)
  | .partitionPark x p => x.wf && decide (p < 8)
  | .partitionUnpark x p => x.wf && decide (p < 8)
  | .standbyEnter x => x.wf
  | .standbyExit x => x.wf
  | .parkGate core => decide (core < 529)
  | .returnToActive => true
  | .coreCycle => true
  | .managementRequestWake p => decide (p < 8)
  | .partitionResetComplete p => decide (p < 8)

end Sys2Proof
end

