-- ==== Sys2Proof/Decode.lean ====
section
/-!
DEFINITION. The decoder of move slots and bundles, and after it the encoder (03_bundles R52, R53, R56-R58, R67, R68,
R70, R79). Decoding is total; what it rejects it rejects by name.
-/

namespace Sys2Proof

/-! ### Bytes and words, little-endian (R2) -/

/-- The number that bytes hold, the lowest address first (R2). -/
def leNat : List Byte → Nat
  | [] => 0
  | b :: bs => b.toNat + 256 * leNat bs

/-- The `n` bytes of a number, the lowest address first (R2). -/
def leBytes : Nat → Nat → List Byte
  | 0, _ => []
  | n + 1, v => BitVec.ofNat 8 v :: leBytes n (v / 256)

/-- Bits hi:lo of a number (R1). -/
def bitsOf (v lo width : Nat) : Nat := v / 2 ^ lo % 2 ^ width

/-! ### Guards, sources and destinations -/

/-- Why a slot is no move (R79). -/
inductive DecodeError where
  /-- fewer bytes than a slot or a bundle has -/
  | truncated
  /-- GUARD 0xC-0xE (R57) -/
  | reservedGuard
  /-- an empty slot with SRC or DST nonzero (R58) -/
  | emptyNonzero
  /-- an empty slot holds no move (R57) -/
  | emptySlot
  /-- an undefined or reserved SRC (R70) -/
  | undefSource
  /-- an undefined or reserved DST (R67) -/
  | undefDestination
  /-- an unassigned trigger port inside a unit block (R68) -/
  | unassignedPort
  deriving DecidableEq, Repr

/-- The guard field of a move; 0xC-0xE are reserved and 0xF is no move (R57). -/
def Guard.ofCode (n : Nat) : Option Guard :=
  if n = 0 then some .always
  else if h : n - 1 < 7 then some (.clk ⟨n - 1, h⟩)
  else if h : n - 8 < 4 then some (.pred ⟨n - 8, h⟩)
  else none

/-- The result port at a source address 0x080 + n (R70). -/
def Port.ofCode (n : Nat) : Option Port :=
  [Port.x0q, .x1q, .lsq, .brq, .ckq, .syq, .veq, .veq2, .mxq, .cpq, .msq, .svq][n]?

/-- The source map (R70). -/
def Src.ofCode (n : Nat) : Option Src :=
  if h : n < 64 then some (.g ⟨n, h⟩)
  else if h : n - 0x40 < 32 then some (.v ⟨n - 0x40, h⟩)
  else if h : n - 0x60 < 16 then some (.k ⟨n - 0x60, h⟩)
  else if n = 0x70 then some .imm
  else if n = 0x71 then some .immZ
  else if n < 0x80 then none
  else if n < 0x100 then (Port.ofCode (n - 0x80)).map .port
  else if n < 0x200 then some (.short (BitVec.ofNat 8 (n - 0x100)))
  else none

/-- The trigger ports of `x0` in card order, from offset 2 of its block (R68). -/
def x0Ops : List (Src → Guard → Instr) :=
  [.x0Add, .x0Sub, .x0And, .x0Or, .x0Xor, .x0Shl, .x0Shr, .x0Sar, .x0Ror, .x0Ceq, .x0CltS64, .x0CltN64,
   .x0Sel, .x0MinS64, .x0MaxS64, .x0Clz, .x0Popc, .x0Bfx, .x0Sxt, .x0Mul, .x0MulhS64, .x0MulhN64,
   .x0DivS64, .x0DivN64, .x0RemS64, .x0RemN64, .x0AddF32, .x0MulF32, .x0FmaF32, .x0CltF32, .x0ItofS64,
   .x0FtoiS64, .x0Crd, .x0Cwr]

/-- The trigger ports of `x1` in card order, from offset 2 of its block (R68). -/
def x1Ops : List (Src → Guard → Instr) :=
  [.x1Add, .x1Sub, .x1And, .x1Or, .x1Xor, .x1Shl, .x1Shr, .x1Sar, .x1Ror, .x1Ceq, .x1CltS64, .x1CltN64,
   .x1Sel, .x1MinS64, .x1MaxS64, .x1Clz, .x1Popc, .x1Bfx, .x1Sxt, .x1Mul, .x1MulhS64, .x1MulhN64,
   .x1DivS64, .x1DivN64, .x1RemS64, .x1RemN64, .x1AddF32, .x1MulF32, .x1FmaF32, .x1CltF32, .x1ItofS64,
   .x1FtoiS64, .x1Crd, .x1Cwr]

/-- The trigger ports of `ls` in card order, from offset 2 of its block (R68). -/
def lsOps : List (Src → Guard → Instr) :=
  [.lsLdS8, .lsLdN8, .lsLdS16, .lsLdN16, .lsLdS32, .lsLdN32, .lsLdN64, .lsStN8, .lsStN16, .lsStN32,
   .lsStN64, .lsSt2B64, .lsLdFe, .lsStFe, .lsBlk, .lsInv]

/-- The trigger ports of `br` in card order, from offset 2 of its block (R68). -/
def brOps : List (Src → Guard → Instr) :=
  [.brJmp, .brJz, .brJnz, .brJr, .brCall, .brLp0, .brLp1, .brLpend, .brLcrd, .brMark]

/-- The trigger ports of `ck` in card order, from offset 2 of its block (R68). -/
def ckOps : List (Src → Guard → Instr) :=
  [.ckDef, .ckSub, .ckWhen, .ckMerge, .ckMergep, .ckUnion, .ckFby, .ckHold, .ckIsp, .ckNot, .ckPre]

/-- The trigger ports of `sy` in card order, from offset 2 of its block (R68). -/
def syOps : List (Src → Guard → Instr) :=
  [.syAdd, .syWait, .syPeek, .syFence, .syAsdecl, .syTend, .syYield, .syStamp, .syTaint]

/-- The trigger ports of `ve` in card order, from offset 2 of its block (R68). -/
def veOps : List (Src → Guard → Instr) :=
  [.veAddF32, .veSubF32, .veMulF32, .veFmaF32, .veMinF32, .veMaxF32, .veCeqF32, .veCltF32, .veDivF32,
   .veSqrtF32, .veRsqrtF32, .veExp2F32, .veLog2F32, .veFtoiS32, .veItofS32, .veCvtBf16, .veCvtF16,
   .veWidBf16, .veWidF16, .veBxenc, .veBxdec, .veAddS32, .veSubS32, .veMulS32, .veAndB32, .veOrB32,
   .veXorB32, .veShlB32, .veShrB32, .veSarB32, .veMinS32, .veMaxS32, .veCeqB32, .veCltS32, .veSelB32,
   .veLid, .veBeqN8, .veBfindN8, .veBcmpN8, .veCrc32cN8, .veCrc32cB32, .veBurl, .veBurlf, .veRsumF32,
   .veRmaxF32, .veRminF32, .vePerm, .veLrot, .veLext, .veLins, .veFfs, .veLdB32, .veStB32, .veLdlB32,
   .veStlB32, .veGathB32, .veScatB32, .veLd16B64]

/-- The trigger ports of `mx` in card order, from offset 2 of its block (R68). -/
def mxOps : List (Src → Guard → Instr) :=
  [.mxTld, .mxCld, .mxCst, .mxZero, .mxStep, .mxLoop, .mxOff, .mxBusy, .mxXa, .mxScl, .mxDrain]

/-- The trigger ports of `cp` in card order, from offset 2 of its block (R68). -/
def cpOps : List (Src → Guard → Instr) :=
  [.cpLin, .cpStr2, .cpStr3, .cpGath, .cpFill, .cpCvt, .cpCanopy, .cpStbl, .cpRestrict, .cpProlong,
   .cpClose, .cpWaitb, .cpCnt]

/-- The trigger ports of `ms` in card order, from offset 2 of its block (R68). -/
def msOps : List (Src → Guard → Instr) :=
  [.msAddF32, .msAddS64, .msMaxS64, .msMinS64, .msOrB64, .msSwapB64, .msCasB64, .msRed, .msFence, .msMark]

/-- The trigger ports of `sv` in card order, from offset 2 of its block (R68). -/
def svOps : List (Src → Guard → Instr) :=
  [.svLaunch, .svAbort, .svSrd, .svSwr, .svSpace, .svWalk, .svPtmc, .svTinv, .svPin, .svUnpin, .svTfq,
   .svTres, .svTent, .svEret, .svHirq, .svIdle]

/-- The trigger ports of a unit (R68). -/
def unitOps : Unit11 → List (Src → Guard → Instr)
  | .x0 => x0Ops
  | .x1 => x1Ops
  | .ls => lsOps
  | .br => brOps
  | .ck => ckOps
  | .sy => syOps
  | .ve => veOps
  | .mx => mxOps
  | .cp => cpOps
  | .ms => msOps
  | .sv => svOps

/-- The first address of a unit's block (R67, R68). -/
def Unit11.base : Unit11 → Nat
  | .x0 => 0x080
  | .x1 => 0x0C0
  | .ls => 0x100
  | .br => 0x140
  | .ck => 0x160
  | .sy => 0x180
  | .ve => 0x1A0
  | .mx => 0x220
  | .cp => 0x260
  | .ms => 0x2A0
  | .sv => 0x2C0

/-- What a destination address names, with a source and a guard (R67, R68). -/
def unitMove (u : Unit11) (k : Nat) (s : Src) (g : Guard) : Except DecodeError Instr :=
  if k = 0 then .ok (.move s (.o u) g)
  else if k = 1 then .ok (.move s (.p u) g)
  else
    match (unitOps u)[k - 2]? with
    | some f => .ok (f s g)
    | none => .error .unassignedPort

/-- The unit whose block holds a destination address 0x080-0x2FF, with the offset in the block (R67). -/
def unitAt (d : Nat) : Unit11 × Nat :=
  if d < 0x0C0 then (.x0, d - 0x080)
  else if d < 0x100 then (.x1, d - 0x0C0)
  else if d < 0x140 then (.ls, d - 0x100)
  else if d < 0x160 then (.br, d - 0x140)
  else if d < 0x180 then (.ck, d - 0x160)
  else if d < 0x1A0 then (.sy, d - 0x180)
  else if d < 0x220 then (.ve, d - 0x1A0)
  else if d < 0x260 then (.mx, d - 0x220)
  else if d < 0x2A0 then (.cp, d - 0x260)
  else if d < 0x2C0 then (.ms, d - 0x2A0)
  else (.sv, d - 0x2C0)

/-- The destination map (R67). -/
def moveTo (d : Nat) (s : Src) (g : Guard) : Except DecodeError Instr :=
  if h : d < 64 then .ok (.move s (.g ⟨d, h⟩) g)
  else if h : d - 0x40 < 32 then .ok (.move s (.v ⟨d - 0x40, h⟩) g)
  else if h : d - 0x60 < 16 then .ok (.move s (.k ⟨d - 0x60, h⟩) g)
  else if d < 0x80 then .error .undefDestination
  else if d < 0x300 then unitMove (unitAt d).1 (unitAt d).2 s g
  else .error .undefDestination

/-- The move in a 24-bit slot (R56, R79), or why it holds none. -/
def decodeSlot (w : BitVec 24) : Except DecodeError Instr :=
  let g := bitsOf w.toNat 0 4
  let d := bitsOf w.toNat 4 10
  let s := bitsOf w.toNat 14 10
  if g = 15 then (if s = 0 ∧ d = 0 then .error .emptySlot else .error .emptyNonzero)
  else
    match Guard.ofCode g with
    | none => .error .reservedGuard
    | some g =>
      match Src.ofCode s with
      | none => .error .undefSource
      | some s => moveTo d s g

/-- One slot from the front of a byte stream, stored low byte first (R52, R2). -/
def decode (bs : List Byte) : Except DecodeError (Instr × List Byte) :=
  match bs with
  | b0 :: b1 :: b2 :: rest => (decodeSlot (BitVec.ofNat 24 (leNat [b0, b1, b2]))).map (·, rest)
  | _ => .error .truncated

/-- A bundle: eight slots and the control word (R52). -/
structure Bundle where
  slots : List (BitVec 24)
  cw : BitVec 64
  deriving DecidableEq, Repr

/-- The bundle in 32 bytes (R52). -/
def Bundle.ofBytes (bs : List Byte) : Bundle where
  slots := (List.range 8).map fun i => BitVec.ofNat 24 (leNat ((bs.drop (3 * i)).take 3))
  cw := BitVec.ofNat 64 (leNat (bs.drop 24))

/-- The 32 bytes of a bundle (R52). -/
def Bundle.toBytes (b : Bundle) : List Byte :=
  b.slots.flatMap (fun s => leBytes 3 s.toNat) ++ leBytes 8 b.cw.toNat

/-- STOP bit `i` of the control word (R53). -/
def Bundle.stop (b : Bundle) (i : Nat) : Bool := b.cw.getLsbD i

/-- LIMM of the control word (R53). -/
def Bundle.limm (b : Bundle) : BitVec 32 := BitVec.ofNat 32 (bitsOf b.cw.toNat 8 32)

/-- MKV of the control word: the bundle is a marker bundle (R53). -/
def Bundle.mkv (b : Bundle) : Bool := b.cw.getLsbD 40

/-- MREM of the control word (R53). -/
def Bundle.mrem (b : Bundle) : Nat := bitsOf b.cw.toNat 41 22

/-- The control-word check of R54. -/
def Bundle.cwOk (b : Bundle) : Bool := !b.cw.getLsbD 63 && (b.mkv || b.mrem == 0)

/-- Slot `i` of a bundle. -/
def Bundle.slot (b : Bundle) (i : Nat) : BitVec 24 := b.slots.getD i 0xF#24

/-! ### The encoder -/

/-- The guard field (R57). -/
def Guard.code : Guard → Nat
  | .always => 0
  | .clk n => n.val + 1
  | .pred n => n.val + 8

/-- The number of a result port from 0x080 (R70). -/
def Port.code : Port → Nat
  | .x0q => 0
  | .x1q => 1
  | .lsq => 2
  | .brq => 3
  | .ckq => 4
  | .syq => 5
  | .veq => 6
  | .veq2 => 7
  | .mxq => 8
  | .cpq => 9
  | .msq => 10
  | .svq => 11

/-- The source address (R70). -/
def Src.code : Src → Nat
  | .g n => n.val
  | .v n => 0x40 + n.val
  | .k n => 0x60 + n.val
  | .imm => 0x70
  | .immZ => 0x71
  | .port p => 0x80 + p.code
  | .short b => 0x100 + b.toNat

/-- The destination address of a plain move (R67). -/
def Dst.code : Dst → Nat
  | .g n => n.val
  | .v n => 0x40 + n.val
  | .k n => 0x60 + n.val
  | .o u => u.base
  | .p u => u.base + 1

/-- Source, destination address and guard of a move; a row without an encoding has none. -/
def Instr.parts : Instr → Option (Src × Nat × Guard)
  | .move s d g => some (s, d.code, g)
  | .x0Add s g => some (s, 0x082, g)
  | .x0Sub s g => some (s, 0x083, g)
  | .x0And s g => some (s, 0x084, g)
  | .x0Or s g => some (s, 0x085, g)
  | .x0Xor s g => some (s, 0x086, g)
  | .x0Shl s g => some (s, 0x087, g)
  | .x0Shr s g => some (s, 0x088, g)
  | .x0Sar s g => some (s, 0x089, g)
  | .x0Ror s g => some (s, 0x08A, g)
  | .x0Ceq s g => some (s, 0x08B, g)
  | .x0CltS64 s g => some (s, 0x08C, g)
  | .x0CltN64 s g => some (s, 0x08D, g)
  | .x0Sel s g => some (s, 0x08E, g)
  | .x0MinS64 s g => some (s, 0x08F, g)
  | .x0MaxS64 s g => some (s, 0x090, g)
  | .x0Clz s g => some (s, 0x091, g)
  | .x0Popc s g => some (s, 0x092, g)
  | .x0Bfx s g => some (s, 0x093, g)
  | .x0Sxt s g => some (s, 0x094, g)
  | .x0Mul s g => some (s, 0x095, g)
  | .x0MulhS64 s g => some (s, 0x096, g)
  | .x0MulhN64 s g => some (s, 0x097, g)
  | .x0DivS64 s g => some (s, 0x098, g)
  | .x0DivN64 s g => some (s, 0x099, g)
  | .x0RemS64 s g => some (s, 0x09A, g)
  | .x0RemN64 s g => some (s, 0x09B, g)
  | .x0AddF32 s g => some (s, 0x09C, g)
  | .x0MulF32 s g => some (s, 0x09D, g)
  | .x0FmaF32 s g => some (s, 0x09E, g)
  | .x0CltF32 s g => some (s, 0x09F, g)
  | .x0ItofS64 s g => some (s, 0x0A0, g)
  | .x0FtoiS64 s g => some (s, 0x0A1, g)
  | .x0Crd s g => some (s, 0x0A2, g)
  | .x0Cwr s g => some (s, 0x0A3, g)
  | .x1Add s g => some (s, 0x0C2, g)
  | .x1Sub s g => some (s, 0x0C3, g)
  | .x1And s g => some (s, 0x0C4, g)
  | .x1Or s g => some (s, 0x0C5, g)
  | .x1Xor s g => some (s, 0x0C6, g)
  | .x1Shl s g => some (s, 0x0C7, g)
  | .x1Shr s g => some (s, 0x0C8, g)
  | .x1Sar s g => some (s, 0x0C9, g)
  | .x1Ror s g => some (s, 0x0CA, g)
  | .x1Ceq s g => some (s, 0x0CB, g)
  | .x1CltS64 s g => some (s, 0x0CC, g)
  | .x1CltN64 s g => some (s, 0x0CD, g)
  | .x1Sel s g => some (s, 0x0CE, g)
  | .x1MinS64 s g => some (s, 0x0CF, g)
  | .x1MaxS64 s g => some (s, 0x0D0, g)
  | .x1Clz s g => some (s, 0x0D1, g)
  | .x1Popc s g => some (s, 0x0D2, g)
  | .x1Bfx s g => some (s, 0x0D3, g)
  | .x1Sxt s g => some (s, 0x0D4, g)
  | .x1Mul s g => some (s, 0x0D5, g)
  | .x1MulhS64 s g => some (s, 0x0D6, g)
  | .x1MulhN64 s g => some (s, 0x0D7, g)
  | .x1DivS64 s g => some (s, 0x0D8, g)
  | .x1DivN64 s g => some (s, 0x0D9, g)
  | .x1RemS64 s g => some (s, 0x0DA, g)
  | .x1RemN64 s g => some (s, 0x0DB, g)
  | .x1AddF32 s g => some (s, 0x0DC, g)
  | .x1MulF32 s g => some (s, 0x0DD, g)
  | .x1FmaF32 s g => some (s, 0x0DE, g)
  | .x1CltF32 s g => some (s, 0x0DF, g)
  | .x1ItofS64 s g => some (s, 0x0E0, g)
  | .x1FtoiS64 s g => some (s, 0x0E1, g)
  | .x1Crd s g => some (s, 0x0E2, g)
  | .x1Cwr s g => some (s, 0x0E3, g)
  | .lsLdS8 s g => some (s, 0x102, g)
  | .lsLdN8 s g => some (s, 0x103, g)
  | .lsLdS16 s g => some (s, 0x104, g)
  | .lsLdN16 s g => some (s, 0x105, g)
  | .lsLdS32 s g => some (s, 0x106, g)
  | .lsLdN32 s g => some (s, 0x107, g)
  | .lsLdN64 s g => some (s, 0x108, g)
  | .lsStN8 s g => some (s, 0x109, g)
  | .lsStN16 s g => some (s, 0x10A, g)
  | .lsStN32 s g => some (s, 0x10B, g)
  | .lsStN64 s g => some (s, 0x10C, g)
  | .lsSt2B64 s g => some (s, 0x10D, g)
  | .lsLdFe s g => some (s, 0x10E, g)
  | .lsStFe s g => some (s, 0x10F, g)
  | .lsBlk s g => some (s, 0x110, g)
  | .lsInv s g => some (s, 0x111, g)
  | .brJmp s g => some (s, 0x142, g)
  | .brJz s g => some (s, 0x143, g)
  | .brJnz s g => some (s, 0x144, g)
  | .brJr s g => some (s, 0x145, g)
  | .brCall s g => some (s, 0x146, g)
  | .brLp0 s g => some (s, 0x147, g)
  | .brLp1 s g => some (s, 0x148, g)
  | .brLpend s g => some (s, 0x149, g)
  | .brLcrd s g => some (s, 0x14A, g)
  | .brMark s g => some (s, 0x14B, g)
  | .ckDef s g => some (s, 0x162, g)
  | .ckSub s g => some (s, 0x163, g)
  | .ckWhen s g => some (s, 0x164, g)
  | .ckMerge s g => some (s, 0x165, g)
  | .ckMergep s g => some (s, 0x166, g)
  | .ckUnion s g => some (s, 0x167, g)
  | .ckFby s g => some (s, 0x168, g)
  | .ckHold s g => some (s, 0x169, g)
  | .ckIsp s g => some (s, 0x16A, g)
  | .ckNot s g => some (s, 0x16B, g)
  | .ckPre s g => some (s, 0x16C, g)
  | .syAdd s g => some (s, 0x182, g)
  | .syWait s g => some (s, 0x183, g)
  | .syPeek s g => some (s, 0x184, g)
  | .syFence s g => some (s, 0x185, g)
  | .syAsdecl s g => some (s, 0x186, g)
  | .syTend s g => some (s, 0x187, g)
  | .syYield s g => some (s, 0x188, g)
  | .syStamp s g => some (s, 0x189, g)
  | .syTaint s g => some (s, 0x18A, g)
  | .veAddF32 s g => some (s, 0x1A2, g)
  | .veSubF32 s g => some (s, 0x1A3, g)
  | .veMulF32 s g => some (s, 0x1A4, g)
  | .veFmaF32 s g => some (s, 0x1A5, g)
  | .veMinF32 s g => some (s, 0x1A6, g)
  | .veMaxF32 s g => some (s, 0x1A7, g)
  | .veCeqF32 s g => some (s, 0x1A8, g)
  | .veCltF32 s g => some (s, 0x1A9, g)
  | .veDivF32 s g => some (s, 0x1AA, g)
  | .veSqrtF32 s g => some (s, 0x1AB, g)
  | .veRsqrtF32 s g => some (s, 0x1AC, g)
  | .veExp2F32 s g => some (s, 0x1AD, g)
  | .veLog2F32 s g => some (s, 0x1AE, g)
  | .veFtoiS32 s g => some (s, 0x1AF, g)
  | .veItofS32 s g => some (s, 0x1B0, g)
  | .veCvtBf16 s g => some (s, 0x1B1, g)
  | .veCvtF16 s g => some (s, 0x1B2, g)
  | .veWidBf16 s g => some (s, 0x1B3, g)
  | .veWidF16 s g => some (s, 0x1B4, g)
  | .veBxenc s g => some (s, 0x1B5, g)
  | .veBxdec s g => some (s, 0x1B6, g)
  | .veAddS32 s g => some (s, 0x1B7, g)
  | .veSubS32 s g => some (s, 0x1B8, g)
  | .veMulS32 s g => some (s, 0x1B9, g)
  | .veAndB32 s g => some (s, 0x1BA, g)
  | .veOrB32 s g => some (s, 0x1BB, g)
  | .veXorB32 s g => some (s, 0x1BC, g)
  | .veShlB32 s g => some (s, 0x1BD, g)
  | .veShrB32 s g => some (s, 0x1BE, g)
  | .veSarB32 s g => some (s, 0x1BF, g)
  | .veMinS32 s g => some (s, 0x1C0, g)
  | .veMaxS32 s g => some (s, 0x1C1, g)
  | .veCeqB32 s g => some (s, 0x1C2, g)
  | .veCltS32 s g => some (s, 0x1C3, g)
  | .veSelB32 s g => some (s, 0x1C4, g)
  | .veLid s g => some (s, 0x1C5, g)
  | .veBeqN8 s g => some (s, 0x1C6, g)
  | .veBfindN8 s g => some (s, 0x1C7, g)
  | .veBcmpN8 s g => some (s, 0x1C8, g)
  | .veCrc32cN8 s g => some (s, 0x1C9, g)
  | .veCrc32cB32 s g => some (s, 0x1CA, g)
  | .veBurl s g => some (s, 0x1CB, g)
  | .veBurlf s g => some (s, 0x1CC, g)
  | .veRsumF32 s g => some (s, 0x1CD, g)
  | .veRmaxF32 s g => some (s, 0x1CE, g)
  | .veRminF32 s g => some (s, 0x1CF, g)
  | .vePerm s g => some (s, 0x1D0, g)
  | .veLrot s g => some (s, 0x1D1, g)
  | .veLext s g => some (s, 0x1D2, g)
  | .veLins s g => some (s, 0x1D3, g)
  | .veFfs s g => some (s, 0x1D4, g)
  | .veLdB32 s g => some (s, 0x1D5, g)
  | .veStB32 s g => some (s, 0x1D6, g)
  | .veLdlB32 s g => some (s, 0x1D7, g)
  | .veStlB32 s g => some (s, 0x1D8, g)
  | .veGathB32 s g => some (s, 0x1D9, g)
  | .veScatB32 s g => some (s, 0x1DA, g)
  | .veLd16B64 s g => some (s, 0x1DB, g)
  | .mxTld s g => some (s, 0x222, g)
  | .mxCld s g => some (s, 0x223, g)
  | .mxCst s g => some (s, 0x224, g)
  | .mxZero s g => some (s, 0x225, g)
  | .mxStep s g => some (s, 0x226, g)
  | .mxLoop s g => some (s, 0x227, g)
  | .mxOff s g => some (s, 0x228, g)
  | .mxBusy s g => some (s, 0x229, g)
  | .mxXa s g => some (s, 0x22A, g)
  | .mxScl s g => some (s, 0x22B, g)
  | .mxDrain s g => some (s, 0x22C, g)
  | .cpLin s g => some (s, 0x262, g)
  | .cpStr2 s g => some (s, 0x263, g)
  | .cpStr3 s g => some (s, 0x264, g)
  | .cpGath s g => some (s, 0x265, g)
  | .cpFill s g => some (s, 0x266, g)
  | .cpCvt s g => some (s, 0x267, g)
  | .cpCanopy s g => some (s, 0x268, g)
  | .cpStbl s g => some (s, 0x269, g)
  | .cpRestrict s g => some (s, 0x26A, g)
  | .cpProlong s g => some (s, 0x26B, g)
  | .cpClose s g => some (s, 0x26C, g)
  | .cpWaitb s g => some (s, 0x26D, g)
  | .cpCnt s g => some (s, 0x26E, g)
  | .msAddF32 s g => some (s, 0x2A2, g)
  | .msAddS64 s g => some (s, 0x2A3, g)
  | .msMaxS64 s g => some (s, 0x2A4, g)
  | .msMinS64 s g => some (s, 0x2A5, g)
  | .msOrB64 s g => some (s, 0x2A6, g)
  | .msSwapB64 s g => some (s, 0x2A7, g)
  | .msCasB64 s g => some (s, 0x2A8, g)
  | .msRed s g => some (s, 0x2A9, g)
  | .msFence s g => some (s, 0x2AA, g)
  | .msMark s g => some (s, 0x2AB, g)
  | .svLaunch s g => some (s, 0x2C2, g)
  | .svAbort s g => some (s, 0x2C3, g)
  | .svSrd s g => some (s, 0x2C4, g)
  | .svSwr s g => some (s, 0x2C5, g)
  | .svSpace s g => some (s, 0x2C6, g)
  | .svWalk s g => some (s, 0x2C7, g)
  | .svPtmc s g => some (s, 0x2C8, g)
  | .svTinv s g => some (s, 0x2C9, g)
  | .svPin s g => some (s, 0x2CA, g)
  | .svUnpin s g => some (s, 0x2CB, g)
  | .svTfq s g => some (s, 0x2CC, g)
  | .svTres s g => some (s, 0x2CD, g)
  | .svTent s g => some (s, 0x2CE, g)
  | .svEret s g => some (s, 0x2CF, g)
  | .svHirq s g => some (s, 0x2D0, g)
  | .svIdle s g => some (s, 0x2D1, g)
  | .resultLand _ | .lateResultArrive _ | .implicitYield _ | .engineQueueSpace _ | .rangeHoldRelease _
  | .waitSatisfied _ | .fenceComplete _ | .yieldRelease _ | .feWaitServed _ | .versionSlotFree _
  | .cpWaitbSatisfied _ | .mxDrainComplete _ | .msFenceComplete _ | .counterAddApply _ | .tendRetire _
  | .loadBlockFilled _ _ | .mxCommandStart _ | .mxCommandComplete _ _ | .cpCommandStart _
  | .cpCommandComplete _ _ | .closeMarkerRetire _ _ | .msOpArrive _ _ | .msRedComplete _ _ | .msMarkFire _ _
  | .launchCheck _ | .instantEnqueue _ | .ticketTake _ | .tokenGain _ | .preemptChoice _ | .kill _
  | .checkpoint _ | .clearInstant _ | .versionMerge _ _ _ | .setAcquire _ | .walkRestart _
  | .walkMigrationTimeout _ | .ptmcOrdered _ | .ptmcComplete _ | .tinvComplete _ | .idleWake _ | .flush _
  | .haltreq _ | .resume _ | .step _ _ | .segmentSealTimer | .segmentWrite | .perfCounterWrite _ _ _ _
  | .perfConfigWrite _ _ _ _ | .registerWrite _ _ _ | .hostRingWrite _ _ | .hostDoorbell _ | .d2hheadWrite _
  | .d2htailWrite _ _ | .h2dheadWrite _ _ | .routeWrite _ _ _ _ | .flitStore _ _ | .flitLoadRequest _ _
  | .flitLoadResponse _ _ | .flitCounterAdd _ _ | .flitTableMulticast _ _ | .flitClearingMessage _ _ _
  | .flitLeaseVersionMessage _ _ _ | .flitCredit _ _ | .flitWalkContinuation _ _ | .flitUnknown _ _
  | .flitCrcFail _ | .storageSqDoorbell _ _ _ | .fabricsConnect _ | .propertyGet _ | .propertySet _
  | .identify _ | .getLogPage _ | .keepAlive _ | .nvmeRead _ _ | .nvmeWrite _ | .nvmeFlush _
  | .invalidCommandOpcode _ | .nvmeCompletion _ _ | .keepAliveTimer _ | .rocePacket _ _ _ | .pfcPause _ _
  | .redfishGet _ | .updateService _ | .deviceIdSetting _ | .provision _ | .revoke _ | .debugUnlock _
  | .getVersion | .getCapabilities | .negotiateAlgorithms | .getDigests | .getCertificate | .challenge _
  | .getMeasurements _ _ | .unsupportedRequest _ | .packageReset | .sramSingleBitError _
  | .sramDoubleBitError _ _ | .hbmUncorrectableError _ _ | .scrubRead | .throttleStepUpdate _ _ _
  | .thermalCritical _ _ | .dbgWrite _ _ _ | .partitionAssignWrite _ _ _ _ | .accessTableWrite _ _ _ _
  | .partitionPark _ _ | .partitionUnpark _ _ | .standbyEnter _ | .standbyExit _ | .parkGate _
  | .returnToActive | .coreCycle | .managementRequestWake _ | .partitionResetComplete _ => none

/-- The 24-bit slot of a move (R56): SRC × 2^14 + DST × 2^4 + GUARD. -/
def encode (i : Instr) : Option (BitVec 24) :=
  i.parts.map fun p => BitVec.ofNat 24 (p.1.code * 2 ^ 14 + p.2.1 * 2 ^ 4 + p.2.2.code)

/-- The instruction that the decoder reads from bits `w` of a table row of `nbits` bits, laid out as a slot is stored
(R52): low byte first, the bits above `nbits` zero. -/
def decodeTableWord (nbits w : Nat) : Option Instr :=
  match decode (leBytes 3 (w % 2 ^ nbits)) with
  | .ok (i, _) => some i
  | .error _ => none

end Sys2Proof
end

