-- ==== Sys2Proof/Machine/Num.lean ====
section
/-!
DEFINITION. Number formats, rounding and the order of sums (06_numbers R122-R140): exact values as dyadic numbers,
one rounding at the end.
-/

namespace Sys2Proof.Num

/-! ### Formats and modes -/

/-- A binary interchange format (R122). -/
structure Fmt where
  ebits : Nat
  mbits : Nat
  bias : Nat
  deriving DecidableEq, Repr

/-- FP32 (R122). -/
def fp32 : Fmt := ⟨8, 23, 127⟩

/-- FP16 (R122). -/
def fp16 : Fmt := ⟨5, 10, 15⟩

/-- BF16 (R122). -/
def bf16 : Fmt := ⟨8, 7, 127⟩

/-- The bits of an infinity, sign clear. -/
def Fmt.infBits (f : Fmt) : Nat := (2 ^ f.ebits - 1) * 2 ^ f.mbits

/-- The bits of the canonical NaN (R122). -/
def Fmt.nanBits (f : Fmt) : Nat := f.infBits + 2 ^ (f.mbits - 1)

/-- The bits of the largest finite magnitude (R122). -/
def Fmt.maxBits (f : Fmt) : Nat := f.infBits - 1

/-- The sign bit's weight. -/
def Fmt.signBit (f : Fmt) : Nat := 2 ^ (f.ebits + f.mbits)

/-- The four rounding modes (R131). -/
inductive Mode where
  | rne | rtz | rup | rdn
  deriving DecidableEq, Repr

/-- The mode that `ctx.fpm` holds (R131). -/
def Mode.ofBits (b : BitVec 2) : Mode :=
  if b = 0#2 then .rne else if b = 1#2 then .rtz else if b = 2#2 then .rup else .rdn

/-- The flags of `ctx.ff` (R134): NV 0, DZ 1, OF 2, UF 3, NX 4, CL 5. -/
abbrev Flags := BitVec 6

/-- Invalid (R134). -/
abbrev NV : Flags := 1#6
/-- Division by zero (R134). -/
abbrev DZ : Flags := 2#6
/-- Overflow (R134). -/
abbrev OF : Flags := 4#6
/-- Underflow (R134). -/
abbrev UF : Flags := 8#6
/-- Inexact (R134). -/
abbrev NX : Flags := 16#6
/-- Clamped (R134). -/
abbrev CL : Flags := 32#6

/-- A flag if a condition holds. -/
def flagIf (c : Bool) (f : Flags) : Flags := if c then f else 0#6

/-! ### Exact values -/

/-- The exact number m × 2^e. -/
structure Dy where
  m : Int
  e : Int
  deriving DecidableEq, Repr

/-- The exact sum. -/
def Dy.add (a b : Dy) : Dy :=
  let e := min a.e b.e
  ⟨a.m * 2 ^ (a.e - e).toNat + b.m * 2 ^ (b.e - e).toNat, e⟩

/-- The exact product. -/
def Dy.mul (a b : Dy) : Dy := ⟨a.m * b.m, a.e + b.e⟩

/-- The exact difference's sign decides the order. -/
def Dy.lt (a b : Dy) : Bool := decide ((Dy.add a ⟨-b.m, b.e⟩).m < 0)

/-- Equality of the numbers. -/
def Dy.eqv (a b : Dy) : Bool := decide ((Dy.add a ⟨-b.m, b.e⟩).m = 0)

/-- The magnitude. -/
def Dy.abs (a : Dy) : Dy := ⟨a.m.natAbs, a.e⟩

/-- The number times 2^k. -/
def Dy.scale (a : Dy) (k : Int) : Dy := ⟨a.m, a.e + k⟩

/-- A value of a floating-point or BX format: a NaN (signalling or not), an infinity, or an exact number; the sign of
a zero is kept apart. -/
inductive FVal where
  | nan (signalling : Bool)
  | inf (neg : Bool)
  | fin (neg : Bool) (mag : Nat) (e : Int)
  deriving DecidableEq, Repr

/-- Whether a value is a NaN. -/
def FVal.isNan : FVal → Bool
  | .nan _ => true
  | _ => false

/-- Whether a value is a signalling NaN. -/
def FVal.isSnan : FVal → Bool
  | .nan s => s
  | _ => false

/-- Whether a value is an infinity. -/
def FVal.isInf : FVal → Bool
  | .inf _ => true
  | _ => false

/-- The sign of a value; a NaN has none. -/
def FVal.neg : FVal → Bool
  | .nan _ => false
  | .inf n => n
  | .fin n _ _ => n

/-- The exact number of a finite value. -/
def FVal.dy : FVal → Dy
  | .fin n m e => ⟨if n then -(m : Int) else m, e⟩
  | _ => ⟨0, 0⟩

/-- Whether a value is a zero of either sign. -/
def FVal.isZero : FVal → Bool
  | .fin _ m _ => m == 0
  | _ => false

/-- The value with its sign turned. -/
def FVal.negate : FVal → FVal
  | .nan s => .nan s
  | .inf n => .inf (!n)
  | .fin n m e => .fin (!n) m e

/-- The value that bits encode (R122, R123). -/
def ofBits (f : Fmt) (b : Nat) : FVal :=
  let neg := decide (b / f.signBit % 2 = 1)
  let ex := b / 2 ^ f.mbits % 2 ^ f.ebits
  let fr := b % 2 ^ f.mbits
  if ex = 2 ^ f.ebits - 1 then
    if fr = 0 then .inf neg else .nan (decide (fr < 2 ^ (f.mbits - 1)))
  else if ex = 0 then .fin neg fr (1 - (f.bias : Int) - f.mbits)
  else .fin neg (2 ^ f.mbits + fr) ((ex : Int) - f.bias - f.mbits)

/-- The FP32 value of a lane. -/
def f32 (b : BitVec 32) : FVal := ofBits fp32 b.toNat

/-- Infinity with a sign, as bits. -/
def infOf (f : Fmt) (neg : Bool) : Nat := (if neg then f.signBit else 0) + f.infBits

/-- Zero with a sign, as bits. -/
def zeroOf (f : Fmt) (neg : Bool) : Nat := if neg then f.signBit else 0

/-! ### One rounding (R123, R131, R132) -/

/-- Bits in a magnitude. -/
def bitLen (m : Nat) : Nat := if m = 0 then 0 else Nat.log2 m + 1

/-- Whether a magnitude with quotient `q`, remainder `r` of `2^s` rounds up. -/
def roundsUp (md : Mode) (neg : Bool) (q r s : Nat) : Bool :=
  match md with
  | .rne => decide (2 ^ s < 2 * r) || (decide (2 * r = 2 ^ s) && decide (q % 2 = 1))
  | .rtz => false
  | .rup => decide (r ≠ 0) && !neg
  | .rdn => decide (r ≠ 0) && neg

/-- The magnitude `m` divided by 2^s and rounded to an integer, with whether it changed. -/
def roundShift (md : Mode) (neg : Bool) (m : Nat) (s : Int) : Nat × Bool :=
  if s ≤ 0 then (m * 2 ^ (-s).toNat, false)
  else
    let q := m / 2 ^ s.toNat
    let r := m % 2 ^ s.toNat
    (if roundsUp md neg q r s.toNat then q + 1 else q, decide (r ≠ 0))

/-- The magnitude's bits in the format with its range unbounded above (R133), with whether it is inexact and whether
it is tiny after rounding (R123). -/
def roundMag (f : Fmt) (md : Mode) (neg : Bool) (m : Nat) (e : Int) : Nat × Bool × Bool :=
  let lead := e + bitLen m - 1
  let emin : Int := 1 - f.bias
  let q := max (lead - f.mbits) (emin - f.mbits)
  let r := roundShift md neg m (q - e)
  let bits := (q - (emin - f.mbits)).toNat * 2 ^ f.mbits + r.1
  let unb := (roundShift md neg m (lead - f.mbits - e)).1
  let tiny := decide (lead < emin) && !(decide (lead = emin - 1) && decide (unb = 2 ^ (f.mbits + 1)))
  (bits, r.2, tiny)

/-- A non-zero exact number rounded to a format (R132), with its flags. -/
def roundFin (f : Fmt) (md : Mode) (neg : Bool) (m : Nat) (e : Int) : Nat × Flags :=
  let r := roundMag f md neg m e
  let sign := if neg then f.signBit else 0
  if f.infBits ≤ r.1 then
    let toInf := match md with
      | .rne => true
      | .rtz => false
      | .rup => !neg
      | .rdn => neg
    (sign + (if toInf then f.infBits else f.maxBits), OF ||| NX)
  else (sign + r.1, flagIf r.2.1 NX ||| flagIf (r.2.1 && r.2.2) UF)

/-- An exact number rounded to a format; `zneg` is the sign of an exact zero. -/
def roundDy (f : Fmt) (md : Mode) (zneg : Bool) (d : Dy) : Nat × Flags :=
  if d.m = 0 then (zeroOf f zneg, 0#6) else roundFin f md (decide (d.m < 0)) d.m.natAbs d.e

/-! ### Arithmetic (R124, R167, R250) -/

/-- The invalid flag of signalling inputs (R124). -/
def snanFlag (l : List FVal) : Flags := flagIf (l.any FVal.isSnan) NV

/-- The sign of an exact zero sum of two addends (R167). -/
def zeroSumNeg (md : Mode) (a b : FVal) : Bool :=
  if a.isZero && b.isZero && (a.neg == b.neg) then a.neg else decide (md = .rdn)

/-- The sum of two values (R167). -/
def addV (f : Fmt) (md : Mode) (a b : FVal) : Nat × Flags :=
  if a.isNan || b.isNan then (f.nanBits, snanFlag [a, b])
  else
    match a, b with
    | .inf n, .inf n' => if n = n' then (infOf f n, 0#6) else (f.nanBits, NV)
    | .inf n, _ => (infOf f n, 0#6)
    | _, .inf n => (infOf f n, 0#6)
    | a, b => roundDy f md (zeroSumNeg md a b) (Dy.add a.dy b.dy)

/-- The product of two values (R167). -/
def mulV (f : Fmt) (md : Mode) (a b : FVal) : Nat × Flags :=
  if a.isNan || b.isNan then (f.nanBits, snanFlag [a, b])
  else
    let neg := a.neg != b.neg
    if a.isInf || b.isInf then
      if a.isZero || b.isZero then (f.nanBits, NV) else (infOf f neg, 0#6)
    else roundDy f md neg (Dy.mul a.dy b.dy)

/-- The fused product and sum a × b + c with one rounding (R167). -/
def fmaV (f : Fmt) (md : Mode) (a b c : FVal) : Nat × Flags :=
  let pinv := (a.isZero && b.isInf) || (a.isInf && b.isZero)
  if a.isNan || b.isNan || c.isNan || pinv then (f.nanBits, snanFlag [a, b, c] ||| flagIf pinv NV)
  else
    let pneg := a.neg != b.neg
    if a.isInf || b.isInf then addV f md (.inf pneg) c
    else
      match c with
      | .inf n => (infOf f n, 0#6)
      | c =>
        let p := Dy.mul a.dy b.dy
        roundDy f md (zeroSumNeg md (.fin pneg p.m.natAbs p.e) c) (Dy.add p c.dy)

/-- The lesser or greater value, −0 below +0; a NaN gives the canonical NaN (R250, R140). -/
def minmaxV (f : Fmt) (wantMax : Bool) (a b : FVal) (abits bbits : Nat) : Nat × Flags :=
  if a.isNan || b.isNan then (f.nanBits, snanFlag [a, b])
  else
    let less := match a, b with
      | .inf n, .inf n' => n && !n'
      | .inf n, _ => n
      | _, .inf n => !n
      | a, b => Dy.lt a.dy b.dy || (Dy.eqv a.dy b.dy && a.neg && !b.neg)
    (if less = wantMax then bbits else abits, 0#6)

/-- Numeric equality, −0 equal to +0; a NaN equals nothing (R251). -/
def eqV (a b : FVal) : Bool :=
  match a, b with
  | .nan _, _ => false
  | _, .nan _ => false
  | .inf n, .inf n' => n == n'
  | .inf _, _ => false
  | _, .inf _ => false
  | a, b => Dy.eqv a.dy b.dy

/-- Numeric less-than, −0 not below +0; a NaN is below nothing (R167, R251). -/
def ltV (a b : FVal) : Bool :=
  match a, b with
  | .nan _, _ => false
  | _, .nan _ => false
  | .inf n, .inf n' => n && !n'
  | .inf n, _ => n
  | _, .inf n => !n
  | a, b => Dy.lt a.dy b.dy

/-- The invalid flag of a signalling compare (R167). -/
def cltFlags (a b : FVal) : Flags := flagIf (a.isNan || b.isNan) NV

/-! ### Division, roots and transcendentals (R252) -/

/-- Integer square root, one bit of the answer a step from bit `k` down. -/
def isqrtFrom : Nat → Nat → Nat → Nat
  | 0, _, r => r
  | k + 1, n, r => isqrtFrom k n (if (r + 2 ^ k) * (r + 2 ^ k) ≤ n then r + 2 ^ k else r)

/-- The integer square root. -/
def isqrt (n : Nat) : Nat := isqrtFrom (bitLen n / 2 + 1) n 0

/-- A magnitude known as m × 2^e plus less than 2^e, rounded: the tail is held in one more bit. -/
def roundSticky (f : Fmt) (md : Mode) (neg : Bool) (m : Nat) (e : Int) (tail : Bool) : Nat × Flags :=
  roundFin f md neg (2 * m + (if tail then 1 else 0)) (e - 1)

/-- Division (R252). -/
def divV (f : Fmt) (md : Mode) (a b : FVal) : Nat × Flags :=
  let neg := a.neg != b.neg
  if a.isNan || b.isNan then (f.nanBits, snanFlag [a, b])
  else
    match a, b with
    | .inf _, .inf _ => (f.nanBits, NV)
    | .inf _, _ => (infOf f neg, 0#6)
    | _, .inf _ => (zeroOf f neg, 0#6)
    | .fin _ m e, .fin _ m' e' =>
      if m' = 0 then (if m = 0 then (f.nanBits, NV) else (infOf f neg, DZ))
      else if m = 0 then (zeroOf f neg, 0#6)
      else
        let n := m * 2 ^ 64
        roundSticky f md neg (n / m') (e - e' - 64) (decide (n % m' ≠ 0))
    | _, _ => (f.nanBits, 0#6)

/-- A finite magnitude with an even exponent and a wide significand. -/
def evenExp (m : Nat) (e : Int) : Nat × Int := if e % 2 = 0 then (m, e) else (2 * m, e - 1)

/-- Square root (R252). -/
def sqrtV (f : Fmt) (md : Mode) (a : FVal) : Nat × Flags :=
  match a with
  | .nan s => (f.nanBits, flagIf s NV)
  | .inf n => if n then (f.nanBits, NV) else (infOf f false, 0#6)
  | .fin n m e =>
    if m = 0 then (zeroOf f n, 0#6)
    else if n then (f.nanBits, NV)
    else
      let (m, e) := evenExp m e
      let w := m * 2 ^ 64
      let r := isqrt w
      roundSticky f md false r (e / 2 - 32) (decide (r * r ≠ w))

/-- Reciprocal square root (R252). -/
def rsqrtV (f : Fmt) (md : Mode) (a : FVal) : Nat × Flags :=
  match a with
  | .nan s => (f.nanBits, flagIf s NV)
  | .inf n => if n then (f.nanBits, NV) else (zeroOf f false, 0#6)
  | .fin n m e =>
    if m = 0 then (infOf f n, DZ)
    else if n then (f.nanBits, NV)
    else
      let (m, e) := evenExp m e
      let r := isqrt (2 ^ 160 / m)
      roundSticky f md false r (-(e / 2) - 80) (decide (r * r * m ≠ 2 ^ 160))

/-- The working precision of exp2 and log2, in bits after the point (log 14). -/
def prec : Nat := 320

/-- ln 2 × 2^prec, rounded down within a few units: the sum of 1 / (k 2^k). -/
def ln2Fix : Nat := (List.range 330).foldl (fun a k => a + 2 ^ (prec + 16) / ((k + 1) * 2 ^ (k + 1))) 0 / 2 ^ 16

/-- exp(y) × 2^prec for y × 2^prec in 0 .. ln 2: the exponential series. -/
def expFix (y : Nat) : Nat :=
  ((List.range 90).foldl
    (fun (acc : Nat × Nat) k => (acc.1 + acc.2, acc.2 * y / 2 ^ prec / (k + 1))) (0, 2 ^ prec)).1

/-- 2^x correctly rounded (R252): exact at the integers, and elsewhere irrational, so never a tie. -/
def exp2V (f : Fmt) (md : Mode) (a : FVal) : Nat × Flags :=
  match a with
  | .nan s => (f.nanBits, flagIf s NV)
  | .inf n => if n then (zeroOf f false, 0#6) else (infOf f false, 0#6)
  | .fin n m e =>
    if m = 0 then roundFin f md false 1 0
    else if 20 < e + bitLen m then
      -- beyond every finite magnitude and every subnormal of the format
      if n then roundFin f md false 1 (-(2 : Int) ^ 12) else roundFin f md false 1 (2 ^ 12)
    else if 0 ≤ e then
      let k : Int := (m : Int) * 2 ^ e.toNat
      roundFin f md false 1 (if n then -k else k)
    else
      let w := m / 2 ^ (-e).toNat
      let fr := m % 2 ^ (-e).toNat
      if fr = 0 then roundFin f md false 1 (if n then -(w : Int) else w)
      else
        -- x = k + t with t in (0, 1)
        let k : Int := if n then -(w : Int) - 1 else w
        let t := if n then 2 ^ (-e).toNat - fr else fr
        let y := t * ln2Fix / 2 ^ (-e).toNat
        roundSticky f md false (expFix y) (k - prec) true

/-- ln m × 2^prec for a rational m = p / q at least 1 and below 2: twice the series of artanh((m − 1)/(m + 1)). -/
def lnFix (p q : Nat) : Nat :=
  let z := (p - q) * 2 ^ prec / (p + q)
  let z2 := z * z / 2 ^ prec
  2 * ((List.range 110).foldl
    (fun (acc : Nat × Nat) k => (acc.1 + acc.2 / (2 * k + 1), acc.2 * z2 / 2 ^ prec)) (0, z)).1

/-- log2 x correctly rounded (R252): exact at the powers of two, and elsewhere irrational. -/
def log2V (f : Fmt) (md : Mode) (a : FVal) : Nat × Flags :=
  match a with
  | .nan s => (f.nanBits, flagIf s NV)
  | .inf n => if n then (f.nanBits, NV) else (infOf f false, 0#6)
  | .fin n m e =>
    if m = 0 then (infOf f true, DZ)
    else if n then (f.nanBits, NV)
    else
      let k : Int := e + bitLen m - 1
      let top := 2 ^ (bitLen m - 1)
      if m = top then roundDy f md false ⟨k, 0⟩
      else
        let lg := lnFix m top * 2 ^ prec / ln2Fix
        let v : Int := k * 2 ^ prec + lg
        -- a value below zero is held by its magnitude, which the tail then lies below
        if 0 ≤ v then roundSticky f md false v.toNat (-(prec : Int)) true
        else roundSticky f md true (v.natAbs - 1) (-(prec : Int)) true

/-! ### Conversions (R126, R253) -/

/-- An integer rounded to a format (R126). -/
def ofInt (f : Fmt) (md : Mode) (v : Int) : Nat × Flags := roundDy f md false ⟨v, 0⟩

/-- An exact number rounded to an integer, with whether it changed. -/
def toIntDy (md : Mode) (d : Dy) : Int × Bool :=
  let r := roundShift md (decide (d.m < 0)) d.m.natAbs (-d.e)
  (if d.m < 0 then -(r.1 : Int) else r.1, r.2)

/-- A value converted to a signed integer of `w` bits, saturated (R126). -/
def toInt (md : Mode) (w : Nat) (a : FVal) : Int × Flags :=
  let hi : Int := 2 ^ (w - 1) - 1
  let lo : Int := -(2 ^ (w - 1))
  match a with
  | .nan _ => (0, NV)
  | .inf n => (if n then lo else hi, NV)
  | .fin n m e =>
    let r := toIntDy md (FVal.dy (.fin n m e))
    if hi < r.1 then (hi, NV) else if r.1 < lo then (lo, NV) else (r.1, flagIf r.2 NX)

/-- A value rounded to another IEEE format (R253). -/
def cvt (f : Fmt) (md : Mode) (a : FVal) : Nat × Flags :=
  match a with
  | .nan s => (f.nanBits, flagIf s NV)
  | .inf n => (infOf f n, 0#6)
  | .fin n m e => roundDy f md n (FVal.dy (.fin n m e))

/-- A value written under a clamp bound, given as bits of the format (R133): first rounded as if the range were
unbounded, then held to the bound. RNE always. -/
def cvtClamp (f : Fmt) (bound : Option Nat) (a : FVal) : Nat :=
  match bound with
  | none => (cvt f .rne a).1
  | some b =>
    match a with
    | .nan _ => f.nanBits
    | .inf n => zeroOf f n + b
    | .fin n m e => if m = 0 then zeroOf f n else zeroOf f n + min (roundMag f .rne n m e).1 b

/-! ### BX blocks (R127-R129) -/

/-- A BX format: element width, magnitude scale exponent (32, 8 or 2) and largest magnitude (R127). -/
structure BxFmt where
  w : Nat
  sc : Nat
  mmax : Nat
  deriving DecidableEq, Repr

/-- BX8 (R127). -/
def bx8 : BxFmt := ⟨8, 5, 63⟩
/-- BX6 (R127). -/
def bx6 : BxFmt := ⟨6, 3, 15⟩
/-- BX4 (R127). -/
def bx4 : BxFmt := ⟨4, 1, 3⟩

/-- The bytes of one block in the element plane (R128). -/
def BxFmt.blockBytes (b : BxFmt) : Nat := 4 * b.w

/-- The value of an element with the block's exponents (R127). -/
def bxValue (b : BxFmt) (e0 e1 : Nat) (el : Nat) : FVal :=
  let sel := el / 2 ^ (b.w - 1) % 2
  let s := el / 2 ^ (b.w - 2) % 2
  let m := el % 2 ^ (b.w - 2)
  let ex := if sel = 0 then e0 else e1
  if ex = 255 then .nan false else .fin (decide (s = 1)) m ((ex : Int) - 127 - b.sc)

/-- Element `k` of a block's bytes (R128). -/
def bxElem (b : BxFmt) (block : Nat) (k : Nat) : Nat := block / 2 ^ (b.w * k) % 2 ^ b.w

/-- rne_int of a magnitude over the grid at E (R129): the rounded multiple. -/
def bxMag (b : BxFmt) (mag : Nat) (e : Int) (ex : Nat) : Nat :=
  (roundShift .rne false mag ((ex : Int) - 127 - b.sc - e)).1

/-- The clamp bound of a BX record (R129, R133): the default is the largest magnitude at 0xFE. -/
def bxBound (b : BxFmt) (clamp : BitVec 32) : Dy :=
  if clamp = 0#32 then ⟨b.mmax, 127 - (b.sc : Int)⟩ else (f32 clamp).dy

/-- The smallest exponent 0 .. 0xFE at which a magnitude fits (R129). -/
def bxFit (b : BxFmt) (t : Dy) : Nat :=
  ((List.range 255).find? fun ex => decide (bxMag b t.m.natAbs t.e ex ≤ b.mmax)).getD 254

/-- The element that R129 chooses for one value, with whether the clamp changed it. -/
def bxElement (b : BxFmt) (bound : Dy) (e0 e1 : Nat) (x : FVal) : Nat × Bool :=
  match x with
  | .nan _ => (2 ^ (b.w - 1), false)
  | .inf n =>
    -- an infinity never fits, unless E1 is 0xFF, and takes the bound's magnitude
    let sel := if e1 = 255 then 0 else 1
    let ex := if e1 = 255 then e0 else e1
    let m := bxMag b bound.m.natAbs bound.e ex
    (sel * 2 ^ (b.w - 1) + (if n then 2 ^ (b.w - 2) else 0) + m, true)
  | .fin n mag e =>
    let low := decide (e1 = 255) || decide (bxMag b mag e e0 ≤ b.mmax)
    let ex := if low then e0 else e1
    let m := bxMag b mag e ex
    let past := Dy.lt bound ⟨m, (ex : Int) - 127 - b.sc⟩
    let m := if past then bxMag b bound.m.natAbs bound.e ex else m
    ((if low then 0 else 2 ^ (b.w - 1)) + (if n then 2 ^ (b.w - 2) else 0) + m, past)

/-- The two exponents of a block (R129). -/
def bxExps (b : BxFmt) (split : Nat) (bound : Dy) (x : List FVal) : Nat × Nat :=
  let big := x.foldl (fun (a : Dy) v =>
    match v with
    | .nan _ => a
    | .inf _ => bound
    | .fin _ m e => if Dy.lt a ⟨m, e⟩ then ⟨m, e⟩ else a) ⟨0, 0⟩
  let t := if Dy.lt bound big then bound else big
  let ef := bxFit b t
  if x.any FVal.isNan then (ef, 255) else (ef - split, ef)

/-- A block encoded from 32 exact values (R129): E0, E1, elements, and whether the clamp changed any. -/
def bxEncode (b : BxFmt) (split : Nat) (clamp : BitVec 32) (x : List FVal) : Nat × Nat × List Nat × Bool :=
  let bound := bxBound b clamp
  let es := bxExps b split bound x
  let els := x.map (bxElement b bound es.1 es.2)
  (es.1, es.2, els.map Prod.fst, els.any Prod.snd)

/-- Elements packed into the block's number (R128). -/
def bxPack (b : BxFmt) (els : List Nat) : Nat := els.foldr (fun el acc => el + 2 ^ b.w * acc) 0

/-- Whether a non-zero FP32 bound lies on the grid of some exponent with a magnitude of at least 1 (R130). -/
def bxOnGrid (b : BxFmt) (clamp : BitVec 32) : Bool :=
  match f32 clamp with
  | .fin false m e =>
    decide (m ≠ 0) && (List.range 255).any fun ex =>
      let k := bxMag b m e ex
      decide (1 ≤ k ∧ k ≤ b.mmax) && Dy.eqv ⟨m, e⟩ ⟨k, (ex : Int) - 127 - b.sc⟩
  | _ => false

/-! ### The order of sums (R136-R140) -/

/-- One term of an exact sum: a product of two values (R136, R139). -/
def mulExact (a b : FVal) : FVal :=
  if a.isNan || b.isNan then .nan false
  else if a.isInf || b.isInf then
    if a.isZero || b.isZero then .nan false else .inf (a.neg != b.neg)
  else
    let p := Dy.mul a.dy b.dy
    .fin (a.neg != b.neg) p.m.natAbs p.e

/-- An exact sum of terms with the rules of R136 and R139 on NaN, infinity and the sign of zero. -/
def sumExact (l : List FVal) : FVal :=
  if l.any FVal.isNan then .nan false
  else
    let pos := l.any (fun v => v.isInf && !v.neg)
    let neg := l.any (fun v => v.isInf && v.neg)
    if pos && neg then .nan false
    else if pos then .inf false
    else if neg then .inf true
    else
      let s := l.foldl (fun a v => Dy.add a v.dy) ⟨0, 0⟩
      if s.m = 0 then .fin (decide (l ≠ []) && l.all FVal.neg) 0 0
      else .fin (decide (s.m < 0)) s.m.natAbs s.e

/-- The block dot product of a step rounded once to FP32, as bits (R136). -/
def dot32 (a b : List FVal) : Nat :=
  (cvt fp32 .rne (sumExact (List.zipWith mulExact a b))).1

/-- One node of a reduction sum (R137, R140): an exact zero is −0 only when both sides are −0. -/
def sumNode (f : Fmt) (md : Mode) (a b : Nat) : Nat × Flags :=
  let x := ofBits f a
  let y := ofBits f b
  let d := Dy.add x.dy y.dy
  if !x.isNan && !y.isNan && !x.isInf && !y.isInf && decide (d.m = 0) then
    (zeroOf f (x.isZero && y.isZero && x.neg && y.neg), 0#6)
  else addV f md x y

/-- One node of a reduction maximum or minimum (R140). -/
def maxminNode (f : Fmt) (wantMax : Bool) (a b : Nat) : Nat × Flags :=
  minmaxV f wantMax (ofBits f a) (ofBits f b) a b

/-- One stage of the tree of R137: the lower half joined with the upper half. -/
def treeStage (node : Nat → Nat → Nat × Flags) (h : Nat) (l : List Nat) : List Nat × Flags :=
  let r := List.zipWith node (l.take h) (l.drop h)
  (r.map Prod.fst, r.foldl (fun a x => a ||| x.2) 0#6)

/-- The fixed pairwise tree over 64 leaves (R137). -/
def tree64 (node : Nat → Nat → Nat × Flags) (l : List Nat) : Nat × Flags :=
  let r := [32, 16, 8, 4, 2, 1].foldl (fun (a : List Nat × Flags) h =>
    let s := treeStage node h a.1
    (s.1, a.2 ||| s.2)) (l, 0#6)
  (r.1.headD 0, r.2)

/-- A node with empty children passes the other child on (R138). -/
def optNode {α : Type} (node : α → α → α) : Option α → Option α → Option α
  | some a, some b => some (node a b)
  | some a, none => some a
  | none, b => b

/-- The reduction tree over up to 8 sources (R138). -/
def tree8 {α : Type} (node : α → α → α) (l : List α) : Option α :=
  let n := optNode node
  n (n (n l[0]? l[1]?) (n l[2]? l[3]?)) (n (n l[4]? l[5]?) (n l[6]? l[7]?))

end Sys2Proof.Num
end

