-- ==== Sys2Proof/Machine/State.lean ====
section
/-!
DEFINITION. The state of the machine as plain data: contexts (08_seq_scalar R160), cores, the store with its pending
versions (04_memory, 18_clearing), launches and reactions (02_instants, 11_dispatch), the register blocks (21_spaces
R355 and after), the ports (23_system), and the model's own fields, which are marked so. INVENTORY.md lists every field
with its rule and its reset value.
-/

namespace Sys2Proof.Machine

/-! ### Why a run stops -/

/-- Why the machine stops with a fault. -/
inductive Fault where
  /-- Raised by the meaning of an event row whose data lie outside the bounds of Instr.wf (a core number above 528, a
  flit without 32 bytes): no part of the device brings such an event. Safe: the hardware never does this. -/
  | illFormed
  deriving DecidableEq, Repr

/-- Why the machine has no meaning for an instruction. -/
inductive Refusal where
  /-- Raised by an arm of exec whose instruction has no meaning in the model yet. Safe: nothing is claimed of it. -/
  | notModelled (mnemonic : String)
  deriving DecidableEq, Repr

/-! ### Values -/

/-- A scalar with its clock tag and taint (R71). -/
structure SVal where
  w : Word
  tag : Tag
  taint : Bool
  deriving DecidableEq, Repr

/-- A vector with its one clock tag and one taint (R71). -/
structure VVal where
  lanes : Lanes
  tag : Tag
  taint : Bool
  deriving DecidableEq, Repr

/-- A value that a move carries (R71). -/
inductive Value where
  | sc (x : SVal)
  | ve (x : VVal)
  deriving DecidableEq, Repr

/-- Scalar zero, tag 0xF, taint clear: the entry value of R35. -/
def SVal.zero : SVal := ⟨0#64, Tag.any, false⟩

/-- 64 zero lanes, tag 0xF, taint clear (R35). -/
def VVal.zero : VVal := ⟨Vector.replicate 64 0#32, Tag.any, false⟩

/-- A half-open range of location keys: first key and length. -/
structure Range where
  key : Nat
  len : Nat
  deriving DecidableEq, Repr

/-! ### Traps, blocks and what the last move did -/

/-- A trap a group raises (R63, R208): cause, check class and the INFO of `ctx.tinfo` (R210), with the slot of the
offending move, whether that move lies in the bundle after the group's first one, and the move as encoded. -/
structure Trap where
  cause : Byte
  cls : Nat
  info : Word
  slot : Nat
  nextb : Bool
  move : BitVec 24
  deriving DecidableEq, Repr

/-- Why a context's next group may not issue (R205). -/
inductive Block where
  /-- a full engine queue (R78) -/
  | queue (u : Unit11)
  /-- a range hold (R98) on these ranges, read and written -/
  | hold (rd wr : List Range)
  /-- an unmet counter wait (R195): selector and threshold -/
  | wait (sel n : Word)
  /-- a fence of a scope (R119) -/
  | fence (scope : Nat)
  /-- a yield until these siblings have issued or stopped being ready (R199, R206) -/
  | yield (siblings : List Nat)
  /-- a full/empty wait on a line for full or for empty (R99) -/
  | fe (line : Nat) (full : Bool)
  /-- a fifth pending version or full version storage (R90, R318) -/
  | version
  /-- sets that an older reaction holds (R323), touched at these ranges -/
  | set (touched : List Range)
  /-- `cp.waitb` until at most `n` batches are outstanding (R300) -/
  | waitb (n : Nat)
  /-- `mx.drain` (R290) -/
  | mxDrain
  /-- tiles that the group reads and writes, a bit each (`a0` lowest, `c0` bit 8), and whether it is a step: it waits
  frozen on the matrix scoreboard (R279) -/
  | tiles (rd wr : Nat) (step : Bool)
  /-- `ms.fence` (R333) -/
  | msFence
  /-- `sy.tend` until every command has reported (R198) -/
  | tend
  /-- a handler whose first group waits until the commands that the program has started are complete (R214, R219) -/
  | drain
  /-- a reaction of an open launch that has trapped: its contexts are freed once what it has started is complete (R212, R214) -/
  | ending
  /-- `sv.ptmc` until the ordering point has decided (R360): entry address, new value, completion selector -/
  | ptmc (addr : Nat) (value : Word) (sel : Nat)
  /-- `sv.tinv` (R359) -/
  | tinv (sid : Nat)
  /-- `sv.idle` (R362) -/
  | idle
  /-- a walk that waits on the migration counter of a die (R345) -/
  | walk (die : Nat)
  /-- remote data that has not arrived (R111), or a walk under a space that another device continues from an entry at a
  level (R347), or with no walk and the number 1 for a space a bundle (R412); with the freeze cause and the address of R372 -/
  | remote (dev addr : Nat) (walk : Option (Word × Nat)) (sid why va : Nat)
  deriving DecidableEq, Repr

/-- Why a context is held by a precise stop (R205, R214). -/
inductive StopWhy where
  /-- BREAK, WATCH, HALTREQ or STEP (R375, R376) -/
  | halt
  /-- a supervisor trap with entry 0 (R362) -/
  | trapEntry0
  /-- clock-gated by parking (R409) -/
  | gated
  deriving DecidableEq, Repr

/-- The state of a context (R205). -/
inductive Status where
  | idle
  | ready
  | blocked (b : Block)
  | stopped (why : StopWhy) (was : Option Block)
  deriving DecidableEq, Repr

/-- What the last move executed did: the model's own field, by which step puts a group together (R63). -/
inductive Last where
  | done
  | trapped (t : Trap)
  | blocked (b : Block)
  /-- the read of a poisoned line reset the partition (R400) -/
  | poisoned (p : Nat)
  deriving DecidableEq, Repr

/-! ### Contexts -/

/-- Where a result lands (R74, R163, R181, R183, R188, R277, R359, R362). -/
inductive Land where
  | port (p : Port)
  /-- a `cwr` of a ctx register -/
  | ctxReg (n : Nat)
  /-- the DROPS increment of `ck.mergep` -/
  | dropAdd
  /-- the definition of a clock register -/
  | clock (n : Nat) (present : Bool)
  /-- a loop arm: count, first bundle, end bundle -/
  | loopArm (n : Nat) (lc f e : Word)
  /-- `br.lpend` -/
  | lpend (n : Nat)
  /-- `mx.loop`, `mx.step` and `mx.off`: the new loop state in the bits of a mask -/
  | mxLoop (w mask : Word)
  /-- `sv.space` -/
  | space (sid : BitVec 16)
  /-- `sv.tent` -/
  | tent (a : Word)
  /-- flags alone (R248), or a record read that freezes the core when late (R280, R297) -/
  | flagsOnly
  deriving DecidableEq, Repr

/-- How the bytes of a load become its value once they are here (R171, R189, R264, R266). -/
inductive Conv where
  /-- a scalar of the low bytes, sign-extended or not -/
  | scalar (w : Nat) (signed : Bool)
  /-- a delay cell: VAL with the sector's taint if it is valid, else another value with its own taint (R189) -/
  | cell (alt : Word) (altTaint secTaint : Bool)
  /-- four bytes for each of some lanes in order; the others are 0 -/
  | lanes (act : List Nat)
  deriving DecidableEq, Repr

/-- A part of a load's bytes that another device has been asked for: device, number of the request's flit, its first byte among
the load's bytes, and how many (R111). -/
structure Want where
  dev : Nat
  seq : Nat
  at_ : Nat
  n : Nat
  deriving DecidableEq, Repr

/-- A load that waits for bytes of other devices: its bytes as far as they are here, what it has asked for, and how they become
its value, with the value's tag and the taint that it has whatever the bytes (R77, R111). -/
structure Await where
  bytes : List (Option Byte)
  wants : List Want
  conv : Conv
  tag : Tag
  taint : Bool
  deriving DecidableEq, Repr

/-- A result that has not landed: schedule cycles left, where it lands, its value, its flags, and whether its data is
still late, with the freeze causes and the address of R372, the load-block whose fill it waits for (context and base, R89), and
the data of other devices it waits for (R111). -/
structure Pend where
  left : Nat
  dest : Land
  val : Value
  flags : Num.Flags
  late : Bool
  fcause : List Nat
  addr : Word
  fill : Option (Nat × Nat)
  await : Option Await
  deriving DecidableEq, Repr

/-- One hardware loop (R180). -/
structure Loop where
  lc : Word
  f : Word
  e : Word
  deriving DecidableEq, Repr

/-- The trap registers of a context (R210). -/
structure TrapRegs where
  tcause : Word
  tgrp : Word
  tinfo : Word
  tmove : Word
  topo : Word
  topp : Word
  topt : Word
  tres : Word
  tresTaint : Bool
  deriving DecidableEq, Repr

/-- A pending control transfer: the trigger's bundle and the target if it is taken (R64, R65). -/
structure Delay where
  b : Word
  target : Option Word
  deriving DecidableEq, Repr

/-- A load-block: first line address, lines, the locations of its lines, whether filled, whether to evict once filled, counter
selector, and the taint of its add (R89, R174). -/
structure LoadBlock where
  base : Nat
  lines : Nat
  ranges : List Range
  filled : Bool
  evict : Bool
  sel : Nat
  tainted : Bool
  deriving DecidableEq, Repr

/-- An accumulator tile or an A tile: its bytes as one list, lowest first, with tag and taint (R274, R275). An A tile
has 4,096 bytes, an accumulator tile 16,384; a byte beyond the list is 0. -/
structure Tile where
  bytes : List Byte
  tag : Tag
  taint : Bool
  deriving DecidableEq, Repr

/-- A tile of zeros with tag 0xF and taint clear (R275): no byte listed. -/
def Tile.zero : Tile := ⟨[], Tag.any, false⟩

/-- The reaction a context runs: launch, stamp and entry number of the member (R48). -/
structure RunRef where
  lid : Nat
  stamp : Nat
  entry : Nat
  deriving DecidableEq, Repr

/-! ### Pieces (R108, R410) -/

/-- The kind of page or level a piece lies in. -/
inductive PageKind where
  /-- lane slice, core scratchpad or grove memory -/
  | local_
  /-- die scratchpad -/
  | dsp
  /-- a page with VER -/
  | ver
  /-- a page with neither VER nor MS -/
  | direct
  /-- a page with MS -/
  | ms
  /-- a page of another device: versioned, memory-side, or neither -/
  | remote (dev : Nat) (ver ms : Bool)
  deriving DecidableEq, Repr

/-- A piece of an access: at most 32 bytes within one sector. -/
structure Piece where
  va : Nat
  n : Nat
  key : Nat
  page : PageKind
  deriving DecidableEq, Repr

/-- A remote load or walk of a context (R111, R347): destination device, address there (or the address walked), the entry
and level a walk continues from, the sequence number of its flit, the response data once it is here, and whether it is that of a
load which has issued, so that the data land with the load's result (R77). -/
structure RemoteReq where
  x : CtxRef
  dev : Nat
  addr : Nat
  walk : Option (Word × Nat)
  seq : Nat
  resp : Option (List Byte)
  load : Bool
  deriving DecidableEq, Repr

/-- An engine command, queued or running: its number in the core's program order, the context and reaction that issued
it, its trigger port, the captured operands, the record, descriptor, table or index bytes read at the trigger (R280,
R297, R332), the pieces it reads and writes in element order (R98), the ranges of the sets its reaction held at the
trigger, all of them and those that taint nothing (R13, R104, R328), its data taint from the trigger, its completion
selector and count (R298), the slot of the canopy walk and the step format (R287), its batch (R299), whether it has
started, whether its effect is made but not yet acknowledged by another device (R14, R115), the stack of a memory-side
operation, and the bundle and cycle of its group (R373). -/
structure Cmd where
  id : Nat
  ctx : Nat
  react : Option RunRef
  port : Nat
  o : Value
  p : Value
  t : Value
  recs : List (List Byte)
  reads : List Piece
  writes : List Piece
  held : List Range
  clean : List Range
  taint : Bool
  ctaint : Bool
  tag : Tag
  sel : Option Nat
  count : Word
  slot : Nat
  sfmt : Nat
  batch : Nat
  started : Bool
  sent : Bool
  stack : Nat
  group : Nat × Nat
  deriving DecidableEq, Repr

/-- A slot of the trapped group that the emulation handler has carried out (R221): slot, captured operand tags, and the
result that lands with the group. -/
structure EmuSlot where
  slot : Nat
  tags : List Tag
  result : Option Pend
  deriving DecidableEq, Repr

/-- What the emulation handler and a supervisor trap handler put aside (R219, R220, R362), with the number of the next command as
the handler began: the model's own, by which held adds of the program are told from the handler's (R116). -/
structure Bank where
  g : Vector SVal 64
  lo : Vector Value 11
  lp : Vector Value 11
  q : Vector Value 12
  loop0 : Loop
  loop1 : Loop
  pend : List Pend
  ffPre : Option Num.Flags
  pc : Word
  first : Nat
  delay : Option Delay
  mxq : List Cmd
  cpq : List Cmd
  msq : List Cmd
  batch : Nat
  seq : Nat
  deriving DecidableEq, Repr

/-- The markers of a run of a reaction (R239, R370, R371). -/
structure MarkState where
  start : Option Nat
  drift : Int
  armed : Bool
  mrem : Option Nat
  mcyc : Nat
  deriving DecidableEq, Repr

/-- No marker yet. -/
def MarkState.init : MarkState := ⟨none, 0, false, none, 0⟩

/-- The sizes of a reaction's allocation: bytes per lane, core scratchpad, grove memory, canopy element bytes per slice
(R227), and the owner of the grove allocation (R85). -/
structure Alloc where
  lsb : Nat
  spb : Nat
  grb : Nat
  cnb : Nat
  grvOwner : Nat
  deriving DecidableEq, Repr

/-- A hardware context (R160). -/
structure Ctx where
  g : Vector SVal 64
  v : Vector VVal 32
  kdef : BitVec 16
  kpres : BitVec 16
  lo : Vector Value 11
  lp : Vector Value 11
  q : Vector Value 12
  pend : List Pend
  at8 : Vector Tile 8
  ct4 : Vector Tile 4
  mxl : Word
  loop0 : Loop
  loop1 : Loop
  fpm : BitVec 2
  ff : Num.Flags
  /-- `ctx.ff` as it stood before the flags that land in this schedule cycle (R135) -/
  ffPre : Option Num.Flags
  stamp : Word
  drop : BitVec 32
  emu : Bool
  ord : Bool
  strict : Bool
  cyc : BitVec 48
  nrg : BitVec 48
  tr : TrapRegs
  ctaint : Bool
  lctr : Vector Word 16
  blocks : List LoadBlock
  pc : Word
  first : Nat
  delay : Option Delay
  status : Status
  run : Nat
  bank : Option Bank
  /-- slots of the stopped group already emulated (R221) -/
  emuDone : List EmuSlot
  /-- the value written to `ctx.tret`, which ends the handler with its group (R221) -/
  tret : Option Word
  /-- `sv.eret` has ended the handler with its group (R362) -/
  eret : Bool
  sid : BitVec 16
  tent : Word
  wake : Bool
  react : Option RunRef
  alloc : Alloc
  batch : Nat
  lastCnt : Word
  mark : MarkState
  skipBreak : Bool
  skipWatch : List Nat
  feWait : Option (Nat × Nat)
  walkExpired : Bool
  deriving DecidableEq, Repr

/-- A disarmed loop (R180). -/
def Loop.zero : Loop := ⟨0#64, 0#64, 0#64⟩

/-- Trap registers at partition reset (R210). -/
def TrapRegs.zero : TrapRegs := ⟨0#64, 0#64, 0#64, 0#64, 0#64, 0#64, 0#64, 0#64, false⟩

/-- The result ports of R35: scalar zeros, and for `ve.q` (number 6) 64 zero lanes. -/
def Ctx.entryPorts : Vector Value 12 := (Vector.replicate 12 (.sc SVal.zero)).set 6 (.ve VVal.zero)

/-- A context after partition reset (R35, R162, R210; log 10 for the registers the spec gives no reset value). -/
def Ctx.reset : Ctx where
  g := Vector.replicate 64 SVal.zero
  v := Vector.replicate 32 VVal.zero
  kdef := 0x8001#16
  kpres := 0x8001#16
  lo := Vector.replicate 11 (.sc SVal.zero)
  lp := Vector.replicate 11 (.sc SVal.zero)
  q := Ctx.entryPorts
  pend := []
  at8 := Vector.replicate 8 Tile.zero
  ct4 := Vector.replicate 4 Tile.zero
  mxl := 0#64
  loop0 := Loop.zero
  loop1 := Loop.zero
  fpm := 0#2
  ff := 0#6
  ffPre := none
  stamp := 0#64
  drop := 0#32
  emu := false
  ord := false
  strict := false
  cyc := 0#48
  nrg := 0#48
  tr := TrapRegs.zero
  ctaint := false
  lctr := Vector.replicate 16 0#64
  blocks := []
  pc := 0#64
  first := 0
  delay := none
  status := .idle
  run := 0
  bank := none
  emuDone := []
  tret := none
  eret := false
  sid := 0#16
  tent := 0#64
  wake := false
  react := none
  alloc := ⟨0, 0, 0, 0, 0⟩
  batch := 0
  lastCnt := 0#64
  mark := MarkState.init
  skipBreak := false
  skipWatch := []
  feWait := none
  walkExpired := false

/-! ### Commands and cores -/

/-- A `sy.add` held under R116: adding context, counter selector with the die of the add put in for kind 0x2 (R191), increment,
taint, and the command number below which every command of the context must have been performed. -/
structure HeldAdd where
  ctx : Nat
  ctr : Nat
  n : Word
  tainted : Bool
  before : Nat
  deriving DecidableEq, Repr

/-- The freeze line of a core (R203, R372): causes that took part, the last one, the core cycle it began, the first
late address. -/
structure Freeze where
  cmask : BitVec 8
  last : Nat
  since : Nat
  addr : Word
  deriving DecidableEq, Repr

/-- A core (R9): contexts, the running one and whether it has finished since it last issued (R205), the freeze line, the engine
queues and the held adds. -/
structure Core where
  ctxs : Vector Ctx 4
  running : Option Nat
  ended : Bool
  freeze : Option Freeze
  mxq : List Cmd
  cpq : List Cmd
  msq : List Cmd
  adds : List HeldAdd
  seq : Nat
  stbl : Option (List Byte)
  gated : Bool
  deriving DecidableEq, Repr

/-- The number of a core's first command in program order; captured commands given back stand below those that wait (R217). The
model's own. -/
def Core.firstCmd : Nat := 2 ^ 32

/-- A compute core after partition reset. -/
def Core.reset : Core where
  ctxs := Vector.replicate 4 Ctx.reset
  running := none
  ended := false
  freeze := none
  mxq := []
  cpq := []
  msq := []
  adds := []
  seq := Core.firstCmd
  stbl := none
  gated := false

/-- A core after partition reset, by number: on supervisor and management cores every result port is a scalar latch
(R69). -/
def Core.resetAt (n : Nat) : Core :=
  if n < 512 then Core.reset
  else { Core.reset with ctxs := Vector.replicate 4 { Ctx.reset with q := Vector.replicate 12 (.sc SVal.zero) } }

/-! ### The store and its versions -/

/-- The update of a memory-side operation (R331). -/
inductive MsUpd where
  | addF32 | addS64 | maxS64 | minS64 | orB64 | swap | cas
  deriving DecidableEq, Repr

/-- One effect of a reaction of an ordered launch, held until clearing (R15, R103, R193, R329): bytes stored within one
sector (with the data taint, whether it is a set store, whether it stands in a memory-side log, and the entry of the
member that stored), a memory-side operation, an add to a shared counter, or the place in issue order of a command that
has not completed (R319). -/
inductive Eff where
  | store (key : Nat) (bytes : List Byte) (taint isSet ms : Bool) (who : Nat)
  | msop (op : MsUpd) (key : Nat) (t p : Word) (taint : Bool)
  | add (ctr : Nat) (n : Word) (tainted : Bool)
  | cmd (core id : Nat)
  deriving DecidableEq, Repr

/-- The effect log of a reaction, oldest first. -/
structure RLog where
  lid : Nat
  stamp : Nat
  effs : List Eff
  deriving DecidableEq, Repr

/-- The full/empty state of a full line (R44): line key, producer's launch and stamp, and the entry of the producing
member. Lines not listed are empty. -/
structure FeLine where
  line : Nat
  lid : Nat
  stamp : Nat
  entry : Nat
  inst : Nat
  deriving DecidableEq, Repr

/-- A channel consumption to be undone if the consumer is discarded (R46). -/
structure Consumed where
  lid : Nat
  stamp : Nat
  line : Nat
  bytes : List Byte
  taints : List Bool
  producer : FeLine
  deriving DecidableEq, Repr

/-- A read lease (R102): line, reader, the device the reader runs on (R114), and the writers whose stores it read. -/
structure Lease where
  lid : Nat
  stamp : Nat
  line : Nat
  dev : Nat
  from_ : List Nat
  deriving DecidableEq, Repr

/-- A dependence edge (R45) or a set load (R325): producer and consumer stamps, and the line where they met. -/
structure Edge where
  lid : Nat
  producer : Nat
  consumer : Nat
  line : Nat
  deriving DecidableEq, Repr

/-- A store made since the current instant of an open launch began (R107): that launch, the sector, who stored it, and
whether it was a set store. -/
structure Recent where
  lid : Nat
  sector : Nat
  agent : Option RunRef
  isSet : Bool
  deriving DecidableEq, Repr

/-- The store: bytes by location key, tainted sectors, full lines, poisoned lines, effect logs, cleared versions not
merged (line, launch, instant), leases, edges and repair records. -/
structure Store where
  mem : List Host.Cell
  taint : List Nat
  fe : List FeLine
  poison : List Nat
  logs : List RLog
  unmerged : List (Nat × Nat × Nat)
  leases : List Lease
  edges : List Edge
  setReads : List Edge
  consumed : List Consumed
  recent : List Recent
  deriving DecidableEq, Repr

/-- The store at reset: nothing listed. -/
def Store.reset : Store := ⟨[], [], [], [], [], [], [], [], [], [], []⟩

/-! ### Launches -/

/-- A counter grant (R225). -/
structure Grant where
  sel : Nat
  count : Nat
  deriving DecidableEq, Repr

/-- A pipe (R225). -/
structure Pipe where
  name : Nat
  prod : Nat
  cons : Nat
  offset : Nat
  lines : Nat
  deriving DecidableEq, Repr

/-- The fields of a launch record (R224). -/
structure Record where
  lmagic : Nat
  lver : Nat
  nsub : Nat
  open_ : Bool
  strict : Bool
  fpm : BitVec 2
  diemask : BitVec 8
  ninst : Nat
  args : Nat
  entries : Nat
  emuh : Nat
  savebase : Nat
  savecnt : Nat
  saveslot : Nat
  status : Nat
  chcore : Nat
  chgrove : Nat
  grants : List Grant
  pipes : List Pipe
  deriving DecidableEq, Repr

/-- A threshold entry (R30, R227). -/
structure Thr where
  csel : Nat
  step : Nat
  base : Nat
  deriving DecidableEq, Repr

/-- The fields of a subprogram entry (R227), with its lists (R228). -/
structure Entry where
  hdr : Nat
  period : Nat
  phase : Nat
  width : Nat
  prio : Nat
  tok : Nat
  dcyc : Nat
  drain : Nat
  nthr : Nat
  thr : List Thr
  nvreg : Nat
  natile : Nat
  nctile : Nat
  spb : Nat
  lsb : Nat
  grb : Nat
  cnb : Nat
  asets : Nat
  naset : Nat
  leases : Nat
  nlease : Nat
  setList : List (Nat × Nat)
  leaseList : List (Nat × Nat)
  deriving DecidableEq, Repr

/-- The life of a reaction (R49); HELD passes to RUNNING at once. -/
inductive RState where
  | queued | running | finished | failed | retired
  deriving DecidableEq, Repr

/-- A pre-emption action chosen and not yet taken (R240). -/
inductive Action where
  | drain | kill | checkpoint
  deriving DecidableEq, Repr

/-- An atomic set of a reaction (R197, R228, R322): base, length, the location ranges of its lines, whether it is held,
and whether the reaction is or was a holder. -/
structure ASet where
  base : Nat
  len : Nat
  ranges : List Range
  held : Bool
  past : Bool
  /-- acquired after a younger past holder that was not wounded (R328) -/
  dirty : Bool
  deriving DecidableEq, Repr

/-- A trap record of a reaction (R211, R232): cause, INFO, core. -/
structure TrapRec where
  cause : Byte
  info : Word
  core : Nat
  deriving DecidableEq, Repr

/-- A member at its checkpoint (R214, R240, R243): its entry, where it ran, the context as it stood, its captured commands, its held
adds with the number of captured commands before each (R116), the image as written, and the taint and the full lines of
its allocations by kind and offset. -/
structure Saved where
  entry : Nat
  place : CtxRef
  ctx : Ctx
  cmds : List Cmd
  adds : List (HeldAdd × Nat)
  image : List Byte
  sectors : List (Nat × Nat)
  lines : List (Nat × Nat × FeLine)
  deriving DecidableEq, Repr

/-- A reaction, or a gang (R48), of an enqueued instant. -/
structure Reaction where
  stamp : Nat
  inst : Nat
  entry : Nat
  members : List Nat
  width : Nat
  st : RState
  prio : Nat
  tok : Nat
  die : Nat
  since : Nat
  places : List (CtxRef × Nat)
  tended : List Nat
  wounds : Nat
  slots : List Nat
  saved : List Saved
  sets : List ASet
  irrev : Bool
  trap : Option TrapRec
  action : Option Action
  lastCore : Nat
  deriving DecidableEq, Repr

/-- What a device that takes part in a launch has told (R114): instants finished there, found without a conflict, and cleared. -/
structure Peer where
  dev : Nat
  fin : Nat
  chk : Nat
  clr : Nat
  deriving DecidableEq, Repr

/-- Whether a reaction of another device waits for lines homed here, holds them, has been told there that an older reaction's touch
wounds it, or has held them (R323). -/
inductive Hold where
  | waits | holds | told | past
  deriving DecidableEq, Repr

/-- Lines homed here of an atomic set of another device's reaction (R114, R323): its stamp and device, the lines, and how it stands
to them. -/
structure Guest where
  stamp : Nat
  dev : Nat
  range : Range
  hold : Hold
  deriving DecidableEq, Repr

/-- Lines of an atomic set of a reaction of this device that are homed at another one, asked for there, and whether they are held
(R114, R323). -/
structure AwaySet where
  stamp : Nat
  range : Range
  held : Bool
  deriving DecidableEq, Repr

/-- The phase of a launch. -/
inductive Phase where
  | submitted | running | ending | ended
  deriving DecidableEq, Repr

/-- The report of a launch (R232). -/
structure Report where
  cause : Byte
  field : Nat
  nother : Nat
  stamp : Nat
  info : Word
  core : Nat
  taint : Bool
  deriving DecidableEq, Repr

/-- A launch (R22, R358): its SID, the counter given +1 at its end, the submitting core, the record as read, entries,
phase, next instant to enqueue, instants cleared or closed, reactions of uncleared instants, pins, save slots in use,
report to make, first open-launch trap order, the peers' progress in a launch that spans devices with the sets held over devices
and the instants this device has told them to be without conflict, the status record and cause that an ended launch has yet to
write, and the location ranges of each entry's sets and leases for each die (die, entry, the ranges of each set, leases), as the
accepted launch's walks found them (R237, R349). -/
structure Launch where
  lid : Nat
  sid : BitVec 16
  done : Nat
  core : Nat
  raw : List Byte
  record : Record
  entries : List Entry
  phase : Phase
  nextInst : Nat
  cleared : Nat
  reacts : List Reaction
  pins : List Nat
  slots : List Nat
  report : Option Report
  nother : Nat
  aborting : Bool
  peers : List Peer
  guests : List Guest
  away : List AwaySet
  checked : Nat
  closing : Option (Nat × Byte)
  maps : List (Nat × Nat × List (List Range) × List Range)
  deriving DecidableEq, Repr

/-! ### Registers, ports and the observation engine -/

/-- A port fault record (R357) with the port's held request. -/
structure FaultRec where
  va : Nat
  sid : BitVec 16
  issuer : Nat
  unit : Nat
  cause : Byte
  tag : BitVec 16
  entry : Word
  level : Nat
  write : Bool
  deriving DecidableEq, Repr

/-- What a request of the storage port was doing when its walk faulted. -/
inductive HeldKind where
  /-- reading entries of a submission queue -/
  | fetch
  /-- moving data of a Read into device memory -/
  | read
  /-- moving data of a Write out of device memory -/
  | write
  /-- writing a completion entry -/
  | complete
  /-- giving a counter its +1 once stores to other devices are acknowledged (R14) -/
  | release
  deriving DecidableEq, Repr

/-- A request of the storage port held under a fault tag (R357, R361): its queue pair, what it was doing, and the data or
the completion entry it moves. -/
structure HeldReq where
  die : Nat
  tag : BitVec 16
  q : Nat
  kind : HeldKind
  data : List Byte
  deriving DecidableEq, Repr

/-- The register blocks of one die (R321, R356, R382, R385, R393, R397, R399, R407). -/
structure DieRegs where
  cfg : BinDie
  devid : BitVec 6
  sptbase : BitVec 37
  migidx : BitVec 14
  podmask : BitVec 64
  tfrec : BitVec 256
  faultq : List FaultRec
  waiting : List FaultRec
  nextTag : BitVec 16
  tlbase : BitVec 50
  tlord : BitVec 5
  tlhead : Word
  tltail : Word
  tllost : Word
  wounds : BitVec 32
  perf : List (Nat × Word)
  /-- counters that counted in this core cycle: offset, value before, events (R383) -/
  perfCounted : List (Nat × Word × Nat)
  /-- counters written in this core cycle (R383) -/
  perfWritten : List Nat
  /-- configurations written in this core cycle, as they stood before (R383) -/
  perfOldCfg : List (Nat × Word)
  route : BitVec 256
  valid : BitVec 64
  fsid : BitVec 16
  stsid : BitVec 16
  wbase : BitVec 39
  access : Vector (BitVec 32) 57
  corep : BitVec 192
  supp : BitVec 6
  slicep : BitVec 96
  pchp : BitVec 480
  perr : Bool
  cecnt : Word
  uecnt : Word
  temp : Byte
  step : BitVec 3
  twarn : Byte
  tcrit : Byte
  thys : BitVec 4
  plimit : BitVec 12
  vcore : BitVec 9
  stepDue : Option (BitVec 3)
  deriving DecidableEq, Repr

/-- A die's registers at package reset: the Reset columns of R321, R356, R382, R393, R397, R399 and R407; the
configuration table is filled by the boot (R385, log 8). -/
def DieRegs.reset : DieRegs where
  cfg := ⟨0#64, 0#8, 0#8, 0#160, 0#64⟩
  devid := 0#6
  sptbase := 0#37
  migidx := 0#14
  podmask := 0#64
  tfrec := 0#256
  faultq := []
  waiting := []
  nextTag := 0#16
  tlbase := 0#50
  tlord := 0#5
  tlhead := 0#64
  tltail := 0#64
  tllost := 0#64
  wounds := 0#32
  perf := []
  perfCounted := []
  perfWritten := []
  perfOldCfg := []
  route := 0#256
  valid := 0#64
  fsid := 0#16
  stsid := 0#16
  wbase := 0#39
  access := Vector.replicate 57 0x00C00000#32
  corep := 0#192
  supp := 0#6
  slicep := 0#96
  pchp := 0#480
  perr := false
  cecnt := 0#64
  uecnt := 0#64
  temp := 0#8
  step := 0#3
  twarn := 95#8
  tcrit := 115#8
  thys := 5#4
  plimit := 2400#12
  vcore := 350#9
  stepDue := none

/-- A breakpoint or watchpoint word pair of R381, as 128 bits. -/
abbrev BpWord := BitVec 128

/-- A trace record as its 64 bytes (R373). -/
abbrev TraceRec := List Byte

/-- A sealed segment: SEQ and its 65,536 bytes, with whether its write has begun (R379, R380). -/
structure Segment where
  seq : Nat
  bytes : List Byte
  begun : Bool
  deriving DecidableEq, Repr

/-- The observation engine (R371-R381). -/
structure Obs where
  dthr : BitVec 32
  kmask : BitVec 6
  tqns : BitVec 32
  tqlen : BitVec 32
  tqlba : Word
  seq : Word
  sent : Word
  overwr : Word
  stepcore : BitVec 10
  stepctx : BitVec 2
  bp : Vector BpWord 8
  wp : Vector BpWord 4
  /-- the partition a breakpoint set in user debug state is confined to (R406); none: every core -/
  bpPart : Vector (Option Nat) 8
  /-- the same for watchpoints -/
  wpPart : Vector (Option Nat) 4
  open_ : List TraceRec
  tb0 : Nat
  sealed : List Segment
  deriving DecidableEq, Repr

/-- The observation engine at reset (R381). -/
def Obs.reset : Obs where
  dthr := 0xFFFFFFFF#32
  kmask := 0#6
  tqns := 0#32
  tqlen := 0#32
  tqlba := 0#64
  seq := 0#64
  sent := 0#64
  overwr := 0#64
  stepcore := 0#10
  stepctx := 0#2
  bp := Vector.replicate 8 0#128
  wp := Vector.replicate 4 0#128
  bpPart := Vector.replicate 8 none
  wpPart := Vector.replicate 4 none
  open_ := []
  tb0 := 0
  sealed := []

/-- The host port: window registers (R389), MSI-X table bytes, and the interrupts sent (R362). -/
structure HostPort where
  h2dtail : Word
  h2dhead : Word
  d2htail : Word
  d2hhead : Word
  svhalt : BitVec 16
  preset : BitVec 8
  ready : Bool
  msixTable : List Host.Cell
  msixSent : List Nat
  deriving DecidableEq, Repr

/-- The host port at reset (R389; the MSI-X table per log 9). -/
def HostPort.reset : HostPort := ⟨0#64, 0#64, 0#64, 0#64, 0#16, 0#8, false, [], []⟩

/-- A flit on its way out, until the peer has acknowledged it (R392, R393): link, flit, the core or agent it serves, and whose
store it is (R110): the context's (4 if none's), and the number of the engine command that makes it. -/
structure OutFlit where
  link : Nat
  flit : Flit
  core : Nat
  ctx : Nat
  cmd : Option Nat
  deriving DecidableEq, Repr

/-- The fabric (R392-R394): flits in flight, flits held by a route change, failures in a row per link, links down,
credits returned, sequence numbers per device, discarded flits, the clearing, lease and version messages sent, remote
requests, and counter values told by other devices. -/
structure Fabric where
  out : List OutFlit
  held : List OutFlit
  crcFails : List (Nat × Nat)
  down : List Nat
  credits : Nat
  seqs : List (Nat × Nat)
  discarded : Nat
  errors : Nat
  messages : List ClearMsg
  leaseMsgs : List LeaseMsg
  reqs : List RemoteReq
  remoteCtrs : List (Nat × Word)
  deriving DecidableEq, Repr

/-- The fabric at reset. -/
def Fabric.reset : Fabric := ⟨[], [], [], [], 0, [], 0, 0, [], [], [], []⟩

/-- A storage queue pair's registers (R395). -/
structure QPair where
  sqbase : BitVec 56
  cqbase : BitVec 56
  depth : BitVec 10
  conn : BitVec 3
  qid : BitVec 7
  csel : BitVec 32
  sqtail : BitVec 16
  cqhead : BitVec 16
  deriving DecidableEq, Repr

/-- A queue pair at reset (R395). -/
def QPair.reset : QPair := ⟨0#56, 0#56, 0#10, 0#3, 0#7, 0#32, 0#16, 0#16⟩

/-- The storage port (R395, R377): queue pairs written so far, submitted entries not yet taken, commands sent with
their data, position of the completion queue per pair, answers to packets and the number expected next, by queue pair, paused
connections, Keep Alives sent by connection, and pause frames by the queue pair whose packet brought them. -/
structure Storage where
  qpairs : List (Nat × QPair)
  sqhead : List (Nat × Nat)
  pending : List (Nat × List Byte)
  sent : List (Nat × List Byte × List Byte)
  cqtail : List (Nat × Nat)
  acks : List (Nat × BitVec 24 × Bool)
  expect : List (Nat × BitVec 24)
  paused : List Nat
  keepAlives : List Nat
  pauses : List Nat
  held : List HeldReq
  deriving DecidableEq, Repr

/-- The storage port at reset. -/
def Storage.reset : Storage := ⟨[], [], [], [], [], [], [], [], [], [], []⟩

/-- The flash of the management core (R387, R388, R402, R403). -/
structure Flash where
  slot0 : Option FwImage
  slot1 : Option FwImage
  bin : Option BinRecord
  devid : BitVec 6
  sealedKey : Option (List Byte)
  chain : Option (List Byte)
  revoked : Bool
  deriving DecidableEq, Repr

/-- A response of the management port: its kind, an HTTP status or an SPDM response code, what a measurement shows (R396),
and the number of its free body. -/
inductive MgmtResp where
  | redfish (status : Nat) (body : Nat)
  | spdm (code : Nat) (body : Nat)
  | measurement (idx : Nat) (shown : List Byte) (body : Nat)
  | spdmError
  | spdmUnsupported
  deriving DecidableEq, Repr

/-- The management services (R396, R405): responses given, refusals recorded in the LogService, provisionings done, and the
accepted firmware image (R402). -/
structure Mgmt where
  responses : List MgmtResp
  refusals : Nat
  provisions : Nat
  fw : Option FwImage
  deriving DecidableEq, Repr

/-- The boot of the management core (R402): pending, only UpdateService served, or supervisors released. -/
inductive Boot where
  | pending | updateOnly | done
  deriving DecidableEq, Repr

/-- The security state (R403). -/
inductive Sec where
  | unprovisioned | provisioned | revoked
  deriving DecidableEq, Repr

/-- The debug state (R404). -/
inductive Dbg where
  | locked | user | full
  deriving DecidableEq, Repr

/-- A multicast of a table entry (R353, R360): number, issuing context, entry address, new value, completion counter,
whether the ordering point has decided, its verdict, whether the issuing group has yet to go on, and whether it has been sent
to an ordering point on another device. -/
structure Ptmc where
  id : Nat
  x : CtxRef
  addr : Nat
  value : Word
  sel : Nat
  decided : Bool
  pinned : Bool
  open_ : Bool
  asked : Bool
  deriving DecidableEq, Repr

/-- A walk that waits on a migrating entry (R345): number, waiting context, the counter's sample, when it began,
whether it may go on, and whether its bound has passed. -/
structure WalkWait where
  id : Nat
  x : CtxRef
  die : Nat
  sample : Word
  since : Nat
  expired : Bool
  deriving DecidableEq, Repr

/-- What the checks of a group judge it on, as it stood before the group (R413): the store, the pinned entries, the core with its
queues and held adds, its unacknowledged flits, the counters added to before it in this core cycle, and the registers and
watchpoints. -/
structure Before where
  store : Store
  pins : List Nat
  core : Core
  flits : List OutFlit
  ctrOld : List (Nat × Word)
  regs : Vector DieRegs 8
  obs : Obs
  deriving DecidableEq, Repr

/-- A store of an engine command to a pinned entry, which ends the reaction once the contexts have had their turn in this core
cycle (R50, R352): context, reaction, address, and the command's group. -/
structure EngTrap where
  x : CtxRef
  react : RunRef
  va : Nat
  group : Nat × Nat
  deriving DecidableEq, Repr

/-- The issue registers of the move in progress (R62, R177, R413): its bundle, its slot, that bundle's LIMM, whether its
bundle is the one after the group's first, and what stood before the group. The model's own field. -/
structure Issue where
  bundle : Word
  slot : Nat
  limm : BitVec 32
  nextb : Bool
  pre : Option Before
  deriving DecidableEq, Repr

/-- The state of the package. -/
structure State where
  /-- core cycles since package reset (R370) -/
  timebase : Word
  /-- inputs and events that come before the next group: the model's own field (log 1) -/
  agenda : List Instr
  /-- cores that have not yet acted in this core cycle: the model's own field (log 1) -/
  turn : List Nat
  /-- the context whose move executes: the model's own field (log 1) -/
  cur : CtxRef
  issue : Issue
  last : Last
  /-- whether the next accesses of variable latency come late: the model's own field (log 16) -/
  lateness : List Bool
  /-- counts the free values used: the model's own field (log 3) -/
  freeCount : Nat
  cores : List (Nat × Core)
  store : Store
  counters : List (Nat × Word)
  /-- counters added to in this core cycle, as they stood before it (R16): the model's own field (log 127) -/
  ctrOld : List (Nat × Word)
  /-- launches of which an instant has cleared, here or on another device, in this core cycle (R16, R193): the model's own field
  (log 127) -/
  clearedNow : List Nat
  /-- traps that engines have raised in this core cycle (R50, R352): the model's own field -/
  engTraps : List EngTrap
  launches : List Launch
  nextLid : Nat
  /-- the eight ticket counters of each die: die, priority, reactions in order (R233, R235) -/
  tickets : List (Nat × Nat × List ReactId)
  /-- a drained victim's core and context, reserved for its newcomer (R240) -/
  reserved : List (CtxRef × ReactId)
  /-- cores that have taken a ticket in this core cycle (R235): the model's own field -/
  took : List Nat
  /-- dies that have chosen a victim in this core cycle (R238): the model's own field -/
  chose : List Nat
  /-- dies whose throttle step has moved in this core cycle (R407): the model's own field -/
  stepped : List Nat
  regs : Vector DieRegs 8
  obs : Obs
  /-- partitions halted (R376) -/
  halted : List Nat
  /-- frozen cores of halted partitions, whose contexts stop when the freeze line drops (R204) -/
  haltDue : List Nat
  host : HostPort
  fabric : Fabric
  storage : Storage
  flash : Flash
  mgmt : Mgmt
  boot : Boot
  sec : Sec
  dbg : Dbg
  park : BitVec 8
  stby : Bool
  /-- partitions whose reset has not completed (R400) -/
  resetting : List Nat
  /-- partitions to be reset for an access without a route (R394): the model's own field (log 129) -/
  resetDue : List Nat
  /-- the pin slots of the device: slot, entry addresses (R360) -/
  pins : List (Nat × List Nat)
  ptmcs : List Ptmc
  nextPtmc : Nat
  walks : List WalkWait
  nextWalk : Nat
  /-- translations cached under a SID that an invalidation must discard (R351, R359) -/
  tinv : List Nat
  /-- position of the scrubber (R401) -/
  scrub : Nat
  /-- the package power last reported, W (R407) -/
  power : Nat
  deriving DecidableEq, Repr

/-- The flash as a part comes: no image, no bin record, device identifier 0, no key (R388, R403; log 8). -/
def Flash.reset : Flash := ⟨none, none, none, 0#6, none, none, false⟩

/-- The machine right after package reset, before the management core has run its boot ROM (R402). -/
def State.reset : State where
  timebase := 0#64
  agenda := []
  turn := []
  cur := ⟨512, 0⟩
  issue := ⟨0#64, 0, 0#32, false, none⟩
  last := .done
  lateness := []
  freeCount := 0
  cores := []
  store := Store.reset
  counters := []
  ctrOld := []
  clearedNow := []
  engTraps := []
  launches := []
  nextLid := 0
  tickets := []
  reserved := []
  took := []
  chose := []
  stepped := []
  regs := Vector.replicate 8 DieRegs.reset
  obs := Obs.reset
  halted := []
  haltDue := []
  host := HostPort.reset
  fabric := Fabric.reset
  storage := Storage.reset
  flash := Flash.reset
  mgmt := ⟨[], 0, 0, none⟩
  boot := .pending
  sec := .unprovisioned
  dbg := .locked
  park := 0#8
  stby := false
  resetting := []
  resetDue := []
  pins := []
  ptmcs := []
  nextPtmc := 0
  walks := []
  nextWalk := 0
  tinv := []
  scrub := 0
  power := 0

end Sys2Proof.Machine
end

