-- ==== Sys2Proof/Machine/Flags.lean ====
section
/-!
DEFINITION. The sticky floating-point flags (06_numbers R134, R135): how a landing result and a write of `ctx.ff` meet,
and how the flags of many lanes are gathered (12_vector R248).
-/

namespace Sys2Proof.Machine

/-- Flags ORed in (R135). -/
def flagsOr (ff f : Num.Flags) : Num.Flags := ff ||| f

/-- The flags of a list of results gathered (R248). -/
def gatherFlags (l : List (Nat × Num.Flags)) : Num.Flags := l.foldl (fun a r => a ||| r.2) 0#6

/-- A write of `ctx.ff` (R134): the six flag bits of the value. -/
def flagsWrite (w : Word) : Num.Flags := BitVec.ofNat 6 w.toNat

/-- The value a `crd` of `ctx.ff` reads: the flags as they stood before those that land in the same cycle (R135). -/
def flagsRead (c : Ctx) : Word := BitVec.ofNat 64 (c.ffPre.getD c.ff).toNat

/-- The flags of a context after a landing (R135). -/
def Ctx.orFlags (c : Ctx) (f : Num.Flags) : Ctx := { c with ff := flagsOr c.ff f }

end Sys2Proof.Machine
end

