-- ==== Sys2Proof/Machine/Mem.lean ====
section
/-!
DEFINITION. The store: bytes, sector taint, full/empty lines, versions and the view of a reaction (04_memory R81-R87,
02_instants R36, 05_ordering R101-R107, 18_clearing R315, R316). A location is a key: its kind, its owner and its
offset in one number, so that every level is one list of cells in one canonical form.
-/

namespace Sys2Proof.Machine

/-! ### Cells -/

/-- The byte at a key; an unlisted key reads 0 (log 4). -/
def cellGet : List Host.Cell → Nat → Byte
  | [], _ => 0#8
  | (k, b) :: m, a => if k = a then b else cellGet m a

/-- A byte written at a key, the canonical form kept: rising keys, no zero listed. -/
def cellPut : List Host.Cell → Nat → Byte → List Host.Cell
  | [], a, v => if v = 0#8 then [] else [(a, v)]
  | (k, b) :: m, a, v =>
    if k < a then (k, b) :: cellPut m a v
    else if k = a then (if v = 0#8 then m else (a, v) :: m)
    else if v = 0#8 then (k, b) :: m
    else (a, v) :: (k, b) :: m

/-- Whether every key of a list of cells is at least `lo`, the keys rise strictly, and no byte is 0. -/
def cellsFrom : Nat → List Host.Cell → Bool
  | _, [] => true
  | lo, (k, b) :: m => decide (lo ≤ k) && decide (b ≠ 0#8) && cellsFrom (k + 1) m

/-- The canonical form of memory. -/
def Memory.wf (m : List Host.Cell) : Bool := cellsFrom 0 m

/-- `n` bytes from a key. -/
def cellsRead (m : List Host.Cell) (a n : Nat) : List Byte := (List.range n).map fun i => cellGet m (a + i)

/-- Bytes written from a key. -/
def cellsWrite (m : List Host.Cell) (a : Nat) : List Byte → List Host.Cell
  | [] => m
  | b :: bs => cellsWrite (cellPut m a b) (a + 1) bs

/-! ### Sets of numbers, rising -/

/-- A number put into a rising list. -/
def numPut : List Nat → Nat → List Nat
  | [], a => [a]
  | k :: m, a => if k < a then k :: numPut m a else if k = a then k :: m else a :: k :: m

/-- A number taken out of a list. -/
def numDel (m : List Nat) (a : Nat) : List Nat := m.filter fun k => k != a

/-- A number put in or taken out. -/
def numSet (m : List Nat) (a : Nat) (c : Bool) : List Nat := if c then numPut m a else numDel m a

/-- A range of numbers put into a rising list: what lies below it, the range, what lies above. -/
def numPutRange (m : List Nat) (a n : Nat) : List Nat :=
  m.filter (fun k => decide (k < a)) ++ (List.range n).map (fun i => a + i) ++
    m.filter (fun k => decide (a + n ≤ k))

/-! ### Location keys -/

/-- The kinds of location. -/
inductive Kind where
  | hbm | dsp | lane | cspAlloc | cspChan | groveAlloc | groveChan | canopyElem | canopyExp | remote
  deriving DecidableEq, Repr

/-- The number of a kind. -/
def Kind.num : Kind → Nat
  | .hbm => 0
  | .dsp => 1
  | .lane => 2
  | .cspAlloc => 3
  | .cspChan => 4
  | .groveAlloc => 5
  | .groveChan => 6
  | .canopyElem => 7
  | .canopyExp => 8
  | .remote => 9

/-- The key of an offset of an owner: offset below bit 40, kind below bit 44, owner above. A physical HBM address is its
own key. -/
def keyOf (k : Kind) (owner off : Nat) : Nat := (owner * 16 + k.num) * 2 ^ 40 + off

/-- The kind number of a key. -/
def keyKind (key : Nat) : Nat := key / 2 ^ 40 % 16

/-- The owner of a key. -/
def keyOwner (key : Nat) : Nat := key / 2 ^ 44

/-- The offset of a key. -/
def keyOff (key : Nat) : Nat := key % 2 ^ 40

/-- The line of a key. -/
def lineOf (key : Nat) : Nat := key / 128

/-- The sector of a key. -/
def sectorOf (key : Nat) : Nat := key / 32

/-- Whether a key names shared memory of this device: HBM or die scratchpad (R81). -/
def keyShared (key : Nat) : Bool := decide (keyKind key < 2)

/-- Whether two ranges share a byte. -/
def Range.meets (a b : Range) : Bool := decide (a.key < b.key + b.len) && decide (b.key < a.key + a.len)

/-- Whether a range of keys lies within another. -/
def Range.within (a b : Range) : Bool := decide (b.key ≤ a.key) && decide (a.key + a.len ≤ b.key + b.len)

/-- Whether two ranges share a line. -/
def Range.meetsLine (a b : Range) : Bool :=
  decide (a.len ≠ 0) && decide (b.len ≠ 0) &&
  decide (lineOf a.key ≤ lineOf (b.key + b.len - 1)) && decide (lineOf b.key ≤ lineOf (a.key + a.len - 1))

/-- The lines of a range. -/
def Range.lines (a : Range) : List Nat :=
  if a.len = 0 then []
  else (List.range (lineOf (a.key + a.len - 1) - lineOf a.key + 1)).map fun i => lineOf a.key + i

/-- The sectors of a range. -/
def Range.sectors (a : Range) : List Nat :=
  if a.len = 0 then []
  else (List.range (sectorOf (a.key + a.len - 1) - sectorOf a.key + 1)).map fun i => sectorOf a.key + i

/-! ### Sectors -/

/-- The 32 bytes of a sector and its taint. -/
abbrev SecVal := List Byte × Bool

/-- Bytes put over others from an offset. -/
def patch (bs : List Byte) (off : Nat) (new : List Byte) : List Byte :=
  bs.take off ++ new ++ bs.drop (off + new.length)

/-- A store within a sector under the whole-or-part rule of R36. -/
def secStore (x : SecVal) (off : Nat) (new : List Byte) (taint : Bool) : SecVal :=
  (patch x.1 off new, if new.length = 32 then taint else x.2 || taint)

/-- The width of a memory-side update (R331). -/
def MsUpd.width : MsUpd → Nat
  | .addF32 => 4
  | _ => 8

/-- The new value of a memory-side update from the old one (R331). -/
def MsUpd.apply (op : MsUpd) (v t p : Nat) : Nat :=
  let sv := (BitVec.ofNat 64 v).toInt
  let st := (BitVec.ofNat 64 t).toInt
  match op with
  | .addF32 => (Num.addV Num.fp32 .rne (Num.ofBits Num.fp32 (v % 2 ^ 32)) (Num.ofBits Num.fp32 (t % 2 ^ 32))).1
  | .addS64 => (v + t) % 2 ^ 64
  | .maxS64 => if sv < st then t else v
  | .minS64 => if st < sv then t else v
  | .orB64 => v ||| t
  | .swap => t
  | .cas => if v = p then t else v

/-- One effect applied to sector `k` (R316, R319). -/
def secEff (k : Nat) (x : SecVal) (e : Eff) : SecVal :=
  match e with
  | .store key bytes taint _ _ _ => if sectorOf key = k then secStore x (key % 32) bytes taint else x
  | .msop op key t p taint =>
    if sectorOf key = k then
      let v := leNat ((x.1.drop (key % 32)).take op.width)
      secStore x (key % 32) (leBytes op.width (op.apply v t.toNat p.toNat)) taint
    else x
  | .add _ _ _ => x
  | .cmd _ _ => x

/-- A set store alone (R104). -/
def Eff.isSetStore : Eff → Bool
  | .store _ _ _ s _ _ => s
  | _ => false

/-- Whether an effect stores to or updates sector `k`. -/
def Eff.onSector (k : Nat) : Eff → Bool
  | .store key _ _ _ _ _ => decide (sectorOf key = k)
  | .msop _ key _ _ _ => decide (sectorOf key = k)
  | .add _ _ _ => false
  | .cmd _ _ => false

/-- The line an effect stores to. -/
def Eff.line? : Eff → Option Nat
  | .store key _ _ _ _ _ => some (lineOf key)
  | .msop _ key _ _ _ => some (lineOf key)
  | .add _ _ _ => none
  | .cmd _ _ => none

/-- The sector an effect stores to. -/
def Eff.sector? : Eff → Option Nat
  | .store key _ _ _ _ _ => some (sectorOf key)
  | .msop _ key _ _ _ => some (sectorOf key)
  | .add _ _ _ => none
  | .cmd _ _ => none

/-- Whether an effect stands in a memory-side log (R329). -/
def Eff.isMs : Eff → Bool
  | .store _ _ _ _ m _ => m
  | .msop _ _ _ _ _ => true
  | .add _ _ _ => false
  | .cmd _ _ => false

/-- The data taint of an effect. -/
def Eff.taint : Eff → Bool
  | .store _ _ t _ _ _ => t
  | .msop _ _ _ _ t => t
  | .add _ _ t => t
  | .cmd _ _ => false

/-- The committed sector. -/
def Store.sector (st : Store) (k : Nat) : SecVal := (cellsRead st.mem (32 * k) 32, st.taint.contains k)

/-- A sector written back. -/
def Store.setSector (st : Store) (k : Nat) (x : SecVal) : Store :=
  { st with mem := cellsWrite st.mem (32 * k) x.1, taint := numSet st.taint k x.2 }

/-- Bytes stored within one sector of memory, with the sector taint of R36. -/
def Store.put (st : Store) (key : Nat) (bytes : List Byte) (taint : Bool) : Store :=
  { st with
    mem := cellsWrite st.mem key bytes
    taint := numSet st.taint (sectorOf key)
      (if bytes.length = 32 then taint else st.taint.contains (sectorOf key) || taint) }

/-- The instant of a stamp (R38). -/
def instOf (stamp : Nat) : Nat := stamp / 2 ^ 16

/-- One log's part in the view of the reaction `stamp` of launch `lid` (R316): all of a lower instant's and its own
effects, the set stores of a lower stamp of its instant if the byte lies in a set it holds. -/
def logView (lid stamp : Nat) (held : Bool) (k : Nat) (x : SecVal) (l : RLog) : SecVal :=
  if l.lid ≠ lid then x
  else if instOf l.stamp < instOf stamp ∨ l.stamp = stamp then l.effs.foldl (secEff k) x
  else if held ∧ l.stamp < stamp ∧ instOf l.stamp = instOf stamp then
    (l.effs.filter Eff.isSetStore).foldl (secEff k) x
  else x

/-- The view that a reaction of an ordered launch has of a sector (R316). Logs stand in stamp order. -/
def Store.view (st : Store) (lid stamp : Nat) (held : Bool) (k : Nat) : SecVal :=
  st.logs.foldl (logView lid stamp held k) (st.sector k)

/-- The effect log of a reaction. -/
def Store.effs (st : Store) (lid stamp : Nat) : List Eff :=
  match st.logs.find? (fun l => decide (l.lid = lid) && decide (l.stamp = stamp)) with
  | some l => l.effs
  | none => []

/-- Effects added at the end of a reaction's log, logs kept in the order of launch and stamp. -/
def logPush (lid stamp : Nat) (es : List Eff) : List RLog → List RLog
  | [] => [⟨lid, stamp, es⟩]
  | l :: ls =>
    if l.lid = lid ∧ l.stamp = stamp then { l with effs := l.effs ++ es } :: ls
    else if l.lid < lid ∨ (l.lid = lid ∧ l.stamp < stamp) then l :: logPush lid stamp es ls
    else ⟨lid, stamp, es⟩ :: l :: ls

/-- Effects added to a reaction's version or memory-side log. -/
def Store.log (st : Store) (lid stamp : Nat) (es : List Eff) : Store :=
  if es = [] then st else { st with logs := logPush lid stamp es st.logs }

/-- The pending versions of a line: launch and instant of each (R315). -/
def Store.versionsOf (st : Store) (line : Nat) : List (Nat × Nat) :=
  ((st.logs.filter fun l => l.effs.any fun e => !e.isMs && decide (e.line? = some line)).map
      fun l => (l.lid, instOf l.stamp)).eraseDups ++
    (st.unmerged.filter fun u => decide (u.1 = line)).map fun u => (u.2.1, u.2.2)

/-! ### Full/empty lines (R87) -/

/-- The record of a full line. -/
def Store.full? (st : Store) (line : Nat) : Option FeLine := st.fe.find? fun f => decide (f.line = line)

/-- A line set empty. -/
def Store.setEmpty (st : Store) (line : Nat) : Store := { st with fe := st.fe.filter fun f => f.line != line }

/-- A line set full, with its producer. -/
def Store.setFull (st : Store) (f : FeLine) : Store := { st.setEmpty f.line with fe := f :: (st.setEmpty f.line).fe }

/-- An allocation of `len` bytes from a key: its sectors tainted and its lines empty (R36, R87). -/
def Store.allocate (st : Store) (r : Range) : Store :=
  if r.len = 0 then st
  else
    { st with
      taint := numPutRange st.taint (sectorOf r.key) (sectorOf (r.key + r.len - 1) - sectorOf r.key + 1)
      fe := st.fe.filter fun f => !(decide (lineOf r.key ≤ f.line) && decide (f.line ≤ lineOf (r.key + r.len - 1))) }

end Sys2Proof.Machine
end

