-- ==== Sys2Proof/Machine/Operands.lean ====
section
/-!
DEFINITION. Sources, guards, latches and the operand checks (03_bundles R57, R67-R73), and which latches each trigger
port reads (the Kind columns of the unit cards).
-/

namespace Sys2Proof.Machine

/-! ### Values -/

/-- The clock tag of a value. -/
def Value.tag : Value → Tag
  | .sc x => x.tag
  | .ve x => x.tag

/-- The taint of a value. -/
def Value.taint : Value → Bool
  | .sc x => x.taint
  | .ve x => x.taint

/-- Whether a value is a vector. -/
def Value.isVec : Value → Bool
  | .sc _ => false
  | .ve _ => true

/-- The scalar of a value; a vector reads 0 (R210). -/
def Value.word : Value → Word
  | .sc x => x.w
  | .ve _ => 0#64

/-- Lanes from a function of the lane number. -/
def lanesOf (f : Nat → Lane) : Lanes := ⟨⟨(List.range 64).map f⟩, by simp⟩

/-- Lanes from a list; a missing lane is 0. -/
def lanesOfList (l : List Lane) : Lanes := lanesOf fun i => l.getD i 0#32

/-- The lanes of a value: a scalar serves as 64 copies of its bits 31:0 (R71, R247). -/
def Value.lanes : Value → Lanes
  | .sc x => lanesOf fun _ => BitVec.ofNat 32 x.w.toNat
  | .ve x => x.lanes

/-- A value with another tag. -/
def Value.withTag (v : Value) (t : Tag) : Value :=
  match v with
  | .sc x => .sc { x with tag := t }
  | .ve x => .ve { x with tag := t }

/-- A value with taint ORed in. -/
def Value.orTaint (v : Value) (b : Bool) : Value :=
  match v with
  | .sc x => .sc { x with taint := x.taint || b }
  | .ve x => .ve { x with taint := x.taint || b }

/-- A scalar value. -/
def Value.scalar (w : Word) (tag : Tag) (taint : Bool) : Value := .sc ⟨w, tag, taint⟩

/-- A lane from its bytes. -/
def laneOf (bs : List Byte) : Lane := BitVec.ofNat 32 (leNat bs)

/-- Lanes from contiguous bytes (R246). -/
def lanesOfBytes (bs : List Byte) : Lanes := lanesOf fun i => laneOf ((bs.drop (4 * i)).take 4)

/-- Lanes from bytes that belong to some lanes in order; the others are 0 (R266). -/
def lanesAt (act : List Nat) (bs : List Byte) : Lanes :=
  lanesOf fun i => if act.contains i then laneOf ((bs.drop (4 * act.findIdx fun j => j = i)).take 4) else 0#32

/-- The value of a load's bytes (R171, R189, R264, R266). -/
def Conv.value (c : Conv) (bytes : List Byte) (tag : Tag) (taint : Bool) : Value :=
  match c with
  | .scalar w signed =>
    let n := leNat (bytes.take w)
    .scalar (if signed then BitVec.ofInt 64 (BitVec.ofNat (8 * w) n).toInt else BitVec.ofNat 64 n) tag taint
  | .cell alt altTaint secTaint =>
    let n := leNat bytes
    if n.testBit 64 then .scalar (BitVec.ofNat 64 n) tag (taint || secTaint) else .scalar alt tag (taint || altTaint)
  | .lanes act => .ve ⟨lanesAt act bytes, tag, taint⟩

/-- Bytes of another device put into a load that waits for them (R111). -/
def Await.take (a : Await) (dev seq : Nat) (data : List Byte) : Await :=
  match a.wants.find? fun w => decide (w.dev = dev) && decide (w.seq = seq) with
  | none => a
  | some w =>
    { a with
      bytes := a.bytes.zipIdx.map fun b =>
        if w.at_ ≤ b.2 ∧ b.2 < w.at_ + w.n ∧ b.1 = none then some (data.getD (b.2 - w.at_) 0#8) else b.1
      wants := a.wants.erase w }

/-- A result as the bytes of another device leave it: with the last of them its data is here (R77, R111). -/
def Pend.take (p : Pend) (dev seq : Nat) (data : List Byte) : Pend :=
  match p.await with
  | none => p
  | some a =>
    let a := a.take dev seq data
    if a.wants = [] then
      { p with val := a.conv.value (a.bytes.map fun b => b.getD 0#8) a.tag a.taint, await := none, late := p.fill.isSome }
    else { p with await := some a }

/-- Whether a result waits for bytes that a flit was sent for. -/
def Pend.wants (p : Pend) (dev seq : Nat) : Bool :=
  p.await.any fun a => a.wants.any fun w => decide (w.dev = dev) && decide (w.seq = seq)

/-! ### Units -/

/-- The number of a unit, in block order. -/
def unitIdx : Unit11 → Fin 11
  | .x0 => 0
  | .x1 => 1
  | .ls => 2
  | .br => 3
  | .ck => 4
  | .sy => 5
  | .ve => 6
  | .mx => 7
  | .cp => 8
  | .ms => 9
  | .sv => 10

/-- The number of a result port, in source order (R70). -/
def portIdx : Port → Fin 12
  | .x0q => 0
  | .x1q => 1
  | .lsq => 2
  | .brq => 3
  | .ckq => 4
  | .syq => 5
  | .veq => 6
  | .veq2 => 7
  | .mxq => 8
  | .cpq => 9
  | .msq => 10
  | .svq => 11

/-- The result port that an emulated operation of a unit lands in (R221). Of the two ports of `ve` it is `ve.q`, whatever the
emulated operation: the spec names none, and this is the model's choice (log 150). -/
def unitPort : Unit11 → Port
  | .x0 => .x0q
  | .x1 => .x1q
  | .ls => .lsq
  | .br => .brq
  | .ck => .ckq
  | .sy => .syq
  | .ve => .veq
  | .mx => .mxq
  | .cp => .cpq
  | .ms => .msq
  | .sv => .svq

/-- The operand latch `o` of a unit. -/
def Ctx.latchO (c : Ctx) (u : Unit11) : Value := c.lo[unitIdx u]

/-- The operand latch `p` of a unit. -/
def Ctx.latchP (c : Ctx) (u : Unit11) : Value := c.lp[unitIdx u]

/-- A result port. -/
def Ctx.port (c : Ctx) (p : Port) : Value := c.q[portIdx p]

/-- A general register; `g0` reads 0 with tag 0xF and taint clear (R70). -/
def Ctx.reg (c : Ctx) (n : Fin 64) : SVal := if n = 0 then SVal.zero else c.g[n]

/-- Presence of a clock index on the reaction's instant; `k0` and `k15` are always present (R27). -/
def Ctx.pres (c : Ctx) (n : Nat) : Bool := decide (n = 0) || decide (n = 15) || c.kpres.getLsbD n

/-- The value of a source (R70), with the LIMM of the move's bundle (R62). -/
def Ctx.src (c : Ctx) (limm : BitVec 32) : Src → Value
  | .g n => .sc (c.reg n)
  | .v n => .ve c.v[n]
  | .k n => .scalar (if c.pres n.val then 1#64 else 0#64) 0#4 false
  | .imm => .scalar (limm.signExtend 64) Tag.any false
  | .immZ => .scalar (limm.zeroExtend 64) Tag.any false
  | .port p => c.port p
  | .short b => .scalar (b.signExtend 64) Tag.any false

/-- Whether a guard holds (R57): clocks and stage predicates as they stand before the group. -/
def Ctx.guard (c : Ctx) : Guard → Bool
  | .always => true
  | .clk n => c.pres (n.val + 1)
  | .pred n => c.mxl.getLsbD n.val

/-! ### The checks of a move -/

/-- Cause codes (R209). -/
abbrev cUndefMove : Byte := 0x01#8
/-- R209. -/
abbrev cUndefOp : Byte := 0x02#8
/-- R209. -/
abbrev cGroupDep : Byte := 0x03#8
/-- R209. -/
abbrev cDelayBranch : Byte := 0x04#8
/-- R209. -/
abbrev cPriv : Byte := 0x05#8
/-- R209. -/
abbrev cGroupLong : Byte := 0x06#8
/-- R209. -/
abbrev cEmuDouble : Byte := 0x07#8
/-- R209. -/
abbrev cFeLevel : Byte := 0x08#8
/-- R209. -/
abbrev cCtxReg : Byte := 0x09#8
/-- R209. -/
abbrev cLsForm : Byte := 0x0A#8
/-- R209. -/
abbrev cLoopForm : Byte := 0x0B#8
/-- R209. -/
abbrev cBrTarget : Byte := 0x0C#8
/-- R209. -/
abbrev cClockMismatch : Byte := 0x20#8
/-- R209. -/
abbrev cAbsentRead : Byte := 0x21#8
/-- R209. -/
abbrev cMergeBoth : Byte := 0x22#8
/-- R209. -/
abbrev cCounterUnreachable : Byte := 0x23#8
/-- R209. -/
abbrev cChannelFuture : Byte := 0x24#8
/-- R209. -/
abbrev cSyForm : Byte := 0x25#8
/-- R209. -/
abbrev cAsetLimit : Byte := 0x26#8
/-- R209. -/
abbrev cCkForm : Byte := 0x27#8
/-- R209. -/
abbrev cClockRedef : Byte := 0x28#8
/-- R209, R267. -/
abbrev cVeForm : Byte := 0x40#8
/-- R209, R267. -/
abbrev cVeAlign : Byte := 0x41#8
/-- R209, R267. -/
abbrev cVeLevel : Byte := 0x42#8
/-- R209. -/
abbrev cTileFormat : Byte := 0x60#8
/-- R291. -/
abbrev cMxForm : Byte := 0x61#8
/-- R291. -/
abbrev cMxCanopy : Byte := 0x62#8
/-- R291. -/
abbrev cMxLevel : Byte := 0x63#8
/-- R209. -/
abbrev cCopyFormat : Byte := 0x80#8
/-- R311. -/
abbrev cCpForm : Byte := 0x81#8
/-- R311. -/
abbrev cCpCanopy : Byte := 0x82#8
/-- R311. -/
abbrev cCpLevel : Byte := 0x83#8
/-- R209. -/
abbrev cWriteConflict : Byte := 0xA0#8
/-- R209. -/
abbrev cMsForm : Byte := 0xA1#8
/-- R209. -/
abbrev cWound : Byte := 0xA2#8
/-- R209. -/
abbrev cTaintCommit : Byte := 0xA3#8
/-- R209. -/
abbrev cMsLevel : Byte := 0xA4#8
/-- R209. -/
abbrev cOrderIrrev : Byte := 0xA5#8
/-- R209. -/
abbrev cLeaseExit : Byte := 0xC0#8
/-- R209. -/
abbrev cLaunchResource : Byte := 0xC1#8
/-- R209. -/
abbrev cLaunchShape : Byte := 0xC2#8
/-- R209. -/
abbrev cSvForm : Byte := 0xC3#8
/-- R209. -/
abbrev cTranslationNode : Byte := 0xC4#8
/-- R209. -/
abbrev cPtPerm : Byte := 0xC5#8
/-- R209. -/
abbrev cPtPinned : Byte := 0xC6#8
/-- R209. -/
abbrev cLaunchAbort : Byte := 0xC7#8
/-- R209. -/
abbrev cWatch : Byte := 0xE0#8
/-- R209. -/
abbrev cBreak : Byte := 0xE1#8
/-- R209. -/
abbrev cMachineCheck : Byte := 0xE8#8

/-- Supervisor and management cores run in supervisor mode, compute cores never (R8, R69, R162). -/
def isSup (core : Nat) : Bool := decide (512 ≤ core)

/-- Whether a source reads vector register state, or its value is a vector (R69, R71). -/
def srcIsV : Src → Bool
  | .v _ => true
  | _ => false

/-- The class 1 check of one move by its names and the value it carries (R67, R69, R71, R79): PRIV for the `sv` block and
`sv.q` outside supervisor mode; UNDEF_MOVE for `k` destinations there, for `v` registers on a core without them, and for
a vector moved to a scalar destination. -/
def modeCheck (sup : Bool) (s : Src) (d : Nat) (v : Value) : Option Byte :=
  if !sup && (decide (0x2C0 ≤ d ∧ d < 0x300) || decide (s = .port .svq)) then some cPriv
  else if !sup && decide (0x60 ≤ d ∧ d < 0x70) then some cUndefMove
  else if sup && (srcIsV s || decide (0x40 ≤ d ∧ d < 0x60)) then some cUndefMove
  else if v.isVec && !(decide (0x40 ≤ d ∧ d < 0x60) || (!sup && decide (0x1A0 ≤ d ∧ d < 0x220))) then some cUndefMove
  else none

/-- The class 4 check of the tags of the used operands (R73): CLOCK_MISMATCH, then ABSENT_READ. -/
def tagCheck (c : Ctx) (tags : List Tag) : Option Byte :=
  let named := tags.filter fun t => t != Tag.any
  if named.any fun t => named.any fun u => t != u then some cClockMismatch
  else if named.any fun t => !c.pres t.toNat then some cAbsentRead
  else none

/-- The common tag of the used operands (R73). -/
def commonTag (tags : List Tag) : Tag := (tags.find? fun t => t != Tag.any).getD Tag.any

/-! ### Which latches a trigger reads -/

/-- The trigger ports whose operation reads no latch: the unary operations, and those that ignore every operand. -/
def unaryPorts : List Nat :=
  [0x091, 0x092, 0x0A0, 0x0A1, 0x0A2, 0x0D1, 0x0D2, 0x0E0, 0x0E1, 0x0E2,
   0x102, 0x103, 0x104, 0x105, 0x106, 0x107, 0x108, 0x111,
   0x142, 0x145, 0x146, 0x149, 0x14A, 0x14B, 0x167, 0x16A, 0x16B,
   0x184, 0x185, 0x187, 0x188, 0x189, 0x18A,
   0x1AB, 0x1AC, 0x1AD, 0x1AE, 0x1AF, 0x1B0, 0x1B1, 0x1B2, 0x1B3, 0x1B4, 0x1C5, 0x1CC, 0x1D4, 0x1D5, 0x1D7, 0x1DB,
   0x225, 0x226, 0x228, 0x229, 0x22C,
   0x263, 0x264, 0x265, 0x267, 0x269, 0x26C, 0x26D, 0x26E,
   0x2A9, 0x2AA,
   0x2C3, 0x2C4, 0x2C6, 0x2C9, 0x2CB, 0x2CC, 0x2CE, 0x2CF, 0x2D0, 0x2D1]

/-- The trigger ports whose operation reads both latches: the ternary operations. -/
def ternaryPorts : List Nat :=
  [0x08E, 0x09E, 0x0CE, 0x0DE, 0x10D, 0x110, 0x165, 0x166, 0x168, 0x169,
   0x1A5, 0x1C4, 0x1D3, 0x1DA, 0x222, 0x223, 0x224, 0x22A, 0x262, 0x266, 0x268,
   0x2A8, 0x2AB, 0x2C2, 0x2C8]

/-- Whether a trigger port's operation reads the latch `o` of its unit. -/
def usesO (d : Nat) : Bool := !unaryPorts.contains d

/-- Whether a trigger port's operation reads the latch `p` of its unit. -/
def usesP (d : Nat) : Bool := ternaryPorts.contains d

/-- Whether a trigger port is a control transfer (R177). -/
def isTransfer (d : Nat) : Bool := decide (0x142 ≤ d ∧ d ≤ 0x146)

end Sys2Proof.Machine
end

