-- ==== Sys2Proof/Machine/Base.lean ====
section
/-!
DEFINITION. Reading and updating the parts of the state: cores and contexts (01_talxia R8, R9), dies, partitions and
register blocks (23_system R399), launches and reactions, counters (09_seq_control R191-R193, R416), performance events
(22_observation R382-R384) and trace records (R373, R379, R380).
-/

namespace Sys2Proof.Machine

/-! ### Association lists -/

/-- The value of a key. -/
def alGet {α : Type} (l : List (Nat × α)) (k : Nat) : Option α := (l.find? fun p => decide (p.1 = k)).map Prod.snd

/-- A key's value set, keys rising. -/
def alPut {α : Type} : List (Nat × α) → Nat → α → List (Nat × α)
  | [], k, v => [(k, v)]
  | (j, w) :: l, k, v =>
    if j < k then (j, w) :: alPut l k v else if j = k then (k, v) :: l else (k, v) :: (j, w) :: l

/-! ### Cores and contexts -/

/-- A core; one not listed stands as at reset. -/
def State.core (s : State) (n : Nat) : Core := (alGet s.cores n).getD (Core.resetAt n)

/-- A core set. -/
def State.setCore (s : State) (n : Nat) (c : Core) : State := { s with cores := alPut s.cores n c }

/-- A core changed. -/
def State.updCore (s : State) (n : Nat) (f : Core → Core) : State := s.setCore n (f (s.core n))

/-- Context `k` of a core (R9: four contexts). -/
def Core.ctx (c : Core) (k : Nat) : Ctx := c.ctxs[Fin.ofNat 4 k]

/-- Context `k` of a core set. -/
def Core.setCtx (c : Core) (k : Nat) (t : Ctx) : Core := { c with ctxs := c.ctxs.set (Fin.ofNat 4 k) t }

/-- A context. -/
def State.ctx (s : State) (x : CtxRef) : Ctx := (s.core x.core).ctx x.ctx

/-- A context set. -/
def State.setCtx (s : State) (x : CtxRef) (t : Ctx) : State := s.updCore x.core fun c => c.setCtx x.ctx t

/-- A context changed. -/
def State.updCtx (s : State) (x : CtxRef) (f : Ctx → Ctx) : State := s.setCtx x (f (s.ctx x))

/-- The status of a context set. -/
def State.setStatus (s : State) (x : CtxRef) (st : Status) : State := s.updCtx x fun c => { c with status := st }

/-- The die of a core (R8); the management core stands on die 0 (R83). Numbers from 1,000 on name agents of the device
that are no cores, by die: dispatch engines, ports. -/
def dieOf (core : Nat) : Nat :=
  if core < 512 then core / 64 else if core < 528 then (core - 512) / 2 else if core = 528 then 0 else core % 8

/-- The grove of a compute core, numbered over the package (R8). -/
def groveOf (core : Nat) : Nat := core / 8

/-- A die's registers. -/
def State.die (s : State) (d : Nat) : DieRegs := s.regs[Fin.ofNat 8 d]

/-- A die's registers changed. -/
def State.updDie (s : State) (d : Nat) (f : DieRegs → DieRegs) : State :=
  { s with regs := s.regs.set (Fin.ofNat 8 d) (f (s.die d)) }

/-- The device identifier (R388). -/
def State.devid (s : State) : Nat := (s.die 0).devid.toNat

/-- The partition of a core (R399); the management core belongs to none. -/
def State.partOf (s : State) (core : Nat) : Option Nat :=
  if core < 512 then some (bitsOf (s.die (core / 64)).corep.toNat (3 * (core % 64)) 3)
  else if core < 528 then some (bitsOf (s.die ((core - 512) / 2)).supp.toNat (3 * ((core - 512) % 2)) 3)
  else none

/-- Whether a compute core is present on this bin (R17, R385). Supervisor and management cores always are (R18). -/
def State.present (s : State) (core : Nat) : Bool :=
  if core < 512 then (s.die (core / 64)).cfg.cores.getLsbD (core % 64) else decide (core < 529)

/-- Every context of the package that state is held for. -/
def State.allCtxs (s : State) : List CtxRef := s.cores.flatMap fun p => (List.range 4).map fun k => ⟨p.1, k⟩

/-! ### Launches and reactions -/

/-- A launch by its number. -/
def State.launch? (s : State) (lid : Nat) : Option Launch := s.launches.find? fun l => decide (l.lid = lid)

/-- A launch changed. -/
def State.updLaunch (s : State) (lid : Nat) (f : Launch → Launch) : State :=
  { s with launches := s.launches.map fun l => if l.lid = lid then f l else l }

/-- A reaction of a launch by its stamp. -/
def Launch.react? (l : Launch) (stamp : Nat) : Option Reaction := l.reacts.find? fun r => decide (r.stamp = stamp)

/-- A reaction by its name. -/
def State.react? (s : State) (r : ReactId) : Option Reaction := (s.launch? r.lid).bind fun l => l.react? r.stamp

/-- A reaction changed. -/
def State.updReact (s : State) (r : ReactId) (f : Reaction → Reaction) : State :=
  s.updLaunch r.lid fun l => { l with reacts := l.reacts.map fun q => if q.stamp = r.stamp then f q else q }

/-- The name of the reaction a run reference points to. -/
def RunRef.id (r : RunRef) : ReactId := ⟨r.lid, r.stamp⟩

/-- The launch a context runs for. -/
def State.launchOf (s : State) (x : CtxRef) : Option Launch := (s.ctx x).react.bind fun r => s.launch? r.lid

/-- The reaction a context runs. -/
def State.reactOf (s : State) (x : CtxRef) : Option Reaction := (s.ctx x).react.bind fun r => s.react? r.id

/-- The subprogram entry a context runs. -/
def State.entryOf (s : State) (x : CtxRef) : Option Entry :=
  (s.ctx x).react.bind fun r => (s.launch? r.lid).bind fun l => l.entries[r.entry]?

/-- Whether a context's work is that of an ordered launch (R40). -/
def State.ordered (s : State) (x : CtxRef) : Bool := (s.ctx x).react.isSome && (s.ctx x).ord

/-- The space that a context and its engines translate under (R348). -/
def State.sidOf (s : State) (x : CtxRef) : Nat :=
  match s.launchOf x with
  | some l => l.sid.toNat
  | none => (s.ctx x).sid.toNat

/-- The agent of a context's accesses: the reaction it runs, or none for a supervisor or management context. -/
def State.agent (s : State) (x : CtxRef) : Option RunRef := (s.ctx x).react

/-! ### Counters (R191, R192, R416) -/

/-- What a counter selector names, resolved for the agent that uses it. -/
inductive Sel where
  | bad
  | loc (i : Nat)
  | gang (i : Nat)
  | die (d i : Nat)
  | remote (dev d i : Nat)
  deriving DecidableEq, Repr

/-- A selector read and resolved for an agent on die `die` of device `dev` (R191, R416). -/
def resolveSel (dev die : Nat) (w : Word) : Sel :=
  let v := w.toNat
  let idx := bitsOf v 0 16
  let kind := bitsOf v 16 4
  let d := bitsOf v 20 3
  let dv := bitsOf v 23 6
  if 2 ^ 29 ≤ v ∨ (kind < 3 ∧ d ≠ 0) ∨ (kind < 4 ∧ dv ≠ 0) then .bad
  else
    match kind with
    | 0 => if idx < 16 then .loc idx else .bad
    | 1 => if idx < 16 then .gang idx else .bad
    | 2 => if idx < 16384 then .die die idx else .bad
    | 3 => if idx < 16384 then .die d idx else .bad
    | 4 => if idx < 16384 then (if dv = dev then .die d idx else .remote dv d idx) else .bad
    | _ => .bad

/-- The normalised kind-0x3 selector of a shared counter (R321). -/
def selWord (d i : Nat) : Nat := i + 3 * 2 ^ 16 + d * 2 ^ 20

/-- The selector word of a resolved counter: one of kind 0x2 has the die it was resolved for put in (R191). -/
def Sel.word : Sel → Nat
  | .bad => 2 ^ 29
  | .loc i => i
  | .gang i => i + 2 ^ 16
  | .die d i => selWord d i
  | .remote v d i => i + 4 * 2 ^ 16 + d * 2 ^ 20 + v * 2 ^ 23

/-- Whether a selector names a shared counter (R191). -/
def Sel.shared : Sel → Bool
  | .die _ _ => true
  | .remote _ _ _ => true
  | _ => false

/-- The key of a shared counter of this device. -/
def ctrKey (d i : Nat) : Nat := d * 16384 + i

/-- The key of a gang counter of a reaction (R48). -/
def gangKey (r : ReactId) (i : Nat) : Nat := 2 ^ 32 + (r.lid * 2 ^ 64 + r.stamp) * 16 + i

/-- The key under which the value of a context's local counter before this core cycle is kept. -/
def locKey (x : CtxRef) (i : Nat) : Nat := 2 ^ 20 + (x.core * 4 + x.ctx) * 16 + i

/-- The keys of the counters of a context. -/
def locKeys (x : CtxRef) : List Nat := (List.range 16).map (locKey x)

/-- The value of a counter by key, with every add made so far. -/
def State.ctr (s : State) (key : Nat) : Word := (alGet s.counters key).getD 0#64

/-- The value of a counter that an agent reads or waits on in this core cycle: the one before every add of the cycle, so that
no partial sum is seen (R16; log 127). -/
def State.ctrSeen (s : State) (key : Nat) : Word := (alGet s.ctrOld key).getD (s.ctr key)

/-- A saturating add (R192). -/
def satAdd (a n : Word) : Word := if a.toNat + n.toNat < 2 ^ 64 then a + n else BitVec.allOnes 64

/-- An add to a counter by key (R192); the value before the adds of this core cycle is kept (R16). -/
def State.ctrAdd (s : State) (key : Nat) (n : Word) : State :=
  { s with counters := alPut s.counters key (satAdd (s.ctr key) n), ctrOld := alPut s.ctrOld key (s.ctrSeen key) }

/-- What is kept of some counters' values before this core cycle dropped. -/
def State.dropOld (s : State) (keys : List Nat) : State := { s with ctrOld := s.ctrOld.filter fun p => !keys.contains p.1 }

/-- Counters set to zero. -/
def State.ctrDrop (s : State) (keys : List Nat) : State :=
  { s with
    counters := s.counters.filter fun p => !keys.contains p.1
    ctrOld := s.ctrOld.filter fun p => !keys.contains p.1 }

/-- Whether a grant of a launch covers a shared counter, resolved for the same agent (R225, R416). -/
def Grant.covers (dev die : Nat) (g : Grant) (c : Sel) : Bool :=
  match resolveSel dev die (BitVec.ofNat 64 g.sel), c with
  | .die d i, .die e j => decide (d = e) && decide (i ≤ j ∧ j < i + g.count)
  | .remote v d i, .remote w e j => decide (v = w) && decide (d = e) && decide (i ≤ j ∧ j < i + g.count)
  | _, _ => false

/-- Whether a context may use a counter: every shared counter of a supervisor context, the granted ones of a
reaction (R191, R225). -/
def State.granted (s : State) (x : CtxRef) (c : Sel) : Bool :=
  match s.launchOf x with
  | none => true
  | some l => !c.shared || l.record.grants.any fun g => g.covers s.devid (dieOf x.core) c

/-- A selector resolved for a context, with the faults of R191: a bad one, and a gang counter outside a gang. -/
def State.sel (s : State) (x : CtxRef) (w : Word) : Sel :=
  match resolveSel s.devid (dieOf x.core) w with
  | .gang i =>
    match s.reactOf x with
    | some r => if 1 < r.members.length then .gang i else .bad
    | none => .bad
  | c => c

/-- The key of a counter of this device for a context. -/
def State.selKey (s : State) (x : CtxRef) (c : Sel) : Option Nat :=
  match c with
  | .loc i => some (locKey x (i % 16))
  | .gang i => (s.ctx x).react.map fun r => gangKey r.id i
  | .die d i => some (ctrKey d i)
  | _ => none

/-- The live value of a counter for a context, as it stood before the adds of this core cycle (R16). -/
def State.ctrVal (s : State) (x : CtxRef) (c : Sel) : Word :=
  match c with
  | .loc i => (alGet s.ctrOld (locKey x (i % 16))).getD (s.ctx x).lctr[Fin.ofNat 16 i]
  | .gang i =>
    match (s.ctx x).react with
    | some r => s.ctrSeen (gangKey r.id i)
    | none => 0#64
  | .die d i => s.ctrSeen (ctrKey d i)
  | .remote v d i => (alGet s.fabric.remoteCtrs (v * 2 ^ 24 + ctrKey d i)).getD 0#64
  | .bad => 0#64

/-! ### The fabric's outgoing side (R392) -/

/-- The lanes of a package link that the bin leaves (R17, R385, R392): a link with none carries no flit. -/
def State.linkLanes (s : State) (link : Nat) : BitVec 8 :=
  let c := (s.die (link / 2)).cfg
  if link % 2 = 0 then c.lanes0 else c.lanes1

/-- The package link that the flits of a core or agent for a device leave by (R393). -/
def State.linkFor (s : State) (die dev : Nat) : Nat := bitsOf (s.die die).route.toNat (4 * dev) 4

/-- The sequence number of the next flit for a device (R392). -/
def State.nextSeq (s : State) (dev : Nat) : Nat := (alGet s.fabric.seqs dev).getD 0
/-- Whether flits for a device have a valid route from a die, by a link of which the bin leaves a lane (R17, R393, R394). -/
def State.routed (s : State) (die dev : Nat) : Bool :=
  (s.die die).valid.getLsbD dev && decide (s.linkLanes (s.linkFor die dev) ≠ 0#8)

/-- The partition of a core due to be reset, by what the package does next (R394). -/
def State.resetSoon (s : State) (core : Nat) : State :=
  match s.partOf core with
  | some p => { s with resetDue := numPut s.resetDue p }
  | none => s

/-- The agent that stands for one that waits no more for what it asked, kept with its core until the answer comes. -/
def staleFor (x : CtxRef) : CtxRef :=
  ⟨20000, if x.core < 529 then x.core else if 8000 ≤ x.core ∧ x.core < 20000 then (x.core - 8000) / 8 else 600⟩

/-- Requests that their agents no longer wait for: what has been answered is gone, and the rest is kept until its answer comes, so that
no later request takes it (R111). A walk of this device that waits on migration has asked nothing. -/
def Fabric.dropReqs (f : Fabric) (p : RemoteReq → Bool) : Fabric :=
  { f with reqs := f.reqs.filterMap fun q =>
      if !p q then some q
      else if q.resp.isSome ∨ (3000 ≤ q.x.core ∧ q.x.core < 4000) then none
      else some { q with x := staleFor q.x, load := false } }

/-- The stamp of a load request that no reaction's view answers: of a bundle fetch, of a context outside ordered launches, and of the
device itself (R412; log 165). -/
def noView : Nat := 2 ^ 64 - 1

/-- A flit added behind the others, with the core or agent it serves, and the context and the engine command whose store or add it
is (R110); its sequence number runs per destination device. While flits of its die for that device wait to be acknowledged on
another path, it is held (R393). Without a valid route nothing is sent, and the partition of the core it serves is reset
(R394). -/
def State.sendFor (s : State) (core ctx : Nat) (cmd : Option Nat) (fk : Nat) (dev : Nat) (sid addr : Nat) (data : List Byte)
    (mask : Nat) (stamp : Nat) : State :=
  let seq := s.nextSeq dev
  let link := s.linkFor (dieOf core) dev
  let f : Flit :=
    ⟨BitVec.ofNat 4 fk, BitVec.ofNat 6 s.devid, BitVec.ofNat 6 dev, BitVec.ofNat 16 (if fk = 9 then sid else 0), BitVec.ofNat 32 seq,
      BitVec.ofNat 56 addr, (data ++ List.replicate 32 0#8).take 32, BitVec.ofNat 32 mask, BitVec.ofNat 64 stamp⟩
  let same (o : OutFlit) : Bool := decide (dieOf o.core = dieOf core) && o.flit.dstdev == f.dstdev
  let hold := s.fabric.out.any (fun o => same o && o.link != link) || s.fabric.held.any same
  let o : OutFlit := ⟨link, f, core, ctx, cmd⟩
  if !s.routed (dieOf core) dev then s.resetSoon core
  else { s with fabric := { s.fabric with
      out := if hold then s.fabric.out else s.fabric.out ++ [o]
      held := if hold then s.fabric.held ++ [o] else s.fabric.held
      seqs := alPut s.fabric.seqs dev ((seq + 1) % 2 ^ 32) } }

/-- A flit of no context's own. -/
def State.sendFlit (s : State) (core : Nat) (fk : Nat) (dev : Nat) (sid addr : Nat) (data : List Byte) (mask : Nat)
    (stamp : Nat) : State :=
  s.sendFor core 4 none fk dev sid addr data mask stamp

/-- The flits that have not been acknowledged. -/
def Fabric.flits (f : Fabric) : List OutFlit := f.out ++ f.held

/-- Whether a flit is a store or an add of a context, made by itself or by an engine that serves it. -/
def OutFlit.ofCtx (o : OutFlit) (x : CtxRef) : Bool :=
  decide (o.core = x.core) && decide (o.ctx = x.ctx) && o.flit.fk != 2#4 && o.flit.fk != 9#4

/-- Whether a context has stores or adds at other devices that are still unacknowledged (R110, R112, R116). -/
def State.ctxFlits (s : State) (x : CtxRef) : Bool := s.fabric.flits.any fun o => o.ofCtx x

/-- The address that names a shared counter in a flit, above every physical address (log 23). -/
def ctrAddr (key : Nat) : Nat := 2 ^ 55 + 8 * key

/-- An add applied to a counter: live counters of the context or its gang, shared counters of this device, and for
another device an add sent there (R112, R193, R392). -/
def State.applyAdd (s : State) (x : CtxRef) (c : Sel) (n : Word) : State :=
  match c with
  | .bad => s
  | .loc i =>
    let old := s.ctrVal x (.loc i)
    let s := s.updCtx x fun t => { t with lctr := t.lctr.set (Fin.ofNat 16 i) (satAdd t.lctr[Fin.ofNat 16 i] n) }
    { s with ctrOld := alPut s.ctrOld (locKey x (i % 16)) old }
  | .gang i =>
    match (s.ctx x).react with
    | some r => s.ctrAdd (gangKey r.id i) n
    | none => s
  | .die d i => s.ctrAdd (ctrKey d i) n
  | .remote v d i => s.sendFor x.core x.ctx none 4 v 0 (ctrAddr (ctrKey d i)) (leBytes 8 n.toNat) 0xFF (s.ctx x).stamp.toNat

/-! ### Performance events and energy (R382-R384) -/

/-- The offset of counter `n` of a core position in block 0x03 (R382). -/
def perfOff (pos n : Nat) : Nat := 0x40 * pos + 8 * n

/-- A word of block 0x03. -/
def DieRegs.perfWord (d : DieRegs) (off : Nat) : Word := (alGet d.perf off).getD 0#64

/-- VALUE of a counter raised by `n`, wrapping, with OVF (R382). -/
def perfCount (w : Word) (n : Nat) : Word :=
  let v := w.toNat % 2 ^ 48 + n
  let ovf := if 2 ^ 48 ≤ v then 1 else bitsOf w.toNat 48 1
  BitVec.ofNat 64 (v % 2 ^ 48 + ovf * 2 ^ 48 + bitsOf w.toNat 49 15 * 2 ^ 49)

/-- LOST raised by `n`, saturating (R382, R383). -/
def perfLost (w : Word) (n : Nat) : Word :=
  BitVec.ofNat 64 (w.toNat % 2 ^ 49 + min 0x7FFF (bitsOf w.toNat 49 15 + n) * 2 ^ 49)

/-- One event of `k` units counted by counter `n` of a core position: dropped, as one event, into LOST if the counter was
written in this cycle, else counted, with the value from before the cycle kept (R382, R383). -/
def DieRegs.countOne (d : DieRegs) (pos n ev ctx k : Nat) : DieRegs :=
  let off := perfOff pos n
  let cfg := ((alGet d.perfOldCfg (0x1000 + off)).getD (d.perfWord (0x1000 + off))).toNat
  if bitsOf cfg 0 8 = ev ∧ bitsOf cfg (8 + ctx) 1 = 1 then
    let w := d.perfWord off
    if d.perfWritten.contains off then { d with perf := alPut d.perf off (perfLost w 1) }
    else
      let old := (alGet d.perfCounted off).getD (w, 0)
      { d with perf := alPut d.perf off (perfCount w k), perfCounted := alPut d.perfCounted off (old.1, old.2 + 1) }
  else d

/-- The class weight of an event (R384). -/
def DieRegs.weight (d : DieRegs) (ev : Nat) : Nat := (d.perfWord (0x2000 + 8 * (ev - 1))).toNat % 2 ^ 16

/-- Energy added, saturating at 2^48 - 1 (R162). -/
def nrgAdd (e : BitVec 48) (n : Nat) : BitVec 48 := BitVec.ofNat 48 (min (2 ^ 48 - 1) (e.toNat + n))

/-- Whether a core's partition is halted (R376). -/
def State.coreHalted (s : State) (n : Nat) : Bool := (s.partOf n).any fun p => s.halted.contains p

/-- An event of a context: the counters of its core, and its energy; neither moves in a halt (R376, R382, R384). Supervisor
and management cores have no counters and no weights act on them beyond those of their die. -/
def State.event (s : State) (x : CtxRef) (ev n : Nat) : State :=
  if s.coreHalted x.core then s
  else
    let d := dieOf x.core
    let s := if x.core < 512 then
        s.updDie d fun r => (List.range 8).foldl (fun r i => r.countOne (x.core % 64) i ev x.ctx n) r
      else s
    s.updCtx x fun c => { c with nrg := nrgAdd c.nrg (n * (s.die d).weight ev) }

/-! ### Trace records (R373, R374, R379, R380) -/

/-- A trace record's number: the fields of R373. -/
def traceNat (s : State) (x : CtxRef) (kind : Nat) (taint : Bool) (bundle cyc stamp : Nat) (payload : Nat) : Nat :=
  kind + x.core * 2 ^ 9 + x.ctx * 2 ^ 19 + s.devid * 2 ^ 21 + (if taint then 2 ^ 27 else 0) +
    s.timebase.toNat % 2 ^ 32 * 2 ^ 32 + bundle % 2 ^ 56 * 2 ^ 64 + cyc % 2 ^ 48 * 2 ^ 128 + stamp % 2 ^ 64 * 2 ^ 192 +
    payload % 2 ^ 256 * 2 ^ 256

/-- A segment's bytes (R379): header, records, zeros, digest. -/
def segmentBytes (dev seq tb0 ovr : Nat) (recs : List TraceRec) : List Byte :=
  let head := 0xC7A3 + 2 ^ 16 + dev * 2 ^ 24 + recs.length * 2 ^ 32 + seq % 2 ^ 64 * 2 ^ 64 + tb0 % 2 ^ 64 * 2 ^ 128 +
    ovr % 2 ^ 64 * 2 ^ 192
  let body := leBytes 64 head ++ recs.flatten
  let body := body ++ List.replicate (65472 - body.length) 0#8
  body ++ Sha.sha512 body

/-- The oldest unsent segment whose write has not begun is dropped (R380). -/
def dropOldest : List Segment → List Segment
  | [] => []
  | g :: gs => if g.begun then g :: dropOldest gs else gs

/-- A sealed segment put into the buffer of 16 (R380). -/
def Obs.place (o : Obs) (g : Segment) : Obs :=
  if o.sealed.length < 16 then { o with sealed := o.sealed ++ [g] }
  else if o.sealed.any fun h => !h.begun then
    { o with sealed := dropOldest o.sealed ++ [g], overwr := o.overwr + 1#64 }
  else { o with overwr := o.overwr + 1#64 }

/-- The open segment sealed (R379); an empty one is left (a segment holds 1 to 1,022 records). -/
def State.seal (s : State) : State :=
  let o := s.obs
  if o.open_ = [] then s
  else
    let g : Segment := ⟨o.seq.toNat, segmentBytes s.devid o.seq.toNat o.tb0 o.overwr.toNat o.open_, false⟩
    { s with obs := { ((o.place g)) with open_ := [], tb0 := 0, seq := o.seq + 1#64 } }

/-- A record put into the open segment, which is sealed when full (R379). -/
def State.record (s : State) (r : Nat) : State :=
  let o := s.obs
  let o := { o with open_ := o.open_ ++ [leBytes 64 r], tb0 := if o.open_ = [] then s.timebase.toNat else o.tb0 }
  let s := { s with obs := o }
  if 1022 ≤ o.open_.length then s.seal else s

/-- A record of a context, written if its bit of KMASK is set (R374): the group that waits at the context's pc. -/
def State.traceCtx (s : State) (x : CtxRef) (bit kind : Nat) (taint : Bool) (payload : Nat) : State :=
  let c := s.ctx x
  if s.obs.kmask.getLsbD bit then
    s.record (traceNat s x kind taint c.pc.toNat c.cyc.toNat c.stamp.toNat payload)
  else s

end Sys2Proof.Machine
end

