-- ==== Sys2Proof/Machine/Trans.lean ====
section
/-!
DEFINITION. From a virtual address to a location: the address map and its windows (04_memory R82-R86), the page walk
(21_spaces R341-R348), leases (R84), the access tables (23_system R397), and the pieces of an access (05_ordering R108,
R410).
-/

namespace Sys2Proof.Machine

/-! ### Physical memory (R91, R342) -/

/-- Whether a physical address names a byte of this device's HBM (R342). -/
def State.physOk (s : State) (a : Nat) : Bool :=
  decide (a < 2 ^ 39) && decide (a % 2 ^ 36 < (s.die (a / 2 ^ 36)).cfg.usable.toNat)

/-- The `n`-th set bit of a mask of `w` bits, counted from bit 0. -/
def nthBit (w : Nat) (m n : Nat) : Nat := (((List.range w).filter fun i => m.testBit i)[n]?).getD 0

/-- The number of set bits among the low `w`. -/
def bitCount (w m : Nat) : Nat := ((List.range w).filter fun i => m.testBit i).length

/-- The pseudo-channel of a byte of a stack: chunks of 2 KiB over the present ones (R91). -/
def pchOf (present off : Nat) : Nat :=
  let p := bitCount 160 present
  if p = 0 then 0 else nthBit 160 present (off / 2048 % p)

/-! ### Access tables (R397) -/

/-- The master number of a core: its partition, or 11 for the management core. -/
def State.master (s : State) (core : Nat) : Nat := (s.partOf core).getD 11

/-- Whether a master may read or write a target of a die (R397). -/
def State.mayAccess (s : State) (die target master : Nat) (write : Bool) : Bool :=
  ((s.die die).access.toList.getD target 0#32).getLsbD (2 * master + if write then 1 else 0)

/-- Whether a master may reach a line of HBM: its pseudo-channel, and, outside memory-side pages, its L2 slice. -/
def State.mayHbm (s : State) (phys master : Nat) (write ms : Bool) : Bool :=
  let d := phys / 2 ^ 36
  s.mayAccess d (pchOf (s.die d).cfg.pch.toNat (phys % 2 ^ 36) / 16) master write &&
    (ms || s.mayAccess d (10 + phys / 128 % 32) master write)

/-- Whether a master may reach a line of die scratchpad: its L2 slice. -/
def State.mayDsp (s : State) (die off master : Nat) (write : Bool) : Bool :=
  s.mayAccess die (10 + off / 128 % 32) master write

/-- Whether a master may send accesses by the link that leads from a die to a device: entry 42 or 43 of the link's die. -/
def State.mayLink (s : State) (die dev master : Nat) (write : Bool) : Bool :=
  let link := s.linkFor die dev
  s.mayAccess (link / 2) (42 + link % 2) master write

/-! ### The walk (R341-R345) -/

/-- What an access does. -/
inductive Acc where
  | r | w | x
  deriving DecidableEq, Repr

/-- Whether an access writes. -/
def Acc.isWrite : Acc → Bool
  | .w => true
  | _ => false

/-- STATE of an entry (R343). -/
def pteState (e : Nat) : Nat := bitsOf e 1 2
/-- LEAF of an entry. -/
def pteLeaf (e : Nat) : Bool := e.testBit 3
/-- FRAME of an entry as a physical address. -/
def pteFrame (e : Nat) : Nat := bitsOf e 13 43 * 2 ^ 13
/-- DEV of an entry. -/
def pteDev (e : Nat) : Nat := bitsOf e 56 6
/-- MS of an entry. -/
def pteMs (e : Nat) : Bool := e.testBit 7
/-- VER of an entry. -/
def pteVer (e : Nat) : Bool := e.testBit 8

/-- The bytes a leaf of a level maps (R341). -/
def pageSize (lvl : Nat) : Nat := 2 ^ (16 + 10 * lvl)

/-- Whether an entry read at a level is non-resident for a walker of this device (R344). Bits 4 to 9 of a non-leaf entry are
ignored (R343). -/
def State.nonResident (s : State) (e lvl : Nat) : Bool :=
  let leaf := pteLeaf e
  let st := pteState e
  let dev := pteDev e
  !e.testBit 0 || decide (st = 3) || decide (bitsOf e 10 3 ≠ 0) || decide (bitsOf e 62 2 ≠ 0) ||
  (leaf && decide (3 ≤ lvl)) || (!leaf && decide (lvl = 0)) ||
  (leaf && (decide (st = 1) || (pteMs e && pteVer e) || decide (pteFrame e % pageSize lvl ≠ 0) ||
    (if dev = s.devid then !s.physOk (pteFrame e) else decide (2 ^ 39 ≤ pteFrame e)))) ||
  (!leaf && decide (st = 1) && decide (dev = s.devid))

/-- The outcome of a walk: the entry it ends at, its level, and how it ends. -/
inductive WalkEnd where
  | leaf | node | migrating | remote
  deriving DecidableEq, Repr

/-- The outcome of a walk, with the physical addresses of the entries it read. -/
structure Walked where
  ending : WalkEnd
  entry : Nat
  lvl : Nat
  read : List Nat
  deriving DecidableEq, Repr

/-- An 8-byte entry of physical memory (R345). -/
def State.pte (s : State) (a : Nat) : Nat := leNat (cellsRead s.store.mem a 8)

/-- A walk from the entry at an address and level, at most `fuel` entries on (R345). -/
def State.walkFrom (s : State) (va : Nat) : Nat → Nat → Nat → List Nat → Walked
  | 0, _, lvl, rd => ⟨.node, 0, lvl, rd⟩
  | fuel + 1, a, lvl, rd =>
    let e := s.pte a
    let rd := rd ++ [a]
    if s.nonResident e lvl then ⟨.node, e, lvl, rd⟩
    else if pteState e = 2 then ⟨.migrating, e, lvl, rd⟩
    else if pteLeaf e then ⟨.leaf, e, lvl, rd⟩
    else if pteState e = 1 then ⟨.remote, e, lvl, rd⟩
    else s.walkFrom va fuel (pteFrame e + 8 * bitsOf va (16 + 10 * (lvl - 1)) 10) (lvl - 1) rd

/-- A walk under a SID on a die (R345). -/
def State.walk (s : State) (die sid va : Nat) : Walked :=
  s.walkFrom va 5 ((s.die die).sptbase.toNat * 2 ^ 19 + 8 * sid) 4 []

/-- Whether a leaf permits an access (R345). -/
def ptePermits (e : Nat) (acc : Acc) (sup : Bool) : Bool :=
  (match acc with
    | .r => e.testBit 4
    | .w => e.testBit 5
    | .x => e.testBit 6) && (sup || !e.testBit 9)

/-- The outcome of an access check. -/
inductive AccR where
  | ok (ps : List Piece)
  | trap (cause : Byte) (info : Nat)
  | block (b : Block)
  /-- an access to a device whose route is not valid (R394), or a walk that reads a poisoned line (R400) -/
  | reset
  deriving DecidableEq, Repr

/-- The windows of the address map (R83). -/
inductive Win where
  | translated | lane | cspAlloc | cspChan | groveAlloc | groveChan | ownDsp | dieDsp (d : Nat) | none
  deriving DecidableEq, Repr

/-- The window of an address (R83). -/
def winOf (va : Nat) : Win :=
  let o := va - 0xFF000000000000
  if va < 2 ^ 55 then .translated
  else if va < 0xFF000000000000 ∨ 2 ^ 56 ≤ va then .none
  else if o < 0x40000 then .lane
  else if o < 0x200000 then .none
  else if o < 0x400000 then .cspAlloc
  else if o < 0x600000 then .cspChan
  else if o < 0x1000000 then .none
  else if o < 0x1800000 then .groveAlloc
  else if o < 0x2000000 then .none
  else if o < 0x2800000 then .groveChan
  else if o < 0x10000000 then .none
  else if o < 0x14000000 then .ownDsp
  else if o < 0x40000000 then .none
  else if o < 0x60000000 then .dieDsp ((o - 0x40000000) / 0x4000000)
  else .none

/-- Whether translated addresses lie in a reaction's lease list (R84). -/
def Entry.leased (e : Entry) (va n : Nat) : Bool :=
  e.leaseList.any fun l => decide (l.1 ≤ va) && decide (va + n ≤ l.1 + l.2)

/-- The outcome that a context meets for a denied access (R84, R346, R397): LEASE_EXIT, and for a supervisor or
management context the given cause. -/
def deny (sup : Bool) (cause : Byte) (va : Nat) : AccR := .trap (if sup then cause else cLeaseExit) va

/-- The outcome of translating a piece under a SID. -/
inductive TransR where
  | ok (p : Piece)
  /-- a non-resident entry and its level -/
  | node (entry lvl : Nat)
  /-- a permission fault and the leaf's level -/
  | perm (entry lvl : Nat)
  /-- an access-table denial -/
  | denied
  | migrating (entry lvl : Nat)
  /-- a walk that another device continues -/
  | remote (entry lvl : Nat)
  /-- a walk that reads a poisoned line (R400) -/
  | poison
  deriving DecidableEq, Repr

/-- A piece through a leaf: permissions, then the page's kind, then the access tables (R344, R345, R397). A byte of a local
page beyond the usable ones of its stack names nothing (R342): it meets a non-resident entry (log 113). -/
def State.useLeaf (s : State) (die master : Nat) (sup : Bool) (acc : Acc) (va n e lvl : Nat) : TransR :=
  let phys := pteFrame e + va % pageSize lvl
  if !ptePermits e acc sup then .perm e lvl
  else if pteDev e ≠ s.devid then
    if !s.mayLink die (pteDev e) master acc.isWrite then .denied
    else .ok ⟨va, n, keyOf .remote (pteDev e) phys, .remote (pteDev e) (pteVer e) (pteMs e)⟩
  else if !(s.physOk phys && s.physOk (phys + n - 1)) then .node e lvl
  else if !s.mayHbm phys master acc.isWrite (pteMs e) then .denied
  else .ok ⟨va, n, phys, if pteMs e then .ms else if pteVer e then .ver else .direct⟩

/-- Whether a walk has read an entry in a poisoned line (R400). -/
def State.walkPoison (s : State) (w : Walked) : Bool := w.read.any fun a => s.store.poison.contains (lineOf a)

/-- Whether an access table denies a master the first entry of a walk that it may not read, and no poisoned line comes before it
(R397, R400). -/
def State.walkDenied (s : State) (master : Nat) (w : Walked) : Bool :=
  let ok (a : Nat) : Bool := s.mayHbm a master false false
  (w.read.find? fun a => !ok a || s.store.poison.contains (lineOf a)).any fun a => !ok a

/-- A piece of translated space under a SID, for an issuer of a die (R345, R348): the physical space for SID 0, else a
walk. -/
def State.translate (s : State) (die sid master : Nat) (sup : Bool) (acc : Acc) (va n : Nat) : TransR :=
  if sid = 0 then
    if !s.physOk va || !s.physOk (va + n - 1) then .node 0 4
    else if !s.mayHbm va master acc.isWrite false then .denied
    else .ok ⟨va, n, va, .direct⟩
  else
    let w := s.walk die sid va
    if s.walkDenied master w then .denied
    else if s.walkPoison w then .poison
    else
      match w.ending with
      | .node => .node w.entry w.lvl
      | .migrating => .migrating w.entry w.lvl
      | .remote => .remote w.entry w.lvl
      | .leaf => s.useLeaf die master sup acc va n w.entry w.lvl

/-- The response of a remote walk that a context waits for, if it is here (R347). -/
def State.walkResp (s : State) (x : CtxRef) (dev va e lvl : Nat) : Option (List Byte) :=
  (s.fabric.reqs.find? fun q =>
    decide (q.x = x) && decide (q.dev = dev) && decide (q.addr / 2 ^ 16 = va / 2 ^ 16) &&
      decide (q.walk = some (BitVec.ofNat 64 e, lvl)) && q.resp.isSome).bind RemoteReq.resp

/-- How a context meets the outcome of a translation (R346, R397). -/
def meetTrans (sup : Bool) (va : Nat) (r : TransR) : AccR :=
  match r with
  | .ok p => .ok [p]
  | .node _ _ => deny sup cTranslationNode va
  | .perm _ _ => deny sup cPtPerm va
  | .denied => deny sup cPtPerm va
  | .migrating _ _ => deny sup cTranslationNode va
  | .remote _ _ => deny sup cTranslationNode va
  | .poison => .reset

/-- A resolved piece on a device without a valid route (R394). -/
def State.checkRoute (s : State) (die : Nat) (r : AccR) : AccR :=
  match r with
  | .ok [p] =>
    match p.page with
    | .remote dev _ _ => if s.routed die dev then r else .reset
    | _ => r
  | r => r

/-- A piece of translated space for a context (R84, R345-R348): outside the leases of a reaction LEASE_EXIT; a migrating
entry waits, and once its bound has passed counts as non-resident; a remote entry waits for the device that continues
the walk. A physical address that names nothing ends with LEASE_EXIT. -/
def State.resolveTrans (s : State) (x : CtxRef) (acc : Acc) (va n : Nat) : AccR :=
  let sup := isSup x.core
  let sid := s.sidOf x
  let m := s.master x.core
  if !sup && !((s.entryOf x).any fun e => e.leased va n) then .trap cLeaseExit va
  else if sid = 0 && (!sup || !s.physOk va || !s.physOk (va + n - 1)) then .trap cLeaseExit va
  else
    match s.translate (dieOf x.core) sid m sup acc va n with
    | .migrating e lvl =>
      if (s.ctx x).walkExpired then meetTrans sup va (.migrating e lvl) else .block (.walk (dieOf x.core))
    | .remote e lvl =>
      match s.walkResp x (pteDev e) va e lvl with
      | none =>
        if s.routed (dieOf x.core) (pteDev e) then .block (.remote (pteDev e) va (some (BitVec.ofNat 64 e, lvl)) sid 2 va)
        else .reset
      | some d =>
        let cause := leNat ((d.drop 9).take 1)
        let e := leNat (d.take 8)
        let lvl := leNat ((d.drop 8).take 1)
        s.checkRoute (dieOf x.core) (meetTrans sup va
          (if cause = 0 then s.useLeaf (dieOf x.core) m sup acc va n e lvl
           else if cause = 0xC5 then .perm e lvl else .node e lvl))
    | r => s.checkRoute (dieOf x.core) (meetTrans sup va r)

/-- A piece resolved for a context (R82-R86). -/
def State.resolvePiece (s : State) (x : CtxRef) (acc : Acc) (va n : Nat) : AccR :=
  let sup := isSup x.core
  let c := s.ctx x
  let out : AccR := .trap cLeaseExit va
  let owner := x.core * 4 + x.ctx
  let loc (k : Kind) (own off lim : Nat) : AccR :=
    if sup ∨ lim < off + n then out else .ok [⟨va, n, keyOf k own off, .local_⟩]
  let dsp (d off : Nat) : AccR :=
    if !s.mayDsp d off (s.master x.core) acc.isWrite then deny sup cPtPerm va
    else .ok [⟨va, n, keyOf .dsp d off, .dsp⟩]
  match winOf va with
  | .none => out
  | .translated => s.resolveTrans x acc va n
  | .lane =>
    let off := va - 0xFF000000000000
    if sup ∨ c.alloc.lsb < off % 4096 + n then out else .ok [⟨va, n, keyOf .lane owner off, .local_⟩]
  | .cspAlloc => loc .cspAlloc owner (va - 0xFF000000200000) c.alloc.spb
  | .cspChan =>
    match s.launchOf x with
    | some l => loc .cspChan (l.lid * 1024 + x.core) (va - 0xFF000000400000) l.record.chcore
    | none => out
  | .groveAlloc => loc .groveAlloc c.alloc.grvOwner (va - 0xFF000001000000) c.alloc.grb
  | .groveChan =>
    match s.launchOf x with
    | some l => loc .groveChan (l.lid * 64 + groveOf x.core) (va - 0xFF000002000000) l.record.chgrove
    | none => out
  | .ownDsp => dsp (dieOf x.core) (va - 0xFF000010000000)
  | .dieDsp d => dsp d (va - 0xFF000040000000 - d * 0x4000000)

/-- An access cut at 32-byte sector boundaries (R108): address and bytes of each piece, in rising order. -/
def cut (va n : Nat) : List (Nat × Nat) :=
  if n = 0 then []
  else (List.range ((va + n - 1) / 32 - va / 32 + 1)).map fun i =>
    let lo := max va ((va / 32 + i) * 32)
    let hi := min (va + n) ((va / 32 + i + 1) * 32)
    (lo, hi - lo)

/-- One more piece of an access resolved after the others: the first failure in address order stands, and a piece in
another window than the first lies outside its window (R84). -/
def State.resolveStep (s : State) (x : CtxRef) (acc : Acc) (w : Win) (a : AccR) (p : Nat × Nat) : AccR :=
  match a with
  | .ok ps =>
    if winOf p.1 ≠ w then .trap cLeaseExit p.1
    else
      match s.resolvePiece x acc p.1 p.2 with
      | .ok qs => .ok (ps ++ qs)
      | r => r
  | r => r

/-- The state on which the checks of the group in progress judge its accesses: tables, registers and watchpoints as they stood
before the group (R413). -/
def State.judged (s : State) : State :=
  match s.issue.pre with
  | none => s
  | some b => { s with store := b.store, regs := b.regs, obs := b.obs }

/-- An access resolved for a context: its pieces, or the fault of its first faulting byte (R84, R346, R410), by the tables as they
stood before the group (R413). -/
def State.resolve (s : State) (x : CtxRef) (acc : Acc) (va n : Nat) : AccR :=
  (cut va n).foldl (s.judged.resolveStep x acc (winOf va)) (.ok [])

/-- The level of an address decides the latency of an access (R169): 3 in the lane-slice and core-scratchpad views,
5 elsewhere. -/
def latencyOf (va : Nat) : Nat :=
  match winOf va with
  | .lane | .cspAlloc | .cspChan => 3
  | _ => 5

/-! ### Pins (R349, R350, R352) -/

/-- The physical addresses of every entry pinned on this device. -/
def State.pinned (s : State) : List Nat := s.launches.flatMap Launch.pins ++ s.pins.flatMap Prod.snd

/-- The one of some pinned entries that a write of bytes at a physical address would change a byte of (R352). -/
def State.pinHitIn (s : State) (pins : List Nat) (phys : Nat) (bytes : List Byte) : Option Nat :=
  pins.find? fun e =>
    decide (e < phys + bytes.length) && decide (phys < e + 8) &&
      (List.range bytes.length).any fun i =>
        decide (e ≤ phys + i ∧ phys + i < e + 8) && decide (cellGet s.store.mem (phys + i) ≠ bytes.getD i 0#8)

/-- The pinned entry that a write of bytes at a physical address would change a byte of (R352). -/
def State.pinHit (s : State) (phys : Nat) (bytes : List Byte) : Option Nat := s.pinHitIn s.pinned phys bytes
end Sys2Proof.Machine
end

