-- ==== Sys2Proof/Machine/React.lean ====
section
/-!
DEFINITION. What happens to a reaction from outside its own groups: release of its context, requeueing, discarding of a
version with channel repair, wounds and their cascades, failure, and the end of a launch (02_instants R46, R49, R50;
10_seq_traps R211, R212; 11_dispatch R232; 18_clearing R322-R328; 21_spaces R358).
-/

namespace Sys2Proof.Machine

/-! ### The dispatch engine's own walks (R345, R347) -/

/-- The migration counter of a die (R345, R356). -/
def State.migCounter (s : State) (die : Nat) : Word := s.ctr (ctrKey die (s.die die).migidx.toNat)

/-- The agent by which the dispatch engine of a die asks other devices for what launch `lid` needs. -/
def dispAgent (die lid : Nat) : CtxRef := ⟨1000 + die, lid⟩

/-- A remote walk's answer for the dispatch engine: a leaf with its level and cause, or the request to make (R347). -/
def State.dispWalk (s : State) (x : CtxRef) (va e lvl : Nat) : Except RemoteReq (Nat × Nat × Nat) :=
  match s.walkResp x (pteDev e) va e lvl with
  | some d => .ok (leNat (d.take 8), leNat ((d.drop 8).take 1), leNat ((d.drop 9).take 1))
  | none => .error ⟨x, pteDev e, va, some (BitVec.ofNat 64 e, lvl), 0, none, false⟩

/-- The outcome of a walk by the dispatch engine (R345, R347): a leaf with its level; no valid leaf; the request or the
migrating entry to wait for; a poisoned line. -/
inductive LeafR where
  | leaf (entry lvl : Nat)
  | none
  | wait (q : Option RemoteReq)
  | poison
  deriving DecidableEq, Repr

/-- The leaf that a table of a die gives an address, for an agent of the device and its master: by the local walk, or by the answer
of the device that continues it. A migrating entry waits until the bound has passed (R345); a walk that the access tables deny
gives none (R397). -/
def State.dispLeaf (s : State) (x : CtxRef) (die sid master va : Nat) : LeafR :=
  let w := s.walk die sid va
  if s.walkDenied master w then .none
  else if s.walkPoison w then .poison
  else
    match w.ending with
    | .leaf => .leaf w.entry w.lvl
    | .node => .none
    | .migrating => if s.walks.any fun k => decide (k.x = x) && k.expired then .none else .wait none
    | .remote =>
      match s.dispWalk x va w.entry w.lvl with
      | .error q => .wait (some q)
      | .ok (leaf, k, cause) => if cause = 0 then .leaf leaf k else .none

/-- The outcome of translating a piece for an agent of the device. -/
inductive DispT where
  | ok (p : Piece)
  | bad
  | wait (q : Option RemoteReq)
  | poison
  deriving DecidableEq, Repr

/-- A piece of translated space for an agent of the device, with the rights of a master in supervisor mode. -/
def State.dispTrans (s : State) (x : CtxRef) (die sid master : Nat) (acc : Acc) (va n : Nat) : DispT :=
  let out (r : TransR) : DispT := match r with
    | .ok p => .ok p
    | .poison => .poison
    | _ => .bad
  if sid = 0 then out (s.translate die sid master true acc va n)
  else
    match s.dispLeaf x die sid master va with
    | .leaf e lvl => out (s.useLeaf die master true acc va n e lvl)
    | .none => .bad
    | .wait q => .wait q
    | .poison => .poison

/-- A request to another device sent once, under a stamp (R111, R347, R392). -/
def State.ask (s : State) (core sid stamp : Nat) (q : RemoteReq) : State :=
  if s.fabric.reqs.any fun r =>
      decide (r.x = q.x) && decide (r.dev = q.dev) && decide (r.addr = q.addr) && decide (r.walk = q.walk) && r.load == q.load then s
  else
    let s := { s with fabric := { s.fabric with reqs := s.fabric.reqs ++ [{ q with seq := s.nextSeq q.dev }] } }
    match q.walk with
    | none => s.sendFlit core 2 q.dev 0 q.addr [] 0xFFFFFFFF stamp
    | some (e, lvl) => s.sendFlit core 9 q.dev sid q.addr (leBytes 8 e.toNat ++ [BitVec.ofNat 8 lvl]) 0x1FF 0

/-- A walk of an agent that waits on a migrating entry noted, once (R345). -/
def State.noteWalk (s : State) (x : CtxRef) (die : Nat) : State :=
  if s.walks.any fun w => decide (w.x = x) then s
  else
    { s with
      walks := s.walks ++ [⟨s.nextWalk, x, die, s.migCounter die, s.timebase.toNat, false⟩]
      nextWalk := s.nextWalk + 1 }

/-- What the dispatch engine asked for and noted for a launch, done with. -/
def State.dropAsked (s : State) (x : CtxRef) : State :=
  { s with
    walks := s.walks.filter fun w => w.x != x
    fabric := s.fabric.dropReqs fun q => q.x == x }

/-- The dies of a mask. -/
def diesOf (m : BitVec 8) : List Nat := (List.range 8).filter fun d => m.getLsbD d

/-- The die whose dispatch engine checks and ends a launch: that of the submitting core if DIEMASK names it, else the lowest
die of DIEMASK (R358). -/
def Launch.checkDie (l : Launch) : Nat :=
  let d := dieOf l.core
  if l.record.diemask.getLsbD d then d else ((diesOf l.record.diemask).head?).getD d

/-- The core in whose name the dispatch engine of a die sends flits for a launch: the submitting core, or one of that die in the
same partition. -/
def State.dieCore (s : State) (l : Launch) (die : Nat) : Nat :=
  if dieOf l.core = die then l.core
  else (((List.range 64).map fun k => 64 * die + k).find? fun n => decide (s.partOf n = s.partOf l.core)).getD (512 + 2 * die)

/-- The agent by which the checking die of a launch asks other devices. -/
def Launch.agent (l : Launch) : CtxRef := dispAgent l.checkDie l.lid

/-! ### Addresses the device reports -/

/-- The address that names a location outside translated space in a report (R320, R325): the die's window for die
scratchpad, the channel views for channel lines; in HBM the physical address (log 20). -/
def addrOfKey (key : Nat) : Nat :=
  match keyKind key with
  | 0 => key
  | 1 => 0xFF000040000000 + keyOwner key * 0x4000000 + keyOff key
  | 4 => 0xFF000000400000 + keyOff key
  | 6 => 0xFF000002000000 + keyOff key
  | _ => 0

/-- The places of a location in ranges laid end to end from a place on. -/
def placesIn (key : Nat) : Nat → List Range → List Nat
  | _, [] => []
  | at_, r :: rs =>
    (if r.key ≤ key ∧ key < r.key + r.len then [at_ + (key - r.key)] else []) ++ placesIn key (at_ + r.len) rs

/-- The address at a place in address ranges laid end to end. -/
def addrAt : List (Nat × Nat) → Nat → Option Nat
  | [], _ => none
  | it :: l, k => if k < it.2 then some (it.1 + k) else addrAt l (k - it.2)

/-- The addresses within an entry's leases that the walks of the accepted launch led to a location (R347, R349). -/
def Launch.leaseAddrs (l : Launch) (key : Nat) : List Nat :=
  (l.maps.filter fun m => decide (m.1 = l.checkDie)).flatMap fun m =>
    (placesIn key 0 m.2.2.2).filterMap (addrAt ((l.entries[m.2.1]?.map Entry.leaseList).getD []))

/-- The address by which a launch names a location in a report (R320, R321, R325, R336): the lowest address of its lease
ranges that its walks led there, those continued on other devices among them (R347), else the address of addrOfKey (log 20). -/
def State.launchAddr (s : State) (lid key : Nat) : Nat :=
  if keyKind key ≠ 0 ∧ keyKind key ≠ Kind.remote.num then addrOfKey key
  else ((s.launch? lid).bind fun l => (l.leaseAddrs key).min?).getD (addrOfKey key)

/-- The die whose engines hold a location. -/
def homeDie (key : Nat) : Nat :=
  match keyKind key with
  | 0 => key / 2 ^ 36
  | 1 => keyOwner key
  | 4 => dieOf (keyOwner key % 1024)
  | 6 => keyOwner key % 64 / 8
  | _ => 0

/-! ### Freezes and halts (R203, R204, R372, R376) -/

/-- A context stopped by a halt, with the block it was in (R376). -/
def Ctx.halt (c : Ctx) : Ctx :=
  match c.status with
  | .ready => { c with status := .stopped .halt none }
  | .blocked b => { c with status := .stopped .halt (some b) }
  | _ => c

/-- Every context of a core changed. -/
def Core.mapCtx (k : Core) (f : Ctx → Ctx) : Core := { k with ctxs := ⟨⟨k.ctxs.toList.map f⟩, by simp⟩ }

/-- Every context of a core stopped by a halt (R376). -/
def Core.halt (k : Core) : Core := k.mapCtx Ctx.halt
/-- The freeze line of a core dropped, and a halt that has waited for it taken (R204); an armed running context's freeze is
recorded (R372). -/
def State.dropFreeze (s : State) (core : Nat) : State :=
  match (s.core core).freeze with
  | none => s
  | some f =>
    let due := s.haltDue.contains core
    let s' := ({ s with haltDue := numDel s.haltDue core } : State).updCore core fun k =>
      let k := { k with freeze := none }
      if due then k.halt else k
    match (s.core core).running with
    | some k =>
      if ((s.core core).ctx k).mark.armed then
        s'.traceCtx ⟨core, k⟩ 2 0x102 false
          (f.last + f.cmask.toNat * 2 ^ 8 + min (2 ^ 32 - 1) (s.timebase.toNat - f.since) * 2 ^ 32 +
            f.addr.toNat % 2 ^ 56 * 2 ^ 64)
      else s'
    | none => s'

/-! ### Leaving a context -/

/-- The agent by which command `id` of a core's engines asks other devices for its sources (R111). -/
def cmdAgent (core id : Nat) : CtxRef := ⟨8000 + 8 * core + dieOf core, id⟩

/-- A context that holds no reaction: what belongs to the run is gone, the registers stand until the next start. -/
def Ctx.idle (c : Ctx) : Ctx :=
  { c with
    status := .idle, react := none, emu := false, bank := none, pend := [], delay := none, blocks := [], run := 0
    loop0 := Loop.zero, loop1 := Loop.zero
    emuDone := [], tret := none, eret := false
    skipBreak := false, skipWatch := [], feWait := none, walkExpired := false, ffPre := none, wake := false }

/-- The unstarted engine commands of a context gone, and what they asked of other devices (R111). -/
def State.dropWaiting (s : State) (x : CtxRef) : State :=
  let gone (c : Cmd) : Bool := decide (c.ctx = x.ctx) && !c.started
  let k := s.core x.core
  let asked := ((k.mxq ++ k.cpq).filter gone).map fun c => cmdAgent x.core c.id
  let keep (q : List Cmd) : List Cmd := q.filter fun c => !gone c
  let s := s.updCore x.core fun k => { k with mxq := keep k.mxq, cpq := keep k.cpq, msq := keep k.msq }
  { s with fabric := s.fabric.dropReqs fun q => asked.contains q.x }

/-- A context released: its queued commands go, and the started ones too unless they are to be completed. A freeze of
the running context ends (R204). -/
def State.releaseCtx (s : State) (x : CtxRef) (keepStarted : Bool) : State :=
  let s := if (s.core x.core).running = some x.ctx then s.dropFreeze x.core else s
  let keep (q : List Cmd) : List Cmd := q.filter fun c => c.ctx != x.ctx || (keepStarted && c.started)
  let k := s.core x.core
  let gone := ((k.mxq ++ k.cpq).filter fun c => c.ctx == x.ctx && !(keepStarted && c.started)).map fun c => cmdAgent x.core c.id
  let s := s.updCore x.core fun k =>
    { k.setCtx x.ctx ((k.ctx x.ctx).idle) with
      mxq := keep k.mxq, cpq := keep k.cpq, msq := keep k.msq
      adds := k.adds.filter fun a => a.ctx != x.ctx || keepStarted
      ended := k.ended || decide (k.running = some x.ctx) }
  { s with
    walks := s.walks.filter fun w => w.x != x
    fabric := s.fabric.dropReqs fun q => q.x == x || gone.contains q.x }

/-- A context of a reaction of an open launch that has trapped (R212, R214): it issues nothing more, what has not started goes, and
it stands until what it has started is complete. -/
def State.endCtx (s : State) (x : CtxRef) : State :=
  let s := if (s.core x.core).running = some x.ctx then s.dropFreeze x.core else s
  let s := (s.dropWaiting x).updCore x.core fun k =>
    let c := k.ctx x.ctx
    { k.setCtx x.ctx { c with status := .blocked .ending, pend := c.pend.filter fun p => p.late } with
      ended := k.ended || decide (k.running = some x.ctx) }
  { s with walks := s.walks.filter fun w => w.x != x }

/-- Every context of a reaction released. -/
def State.releaseReact (s : State) (r : Reaction) (keepStarted : Bool) : State :=
  r.places.foldl (fun s p => s.releaseCtx p.1 keepStarted) s

/-! ### Ticket counters (R233, R240) -/

/-- The tickets of counter `prio` of a die. -/
def State.ticketsOf (s : State) (die prio : Nat) : List ReactId :=
  match s.tickets.find? fun t => decide (t.1 = die) && decide (t.2.1 = prio) with
  | some t => t.2.2
  | none => []

/-- The tickets of a counter set. -/
def State.setTickets (s : State) (die prio : Nat) (l : List ReactId) : State :=
  { s with tickets :=
      (s.tickets.filter fun t => !(decide (t.1 = die) && decide (t.2.1 = prio))) ++ [(die, prio, l)] }

/-- A reaction's ticket taken out of every counter. -/
def State.dropTicket (s : State) (r : ReactId) : State :=
  { s with tickets := s.tickets.map fun t => (t.1, t.2.1, t.2.2.filter fun q => q != r) }

/-- The tokens of a reaction now (R234). -/
def Reaction.tokens (r : Reaction) (now : Nat) : Nat :=
  if r.st = .queued then min 0xFFFF (r.tok + (now - r.since) / 65536) else r.tok

/-- A reaction put back to QUEUED at the head of its ticket counter with its stamp and the tokens it holds, those gained in a
wait among them (R49, R234, R240). -/
def State.requeue (s : State) (id : ReactId) : State :=
  match s.react? id with
  | none => s
  | some r =>
    let s := s.updReact id fun r =>
      { r with
        st := .queued, tok := r.tokens s.timebase.toNat, since := s.timebase.toNat, places := [], tended := [], trap := none
        action := none
        irrev := false, sets := r.sets.map fun a => { a with held := false, past := false } }
    let s := s.dropTicket id
    s.setTickets r.die r.prio (id :: s.ticketsOf r.die r.prio)

/-! ### Discarding a version (R46, R325) -/

/-- A line consumed by a discarded reaction put back full, unless its producer is discarded too (R46). -/
def Store.unconsume (st : Store) (gone : List Nat) (c : Consumed) : Store :=
  if gone.contains c.producer.stamp then st
  else
    let st := { st with mem := cellsWrite st.mem (c.line * 128) c.bytes }
    let st := (List.range 4).foldl (fun (st : Store) i =>
      { st with taint := numSet st.taint (c.line * 4 + i) (c.taints.getD i true) }) st
    st.setFull c.producer

/-- A reaction's version, held adds, log entries, leases and edges gone, and its channel lines repaired: lines it filled
become empty, lines it consumed full again (R46, R325). -/
def Store.discard (st : Store) (lid stamp : Nat) (gone : List Nat) : Store :=
  let mine := st.consumed.filter fun c => decide (c.lid = lid) && decide (c.stamp = stamp)
  let st := { st with
    logs := st.logs.filter fun l => !(decide (l.lid = lid) && decide (l.stamp = stamp))
    leases := st.leases.filter fun l => !(decide (l.lid = lid) && decide (l.stamp = stamp))
    edges := st.edges.filter fun e => !(decide (e.lid = lid) && (decide (e.consumer = stamp) || decide (e.producer = stamp)))
    setReads := st.setReads.filter fun e =>
      !(decide (e.lid = lid) && (decide (e.consumer = stamp) || decide (e.producer = stamp)))
    fe := st.fe.filter fun f => !(decide (f.lid = lid) && decide (f.stamp = stamp))
    consumed := st.consumed.filter fun c => !(decide (c.lid = lid) && decide (c.stamp = stamp)) }
  mine.foldl (fun st c => st.unconsume gone c) st

/-! ### Wounds (R325) -/

/-- One wound to be made: the victim, who caused it directly, where (as a key), its kind and set number, and the die whose
clearing engine makes it (R321); 8 for an engine of another device. -/
structure WoundJob where
  stamp : Nat
  by_ : Nat
  key : Nat
  kind : Nat
  set : Nat
  die : Nat
  deriving DecidableEq, Repr

/-- A wound made where a line is homed. -/
def WoundJob.at_ (stamp by_ key kind set : Nat) : WoundJob := ⟨stamp, by_, key, kind, set, homeDie key⟩

/-- The action that began a cascade, named by its WOUND records (R373). -/
structure Origin where
  x : CtxRef
  bundle : Nat
  cyc : Nat
  stamp : Nat
  deriving DecidableEq, Repr

/-- A context's action as an origin. -/
def State.origin (s : State) (x : CtxRef) : Origin :=
  let c := s.ctx x
  ⟨x, c.pc.toNat, c.cyc.toNat, c.stamp.toNat⟩

/-- The wounds that discarding the version of `v` makes: readers of it and loaders of its set stores (R102, R325). -/
def Store.versionReaders (st : Store) (lid v : Nat) : List WoundJob :=
  (st.leases.filterMap fun l =>
      if l.lid = lid ∧ l.from_.contains v then some (.at_ l.stamp v (l.line * 128) 3 0) else none) ++
    (st.setReads.filterMap fun e =>
      if e.lid = lid ∧ e.producer = v then some (.at_ e.consumer v (e.line * 128) 3 0) else none)

/-- The wounds that a wound or kill of `v` makes (R46, R325): also the consumers with an edge from it. -/
def Store.dependents (st : Store) (lid v : Nat) : List WoundJob :=
  st.versionReaders lid v ++
    (st.edges.filterMap fun e =>
      if e.lid = lid ∧ e.producer = v then some (.at_ e.consumer v (e.line * 128) 4 0) else none)

/-- The version of a reaction that has trapped, with its held adds and log entries, gone (R211). Its read leases, set loads
and channel records stay: a lower stamp may still wound it (R50, R102), and that wound repairs its channels (R46). -/
def Store.dropVersion (st : Store) (lid stamp : Nat) : Store :=
  { st with logs := st.logs.filter fun l => !(decide (l.lid = lid) && decide (l.stamp = stamp)) }

/-- The restart record, with the address of the line (R325). -/
def restartRecord (j : WoundJob) (addr count : Nat) : Nat :=
  j.stamp + j.by_ * 2 ^ 64 + addr % 2 ^ 56 * 2 ^ 128 + j.kind * 2 ^ 184 + min 255 count * 2 ^ 192 + j.set % 16 * 2 ^ 200

/-- The address of a wound's restart record; 0 for capacity (R325). -/
def State.woundAddr (s : State) (lid : Nat) (j : WoundJob) : Nat := if j.kind = 5 then 0 else s.launchAddr lid j.key

/-- The devices that hold versions, read leases or lines of sets of a reaction of this device (R114, R323). -/
def State.awayDevs (s : State) (l : Launch) (stamp : Nat) : List Nat :=
  let mine := ((s.store.effs l.lid stamp).filterMap Eff.line? ++
    (s.store.leases.filter fun q => decide (q.lid = l.lid) && decide (q.stamp = stamp)).map Lease.line).map (· * 128) ++
    (l.away.filter fun a => decide (a.stamp = stamp)).map fun a => a.range.key
  ((mine.filter fun k => decide (keyKind k = Kind.remote.num)).map keyOwner).eraseDups

/-- A lease or version message sent to a device (R114, R392). -/
def State.leaseMsg (s : State) (l : Launch) (dev stamp : Nat) (m : LeaseMsg) : State :=
  ({ s with fabric := { s.fabric with leaseMsgs := s.fabric.leaseMsgs ++ [m] } } : State).sendFlit
    l.core 7 dev 0 l.record.status [] 0 stamp

/-- The devices that hold a discarded version, leases or lines of sets of its reaction told of the discard (R114, R325). -/
def State.tellDiscard (s : State) (lid stamp : Nat) : State :=
  match s.launch? lid with
  | none => s
  | some l =>
    ((s.awayDevs l stamp).foldl (fun s d => s.leaseMsg l d stamp (.discard l.record.status stamp)) s).updLaunch lid fun l =>
      { l with away := l.away.filter fun a => a.stamp != stamp }

/-- The devices that hold something of a reaction that has finished or trapped told so: its sets are released there, and the version
of one that has trapped is gone (R211, R324). -/
def State.tellRelease (s : State) (lid stamp : Nat) (trapped : Bool) : State :=
  match s.launch? lid with
  | none => s
  | some l =>
    let devs := if trapped then s.awayDevs l stamp
      else ((l.away.filter fun a => decide (a.stamp = stamp)).map fun a => keyOwner a.range.key).eraseDups
    devs.foldl (fun s d => s.leaseMsg l d stamp (.release l.record.status stamp trapped)) s

/-- A wound counted by the clearing engine of a die that makes it (R321). -/
def State.countWound (s : State) (die : Nat) : State :=
  s.updDie die fun d => { d with wounds := if d.wounds = BitVec.allOnes 32 then d.wounds else d.wounds + 1#32 }

/-- The device of a reaction that has a lease, or lines of a set, here, to which its wound must be told (R114). -/
def State.awayHome (s : State) (l : Launch) (stamp : Nat) : Option Nat :=
  ((s.store.leases.find? fun q => decide (q.lid = l.lid) && decide (q.stamp = stamp) && decide (q.dev ≠ s.devid)).map Lease.dev) <|>
    (l.guests.find? fun g => decide (g.stamp = stamp)).map Guest.dev

/-- The wound of a reaction of another device told there (R114). -/
def State.tellWound (s : State) (l : Launch) (j : WoundJob) : State :=
  match s.awayHome l j.stamp with
  | none => s
  | some dev => (s.countWound j.die).leaseMsg l dev j.stamp (.wound l.record.status j.stamp j.by_ (addrOfKey j.key) j.kind)

/-- Whether a reaction holds work that a wound discards: RUNNING, FINISHED, FAILED or checkpointed (R50); in an open
launch never past its irreversible point (R328). -/
def woundable (open_ : Bool) (r : Reaction) : Bool :=
  (match r.st with
    | .running | .finished | .failed => true
    | .queued => decide (r.slots ≠ [])
    | .retired => false) && !(open_ && r.irrev)

/-- One wound made: trace, counts, contexts released, version discarded here and where other devices hold it, requeued
(R114, R325). A wound that a store of another device makes is traced at the victim (log 128). -/
def State.woundOne (s : State) (lid : Nat) (o : Origin) (gone : List Nat) (j : WoundJob) (r : Reaction) : State :=
  let id : ReactId := ⟨lid, j.stamp⟩
  let s := r.places.foldl (fun s p => s.event p.1 0x0B 1) s
  let x := if o.x.core < 529 then o.x else ((r.places.head?).map Prod.fst).getD ⟨r.lastCore, 0⟩
  let s := if s.obs.kmask.getLsbD 5 then
      s.record (traceNat s x 0xA2 false o.bundle o.cyc o.stamp (restartRecord j (s.woundAddr lid j) (r.wounds + 1)))
    else s
  let s := (if j.die < 8 then s.countWound j.die else s).releaseReact r false
  let s := s.tellDiscard lid j.stamp
  let s := { s with store := s.store.discard lid j.stamp gone }
  let s := s.updLaunch lid fun l => { l with slots := l.slots.filter fun k => !r.slots.contains k }
  let s := s.updReact id fun r => { r with wounds := r.wounds + 1, slots := [], saved := [] }
  s.requeue id

/-- Wounds and their cascades (R325): each job in turn, and the jobs its discard makes. -/
def State.woundLoop (s : State) (lid : Nat) (o : Origin) : Nat → List Nat → List WoundJob → State
  | 0, _, _ => s
  | _ + 1, _, [] => s
  | fuel + 1, gone, j :: js =>
    match s.launch? lid with
    | none => s
    | some l =>
      match l.react? j.stamp with
      | none => (s.tellWound l j).woundLoop lid o fuel gone js
      | some r =>
        if gone.contains j.stamp ∨ woundable l.record.open_ r = false then s.woundLoop lid o fuel gone js
        else
          let more := s.store.dependents lid j.stamp
          (s.woundOne lid o (j.stamp :: gone) j r).woundLoop lid o fuel (j.stamp :: gone) (js ++ more)

/-- Steps that bound a cascade: every reaction once, and every lease, edge and set load as a job. -/
def State.woundFuel (s : State) : Nat :=
  1000 + s.store.leases.length + s.store.edges.length + s.store.setReads.length

/-- Wounds made by an action (R325). -/
def State.wound (s : State) (lid : Nat) (o : Origin) (js : List WoundJob) : State :=
  s.woundLoop lid o (s.woundFuel + js.length) [] js

/-! ### The end of a launch (R232, R358) -/

/-- The launch status record (R232). -/
def statusNat (l : Launch) (r : Option Report) (nother : Nat) : Nat :=
  match r with
  | none => l.cleared * 2 ^ 192
  | some r =>
    r.cause.toNat + r.field * 2 ^ 16 + min (2 ^ 32 - 1) nother * 2 ^ 32 + r.stamp * 2 ^ 64 + r.info.toNat * 2 ^ 128 +
      l.cleared * 2 ^ 192 + r.core * 2 ^ 240 + (if r.taint then 2 ^ 250 else 0)

/-- Stores by an agent noted for every running open launch, for the taint of R107. -/
def State.note (s : State) (agent : Option RunRef) (isSet : Bool) (sectors : List Nat) : State :=
  let opens := (s.launches.filter fun l => l.record.open_ && decide (l.phase = .running)).map Launch.lid
  { s with store := { s.store with
      recent := opens.flatMap (fun lid => sectors.map fun k => ⟨lid, k, agent, isSet⟩) ++ s.store.recent } }

/-- The number that stands for a context in the flits of a status record, which name its launch as their command. -/
def statusCtx : Nat := 5

/-- The 64 bytes of a status record stored at a resolved place; a page that is versioned or memory-side gets none (R232). -/
def State.putStatus (s : State) (l : Launch) (p : Piece) (v : Nat) : State :=
  let bs := leBytes 64 v
  match p.page with
  | .direct =>
    if (s.pinHit p.key bs).isSome then s
    else
      let s := s.note none false [sectorOf p.key, sectorOf p.key + 1]
      { s with store := (s.store.put p.key (bs.take 32) false).put (p.key + 32) (bs.drop 32) false }
  | .remote dev false false =>
    let n := s.dieCore l l.checkDie
    (s.sendFor n statusCtx (some l.lid) 1 dev l.sid.toNat (keyOff p.key) (bs.take 32) 0xFFFFFFFF 0).sendFor
      n statusCtx (some l.lid) 1 dev l.sid.toNat (keyOff p.key + 32) (bs.drop 32) 0xFFFFFFFF 0
  | _ => s

/-- The status record written under the launch's SID, if the page allows it (R232); or the answer or the migration that its
walk waits for (R345, R347). -/
def State.writeStatus (s : State) (l : Launch) (v : Nat) : Except (Option RemoteReq) State :=
  let a := l.record.status
  if 2 ^ 55 ≤ a then .ok s
  else
    match s.dispTrans l.agent l.checkDie l.sid.toNat (s.master l.core) .w a 64 with
    | .ok p => .ok (s.putStatus l p v)
    | .bad => .ok s
    | .poison => .ok (s.resetSoon l.core)
    | .wait q => .error q

/-- A clearing message to every device that a launch is known to span (R114, R392). -/
def State.tellPeers (s : State) (l : Launch) (m : ClearMsg) : State :=
  if l.peers = [] then s
  else l.peers.foldl (fun s p => s.sendFlit l.core 6 p.dev l.sid.toNat l.record.status [] 0 0)
    { s with fabric := { s.fabric with messages := s.fabric.messages ++ [m] } }

/-- Whether a launch has written a status record to another device that is still unacknowledged (R112, R358). -/
def State.statusOut (s : State) (lid : Nat) : Bool := s.fabric.flits.any fun o => decide (o.ctx = statusCtx) && decide (o.cmd = some lid)

/-- The end of a launch whose status record is written: pins released and the status counter raised, a release: once the record has
been acknowledged (R112, R358). -/
def State.raiseDone (s : State) (l : Launch) : State :=
  if s.statusOut l.lid then s
  else
    (s.updLaunch l.lid fun l => { l with phase := .ended, pins := [] }).applyAdd ⟨l.core, 0⟩
      (resolveSel s.devid (dieOf l.core) (BitVec.ofNat 64 l.done)) 1#64

/-- The last steps of a launch that ends (R232, R358): the status record written, the other devices told, pins released, the status
counter raised. They wait where the walk of STATUS waits. -/
def State.finishLaunch (s : State) (lid : Nat) : State :=
  match s.launch? lid with
  | none => s
  | some l =>
    match l.phase, l.closing with
    | .ending, some (v, cause) =>
      let x := l.agent
      match s.writeStatus l v with
      | .error (some q) => s.ask (s.dieCore l l.checkDie) l.sid.toNat noView q
      | .error none => s.noteWalk x l.checkDie
      | .ok s =>
        let s := (s.dropAsked x).updLaunch lid fun l => { l with closing := none }
        (s.tellPeers l (.ended s.devid l.record.status cause)).raiseDone l
    | .ending, none => s.raiseDone l
    | _, _ => s

/-- A launch ended with a report (R358): its contexts released, what it holds in store gone, then its last steps. -/
def State.endLaunch (s : State) (lid : Nat) (rep : Option Report) (nother : Nat) : State :=
  match s.launch? lid with
  | none => s
  | some l =>
    if l.phase = .ended ∨ l.phase = .ending then s
    else
      let s := l.reacts.foldl (fun s r => s.releaseReact r false) s
      let s := { s with
        store := { s.store with
          logs := s.store.logs.filter fun g => g.lid != lid
          leases := s.store.leases.filter fun g => g.lid != lid
          edges := s.store.edges.filter fun g => g.lid != lid
          setReads := s.store.setReads.filter fun g => g.lid != lid
          consumed := s.store.consumed.filter fun g => g.lid != lid
          recent := s.store.recent.filter fun g => g.lid != lid }
        tickets := s.tickets.map fun (t : Nat × Nat × List ReactId) =>
          (t.1, t.2.1, t.2.2.filter fun q => q.lid != lid)
        reserved := s.reserved.filter fun q => q.2.lid != lid }
      let v := statusNat l rep nother
      let s := s.updLaunch lid fun l =>
        { l with
          phase := .ending, reacts := [], slots := [], guests := [], away := []
          closing := some (v, (rep.map Report.cause).getD 0#8) }
      s.finishLaunch lid

/-- A launch ended by a cause that its dispatch or clearing engine raises: the cause event is recorded of a core, without a
group (R209, R373; log 137). -/
def State.endRaised (s : State) (lid core : Nat) (rep : Report) : State :=
  let s := if s.obs.kmask.getLsbD 3 then
      s.record (traceNat s ⟨core, 0⟩ rep.cause.toNat false 0 0 rep.stamp rep.info.toNat)
    else s
  s.endLaunch lid (some rep) 0

/-- A report of a reaction's trap. -/
def trapReport (stamp : Nat) (t : TrapRec) (taint : Bool) : Report := ⟨t.cause, 0, 0, stamp, t.info, t.core, taint⟩

/-- Whether a launch has reactions under way: running, checkpointed and to be resumed, or trapped with what they started still to
be completed (R212, R214). -/
def Launch.busy (l : Launch) : Bool :=
  l.reacts.any fun r => decide (r.st = .running) || (decide (r.st = .queued) && decide (r.slots ≠ [])) ||
    (decide (r.st = .failed) && decide (r.places ≠ []))

/-- The launch ended if its report has become due: in an ordered launch once a trap record is final (R211), in an open
launch that starts no further reaction once every started one has finished (R212, R358). -/
def State.checkEnd (s : State) (lid : Nat) : State :=
  match s.launch? lid with
  | none => s
  | some l =>
    if l.phase = .ended ∨ l.phase = .ending then s
    else if l.record.open_ then
      if l.aborting && !l.busy then s.endLaunch lid l.report l.nother else s
    else
      let inst := l.reacts.filter fun r => decide (r.inst = l.cleared)
      let failed := inst.filter fun r => decide (r.st = .failed)
      if failed = [] then s
      else if inst.all fun r => decide (r.st = .finished) || decide (r.st = .failed) then
        match failed.filterMap fun r => r.trap.map fun t => (r.stamp, t) with
        | [] => s
        | (st, t) :: rest => s.endLaunch lid (some (trapReport st t false)) rest.length
      else s

/-- A reaction that ends with a trap (R211, R212): its version discarded with the wounds that follow in an ordered
launch, its report kept; then the launch ends if that is due. In an open launch its contexts are drained first (R214). -/
def State.failReact (s : State) (x : CtxRef) (cause : Byte) (info : Word) : State :=
  match (s.ctx x).react with
  | none => s
  | some ref =>
    match s.launch? ref.lid, s.react? ref.id with
    | some l, some r =>
      if r.st ≠ .running then s else
      let t : TrapRec := ⟨cause, info, x.core⟩
      let o := s.origin x
      let s := if l.record.open_ then r.places.foldl (fun s p => s.endCtx p.1) s else s.releaseReact r false
      let s := s.updReact ref.id fun r =>
        { r with
          st := .failed, places := if l.record.open_ then r.places else [], trap := some t, action := none, lastCore := x.core
          sets := r.sets.map fun a => { a with held := false, past := a.past || a.held } }
      let s := s.tellRelease ref.lid ref.stamp true
      let s :=
        if l.record.open_ then
          s.updLaunch ref.lid fun l =>
            { l with
              aborting := true
              report := some (l.report.getD (trapReport ref.stamp t true))
              nother := if l.report.isSome then l.nother + 1 else l.nother }
        else
          let jobs := s.store.versionReaders ref.lid ref.stamp
          let s := { s with store := s.store.dropVersion ref.lid ref.stamp }
          s.wound ref.lid o jobs
      s.checkEnd ref.lid
    | _, _ => s

/-! ### Atomic sets (R322-R328) -/

/-- The location ranges of a byte range of a context, page by page (64 KiB), by the tables as they stood before the group (R413); a
page it may not reach so is left out. -/
def State.rangesFor (s : State) (x : CtxRef) (acc : Acc) (base len : Nat) : List Range :=
  if len = 0 then []
  else (List.range ((base + len - 1) / 65536 - base / 65536 + 1)).filterMap fun i =>
    let lo := max base ((base / 65536 + i) * 65536)
    let hi := min (base + len) ((base / 65536 + i + 1) * 65536)
    match s.judged.resolvePiece x acc lo 1 with
    | .ok (p :: _) => some ⟨p.key, hi - lo⟩
    | _ => none

/-- The location ranges of a byte range that a context may read. -/
def State.rangesOf (s : State) (x : CtxRef) (base len : Nat) : List Range := s.rangesFor x .r base len

/-- Whether a set shares a line with some of the ranges. -/
def ASet.meets (a : ASet) (rs : List Range) : Bool := a.ranges.any fun r => rs.any fun q => r.meetsLine q

/-- The ranges of every set a reaction holds. -/
def Reaction.heldRanges (r : Reaction) : List Range := (r.sets.filter ASet.held).flatMap ASet.ranges

/-- The ranges of every set a reaction holds or has held. -/
def Reaction.pastRanges (r : Reaction) : List Range := (r.sets.filter fun a => a.held || a.past).flatMap ASet.ranges

/-- The first line that two ranges share. -/
def Range.commonLine (a b : Range) : Option Nat :=
  if a.meetsLine b then some (max (lineOf a.key) (lineOf b.key)) else none

/-- How another reaction `y` of the launch stands to a touch by `x` (R323, R328). -/
inductive Meet where
  | nothing | wait | wound
  deriving DecidableEq, Repr

/-- The table of R323 for one other reaction on the lines of the sets touched; a reaction that has failed is a past holder
too (R324). -/
def meetOf (open_ : Bool) (x : Nat) (lines : List Range) (y : Reaction) : Meet :=
  if y.stamp = x then .nothing
  else
    let live := decide (y.st = .running) || (decide (y.st = .queued) && decide (y.slots ≠ []))
    if live && y.heldRanges.any (fun r => lines.any fun q => r.meetsLine q) then
      if y.stamp < x then .wait else if open_ && y.irrev then .wait else .wound
    else if !open_ && decide (y.st = .finished ∨ y.st = .failed) && decide (x < y.stamp) &&
        y.pastRanges.any (fun r => lines.any fun q => r.meetsLine q) then .wound
    else .nothing

/-- The line of a set where a touch of some ranges meets another reaction's sets (R325): a line that the access touches, else
one of the lines acquired with it. -/
def meetLine (rs lines theirs : List Range) : Nat :=
  let touched := rs.flatMap fun q => lines.filterMap fun k => (q.commonLine k).map fun n => (⟨n * 128, 128⟩ : Range)
  ((touched ++ lines).findSome? fun q => theirs.findSome? fun r => q.commonLine r).getD 0

/-- The wounds that a touch of some ranges makes among the reactions of the launch (R323). -/
def touchJobs (open_ : Bool) (x : Nat) (rs lines : List Range) (ys : List Reaction) : List WoundJob :=
  ys.filterMap fun y =>
    if meetOf open_ x lines y = .wound then
      let line := meetLine rs lines y.pastRanges
      let n := (y.sets.findIdx? fun a => (a.held || a.past) && a.meets [⟨line * 128, 128⟩]).getD 0
      some (.at_ y.stamp x (line * 128) 1 n)
    else none

/-! ### Sets over devices (R114, R323; logs 109, 167) -/

/-- The guests of a launch that stand on some lines, but one reaction's. -/
def Launch.guestsOn (l : Launch) (x : Nat) (lines : List Range) : List Guest :=
  l.guests.filter fun g => decide (g.stamp ≠ x) && lines.any fun q => g.range.meetsLine q

/-- Whether a guest is one that a touch by reaction `x` wounds: a younger holder, and in an ordered launch a younger past holder
(R323). -/
def Guest.younger (open_ : Bool) (x : Nat) (g : Guest) : Bool :=
  decide (x < g.stamp) && (decide (g.hold = .holds) || (!open_ && decide (g.hold = .past)))

/-- Whether a guest makes a touch by reaction `x` wait: it holds the lines and is older, or has been told of its wound and has not
given them back (R323). -/
def Guest.stops (x : Nat) (g : Guest) : Bool :=
  decide (g.hold = .told) || (decide (g.hold = .holds) && decide (g.stamp < x))

/-- Whether older holders, or guests that have been told of a wound, make a touch by reaction `x` wait. -/
def Launch.stops (l : Launch) (x : Nat) (lines : List Range) : Bool :=
  (l.reacts.any fun y => decide (meetOf l.record.open_ x lines y = .wait)) || (l.guestsOn x lines).any (Guest.stops x)

/-- Whether a touch by reaction `x` meets guests that it wounds. -/
def Launch.younger (l : Launch) (x : Nat) (lines : List Range) : Bool := (l.guestsOn x lines).any (Guest.younger l.record.open_ x)

/-- The younger guests on the lines of a touch told, where they run, that it wounds them (R323). -/
def State.tellGuests (s : State) (l : Launch) (x : Nat) (lines : List Range) : State :=
  let ys := (l.guestsOn x lines).filter (Guest.younger l.record.open_ x)
  let key (g : Guest) : Nat := (lines.findSome? fun q => g.range.commonLine q).getD 0 * 128
  (ys.foldl (fun (s : State) g => s.tellWound l ⟨g.stamp, x, key g, 1, 0, homeDie (key g)⟩) s).updLaunch l.lid fun l =>
    { l with guests := l.guests.map fun g => if ys.contains g then { g with hold := .told } else g }

/-- Whether lines are homed on another device. -/
def Range.isAway (r : Range) : Bool := decide (keyKind r.key = Kind.remote.num)

/-- Whether every line of a touch that is homed on another device is held there for a reaction. -/
def Launch.awayHeld (l : Launch) (x : Nat) (lines : List Range) : Bool :=
  (lines.filter Range.isAway).all fun q => l.away.any fun a => decide (a.stamp = x) && decide (a.range = q) && a.held

/-- The lines of a touch that are homed on other devices asked for there, once (R323). -/
def State.askLines (s : State) (l : Launch) (x : Nat) (lines : List Range) : State :=
  (lines.filter Range.isAway).foldl (fun (s : State) q =>
    if l.away.any fun a => decide (a.stamp = x) && decide (a.range = q) then s
    else
      (s.leaseMsg l (keyOwner q.key) x (.touch l.record.status x (keyOff q.key) q.len)).updLaunch l.lid fun l =>
        { l with away := l.away ++ [⟨x, q, false⟩] }) s

/-- A waiting guest looked at: once no holder makes it wait and those it wounds have given way, it holds its lines, and its device is
told (R323). -/
def State.settleGuest (s : State) (lid : Nat) (g : Guest) : State :=
  match s.launch? lid with
  | none => s
  | some l =>
    if !l.guests.contains g || g.hold != .waits || l.stops g.stamp [g.range] then s
    else if l.younger g.stamp [g.range] then s.tellGuests l g.stamp [g.range]
    else
      let o : Origin := ⟨⟨2000 + homeDie g.range.key, 0⟩, 0, 0, g.stamp⟩
      let s := s.wound lid o (touchJobs l.record.open_ g.stamp [g.range] [g.range] l.reacts)
      (s.updLaunch lid fun l => { l with guests := l.guests.map fun h => if h = g then { h with hold := .holds } else h }).leaseMsg
        l g.dev g.stamp (.hold l.record.status g.stamp g.range.key g.range.len)

/-- A guest put among others by age. -/
def putGuest (g : Guest) : List Guest → List Guest
  | [] => [g]
  | h :: hs => if h.stamp < g.stamp then h :: putGuest g hs else g :: h :: hs

/-- Every waiting guest looked at, the older before the younger (R323). -/
def State.settleGuests (s : State) : State :=
  s.launches.foldl (fun (s : State) l =>
    ((l.guests.filter fun g => g.hold == .waits).foldr putGuest []).foldl (fun s g => s.settleGuest l.lid g) s) s

/-- The outcome of a touch. -/
inductive TouchR where
  | ok (s : State)
  /-- past the irreversible point: the first range that touches -/
  | irrev (key : Nat)
  | wait (rs : List Range)
  deriving Repr

/-- The lines of the sets a reaction does not hold and that an access meets. -/
def Reaction.unheld (r : Reaction) (rs : List Range) : List Range :=
  (r.sets.filter fun a => !a.held && a.meets rs).flatMap ASet.ranges

/-- A touch by a context's access (R322, R323, R327): past the irreversible point a trap; while an older holder stands,
a wait; else the younger ones are wounded and the sets acquired. -/
def State.touch (s : State) (x : CtxRef) (rs : List Range) : TouchR :=
  match (s.ctx x).react with
  | none => .ok s
  | some ref =>
    match s.launch? ref.lid, s.react? ref.id with
    | some l, some r =>
      let lines := r.unheld rs
      if lines = [] then .ok s
      else if l.record.open_ && r.irrev then
        .irrev (((rs.find? fun q => lines.any fun k => q.meetsLine k).map Range.key).getD 0)
      else if l.stops ref.stamp lines || l.younger ref.stamp lines || !l.awayHeld ref.stamp lines then .wait rs
      else
        let s := s.wound ref.lid (s.origin x) (touchJobs l.record.open_ ref.stamp rs lines l.reacts)
        let left := ((s.launch? ref.lid).map Launch.reacts).getD []
        let late := l.record.open_ && (left.any (fun y =>
            decide (ref.stamp < y.stamp) && y.pastRanges.any fun q => lines.any fun k => q.meetsLine k) ||
          (l.guestsOn ref.stamp lines).any fun g => decide (ref.stamp < g.stamp) && decide (g.hold = .past))
        .ok (s.updReact ref.id fun r =>
          { r with sets := r.sets.map fun a => if a.meets rs && !a.held then { a with held := true, dirty := late } else a })
    | _, _ => .ok s

/-- The wounds of a touch that waits (R323): younger holders are wounded at once, and lines of other devices asked for. -/
def State.touchWounds (s : State) (x : CtxRef) (rs : List Range) : State :=
  match (s.ctx x).react with
  | none => s
  | some ref =>
    match s.launch? ref.lid, s.react? ref.id with
    | some l, some r =>
      let lines := r.unheld rs
      ((s.wound ref.lid (s.origin x) (touchJobs l.record.open_ ref.stamp rs lines l.reacts)).tellGuests l ref.stamp lines).askLines
        l ref.stamp lines
    | _, _ => s

/-- A touch that still waits (R323): once nothing older makes it wait, guests that it wounds are told. -/
def State.touchAgain (s : State) (x : CtxRef) (rs : List Range) : State :=
  match (s.ctx x).react with
  | none => s
  | some ref =>
    match s.launch? ref.lid, s.react? ref.id with
    | some l, some r =>
      if l.stops ref.stamp (r.unheld rs) then s else s.tellGuests l ref.stamp (r.unheld rs)
    | _, _ => s

/-- A reaction of an open launch brought past its irreversible point (R327). -/
def State.irrev (s : State) (x : CtxRef) : State :=
  match (s.ctx x).react with
  | none => s
  | some ref => s.updReact ref.id fun r => { r with irrev := true }

end Sys2Proof.Machine
end

