-- ==== Sys2Proof/Machine/Access.lean ====
section
/-!
DEFINITION. The accesses of a context and of the engines that serve it: what a reaction reads and where its stores go
(04_memory R94-R98, 05_ordering R101-R107, R411, 18_clearing R315-R318, R329), watchpoints (22_observation R375), pinned
entries (21_spaces R352), poisoned lines (23_system R400), and the application of memory-side operations (18_clearing
R331-R333).
-/

namespace Sys2Proof.Machine

/-! ### Who reads -/

/-- What decides what an access sees: the reaction, its launch's mode, and the sets it holds; with the bundle and cycle of the
group of an engine command, which its wounds name (R373), and the command's number, which its flits name (R110). -/
structure Viewer where
  agent : Option RunRef
  ordered : Bool
  open_ : Bool
  cleared : Nat
  held : List Range
  clean : List Range
  group : Option (Nat × Nat)
  cmd : Option Nat
  deriving DecidableEq, Repr

/-- The viewer of a reaction, or of a context without one. -/
def State.viewerOf (s : State) (react : Option RunRef) : Viewer :=
  match react.bind fun r => s.launch? r.lid, react.bind fun r => s.react? r.id with
  | some l, some r =>
    ⟨react, !l.record.open_, l.record.open_, l.cleared, r.heldRanges,
      (r.sets.filter fun a => a.held && !a.dirty).flatMap ASet.ranges, none, none⟩
  | _, _ => ⟨none, false, false, 0, [], [], none, none⟩

/-- What a command's accesses see: the view of its reaction, with the sets held at its trigger (R13, R98). -/
def State.cmdViewer (s : State) (c : Cmd) : Viewer :=
  { s.viewerOf c.react with held := c.held, clean := c.clean, group := some c.group, cmd := some c.id }

/-- The viewer of a context. -/
def State.viewer (s : State) (x : CtxRef) : Viewer := s.viewerOf (s.ctx x).react

/-- The launch of a viewer's reaction. -/
def Viewer.lid (v : Viewer) : Nat := (v.agent.map RunRef.lid).getD 0

/-- The stamp of a viewer's reaction. -/
def Viewer.stamp (v : Viewer) : Nat := (v.agent.map RunRef.stamp).getD 0

/-- The stamp under which an agent's loads ask other devices: that of the reaction whose view answers them, in an ordered launch. -/
def Viewer.asks (v : Viewer) : Nat := if v.ordered then v.stamp else noView

/-- The action of a viewer's context that the wounds of an access name: its group, or that of the engine command (R373). -/
def State.actOf (s : State) (x : CtxRef) (v : Viewer) : Origin :=
  let o := s.origin x
  match v.group with
  | some g => { o with bundle := g.1, cyc := g.2 }
  | none => o

/-- Whether a sector lies in a set the viewer holds. -/
def Viewer.holds (v : Viewer) (sector : Nat) : Bool := v.held.any fun r => r.meets ⟨sector * 32, 32⟩

/-- Whether a page is versioned shared memory for a viewer (R411). -/
def Viewer.versioned (v : Viewer) (p : PageKind) : Bool :=
  v.ordered && (match p with
    | .dsp | .ver | .ms | .remote _ true _ | .remote _ _ true => true
    | _ => false)

/-- Whether a page is a memory-side page, of this device or of another (R92). -/
def PageKind.memSide (p : PageKind) : Bool :=
  match p with
  | .ms | .remote _ _ true => true
  | _ => false
/-! ### Reading a piece -/

/-- The taint of R107: the sector has been stored since the current instant began by another agent; stores of the
viewer's own launch do not count within a set it holds. -/
def State.raced (s : State) (v : Viewer) (sector : Nat) : Bool :=
  v.open_ && s.store.recent.any fun r =>
    decide (r.lid = v.lid) && decide (r.sector = sector) &&
    (match r.agent with
      | none => true
      | some a => (decide (a.lid ≠ v.lid) || decide (a.stamp ≠ v.stamp)) &&
          !(decide (a.lid = v.lid) && v.clean.any fun q => q.meets ⟨sector * 32, 32⟩))

/-- The remote load of an agent whose response is here (R111). -/
def State.remoteHere (s : State) (x : CtxRef) (dev addr : Nat) : Option RemoteReq :=
  s.fabric.reqs.find? fun q =>
    decide (q.x = x) && decide (q.dev = dev) && decide (q.addr = addr) && decide (q.walk = none) && q.resp.isSome

/-- The response bytes of a remote load, if they are here (R111). -/
def State.remoteData (s : State) (x : CtxRef) (dev addr : Nat) : Option (List Byte) :=
  (s.remoteHere x dev addr).bind RemoteReq.resp

/-- The sector of another device as far as a remote load has brought it; a flit carries no taint, so whether the data come
tainted is free (log 21). -/
def State.remoteSector (s : State) (x : CtxRef) (dev : Nat) (p : Piece) : SecVal :=
  (patch (List.replicate 32 0#8) (p.key % 32) (((s.remoteData x dev (keyOff p.key)).getD []).take p.n),
    Config.remoteTaint dev (keyOff p.key))
/-- A piece read (R36, R101, R104, R106, R316, R411): the view in versioned memory, else memory as it stands; with the
sector's taint, always set on a page that an ordered launch accesses directly, and ORed with R107 in an open launch. -/
def State.readPiece (s : State) (x : CtxRef) (v : Viewer) (p : Piece) : List Byte × Bool :=
  let k := sectorOf p.key
  let sec : SecVal :=
    match p.page with
    | .remote dev _ _ =>
      let base := s.remoteSector x dev p
      if v.versioned p.page then (s.store.effs v.lid v.stamp).foldl (secEff k) base else base
    | pg => if v.versioned pg then s.store.view v.lid v.stamp (v.holds k) k else s.store.sector k
  let direct := v.ordered && (match p.page with
    | .direct => true
    | .remote _ false false => true
    | _ => false)
  let shared := match p.page with
    | .local_ => false
    | _ => true
  ((sec.1.drop (p.key % 32)).take p.n, sec.2 || direct || (shared && s.raced v k))

/-- Pieces read in address order: the bytes, and the OR of their taints. -/
def State.readPieces (s : State) (x : CtxRef) (v : Viewer) (ps : List Piece) : List Byte × Bool :=
  ps.foldl (fun a p => let r := s.readPiece x v p; (a.1 ++ r.1, a.2 || r.2)) ([], false)

/-- What a versioned read of a reaction of device `dev` leaves behind: a read lease while a lower instant is uncleared, naming
the writers it read (R102), and the set stores it read (R325). -/
def Store.lease (st : Store) (dev : Nat) (v : Viewer) (p : Piece) : Store :=
  if !v.versioned p.page then st
  else
    let k := sectorOf p.key
    let from_ := (st.logs.filter fun l =>
      decide (l.lid = v.lid) && decide (instOf l.stamp < instOf v.stamp) && l.effs.any (Eff.onSector k)).map RLog.stamp
    let sets := if v.holds k then (st.logs.filter fun l =>
        decide (l.lid = v.lid) && decide (instOf l.stamp = instOf v.stamp) && decide (l.stamp < v.stamp) &&
          l.effs.any (fun e => e.isSetStore && e.onSector k)).map RLog.stamp
      else []
    let st := if v.cleared < instOf v.stamp then
        { st with leases := ⟨v.lid, v.stamp, lineOf p.key, dev, from_⟩ :: st.leases } else st
    { st with setReads := sets.map (fun w => ⟨v.lid, w, v.stamp, lineOf p.key⟩) ++ st.setReads }

/-! ### Writing a piece -/

/-- Whether a line is homed on a die of this device, in a slice of it. -/
def lineIn (die slice line : Nat) : Bool :=
  decide (keyKind (line * 128) < 2) && decide (homeDie (line * 128) = die) && decide (line % 32 = slice)

/-- Whether a line has more readers than the lease storage of a slice holds for it, or the slice more leased lines than it has
room for (R317, R415). -/
def Store.leasesCrowd (st : Store) (line : Nat) : Bool :=
  let readers := ((st.leases.filter fun l => decide (l.line = line)).map fun l => (l.lid, l.stamp)).eraseDups
  let lines := (st.leases.map Lease.line).filter (lineIn (homeDie (line * 128)) (line % 32))
  decide (Config.leaseStamps < readers.length) || decide (Config.leaseLines < lines.eraseDups.length)

/-- The wounds of a write by stamp `w` that reaches a leased line: its readers of later instants (R102), and, where leases crowd
their storage, those other later readers that the engine takes with them, which is free (R317; log 130). -/
def Store.leaseJobs (st : Store) (lid w line : Nat) : List WoundJob :=
  (st.leases.filter fun l => decide (l.lid = lid) && decide (l.line = line) && (decide (instOf w < instOf l.stamp) ||
    (decide (w < l.stamp) && st.leasesCrowd line && Config.extraWound line l.stamp w))).map
    fun l => .at_ l.stamp w (line * 128) 2 0

/-- A piece written (R36, R103, R104, R106, R329, R411): into the version or memory-side log of a reaction of an ordered
launch, else into memory; at another device by a store flit. Memory-side data of an open launch is tainted. -/
def State.writePiece (s : State) (x : CtxRef) (v : Viewer) (p : Piece) (bytes : List Byte) (taint : Bool) : State :=
  let k := sectorOf p.key
  let isSet := v.holds k
  let remote (s : State) (fk dev : Nat) : State :=
    s.sendFor x.core x.ctx v.cmd fk dev 0 (keyOff p.key) bytes (2 ^ bytes.length - 1) v.stamp
  if v.versioned p.page then
    let e : Eff := .store p.key bytes taint isSet p.page.memSide ((v.agent.map RunRef.entry).getD 0)
    let s := { s with store := s.store.log v.lid v.stamp [e] }
    let s := match p.page with
      | .remote dev _ _ => remote s 7 dev
      | _ => s
    s.wound v.lid (s.actOf x v) (s.store.leaseJobs v.lid v.stamp (lineOf p.key))
  else
    match p.page with
    | .remote dev _ _ => remote (s.note v.agent isSet [k]) 1 dev
    | .local_ => { s with store := s.store.put p.key bytes taint }
    | .ms => let s := s.note v.agent isSet [k]; { s with store := s.store.put p.key bytes (taint || v.open_) }
    | _ => let s := s.note v.agent isSet [k]; { s with store := s.store.put p.key bytes taint }

/-- Bytes written over pieces in address order. -/
def State.writePieces (s : State) (x : CtxRef) (v : Viewer) : List Piece → List Byte → Bool → State
  | [], _, _ => s
  | p :: ps, bytes, taint => (s.writePiece x v p (bytes.take p.n) taint).writePieces x v ps (bytes.drop p.n) taint

/-! ### Poison (R400) -/

/-- The lines of a list of pieces. -/
def linesOf (ps : List Piece) : List Nat := (ps.map fun p => lineOf p.key).eraseDups

/-- Whether a read meets a poisoned line. -/
def State.poisoned (s : State) (ps : List Piece) : Bool := (linesOf ps).any fun l => s.store.poison.contains l

/-- Lines whose poison is gone. -/
def Store.clearPoison (st : Store) (lines : List Nat) : Store := { st with poison := st.poison.filter fun l => !lines.contains l }

/-- A write of all 128 bytes of a line clears its poison; a store into a version writes the line only at its clearing. -/
def State.unpoison (s : State) (v : Viewer) (ps : List Piece) : State :=
  let ps := ps.filter fun p => !v.versioned p.page
  let whole := (linesOf ps).filter fun l => decide (((ps.filter fun p => lineOf p.key = l).map Piece.n).sum = 128)
  { s with store := s.store.clearPoison whole }

/-! ### Room for versions (R90, R315, R318, R415) -/

/-- The line versions held in a slice of a die (R415). -/
def Store.sliceVersions (st : Store) (die slice : Nat) : Nat :=
  let lines := (st.logs.flatMap fun l => l.effs.filterMap Eff.line?) ++ st.unmerged.map fun u => u.1
  ((lines.eraseDups.filter (lineIn die slice)).map fun l => (st.versionsOf l).length).sum

/-- Whether a line is homed on the stack of a die of this device. -/
def lineAt (die line : Nat) : Bool := decide (keyKind (line * 128) < 2) && decide (homeDie (line * 128) = die)

/-- The entries of a memory-side log (R415). -/
def Store.msEntries (st : Store) (die : Nat) : Nat :=
  (st.logs.map fun l => (l.effs.filter fun e => e.isMs && (e.line?.map (lineAt die)).getD false).length).sum

/-- Whether a store of a reaction to a piece finds room beside the pieces of the same operation before it: an entry of a
memory-side log, or a version of its line. Room on another device is found there. -/
def State.room (s : State) (v : Viewer) (before : List Piece) (p : Piece) : Bool :=
  let die := homeDie p.key
  match p.page with
  | .remote _ _ _ => true
  | .ms =>
    let more := (before.filter fun q => decide (q.page = .ms) && decide (homeDie q.key = die)).length
    decide (s.store.msEntries die + more < Config.msLogEntries)
  | _ =>
    let slice := lineOf p.key % 32
    let mine (line : Nat) : Bool := (s.store.versionsOf line).contains (v.lid, instOf v.stamp)
    let fresh := ((before.filter fun q => v.versioned q.page && decide (q.page ≠ .ms)).map fun q => lineOf q.key).eraseDups.filter
      fun l => !mine l
    mine (lineOf p.key) || fresh.contains (lineOf p.key) ||
      (decide ((s.store.versionsOf (lineOf p.key)).length < Config.versionsPerLine) &&
        decide (s.store.sliceVersions die slice + (fresh.filter (lineIn die slice)).length < Config.versionsPerSlice))

/-- The reactions other than the storing one, of any launch, that hold room where a piece needs it. -/
def State.roomHolders (s : State) (v : Viewer) (p : Piece) : List ReactId :=
  let near (l : Nat) : Bool :=
    if p.page = .ms then lineAt (homeDie p.key) l
    else if (s.store.versionsOf (lineOf p.key)).length < Config.versionsPerLine then lineIn (homeDie p.key) (lineOf p.key % 32) l
    else decide (l = lineOf p.key)
  (s.store.logs.filter fun g => !(decide (g.lid = v.lid) && decide (g.stamp = v.stamp)) &&
    g.effs.any fun e => (e.isMs == decide (p.page = .ms)) && (e.line?.map near).getD false).map fun g => ⟨g.lid, g.stamp⟩

/-- The holder with the highest stamp. -/
def topHolder (l : List ReactId) : Option ReactId :=
  l.foldl (fun a r => match a with
    | some b => if b.stamp < r.stamp then some r else some b
    | none => some r) none

/-- Room made for a store of the lowest uncleared instant: the holder with the highest stamp is wounded by the engine of the
die that lacks the room, and again while there is none (R318, R321); every wound takes at least that holder's log away. -/
def State.makeRoom (s : State) (x : CtxRef) (v : Viewer) (before : List Piece) (p : Piece) : Nat → Option State
  | 0 => none
  | fuel + 1 =>
    if s.room v before p then some s
    else
      match topHolder (s.roomHolders v p) with
      | none => none
      | some w => (s.wound w.lid (s.actOf x v) [⟨w.stamp, v.stamp, 0, 5, 0, homeDie p.key⟩]).makeRoom x v before p fuel

/-- Room for every piece of a store behind the ones before it, or none yet (R90, R318). -/
def State.roomAfter (s : State) (x : CtxRef) (v : Viewer) (before : List Piece) : List Piece → Option State
  | [] => some s
  | p :: ps =>
    if !v.versioned p.page ∨ s.room v before p then s.roomAfter x v (before ++ [p]) ps
    else if v.cleared = instOf v.stamp then
      (s.makeRoom x v before p (s.store.logs.length + 1)).bind fun (s : State) => s.roomAfter x v (before ++ [p]) ps
    else none

/-- Room for every piece of a store, or none yet (R90, R318). -/
def State.roomFor (s : State) (x : CtxRef) (v : Viewer) (ps : List Piece) : Option State := s.roomAfter x v [] ps

/-! ### Range holds (R98) -/

/-- The ranges of some pieces. -/
def rangesOfPieces (ps : List Piece) : List Range := ps.map fun p => ⟨p.key, p.n⟩

/-- Whether a list of pieces meets some ranges. -/
def piecesMeet (ps : List Piece) (rs : List Range) : Bool := ps.any fun p => rs.any fun r => r.meets ⟨p.key, p.n⟩

/-- The commands of a core's matrix and copy engines that have not completed. -/
def Core.held (k : Core) : List Cmd := k.mxq ++ k.cpq

/-- The number of the first command that the group in progress has triggered itself (R413). -/
def State.ownFrom (s : State) (core : Nat) : Nat := ((s.issue.pre.map Before.core).getD (s.core core)).seq

/-- Whether an access overlaps a destination of a command, or stores into a source of it. -/
def Cmd.meets (c : Cmd) (ps : List Piece) (write : Bool) : Bool :=
  piecesMeet ps (rangesOfPieces c.writes) || (write && piecesMeet ps (rangesOfPieces c.reads))

/-- Whether an access must wait on a command in flight of its core (R98): it overlaps a destination, or stores into a
source. A command that an earlier slot of the access's own group has triggered holds nothing more once its effect is made, which
comes first (log 131). -/
def State.holdHit (s : State) (core : Nat) (ps : List Piece) (write : Bool) : Bool :=
  (s.core core).held.any fun c => (decide (c.id < s.ownFrom core) || !c.sent) && c.meets ps write

/-! ### Watchpoints (R375) -/

/-- Whether a breakpoint or watchpoint confined to a partition acts on a core (R406). -/
def State.actsOn (s : State) (part : Option Nat) (core : Nat) : Bool :=
  match part with
  | none => true
  | some p => decide (s.partOf core = some p)

/-- An access as watchpoints see it: address, bytes, whether it reads and whether it writes. -/
structure Watched where
  va : Nat
  n : Nat
  rd : Bool
  wr : Bool
  deriving DecidableEq, Repr

/-- Whether a watchpoint matches an access of a space; one of no bytes matches none. -/
def wpMatch (w : BpWord) (sid : Nat) (a : Watched) : Bool :=
  w.getLsbD 87 && decide (bitsOf w.toNat 64 16 = sid) && ((a.wr && w.getLsbD 86) || (a.rd && w.getLsbD 85)) &&
    decide (a.n ≠ 0) && decide (bitsOf w.toNat 0 56 < a.va + a.n) &&
    decide (a.va < bitsOf w.toNat 0 56 + 2 ^ bitsOf w.toNat 80 5)

/-- The first byte of a range that a watchpoint of a context's space matches; none in emulation mode (R220). -/
def State.watchHit (s : State) (x : CtxRef) (a : Watched) : Option Nat :=
  if (s.ctx x).emu then none
  else
    let j := s.judged
    let hits := (List.range 4).filter fun i =>
      j.actsOn j.obs.wpPart[Fin.ofNat 4 i] x.core && wpMatch j.obs.wp[Fin.ofNat 4 i] (s.sidOf x) a
    match hits with
    | [] => none
    | _ => some ((hits.map fun i => max a.va (bitsOf j.obs.wp[Fin.ofNat 4 i].toNat 0 56)).foldl min (a.va + a.n))

/-- An access of a move's slot held against the watchpoints, whatever bytes and lanes it has (R267): the first watched byte, or,
where its stop is suppressed for this issue of the group, none, and the suppression is used up (R223, R375). -/
def State.watchOne (s : State) (x : CtxRef) (l : List Watched) : State × Option Nat :=
  match l.findSome? (s.watchHit x) with
  | none => (s, none)
  | some va =>
    if (s.ctx x).skipWatch.contains s.issue.slot then
      (s.updCtx x fun c => { c with skipWatch := c.skipWatch.erase s.issue.slot }, none)
    else (s, some va)

/-- The accesses of a move's slot held against the watchpoints in order; the first that stops is the hit. -/
def State.watchAll (s : State) (x : CtxRef) : List (List Watched) → State × Option Nat
  | [] => (s, none)
  | a :: l =>
    match s.watchOne x a with
    | (s, none) => s.watchAll x l
    | r => r

/-! ### Memory-side operations applied (R329-R333) -/

/-- The update of an `ms` trigger port (R331). -/
def msUpdOf (port : Nat) : MsUpd :=
  if port = 0x2A2 then .addF32
  else if port = 0x2A3 then .addS64
  else if port = 0x2A4 then .maxS64
  else if port = 0x2A5 then .minS64
  else if port = 0x2A6 then .orB64
  else if port = 0x2A7 then .swap
  else .cas

/-- A memory-side update applied at its stack in an open launch, or for a supervisor context (R329, R331): the value
seen, with the taint of its sector. -/
def State.msUpdate (s : State) (x : CtxRef) (v : Viewer) (op : MsUpd) (ps : List Piece) (t p : Word) (taint : Bool) :
    State × Nat × Bool :=
  let old := s.readPieces x v ps
  let o := leNat old.1
  (s.writePieces x v ps (leBytes op.width (op.apply o t.toNat p.toNat)) taint, o, old.2)

/-- The fields of a reduction parameter block (R332). -/
structure RedBlock where
  dst : Nat
  nsrc : Nat
  fmt : Nat
  opr : Nat
  sbase : Nat
  count : Nat
  csel : Nat
  inc : Word
  soffs : List Int
  reserved : Nat
  deriving DecidableEq, Repr

/-- A reduction parameter block read from its bytes (R332). -/
def redBlock (bs : List Byte) : RedBlock :=
  let v := leNat bs
  ⟨bitsOf v 0 56, bitsOf v 56 4, bitsOf v 60 2, bitsOf v 62 2, bitsOf v 64 56, bitsOf v 128 32, bitsOf v 160 32,
    BitVec.ofNat 64 (bitsOf v 192 64), (List.range 8).map fun n => (BitVec.ofNat 32 (bitsOf v (256 + 32 * n) 32)).toInt,
    bitsOf v 120 8⟩

/-- The bytes of an element (R332). -/
def RedBlock.width (b : RedBlock) : Nat := if b.fmt = 0 then 4 else if b.fmt = 1 then 2 else 8

/-- The address of element `e` of source `n`. A start below 0 names no address: it stands above every space (R83, R332). -/
def RedBlock.src (b : RedBlock) (n e : Nat) : Nat :=
  let a := (b.sbase : Int) + 64 * b.soffs.getD n 0
  if a < 0 then ((2 : Int) ^ 64 + a).toNat + e * b.width else a.toNat + e * b.width

/-- One element reduced in the order of R138, with the rules of R140: a NaN leaf gives the canonical NaN even where it is the only
leaf. -/
def RedBlock.reduce (b : RedBlock) (leaves : List Nat) : Nat :=
  if b.fmt = 2 then
    let node (x y : Nat) : Nat :=
      if b.opr = 0 then (x + y) % 2 ^ 64 else if b.opr = 1 then MsUpd.apply .maxS64 x y 0 else MsUpd.apply .minS64 x y 0
    (Num.tree8 node leaves).getD 0
  else
    let node (x y : Nat) : Nat :=
      if b.opr = 0 then (Num.sumNode Num.fp32 .rne x y).1 else (Num.maxminNode Num.fp32 (decide (b.opr = 1)) x y).1
    if b.fmt = 0 then (Num.cvt Num.fp32 .rne (Num.ofBits Num.fp32 ((Num.tree8 node leaves).getD 0))).1
    else (Num.cvt Num.bf16 .rne (Num.ofBits Num.fp32 ((Num.tree8 node (leaves.map (· * 2 ^ 16))).getD 0))).1

/-- One element of a reduction read from its source pieces (R332). -/
def State.redLeaves (s : State) (x : CtxRef) (v : Viewer) (ps : List Piece) : List Nat × Bool :=
  (ps.map fun p => leNat (s.readPiece x v p).1, ps.any fun p => (s.readPiece x v p).2)

/-- Element `e`'s pieces of a list with `n` pieces an element. -/
def elemPieces (ps : List Piece) (n e : Nat) : List Piece := (ps.drop (n * e)).take n

/-- A reduction whose sources are read whole before its results are written (ordered launch, R332). Every element is one
piece, since it is naturally aligned. -/
def State.redWhole (s : State) (x : CtxRef) (v : Viewer) (b : RedBlock) (rd wr : List Piece) (taint : Bool) : State :=
  let outs := (List.range b.count).map fun e => leBytes b.width (b.reduce (s.redLeaves x v (elemPieces rd b.nsrc e)).1)
  (List.range b.count).foldl (fun (s : State) e =>
    s.writePieces x v (elemPieces wr 1 e) (outs.getD e []) taint) s


/-- Whether stores or adds of an agent of the device to other devices are still unacknowledged (R110, R112). -/
def State.flitsOut (s : State) (core : Nat) : Bool :=
  s.fabric.flits.any fun f => decide (f.core = core) && (f.flit.fk != 2#4 && f.flit.fk != 9#4)

/-- Whether stores of engine command `id` of a core to other devices are still unacknowledged (R115). -/
def State.cmdFlits (s : State) (core id : Nat) : Bool :=
  s.fabric.flits.any fun f => decide (f.core = core) && decide (f.cmd = some id)

/-- The log key of an add to a shared counter. -/
def Sel.addKey : Sel → Nat
  | .die d i => ctrKey d i
  | .remote v d i => (v + 1) * 2 ^ 24 + ctrKey d i
  | _ => 2 ^ 80

/-- An add that is a release (R112): applied at once, or held while stores of its context to other devices are
unacknowledged. -/
def State.releaseAdd (s : State) (x : CtxRef) (sel : Nat) (n : Word) (tainted : Bool) : State :=
  let c := s.sel x (BitVec.ofNat 64 sel)
  if s.ctxFlits x then s.updCore x.core fun k => { k with adds := k.adds ++ [⟨x.ctx, c.word, n, tainted, 0⟩] }
  else s.applyAdd x c n

/-- A completion add of a command (R14, R15, R112, R176, R193): held in the version in an ordered launch if the counter is
shared; one to a live counter only while the context still runs the reaction that issued the command. -/
def State.completionAdd (s : State) (x : CtxRef) (react : Option RunRef) (sel : Nat) (n : Word) (tainted : Bool) : State :=
  let c := s.sel x (BitVec.ofNat 64 sel)
  if !c.shared then (if (s.ctx x).react = react then s.releaseAdd x sel n tainted else s)
  else
    match react.bind fun r => s.launch? r.lid, react with
    | some l, some r =>
      if l.record.open_ then s.releaseAdd x sel n tainted
      else { s with store := s.store.log r.lid r.stamp [.add c.addKey n tainted] }
    | _, _ => s.releaseAdd x sel n tainted

/-- The selector of a command's completion, resolved for the context it came from. -/
def State.cmdSel (s : State) (x : CtxRef) (c : Cmd) : Sel :=
  match c.sel with
  | none => .bad
  | some w => s.sel x (BitVec.ofNat 64 w)

/-- The completion add of a command, if it names a counter (R298, R332, R333). -/
def State.complete (s : State) (x : CtxRef) (c : Cmd) : State :=
  match c.sel with
  | none => s
  | some w => s.completionAdd x c.react w c.count c.ctaint

/-- What a command has added to its reaction's log since state `s`, put where the command stands in issue order
(R319); its place is kept while its completion is still to come. -/
def settleLog (core id n : Nat) (keep : Bool) (es : List Eff) : List Eff :=
  let before := (es.take n).takeWhile fun e => e != .cmd core id
  before ++ es.drop n ++ (es.take n).drop (before.length + if keep then 0 else 1)

/-- The log of a command's reaction in issue order after the command's effect or completion (R319). -/
def State.settle (s t : State) (core : Nat) (keep : Bool) (c : Cmd) : State :=
  match c.react with
  | none => t
  | some r =>
    let es := s.store.effs r.lid r.stamp
    if es.contains (.cmd core c.id) then
      { t with store := { t.store with
          logs := t.store.logs.map fun l =>
            if l.lid = r.lid ∧ l.stamp = r.stamp then { l with effs := settleLog core c.id es.length keep l.effs } else l } }
    else t

/-- The trap of an engine's store to a pinned entry set down: the reaction that issued the command ends with LEASE_EXIT once the
contexts have had their turn in this core cycle (R50, R352). -/
def State.engTrap (s : State) (x : CtxRef) (c : Cmd) (va : Nat) : State :=
  match c.react with
  | some r => { s with engTraps := s.engTraps ++ [⟨x, r, va, c.group⟩] }
  | none => s

/-- The pinned entry of this device that a write over pieces would change, with the first byte of it written to, among some
pinned entries (R352). -/
def State.pinSpanIn (s : State) (pins : List Nat) : List Piece → List Byte → Option (Nat × Nat)
  | [], _ => none
  | p :: ps, bytes =>
    match (if keyKind p.key = 0 then s.pinHitIn pins p.key (bytes.take p.n) else none) with
    | some e => some (e, p.va + (max e p.key - p.key))
    | none => s.pinSpanIn pins ps (bytes.drop p.n)

/-- A memory-side update of an open launch applied at its stack: refused where it would change a pinned entry (R352). -/
def State.msApply (s : State) (x : CtxRef) (v : Viewer) (c : Cmd) : State :=
  let r := s.msUpdate x v (msUpdOf c.port) c.writes c.t.word c.p.word c.taint
  match s.pinSpanIn s.pinned c.writes (leBytes (msUpdOf c.port).width
      ((msUpdOf c.port).apply r.2.1 c.t.word.toNat c.p.word.toNat)) with
  | some (_, va) => s.engTrap x c va
  | none => r.1

/-- A reduction of an open launch applied element by element at the engine (R332), up to one that would change a pinned entry,
which ends the reaction (R352). -/
def State.redStep (s : State) (x : CtxRef) (v : Viewer) (c : Cmd) (b : RedBlock) (taint : Bool) : State × Bool :=
  (List.range b.count).foldl (fun (a : State × Bool) e =>
    if !a.2 then a
    else
      let out := leBytes b.width (b.reduce (a.1.redLeaves x v (elemPieces c.reads b.nsrc e)).1)
      match a.1.pinSpanIn a.1.pinned (elemPieces c.writes 1 e) out with
      | some (_, va) => (a.1.engTrap x c va, false)
      | none => (a.1.writePieces x v (elemPieces c.writes 1 e) out taint, true)) (s, true)

/-- A queued memory-side command performed at its stack as its reaction saw memory at its trigger (R13): an update of an open
launch applied, a reduction written, its completion made; a mark's add made (R329-R333). In an ordered launch the effects of
updates and reductions stand in the log since the trigger, and only completions remain. -/
def State.msPerform (s : State) (core : Nat) (c : Cmd) : State :=
  let x : CtxRef := ⟨core, c.ctx⟩
  let v := s.cmdViewer c
  if c.port = 0x2AB then s.complete x c
  else if c.port = 0x2A9 then
    let r := if v.ordered then (s, true)
      else s.redStep x v c (redBlock (c.recs.headD [])) (c.taint || (s.readPieces x v c.reads).2)
    if r.2 then r.1.complete x c else r.1
  else if v.ordered then s
  else s.msApply x v c

/-- A command taken out of a queue by its number. -/
def dropCmd (q : List Cmd) (id : Nat) : List Cmd := q.filter fun c => c.id != id

/-- The memory-side command `id` of a core performed and gone from the queue; one that reads a poisoned line resets the partition
of its core (R400). -/
def State.msDone (s : State) (core : Nat) (c : Cmd) : State :=
  if !(s.cmdViewer c).ordered && s.poisoned (c.reads ++ if c.port = 0x2A9 then [] else c.writes) then s.resetSoon core
  else (s.settle (s.msPerform core c) core false c).updCore core fun k => { k with msq := dropCmd k.msq c.id }

/-- The earlier memory-side commands of a context to a stack performed, before a plain access of the context reaches
that stack (R117, R329). -/
def State.msDrain (s : State) (x : CtxRef) (stack : Nat) : State :=
  ((s.core x.core).msq.filter fun c => decide (c.ctx = x.ctx) && decide (c.stack = stack)).foldl
    (fun s c => s.msDone x.core c) s

/-- The stacks whose memory-side engines a list of pieces reaches. -/
def msStacks (ps : List Piece) : List Nat :=
  ((ps.filter fun p => decide (p.page = .ms)).map fun p => p.key / 2 ^ 36).eraseDups

/-! ### One access, checked and made -/

/-- The outcome of an operation of a unit. -/
inductive MoveR where
  | ok (s : State)
  /-- cause, class and INFO of a trap -/
  | trap (cause : Byte) (cls : Nat) (info : Nat)
  | block (b : Block)
  /-- a poisoned line read, or a device without a route accessed: the partition of the context is reset -/
  | reset
  deriving Repr

/-- An outcome whose wait for remote data counts under a freeze cause of its own (R372). -/
def MoveR.lateAs (why : Nat) (r : MoveR) : MoveR :=
  match r with
  | .block (.remote dev a w sid _ va) => .block (.remote dev a w sid why va)
  | r => r

/-- A byte range accessed: address, bytes, whether it is written. -/
structure Span where
  va : Nat
  n : Nat
  write : Bool
  deriving DecidableEq, Repr

/-- A read or a write as watchpoints see it. -/
def Span.watched (a : Span) : Watched := ⟨a.va, a.n, !a.write, a.write⟩

/-- A resolved span. -/
structure SpanP where
  span : Span
  ps : List Piece
  deriving DecidableEq, Repr

/-- The outcome of the checks of an operation's accesses. -/
inductive AdmitR where
  | ok (s : State) (ps : List SpanP)
  | trap (cause : Byte) (info : Nat)
  | block (b : Block)
  | reset
  deriving Repr

/-- The first watched byte of an access of some spans. -/
def State.watchSpans (s : State) (x : CtxRef) (l : List Span) : State × Option Nat := s.watchOne x (l.map Span.watched)

/-- Spans resolved in order; the first failure stands. -/
def State.resolveSpans (s : State) (x : CtxRef) : List Span → Except AdmitR (List SpanP)
  | [] => .ok []
  | a :: l =>
    match s.resolve x (if a.write then .w else .r) a.va a.n with
    | .ok ps => (s.resolveSpans x l).map fun r => ⟨a, ps⟩ :: r
    | .trap c i => .error (.trap c i)
    | .block b => .error (.block b)
    | .reset => .error .reset

/-- The first of some pieces read whose remote data is not here yet: its device, its address there and the address used
(R111). -/
def State.missingPiece (s : State) (x : CtxRef) (ps : List Piece) : Option (Nat × Nat × Nat) :=
  ps.findSome? fun p =>
    match p.page with
    | .remote dev _ _ => if (s.remoteData x dev (keyOff p.key)).isSome then none else some (dev, keyOff p.key, p.va)
    | _ => none

/-- The block of an access that reads remote data which is not here yet (R111). -/
def State.missingRemote (s : State) (x : CtxRef) (l : List SpanP) : Option Block :=
  (s.missingPiece x ((l.filter fun a => !a.span.write).flatMap SpanP.ps)).map fun q => .remote q.1 q.2.1 none 0 2 q.2.2

/-- The address of the line of the piece that stands at a key. -/
def lineVa (ps : List Piece) (key : Nat) : Nat := ((ps.find? fun p => decide (p.key = key)).map fun p => p.va / 128 * 128).getD 0

/-- What an access is for: an access whose remote data may come later (R77, R111); a record whose contents the checks of the group
use, so that they must be here (R413); or the data of a command, which meets no hold and waits in its engine, where its remote data
come too (R98). -/
inductive AccFor where
  | plain | record | command
  deriving DecidableEq, Repr

/-- The checks of resolved spans once their addresses are good: sets touched (R322, R323, R327), range holds (R98), remote data of a
record (R111), room for versions (R90), poison (R400), and earlier memory-side operations to the same stack (R117). -/
def State.admitFor (s : State) (x : CtxRef) (what : AccFor) (l : List SpanP) : AdmitR :=
  let ps := l.flatMap SpanP.ps
  let rd := (l.filter fun a => !a.span.write).flatMap SpanP.ps
  let wr := (l.filter fun a => a.span.write).flatMap SpanP.ps
  let shared := ps.filter fun p => decide (p.page ≠ .local_)
  match s.touch x (rangesOfPieces shared) with
  | .irrev a => .trap cOrderIrrev (lineVa shared a)
  | .wait rs => .block (.set rs)
  | .ok s =>
    if decide (what ≠ .command) && (s.holdHit x.core rd false || s.holdHit x.core wr true) then
      .block (.hold (rangesOfPieces rd) (rangesOfPieces wr))
    else
      match (if what = .record then s.missingRemote x l else none) with
      | some b => .block b
      | none =>
        match s.roomFor x (s.viewer x) wr with
        | none => .block .version
        | some s =>
          if s.poisoned rd then .reset
          else .ok ((msStacks ps).foldl (fun s k => s.msDrain x k) s) l

/-- The checks of an access's resolved spans. -/
def State.admitSpans (s : State) (x : CtxRef) (l : List SpanP) : AdmitR := s.admitFor x .plain l

/-- The accesses of an operation, each of some spans, checked in the order of the fault tables: WATCH, then LEASE_EXIT and the
walk's faults, then the rest (R218). -/
def State.vetFor (s : State) (x : CtxRef) (what : AccFor) (l : List (List Span)) : AdmitR :=
  match s.watchAll x (l.map fun a => a.map Span.watched) with
  | (_, some a) => .trap cWatch a
  | (s, none) =>
    match s.resolveSpans x l.flatten with
    | .error r => r
    | .ok ps => s.admitFor x what ps

/-- Accesses of one span each, checked. -/
def State.vet (s : State) (x : CtxRef) (l : List Span) : AdmitR := s.vetFor x .plain (l.map fun a => [a])

/-- The bytes and taint of a checked span, with the leases the read leaves. -/
def State.readSpan (s : State) (x : CtxRef) (a : SpanP) : State × List Byte × Bool :=
  let v := s.viewer x
  let r := s.readPieces x v a.ps
  ({ s with store := a.ps.foldl (fun st p => st.lease s.devid v p) s.store }, r.1, r.2)

/-- The byte at a key that a reaction's own effects leave there, if it has stored it (R95). -/
def ownByte (es : List Eff) (key : Nat) : Option Byte :=
  es.foldl (fun b e =>
    match e with
    | .store k bs _ _ _ _ => if k ≤ key ∧ key < k + bs.length then bs[key - k]? else b
    | _ => b) none

/-- A load's piece on its way: the bytes known now, and for a piece of another device the request sent for the rest (R95, R110,
R111). -/
def State.askPiece (s : State) (x : CtxRef) (v : Viewer) (at_ : Nat) (p : Piece) : State × List (Option Byte) × List Want :=
  match p.page with
  | .remote dev _ _ =>
    let es := if v.versioned p.page then s.store.effs v.lid v.stamp else []
    let seq := s.nextSeq dev
    let q : RemoteReq := ⟨x, dev, keyOff p.key, none, seq, none, true⟩
    let s : State := { s with fabric := { s.fabric with reqs := s.fabric.reqs ++ [q] } }
    (s.sendFor x.core x.ctx none 2 dev 0 (keyOff p.key) [] 0xFFFFFFFF v.asks,
      (List.range p.n).map fun i => ownByte es (p.key + i), [⟨dev, seq, at_, p.n⟩])
  | _ => (s, (s.readPiece x v p).1.map some, [])

/-- A load's pieces on their way. -/
def State.askPieces (s : State) (x : CtxRef) (v : Viewer) (ps : List Piece) : State × List (Option Byte) × List Want :=
  ps.foldl (fun a p =>
    let r := a.1.askPiece x v a.2.1.length p
    (r.1, a.2.1 ++ r.2.1, a.2.2 ++ r.2.2)) (s, [], [])

/-- Whether a piece lies on another device. -/
def Piece.isRemote (p : Piece) : Bool :=
  match p.page with
  | .remote _ _ _ => true
  | _ => false

/-- What a context's load waits for, if some of its pieces lie on other devices: it issues, and they are asked for (R77, R111). -/
def State.awaitFor (s : State) (x : CtxRef) (ps : List Piece) (conv : Conv) (tag : Tag) (taint : Bool) : State × Option Await :=
  if ps.any Piece.isRemote then
    let r := s.askPieces x (s.viewer x) ps
    (r.1, some ⟨r.2.1, r.2.2, conv, tag, taint⟩)
  else (s, none)

/-- The pinned entry that a plain store would change, on this device, with the first byte of it stored to (R352); within a
group, the entries pinned before it (R413). -/
def State.pinSpan (s : State) (ps : List Piece) (bytes : List Byte) : Option (Nat × Nat) :=
  s.pinSpanIn ((s.issue.pre.map Before.pins).getD s.pinned) ps bytes

/-- Bytes stored to a checked span: refused where they would change a pinned entry (R352), else written, with poison
cleared from whole lines (R400). -/
def State.writeSpan (s : State) (x : CtxRef) (a : SpanP) (bytes : List Byte) (taint : Bool) : MoveR :=
  match s.pinSpan a.ps bytes with
  | some (e, va) => if isSup x.core then .trap cPtPinned 5 e else .trap cLeaseExit 5 va
  | none => .ok ((s.writePieces x (s.viewer x) a.ps bytes taint).unpoison (s.viewer x) a.ps)

/-- Whether the next access of variable latency comes late, by the oracle of State.lateness. -/
def State.takeLate (s : State) : State × Bool :=
  match s.lateness with
  | [] => (s, false)
  | b :: bs => ({ s with lateness := bs }, b)

end Sys2Proof.Machine
end

