-- ==== Sys2Proof/Machine/Ops.lean ====
section
/-!
DEFINITION. The named operations that meanings are made of: scheduling and landing results (03_bundles R74, R75,
06_numbers R135, 08_seq_scalar R163), the checks every trigger makes (03_bundles R63, R73), taking a trap and returning
from a handler (10_seq_traps R208-R222, 21_spaces R362), entering a block (R205), halting and resetting a partition
(22_observation R376, 23_system R400).
-/

namespace Sys2Proof.Machine

/-! ### Scheduling and landing (R74, R75) -/

/-- A result added to a context's pending ones, due `lat` schedule cycles after the group in progress. -/
def Ctx.schedule (c : Ctx) (dest : Land) (lat : Nat) (v : Value) (f : Num.Flags) : Ctx :=
  { c with pend := c.pend ++ [⟨lat, dest, v, f, false, [], 0#64, none, none⟩] }

/-- A result of the context that executes, with fixed latency (R74). -/
def State.land (s : State) (p : Port) (lat : Nat) (v : Value) (f : Num.Flags) : State :=
  s.updCtx s.cur fun c => c.schedule (.port p) lat v f

/-- A write of something else at trigger cycle + 1 (R163, R183). -/
def State.landAt (s : State) (dest : Land) (v : Value) : State := s.updCtx s.cur fun c => c.schedule dest 1 v 0#6

/-- A result that the lateness oracle may hold back past its due cycle (R77), with its freeze cause and address. -/
def State.landVar (s : State) (dest : Land) (lat : Nat) (v : Value) (f : Num.Flags) (fcause : Nat) (addr : Nat) : State :=
  let r := s.takeLate
  r.1.updCtx s.cur fun c =>
    { c with pend := c.pend ++ [⟨lat, dest, v, f, r.2, [fcause], BitVec.ofNat 64 addr, none, none⟩] }

/-- Loop `n` of a context (R180). -/
def Ctx.loop (c : Ctx) (n : Nat) : Loop := if n = 0 then c.loop0 else c.loop1

/-- Loop `n` set. -/
def Ctx.setLoop (c : Ctx) (n : Nat) (l : Loop) : Ctx := if n = 0 then { c with loop0 := l } else { c with loop1 := l }

/-- A clock register defined with its presence (R183); `k0` and `k15` are not changed. -/
def Ctx.defClock (c : Ctx) (n : Nat) (present : Bool) : Ctx :=
  if n = 0 ∨ 15 ≤ n then c
  else
    { c with
      kdef := c.kdef ||| BitVec.ofNat 16 (2 ^ n)
      kpres := if present then c.kpres ||| BitVec.ofNat 16 (2 ^ n) else c.kpres &&& ~~~(BitVec.ofNat 16 (2 ^ n)) }

/-- A write of a `ctx` register's RW fields (R162, R163, R210); other registers discard it. -/
def Ctx.writeReg (c : Ctx) (n : Nat) (v : Value) : Ctx :=
  match n with
  | 0x00 => { c with fpm := BitVec.ofNat 2 v.word.toNat }
  | 0x01 => { c with ff := flagsWrite v.word }
  | 0x03 => { c with drop := BitVec.ofNat 32 v.word.toNat }
  | 0x17 => { c with tr := { c.tr with tres := v.word, tresTaint := v.taint } }
  | _ => c

/-- A pending result lands (R74, R135, R163, R183, R188, R277): every result that lands while CT is set is tainted
(R176). -/
def Ctx.landOne (c : Ctx) (p : Pend) : Ctx :=
  let v := p.val.orTaint c.ctaint
  match p.dest with
  | .port q => { c with q := c.q.set (portIdx q) v }.orFlags p.flags
  | .ctxReg n => c.writeReg n v
  | .dropAdd => { c with drop := if c.drop = BitVec.allOnes 32 then c.drop else c.drop + 1#32 }
  | .clock n present => c.defClock n present
  | .loopArm n lc f e => c.setLoop n ⟨lc, f, e⟩
  | .lpend n => if (c.loop n).lc = 0#64 then c else c.setLoop n { c.loop n with lc := 1#64 }
  | .mxLoop w mask => { c with mxl := (c.mxl &&& ~~~mask) ||| (w &&& mask) }
  | .space sid => { c with sid := sid }
  | .tent a => { c with tent := a }
  | .flagsOnly => c.orFlags p.flags

/-- Whether a pending result is due and here. -/
def Pend.due (p : Pend) : Bool := decide (p.left = 0) && !p.late

/-- Whether a later one in the list is due at the same port in the same cycle, so that this one is lost (R75). -/
def lostBy (p : Pend) (later : List Pend) : Bool :=
  match p.dest with
  | .port q => later.any fun r => decide (r.dest = .port q)
  | _ => false

/-- The due results that R75 lets land. -/
def keepDue : List Pend → List Pend
  | [] => []
  | p :: ps => if lostBy p ps then keepDue ps else p :: keepDue ps

/-- Whether a pending result writes a `ctx` register, which takes effect first (R135, R188). -/
def Pend.isReg (p : Pend) : Bool :=
  match p.dest with
  | .ctxReg _ => true
  | _ => false

/-- Every result due in the schedule cycle that begins lands: register writes first, then the rest in trigger order
(R74, R75, R135, R163). -/
def Ctx.landDue (c : Ctx) : Ctx :=
  let due := keepDue (c.pend.filter Pend.due)
  let f := due.foldl (fun a p => a ||| p.flags) 0#6
  let pre := if f = 0#6 then c.ffPre else some (c.ffPre.getD c.ff)
  let c := { c with pend := c.pend.filter fun p => !p.due, ffPre := pre }
  let c := (due.filter Pend.isReg).foldl Ctx.landOne c
  (due.filter fun p => !p.isReg).foldl Ctx.landOne c

/-- A schedule cycle passes: every pending result comes one cycle nearer (R60, R207). -/
def Ctx.tick (c : Ctx) : Ctx :=
  { c with pend := c.pend.map fun p => { p with left := p.left - 1 }, ffPre := none }

/-! ### Late data (R77, R203, R372) -/

/-- Results due in this schedule cycle whose data is late (R203). -/
def Ctx.lateNow (c : Ctx) : List Pend := c.pend.filter fun p => decide (p.left = 0) && p.late

/-- The running context of a frozen core, if late data holds the core (R203): not a record or the scoreboard (R279, R413). -/
def State.frozenLate (s : State) (core : Nat) : Option Nat :=
  match (s.core core).freeze, (s.core core).running with
  | some _, some k => if (s.ctx ⟨core, k⟩).lateNow = [] then none else some k
  | _, _ => none

/-- Every pending result of a context changed, those of a handler's bank among them. -/
def Ctx.mapPend (c : Ctx) (f : Pend → Pend) : Ctx :=
  { c with pend := c.pend.map f, bank := c.bank.map fun b => { b with pend := b.pend.map f } }

/-- Pending results of a core's contexts changed as data come. Where the core is frozen for late results, the last ones to come name
the freeze, and its line drops once none is late (R77, R203, R372). -/
def State.dataCome (s : State) (core : Nat) (f : Pend → Pend) : State :=
  let t := s.updCore core fun c => c.mapCtx fun c => c.mapPend f
  match s.frozenLate core with
  | none => t
  | some k =>
    let came := ((s.ctx ⟨core, k⟩).lateNow.filter fun p => !(f p).late).flatMap Pend.fcause
    let t := t.updCore core fun c => { c with freeze := c.freeze.map fun z => { z with last := came.getLast?.getD z.last } }
    if (t.ctx ⟨core, k⟩).lateNow = [] then t.dropFreeze core else t

/-! ### Resetting and halting a partition (R376, R400) -/

/-- The partition's place in a list kept without repeats. -/
def addOnce (l : List Nat) (p : Nat) : List Nat := if l.contains p then l else l ++ [p]

/-- The slices of a die that a partition owns (R399). -/
def State.sliceOwner (s : State) (die slice : Nat) : Nat := bitsOf (s.die die).slicep.toNat (3 * slice) 3

/-- Whether a launch has a reaction on a core of a partition, or a version, lease or log entry in one of its slices
(R400); a line homed on another device stands in none of this one's. -/
def State.launchIn (s : State) (p : Nat) (l : Launch) : Bool :=
  let inSlice (line : Nat) : Bool :=
    decide (keyKind (line * 128) < 2) && decide (s.sliceOwner (homeDie (line * 128)) (line % 32) = p)
  l.reacts.any (fun r => r.places.any fun q => decide (s.partOf q.1.core = some p)) ||
    s.store.logs.any (fun g => decide (g.lid = l.lid) && g.effs.any fun e => (e.line?.map inSlice).getD false) ||
    s.store.leases.any (fun g => decide (g.lid = l.lid) && inSlice g.line) ||
    s.store.unmerged.any fun u => decide (u.2.1 = l.lid) && inSlice u.1

/-- The words of block 0x03 that belong to no core of a partition: its counters and their configurations go by core position
(R382). -/
def State.perfKept (s : State) (p die : Nat) (w : Nat × Word) : Bool :=
  decide (0x2000 ≤ w.1) || decide (s.partOf (64 * die + w.1 % 0x1000 / 0x40) ≠ some p)

/-- The register fields outside contexts that belong to a partition or to cores of it, back at their Reset values (R4; log 132): its
bit of PARK, the SVHALT bits of its supervisor cores, the counters and configurations of block 0x03 of its compute cores. -/
def State.resetFields (s : State) (p : Nat) : State :=
  let mine := (List.range 16).filter fun i => decide (s.partOf (512 + i) = some p)
  let halted := mine.foldl (fun (h : BitVec 16) i => h &&& ~~~(BitVec.ofNat 16 (2 ^ i))) s.host.svhalt
  (List.range 8).foldl (fun t d => t.updDie d fun r => { r with perf := r.perf.filter (s.perfKept p d) })
    { s with host := { s.host with svhalt := halted }, park := s.park &&& ~~~(BitVec.ofNat 8 (2 ^ p)) }

/-- A partition reset (R4, R400): its launches end with 0xE8, a cause event recorded for each (R373), every context of it is reset
and gated no more (R409), PRESET is set, and the reset is under way until PARTITION_RESET_COMPLETE. -/
def State.resetPartition (s : State) (p : Nat) : State :=
  let hit := (s.launches.filter fun l => decide (l.phase ≠ .ended) && decide (l.phase ≠ .ending) && s.launchIn p l)
  let s := hit.foldl (fun s l => s.endRaised l.lid l.core ⟨cMachineCheck, 0, 0, 0, 0#64, 0, false⟩) s
  let parts := s
  ({ s with
    cores := s.cores.map fun q => if parts.partOf q.1 = some p then (q.1, Core.resetAt q.1) else q
    host := { s.host with preset := s.host.preset ||| BitVec.ofNat 8 (2 ^ p) }
    resetting := addOnce s.resetting p
    haltDue := s.haltDue.filter fun n => decide (parts.partOf n ≠ some p) } : State).resetFields p

/-- The partition of a core reset, if it has one. -/
def State.resetOf (s : State) (core : Nat) : State :=
  match s.partOf core with
  | some p => s.resetPartition p
  | none => s

/-- A partition halted (R376): every context of its compute and supervisor cores stops at its group boundary, on a frozen
core once its line drops (R204). -/
def State.haltPartition (s : State) (p : Nat) : State :=
  let mine := s.cores.filter fun q => decide (s.partOf q.1 = some p)
  let still (n : Nat) : Bool := decide (s.partOf n = some p) && (s.core n).freeze.isNone
  { s with
    halted := addOnce s.halted p
    haltDue := ((mine.filter fun q => q.2.freeze.isSome).map Prod.fst).foldl addOnce s.haltDue
    cores := s.cores.map fun q => if still q.1 then (q.1, q.2.halt) else q }

/-- The partition of a core halted, if it has one. -/
def State.haltOf (s : State) (core : Nat) : State :=
  match s.partOf core with
  | some p => s.haltPartition p
  | none => s

/-! ### Taking a trap (R208-R213, R219, R220, R222, R362) -/

/-- The unit of a move's destination, if it lies in a unit block. -/
def moveUnit (m : BitVec 24) : Option Unit11 :=
  let d := bitsOf m.toNat 4 10
  if 0x80 ≤ d ∧ d < 0x300 then some (unitAt d).1 else none

/-- The value of a move's source, if it is defined. -/
def moveSrc (c : Ctx) (limm : BitVec 32) (m : BitVec 24) : Option Value := (Src.ofCode (bitsOf m.toNat 14 10)).map (c.src limm)

/-- A value's tag, taint and vector flag, and its scalar, as the trap registers show them; absent values read 0. -/
def trapOperand (v : Option Value) : Nat × Nat × Nat × Word :=
  match v with
  | none => (0, 0, 0, 0#64)
  | some v => (v.tag.toNat, if v.taint then 1 else 0, if v.isVec then 1 else 0, v.word)

/-- The slots of the stopped group that are emulated, as EMASK (R210). -/
def Ctx.emask (c : Ctx) : Nat := (c.emuDone.map fun e => 2 ^ e.slot).sum

/-- EMASK of `ctx.tcause` as the emulated slots stand (R210, R221). -/
def Ctx.showEmask (c : Ctx) : Ctx :=
  let w := c.tr.tcause.toNat
  { c with tr := { c.tr with
      tcause := BitVec.ofNat 64 (w % 2 ^ 15 + c.emask % 2 ^ 8 * 2 ^ 15 + w / 2 ^ 23 * 2 ^ 23) } }
/-- The trap registers after a trap (R210). -/
def trapRegsOf (c : Ctx) (limm : BitVec 32) (t : Trap) : TrapRegs :=
  let u := moveUnit t.move
  let o := trapOperand (u.map c.latchO)
  let p := trapOperand (u.map c.latchP)
  let v := trapOperand (moveSrc c limm t.move)
  { c.tr with
    tcause := BitVec.ofNat 64 (t.cause.toNat + t.slot * 2 ^ 8 + (if t.nextb then 2 ^ 11 else 0) + min 5 t.cls * 2 ^ 12 +
      c.emask % 2 ^ 8 * 2 ^ 15)
    tgrp := BitVec.ofNat 64 (c.first % 8 + c.pc.toNat % 2 ^ 56 / 32 * 32)
    tinfo := t.info
    tmove := BitVec.ofNat 64 (t.move.toNat + o.1 * 2 ^ 24 + p.1 * 2 ^ 28 + v.1 * 2 ^ 32 +
      (o.2.1 + 2 * p.2.1 + 4 * v.2.1) * 2 ^ 36 + (o.2.2.1 + 2 * p.2.2.1 + 4 * v.2.2.1) * 2 ^ 39)
    topo := o.2.2.2
    topp := p.2.2.2
    topt := v.2.2.2 }

/-- What belongs to the handler's bank as a context enters a handler (R214, R219, R220): the program's `g48`-`g63`, latches,
ports, loops, saddlebag, queued commands and the flags of this schedule cycle put aside (R135), and zeros in their place. It waits
until what has started is complete and every access has its data. A tile that a command put aside names is not busy for the
handler's own commands (R279; log 152). -/
def Ctx.enterHandler (c : Ctx) (k : Core) (x : Nat) (addr : Word) : Ctx :=
  let mine (q : List Cmd) : List Cmd := q.filter fun m => decide (m.ctx = x) && !m.started
  { c with
    bank := some ⟨c.g, c.lo, c.lp, c.q, c.loop0, c.loop1, c.pend, c.ffPre, c.pc, c.first, c.delay, mine k.mxq, mine k.cpq,
      mine k.msq, c.batch, k.seq⟩
    ffPre := none
    status := if (k.held.any fun m => decide (m.ctx = x) && m.started) || c.pend.any Pend.late then .blocked .drain else c.status
    g := ⟨⟨c.g.toList.take 48 ++ List.replicate 16 SVal.zero⟩, by simp⟩
    lo := Vector.replicate 11 (.sc SVal.zero)
    lp := Vector.replicate 11 (.sc SVal.zero)
    q := Ctx.entryPorts
    loop0 := Loop.zero
    loop1 := Loop.zero
    pend := []
    pc := addr
    first := 0
    delay := none
    emu := true
    tret := none
    eret := false }

/-- A supervisor or management context halted at trap entry 0 (R362); SVHALT names the core (R389). -/
def State.haltAtEntry0 (s : State) (x : CtxRef) : State :=
  let s := s.setStatus x (.stopped .trapEntry0 none)
  if 512 ≤ x.core ∧ x.core < 528 then
    { s with host := { s.host with svhalt := s.host.svhalt ||| BitVec.ofNat 16 (2 ^ (x.core - 512)) } }
  else s

/-- The result ports of a core at entry to a handler: on supervisor and management cores `ve.q` is a scalar latch
(R69). -/
def Ctx.fixPorts (c : Ctx) (sup : Bool) : Ctx := if sup then { c with q := Vector.replicate 12 (.sc SVal.zero) } else c

/-- A context enters a handler at an address; with address 0 the reaction ends with UNDEF_OP (R245), or the supervisor
context halts (R362). -/
def State.enterHandler (s : State) (x : CtxRef) (addr : Word) : State :=
  if addr = 0#64 then
    if isSup x.core then s.haltAtEntry0 x else s.failReact x cUndefOp 0#64
  else
    s.updCore x.core fun k =>
      let drop (q : List Cmd) : List Cmd := q.filter fun m => !(decide (m.ctx = x.ctx) && !m.started)
      { k.setCtx x.ctx (((k.ctx x.ctx).enterHandler k x.ctx addr).fixPorts (isSup x.core)) with
        mxq := drop k.mxq, cpq := drop k.cpq, msq := drop k.msq, seq := k.seq + 1 }

/-- The handler address of a context (R219, R245, R362). -/
def State.handlerOf (s : State) (x : CtxRef) : Word :=
  if isSup x.core then (s.ctx x).tent
  else match s.launchOf x with
    | some l => BitVec.ofNat 64 l.record.emuh
    | none => 0#64

/-- The trap registers written and the cause event traced (R208, R210, R373). -/
def State.recordTrap (s : State) (x : CtxRef) (limm : BitVec 32) (t : Trap) : State :=
  let s := s.updCtx x fun c => { c with tr := trapRegsOf c limm t }
  s.traceCtx x 3 t.cause.toNat false ((s.ctx x).tr.tinfo.toNat + t.move.toNat * 2 ^ 64)

/-- The stop that made a context wait is suppressed for the next issue of its group: a breakpoint, or the one watched access of
the slot that stopped it (R218, R223, R375). -/
def Ctx.suppress (t : Trap) (c : Ctx) : Ctx :=
  if t.cause = cBreak then { c with skipBreak := true } else { c with skipWatch := c.skipWatch ++ [t.slot] }

/-- TAKING A TRAP, precise before the group (R208). A watchpoint or breakpoint halts the partition (R376). In a handler
every trap is EMU_DOUBLE and ends the reaction (R222). UNDEF_OP enters the emulation handler (R219); any other trap of a
supervisor or management context enters its trap entry (R213, R362); any other trap of a reaction ends it (R211, R212). -/
def State.takeTrap (s : State) (x : CtxRef) (t : Trap) : State :=
  let c := s.ctx x
  let limm := s.issue.limm
  if t.cause = cWatch ∨ t.cause = cBreak then
    let s := s.recordTrap x limm { t with cls := 0 }
    (s.updCtx x (Ctx.suppress t)).haltOf x.core
  else if c.emu then
    let inner := if t.cause = cEmuDouble then 0#64 else BitVec.ofNat 64 t.cause.toNat
    let s := s.recordTrap x limm { t with cause := cEmuDouble, info := inner }
    if isSup x.core then s.haltAtEntry0 x else s.failReact x cEmuDouble inner
  else
    let s := s.recordTrap x limm t
    let s := if t.cause = cPtPinned then { s with ptmcs := s.ptmcs.filter fun p => !(p.x == x && p.decided && p.pinned) }
      else s
    if t.cause = cUndefOp ∨ isSup x.core then s.enterHandler x (s.handlerOf x)
    else s.failReact x t.cause t.info

/-! ### Captured commands given back (R217) -/

/-- The numbers of the commands that a core's queues and its handlers' banks hold. -/
def Core.cmdIds (k : Core) : List Nat :=
  (k.mxq ++ k.cpq ++ k.msq ++ k.ctxs.toList.flatMap fun c => match c.bank with
    | some b => b.mxq ++ b.cpq ++ b.msq
    | none => []).map Cmd.id

/-- The first of `n` numbers below those of every command of a core (R217; log 152). -/
def Core.headId (k : Core) (n : Nat) : Nat := (k.cmdIds.min?.getD k.seq) - n

/-- Captured commands given back at the heads of their queues in saved order, behind those that run (R217), whether or not the 16
entries of a queue have room for them: it then holds more, and `mx.busy` counts them (R278; log 152). -/
def Core.giveBack (k : Core) (cs : List Cmd) : Core :=
  let put (u : Unit11) (q : List Cmd) : List Cmd :=
    q.filter Cmd.started ++ (cs.filter fun c => decide ((unitAt c.port).1 = u)) ++ q.filter fun c => !c.started
  { k with mxq := put .mx k.mxq, cpq := put .cp k.cpq, msq := put .ms k.msq }

/-- A command put in its place by number. -/
def insertCmd (c : Cmd) : List Cmd → List Cmd
  | [] => [c]
  | d :: ds => if d.id < c.id then d :: insertCmd c ds else c :: d :: ds

/-- The commands put aside as a handler began, in the order issued. -/
def Bank.cmds (b : Bank) : List Cmd := (b.mxq ++ b.cpq ++ b.msq).foldl (fun l c => insertCmd c l) []

/-- A held add once the captured commands have numbers from `head` on: one of the program's own follows the commands issued before
it (R116). -/
def HeldAdd.behind (a : HeldAdd) (b : Bank) (head : Nat) : HeldAdd :=
  if a.before ≤ b.seq then { a with before := head + (b.cmds.filter fun c => decide (c.id < a.before)).length } else a

/-- The places of captured commands in a log as their numbers change (R319). -/
def Eff.renumber (core : Nat) (old : List Cmd) (dst head : Nat) (e : Eff) : Eff :=
  match e with
  | .cmd k i =>
    match old.findIdx? fun c => decide (k = core) && decide (c.id = i) with
    | some n => .cmd dst (head + n)
    | none => .cmd k i
  | e => e

/-- The log of a reaction with the places of captured commands renumbered (R319). -/
def Store.renumber (st : Store) (lid stamp core : Nat) (old : List Cmd) (dst head : Nat) : Store :=
  { st with logs := st.logs.map fun g =>
      if g.lid = lid ∧ g.stamp = stamp then { g with effs := g.effs.map (Eff.renumber core old dst head) } else g }

/-- RETURN FROM A HANDLER (R217, R220, R221, R362): the bank is restored, EMU is cleared, captured commands stand at the
head of their queues and before every other command (log 152), those of the open batch in the open batch still (R299), and the
trapped group issues again. -/
def State.leaveHandler (s : State) (x : CtxRef) : State :=
  match (s.ctx x).bank with
  | none => s
  | some b =>
    let head := (s.core x.core).headId b.cmds.length
    let s := s.updCore x.core fun k =>
      let c := k.ctx x.ctx
      let cmds := b.cmds.zipIdx.map fun m =>
        { m.1 with id := head + m.2, batch := if m.1.batch = b.batch then c.batch else m.1.batch }
      let k := k.giveBack cmds
      { k.setCtx x.ctx
          { c with
            g := ⟨⟨c.g.toList.take 48 ++ b.g.toList.drop 48⟩, by simp⟩
            lo := b.lo, lp := b.lp, q := b.q, loop0 := b.loop0, loop1 := b.loop1, pend := b.pend
            pc := b.pc, first := b.first, delay := b.delay, ffPre := b.ffPre, bank := none, emu := false, tret := none
            eret := false } with
        adds := k.adds.map fun a => if a.ctx = x.ctx then a.behind b head else a }
    match (s.ctx x).react with
    | none => s
    | some r => { s with store := s.store.renumber r.lid r.stamp x.core b.cmds x.core head }

/-- What `ctx.tres` gives a unit's result port (R221): a scalar, and at the vector port of a compute core its bits 31:0 in every
lane, since that port holds a vector (R69, R70; log 150). -/
def emuValue (core : Nat) (q : Port) (w : Word) (tag : Tag) (taint : Bool) : Value :=
  if core < 512 ∧ q = .veq then .ve ⟨Vector.replicate 64 (w.setWidth 32), tag, taint⟩ else .scalar w tag taint

/-- The end of the emulation handler by a write of `ctx.tret` (R221): with FAIL the reaction ends with UNDEF_OP; else the
emulated slot is noted with its captured tags and its result, and the handler is left. -/
def State.emuReturn (s : State) (x : CtxRef) (w : Word) : State :=
  if w.getLsbD 0 then
    if isSup x.core then s.haltAtEntry0 x else s.failReact x cUndefOp (s.ctx x).tr.tinfo
  else
    let c := s.ctx x
    let mv := c.tr.tmove.toNat
    let tags := [BitVec.ofNat 4 (bitsOf mv 24 4), BitVec.ofNat 4 (bitsOf mv 28 4), BitVec.ofNat 4 (bitsOf mv 32 4)]
    let taint := decide (bitsOf mv 36 3 ≠ 0) || c.tr.tresTaint || c.ctaint
    let slot := bitsOf c.tr.tcause.toNat 8 3
    let result : Option Pend :=
      if w.getLsbD 7 then none
      else (moveUnit (BitVec.ofNat 24 mv)).map fun u =>
        ⟨bitsOf w.toNat 1 6, .port (unitPort u), emuValue x.core (unitPort u) c.tr.tres (commonTag tags) taint, 0#6, false, [],
          0#64, none, none⟩
    let s := s.leaveHandler x
    s.updCtx x fun c => ({ c with emuDone := c.emuDone ++ [⟨slot, tags, result⟩] } : Ctx).showEmask

/-! ### Batches (R299) -/

/-- Whether the open batch of a context holds a command queued or running. -/
def openLive (q : List Cmd) (k batch : Nat) : Bool :=
  q.any fun c => decide (c.ctx = k) && decide (c.port ≠ 0x26C) && decide (c.batch = batch)

/-- The close marker of a context's open batch. -/
def Ctx.marker (c : Ctx) (k id : Nat) : Cmd :=
  let z : Value := .sc SVal.zero
  { id := id, ctx := k, react := c.react, port := 0x26C, o := z, p := z, t := z, recs := [], reads := [], writes := []
    held := [], clean := [], taint := false, ctaint := false, tag := Tag.any, sel := none, count := 0#64, slot := 0
    sfmt := 0, batch := c.batch, started := false, sent := false, stack := 0, group := (c.pc.toNat, c.cyc.toNat) }

/-- A close (R299): a marker at the end of the copy queue if the open batch holds work, else nothing. -/
def Core.closeBatch (k : Core) (x : Nat) : Core :=
  let c := k.ctx x
  if openLive k.cpq x c.batch then
    { k.setCtx x { c with batch := c.batch + 1 } with cpq := k.cpq ++ [c.marker x k.seq], seq := k.seq + 1 }
  else k

/-! ### Blocks (R205) -/

/-- A context enters a block before its group: what the wait needs is set down, and the context waits. Waits on remote
data and on the matrix scoreboard hold the core frozen (R77, R111, R279). -/
def State.enterBlock (s : State) (x : CtxRef) (b : Block) : State :=
  let s := s.setStatus x (.blocked b)
  match b with
  | .walk die =>
    { s with
      walks := s.walks ++ [⟨s.nextWalk, x, die, s.migCounter die, s.timebase.toNat, false⟩]
      nextWalk := s.nextWalk + 1 }
  | .remote dev addr w sid why shown =>
    (s.ask x.core sid (if w.isNone && decide (sid ≠ 0) then noView else (s.viewer x).asks) ⟨x, dev, addr, w, 0, none, false⟩).updCore x.core fun k =>
      { k with freeze := some ⟨BitVec.ofNat 8 (2 ^ (why - 1)), why, s.timebase.toNat, BitVec.ofNat 64 shown⟩ }
  | .fe line _ => s.updCtx x fun c =>
      { c with feWait := match c.feWait with
          | some (l, t) => if l = line then some (l, t) else some (line, s.timebase.toNat)
          | none => some (line, s.timebase.toNat) }
  | .set rs => s.touchWounds x rs
  | .tiles _ _ _ => s.updCore x.core fun k => { k with freeze := some ⟨4#8, 3, s.timebase.toNat, 0#64⟩ }
  | .waitb _ => s.updCore x.core fun k => k.closeBatch x.ctx
  | .ptmc addr value sel =>
    { s with
      ptmcs := s.ptmcs ++ [⟨s.nextPtmc, x, addr, value, sel, false, false, true, false⟩]
      nextPtmc := s.nextPtmc + 1 }
  | _ => s

/-! ### From an operation's outcome to the machine's -/

/-- A machine outcome. -/
abbrev Out := Host.Outcome State Fault Refusal

/-- The trap that the move in progress raises. -/
def State.trapOf (s : State) (m : BitVec 24) (cause : Byte) (cls info : Nat) : Trap :=
  ⟨cause, cls, BitVec.ofNat 64 info, s.issue.slot, s.issue.nextb, m⟩

/-- The outcome of a move (R63, R208): its effect, or its trap taken, or its context blocked, or its partition reset; the
step reads State.last. -/
def finish (s : State) (m : BitVec 24) (r : MoveR) : Out :=
  match r with
  | .ok s' => .next { s' with last := .done }
  | .trap cause cls info => .next { s.takeTrap s.cur (s.trapOf m cause cls info) with last := .trapped (s.trapOf m cause cls info) }
  | .block b => .next { s.enterBlock s.cur b with last := .blocked b }
  | .reset => .next { s.resetOf s.cur.core with last := .poisoned s.cur.core }

/-- The slot of a move (R56). -/
def slotOf (src : Src) (d : Nat) (g : Guard) : BitVec 24 := BitVec.ofNat 24 (src.code * 2 ^ 14 + d * 2 ^ 4 + g.code)

/-- The context that executes. -/
def State.me (s : State) : Ctx := s.ctx s.cur

/-- Whether the context that executes runs in supervisor mode. -/
def State.sup (s : State) : Bool := isSup s.cur.core

/-- The operands of a trigger: its latches, the value moved to it, the tag its result takes and the taint of the operands
it uses (R72, R73). -/
structure Opnds where
  o : Value
  p : Value
  t : Value
  tag : Tag
  taint : Bool
  deriving DecidableEq, Repr

/-- Which operands an operation uses and R73 checks. -/
inductive Uses where
  | none_ | t | o | p | ot | pt | opt
  deriving DecidableEq, Repr

/-- The values of the used operands. -/
def Uses.vals (u : Uses) (o p t : Value) : List Value :=
  match u with
  | .none_ => []
  | .t => [t]
  | .o => [o]
  | .p => [p]
  | .ot => [o, t]
  | .pt => [p, t]
  | .opt => [o, p, t]

/-- The operands of a trigger of a unit with the value moved to it. -/
def Ctx.opnds (c : Ctx) (u : Unit11) (us : Uses) (t : Value) : Opnds :=
  let vs := us.vals (c.latchO u) (c.latchP u) t
  ⟨c.latchO u, c.latchP u, t, commonTag (vs.map Value.tag), vs.any Value.taint⟩

/-- Every trigger (R57, R63, R69, R71-R73): the class 1 checks whatever the guard; with a false guard nothing; UNDEF_OP
for a vector, matrix or copy trigger where there is no such engine; then the tags of the operands used; then the
operation. -/
def trigger (u : Unit11) (d : Nat) (us : Uses) (body : Opnds → State → MoveR) (src : Src) (g : Guard) (s : State) : Out :=
  let c := s.me
  let v := c.src s.issue.limm src
  let m := slotOf src d g
  match modeCheck s.sup src d v with
  | some cause => finish s m (.trap cause 1 0)
  | none =>
    if !c.guard g then finish s m (.ok s)
    else if s.sup && (decide (u = .ve) || decide (u = .mx) || decide (u = .cp)) then finish s m (.trap cUndefOp 3 0)
    else
      let a := c.opnds u us v
      match tagCheck c ((us.vals a.o a.p a.t).map Value.tag) with
      | some cause => finish s m (.trap cause 4 0)
      | none => finish s m (body a s)

/-- A class 5 fault (R63). -/
def fault5 (cause : Byte) (info : Nat) : MoveR := .trap cause 5 info

/-- A class 5 fault of a field that a trigger has read, which comes after the watchpoints and the leases (R218, R291, R311,
R334): shown as class 5, ranked as class 6. -/
def faultRead (cause : Byte) (info : Nat) : MoveR := .trap cause 6 info

/-- The outcome of a move that a failed check of its accesses leaves. -/
def AdmitR.failed (r : AdmitR) : MoveR :=
  match r with
  | .ok s _ => .ok s
  | .trap c i => fault5 c i
  | .block b => .block b
  | .reset => .reset

/-- An operation's accesses checked, then the rest of it on the state they leave. -/
def admitThen (s : State) (l : List Span) (k : State → List SpanP → MoveR) : MoveR :=
  match s.vet s.cur l with
  | .ok s ps => k s ps
  | r => r.failed

/-- An operation's one access of several spans checked, then the rest of it on the state it leaves (R173, R267). -/
def admitOne (s : State) (l : List Span) (k : State → List SpanP → MoveR) : MoveR :=
  match s.vetFor s.cur .plain [l] with
  | .ok s ps => k s ps
  | r => r.failed

/-- The first byte of some checked spans that lies in a memory-side page. -/
def firstMs (l : List SpanP) : Option Nat :=
  l.findSome? fun a => (a.ps.find? fun p => p.page.memSide).map Piece.va

/-- The accesses of an operation that may not reach a memory-side page, checked order by order over all of them (R267,
R291, R311): watchpoints held against `watched`, then LEASE_EXIT (`gate` is the one of an ungranted counter), then the
level fault, then the rest (R218), for a command or an access. -/
def State.vetLevel (s : State) (level : Byte) (what : AccFor) (gate : Option Byte) (watched l : List Span) : AdmitR :=
  match s.watchSpans s.cur watched with
  | (_, some a) => .trap cWatch a
  | (s, none) =>
    match s.resolveSpans s.cur l with
    | .error r => r
    | .ok ps =>
      match gate.map (fun c => (c, 0)) <|> (firstMs ps).map fun va => (level, va) with
      | some (c, i) => .trap c i
      | none => s.admitFor s.cur what ps

/-- Those checks, then the rest of the operation on the state they leave. -/
def admitLevel (level : Byte) (what : AccFor) (gate : Option Byte) (s : State) (watched l : List Span)
    (k : State → List SpanP → MoveR) : MoveR :=
  match s.vetLevel level what gate watched l with
  | .ok s ps => k s ps
  | r => r.failed

/-- What a group is judged on (R413). -/
def State.before (s : State) (core : Nat) : Before :=
  ⟨s.store, s.pinned, s.core core, s.fabric.flits.filter fun o => decide (o.core = core), s.ctrOld, s.regs, s.obs⟩

/-- What an action of a core is judged on: in a group what stood before it (R413), else the core as it stands. -/
def State.pre (s : State) (core : Nat) : Before := s.issue.pre.getD (s.before core)

/-- Whether loads of a context from other devices have not come (R110, R214). -/
def Ctx.loadsOut (c : Ctx) : Bool := (c.pend ++ (c.bank.map Bank.pend).getD []).any fun p => p.await.isSome

/-- The machine as a load of the group in progress would find it before the group (R413): the store before the group, behind
the context's earlier memory-side operations to the stacks it reaches (R117). -/
def State.asBefore (s : State) (ps : List Piece) : State :=
  match s.issue.pre with
  | none => s
  | some b =>
    let old := ({ s with store := b.store } : State).updCore s.cur.core fun k =>
      { k with msq := k.msq.filter fun c => decide (c.id < b.core.seq) }
    (msStacks ps).foldl (fun t k => t.msDrain s.cur k) old

/-- Bytes of a checked record read as they stand before the group (R413): the store before the group is read, and the
lease is left in the store of now. -/
def State.readBefore (s : State) (a : SpanP) : State × List Byte × Bool :=
  let old := s.asBefore a.ps
  let r := old.readPieces s.cur (s.viewer s.cur) a.ps
  ({ s with store := a.ps.foldl (fun st p => st.lease s.devid (s.viewer s.cur) p) s.store }, r.1, r.2)

/-- A record read whose data may come late freezes the core at the cycle in which a load's data would be due (R76, R77, R280,
R297). -/
def State.recordLate (s : State) (addr : Nat) : State :=
  let r := s.takeLate
  if r.2 then
    r.1.updCtx s.cur fun c =>
      { c with pend := c.pend ++ [⟨latencyOf addr, .flagsOnly, .sc SVal.zero, 0#6, true, [4], BitVec.ofNat 64 addr, none, none⟩] }
  else r.1

/-- A command put at the end of an engine queue of the core that executes, with the core's next command number. -/
def State.newCmd (s : State) (port : Nat) (a : Opnds) : Cmd :=
  let c := s.me
  let v := s.viewer s.cur
  { id := (s.core s.cur.core).seq, ctx := s.cur.ctx, react := c.react, port := port, o := a.o, p := a.p, t := a.t
    recs := [], reads := [], writes := [], held := v.held, clean := v.clean, taint := a.taint || c.ctaint
    ctaint := c.ctaint, tag := a.tag, sel := none, count := 0#64, slot := 0, sfmt := 0, batch := c.batch, started := false
    sent := false, stack := 0, group := (c.pc.toNat, c.cyc.toNat) }

/-- An event row's outcome: data out of its bounds (Instr.wf) is a fault, else the next state. -/
def event (ok : Bool) (s : State) : Out := if ok then .next s else .fault .illFormed

end Sys2Proof.Machine
end

