-- ==== Sys2Proof/Machine/Seq.lean ====
section
/-!
DEFINITION. The sequencer: fetching bundles (09_seq_control R179, R412), forming and checking a group (03_bundles
R54-R65, R79, R80), issuing it whole, and what ends it: delay bundles, loop back-edges and markers (R64, R66, R180,
R371). Every function that runs a move takes the meaning of instructions as an argument `ex`; Step.lean puts `exec` in.
-/

namespace Sys2Proof.Machine

/-- The meaning of an instruction, as an argument. -/
abbrev Exec := Instr → State → Out

/-! ### Fetch (R179, R412) -/

/-- The outcome of fetching a bundle. -/
inductive FetchR where
  | ok (b : Bundle)
  | trap (cause : Byte) (info : Nat)
  | block (b : Block)
  | reset
  deriving DecidableEq, Repr

/-- The committed bytes of a fetched piece; at another device the response that is here. -/
def State.fetchBytes (s : State) (x : CtxRef) (p : Piece) : List Byte :=
  match p.page with
  | .remote dev _ _ => ((s.remoteData x dev (keyOff p.key)).getD []).take p.n
  | _ => cellsRead s.store.mem p.key p.n

/-- A wait for the bytes of a bundle on another device: the request asks for memory as it stands (R412; log 165). -/
def Block.asFetch (b : Block) : Block :=
  match b with
  | .remote dev a none _ why va => .remote dev a none 1 why va
  | b => b

/-- One bundle fetched from translated space, from a page that permits execution (R179, R412). -/
def State.fetch (s : State) (x : CtxRef) (a : Word) : FetchR :=
  if winOf a.toNat ≠ .translated then .trap cLeaseExit a.toNat
  else
    match s.resolve x .x a.toNat 32 with
    | .trap c i => .trap c i
    | .block b => .block b
    | .reset => .reset
    | .ok ps =>
      match s.missingRemote x [⟨⟨a.toNat, 32, false⟩, ps⟩] with
      | some b => .block b.asFetch
      | none => if s.poisoned ps then .reset else .ok (Bundle.ofBytes (ps.flatMap (s.fetchBytes x)))

/-! ### Forming a group (R59, R64, R180) -/

/-- A slot of a group: its bundle's address, LIMM and MREM, whether its bundle is the one after the group's first,
whether the bundle's control word fails R54 (told by the bundle's first slot in the group), whether the bundle is a
marker bundle, and whether it holds two control-transfer triggers. -/
structure GSlot where
  bundle : Word
  slot : Nat
  nextb : Bool
  raw : BitVec 24
  limm : BitVec 32
  cwBad : Bool
  mkv : Bool
  mrem : Nat
  twice : Bool
  deriving DecidableEq, Repr

/-- The destination of a slot as encoded. -/
def rawDst (m : BitVec 24) : Nat := bitsOf m.toNat 4 10

/-- Whether a slot is a move, by its guard field (R57). -/
def rawMove (m : BitVec 24) : Bool := decide (bitsOf m.toNat 0 4 ≠ 15)

/-- Whether a slot is a control-transfer trigger move by its encoding (R178). -/
def rawTransfer (m : BitVec 24) : Bool := rawMove m && isTransfer (rawDst m)

/-- Slots from slot `i` of a bundle on, at most `n`, up to the stop; and whether the stop was met. A forced end stands
at slot 7. -/
def takeSlots (b : Bundle) (a : Word) (nextb forced : Bool) : Nat → Nat → List GSlot × Bool
  | 0, _ => ([], false)
  | n + 1, i =>
    if 8 ≤ i then ([], false)
    else
      let e : GSlot :=
        ⟨a, i, nextb, b.slot i, b.limm, false, b.mkv, b.mrem, decide (2 ≤ (b.slots.filter rawTransfer).length)⟩
      if b.stop i || (decide (i = 7) && forced) then ([e], true)
      else
        let r := takeSlots b a nextb forced n (i + 1)
        (e :: r.1, r.2)

/-- Whether loop `n` is armed with the end bundle `a` (R180). -/
def Ctx.armedEnd (c : Ctx) (n : Nat) (a : Word) : Bool := decide ((c.loop n).lc ≠ 0#64) && decide ((c.loop n).e = a)

/-- Whether a group ends at slot 7 of bundle `a` without a stop: the second delay bundle of a taken transfer, or the end
bundle of an armed loop (R64, R180). -/
def Ctx.forcedEnd (c : Ctx) (a : Word) : Bool :=
  (match c.delay with
    | some ⟨b, some _⟩ => decide (a = b + 64#64)
    | _ => false) || c.armedEnd 0 a || c.armedEnd 1 a

/-- The control word of a bundle judged at its first slot in the group (R54). -/
def markCw (b : Bundle) : List GSlot → List GSlot
  | [] => []
  | e :: es => { e with cwBad := !b.cwOk } :: es

/-- A group formed: its slots; whether its eighth slot carries no stop; and the failure of the second bundle's fetch. -/
structure Group where
  slots : List GSlot
  long : Bool
  fail : Option FetchR
  deriving DecidableEq, Repr

/-- The group that begins at a context's fetch position, whose first bundle is `b` (R59). -/
def State.form (s : State) (x : CtxRef) (b : Bundle) : Group :=
  let c := s.ctx x
  let r := takeSlots b c.pc false (c.forcedEnd c.pc) 8 c.first
  let first := markCw b r.1
  if r.2 then ⟨first, false, none⟩
  else if first.length = 8 then ⟨first, true, none⟩
  else
    match s.fetch x (c.pc + 32#64) with
    | .ok b2 =>
      let r2 := takeSlots b2 (c.pc + 32#64) true (c.forcedEnd (c.pc + 32#64)) (8 - first.length) 0
      ⟨first ++ markCw b2 r2.1, !r2.2, none⟩
    | f => ⟨first, false, some f⟩

/-! ### The checks of classes 1 and 2 (R61, R63, R65, R79, R178) -/

/-- A trap of a slot. -/
def GSlot.trap (e : GSlot) (cause : Byte) (cls info : Nat) : Trap :=
  ⟨cause, cls, BitVec.ofNat 64 info, e.slot, e.nextb, e.raw⟩

/-- The class 1 check of one slot (R54, R57, R58, R67, R69-R71, R79): PRIV stands before UNDEF_MOVE. -/
def GSlot.class1 (e : GSlot) (sup : Bool) (c : Ctx) : Option Byte :=
  let d := rawDst e.raw
  let src := bitsOf e.raw.toNat 14 10
  if e.cwBad then some cUndefMove
  else if !rawMove e.raw then (if e.raw = 0xF#24 then none else some cUndefMove)
  else if !sup && (decide (0x2C0 ≤ d ∧ d < 0x300) || decide (src = 0x8B)) then some cPriv
  else
    match decodeSlot e.raw, Src.ofCode src with
    | .ok _, some v => modeCheck sup v d (c.src e.limm v)
    | .error .unassignedPort, some v => modeCheck sup v d (c.src e.limm v)
    | _, _ => some cUndefMove

/-- Whether a destination address is an assigned trigger port (R68). -/
def assigned (d : Nat) : Bool :=
  decide (0x80 ≤ d ∧ d < 0x300) && decide (2 ≤ (unitAt d).2) && decide ((unitAt d).2 - 2 < (unitOps (unitAt d).1).length)

/-- What a move reads, for R61: registers, latches and ports by destination or source address, `k` registers at 0x60,
result ports at 0x1000, stage predicates at 0x2000. -/
def depReads (m : BitVec 24) : List Nat :=
  let src := bitsOf m.toNat 14 10
  let d := rawDst m
  let g := bitsOf m.toNat 0 4
  (if src < 0x70 then [src] else if 0x80 ≤ src ∧ src < 0x8C then [0x1000 + src] else []) ++
    (if 1 ≤ g ∧ g < 8 then [0x60 + g] else if 8 ≤ g ∧ g < 12 then [0x2000 + g] else []) ++
    (if assigned d then
      (if usesO d then [(unitAt d).1.base] else []) ++ (if usesP d then [(unitAt d).1.base + 1] else [])
    else [])

/-- What a move writes, for R61: its destination; the trigger ports of a unit count as one. -/
def depWrites (m : BitVec 24) : List Nat :=
  let d := rawDst m
  if d < 0x80 then [d]
  else if (unitAt d).2 < 2 then [d]
  else [0x3000 + (unitAt d).1.base]

/-- Whether two lists share a number. -/
def sharesNat (a b : List Nat) : Bool := a.any fun k => b.contains k

/-- Whether a move depends on some others of its group (R61). -/
def depends (m : BitVec 24) (others : List (BitVec 24)) : Bool :=
  others.any fun o =>
    sharesNat (depWrites m) (depWrites o) || sharesNat (depWrites m) (depReads o) || sharesNat (depReads m) (depWrites o)

/-- Whether a bundle issues as a delay bundle (R65). -/
def Ctx.inDelay (c : Ctx) (a : Word) : Bool :=
  match c.delay with
  | some d => decide (a = d.b + 32#64) || decide (a = d.b + 64#64)
  | none => false

/-- The class 2 check of one slot among its group (R61, R65, R178). -/
def GSlot.class2 (e : GSlot) (c : Ctx) (all : List GSlot) : Option Byte :=
  let others := (all.filter fun f => rawMove f.raw && !(decide (f.slot = e.slot) && f.nextb == e.nextb)).map GSlot.raw
  if rawMove e.raw && depends e.raw others then some cGroupDep
  else if rawTransfer e.raw && (c.inDelay e.bundle || e.twice) then some cDelayBranch
  else if decide (e.slot = 7) && c.inDelay e.bundle && (c.armedEnd 0 e.bundle || c.armedEnd 1 e.bundle) then
    some cDelayBranch
  else none

/-- The first slot with a fault of a class, as a trap. -/
def firstTrap (cls : Nat) (f : GSlot → Option Byte) (l : List GSlot) : Option Trap :=
  l.findSome? fun e => (f e).map fun cause => e.trap cause cls 0

/-- The checks that need the encoding alone: class 1, then a failed fetch of the second bundle, then class 2 (R63, R79,
R80, R179). -/
def Group.check (gr : Group) (sup : Bool) (c : Ctx) : Option Trap :=
  match firstTrap 1 (fun e => e.class1 sup c) gr.slots with
  | some t => some t
  | none =>
    match gr.fail with
    | some _ => none
    | none =>
      if gr.long then gr.slots.head?.map fun e => e.trap cGroupLong 2 0
      else firstTrap 2 (fun e => e.class2 c gr.slots) gr.slots

/-! ### The end of a group -/

/-- The marker of a group, formed when the group that holds slot 0 of a marker bundle issues outside emulation mode
(R55, R371). -/
def State.marker (s : State) (x : CtxRef) (e : GSlot) : State :=
  let c := s.ctx x
  let now := s.timebase.toNat
  let actual := now - c.mark.start.getD now
  let drift : Int := (actual : Int) - e.limm.toNat
  let armed := decide ((s.obs.dthr.toNat : Int) < drift - c.mark.drift)
  let payload := e.limm.toNat + e.mrem * 2 ^ 32 + (if armed then 2 ^ 54 else 0) + actual % 2 ^ 64 * 2 ^ 64 +
    (BitVec.ofInt 64 drift).toNat * 2 ^ 128
  let s := s.event x 0x0C 1
  let s := if s.obs.kmask.getLsbD 1 then
      s.record (traceNat s x 0x101 false e.bundle.toNat c.cyc.toNat c.stamp.toNat payload)
    else s
  s.updCtx x fun c => { c with mark := { c.mark with drift := drift, armed := armed, mrem := some e.mrem, mcyc := c.cyc.toNat } }

/-- The start of a run is the timebase at which its first group issues (R370). -/
def State.markStart (s : State) (x : CtxRef) : State :=
  s.updCtx x fun c => { c with mark := { c.mark with start := some (c.mark.start.getD s.timebase.toNat) } }

/-- The pending transfer after a group: a trigger in the group makes its bundle's successors delay bundles, taken or
not (R64, R178). -/
def Ctx.newDelay (c : Ctx) (slots : List GSlot) : Option Delay :=
  match slots.find? fun e => rawTransfer e.raw with
  | none => c.delay
  | some e =>
    match c.delay with
    | some ⟨b, t⟩ => if b = e.bundle then some ⟨b, t⟩ else some ⟨e.bundle, none⟩
    | none => some ⟨e.bundle, none⟩

/-- A back-edge test of loop `n` at its end bundle (R180): on to the first bundle, or through. -/
def Ctx.backEdge (c : Ctx) (n : Nat) : Ctx :=
  let l := c.loop n
  if 1 < l.lc.toNat then { c.setLoop n { l with lc := l.lc - 1#64 } with pc := l.f, first := 0, delay := none }
  else c.setLoop n { l with lc := 0#64 }

/-- Where a context fetches after a group that ends at slot `i` of bundle `a` (R59, R64, R66, R180). -/
def Ctx.advance (c : Ctx) (a : Word) (i : Nat) : Ctx :=
  if i < 7 then { c with pc := a, first := i + 1 }
  else
    let through : Ctx := { c with pc := a + 32#64, first := 0 }
    match c.delay with
    | some ⟨b, some t⟩ =>
      if a = b + 64#64 then { c with pc := t, first := 0, delay := none }
      else if c.armedEnd 0 a then through.backEdge 0
      else if c.armedEnd 1 a then through.backEdge 1
      else through
    | some ⟨b, none⟩ =>
      if a = b + 64#64 then { through with delay := none }
      else if c.armedEnd 0 a then through.backEdge 0
      else if c.armedEnd 1 a then through.backEdge 1
      else through
    | none => if c.armedEnd 0 a then through.backEdge 0 else if c.armedEnd 1 a then through.backEdge 1 else through

/-- A context at the end of a group it has issued: the next fetch position, the cycle counted outside emulation mode
(R220), results one cycle nearer, what was suppressed for this group or waited for done with, EMASK cleared (R221). A stop
suppressed for the trapped group stays so while its handler runs. -/
def Ctx.commit (c : Ctx) (slots : List GSlot) : Ctx :=
  match slots.getLast? with
  | none => c
  | some e =>
    let c := { c with delay := c.newDelay slots }
    let c := (c.advance e.bundle e.slot).tick
    let c := { c with run := c.run + 1, feWait := none, walkExpired := false }
    if c.emu then c
    else
      let n : Ctx := { c with cyc := c.cyc + 1#48, emuDone := [], skipBreak := false, skipWatch := [] }
      if c.emuDone = [] then n else n.showEmask

/-- The other contexts of a core no longer wait on context `k` for a yield (R199). -/
def Core.issued (c : Core) (k : Nat) : Core :=
  let drop (t : Ctx) : Ctx :=
    match t.status with
    | .blocked (.yield l) => { t with status := .blocked (.yield (l.filter fun j => j != k)) }
    | _ => t
  { c with ctxs := ⟨⟨c.ctxs.toList.map drop⟩, by simp⟩ }

/-- In a halted partition a context that has issued its stepped group stops again (R376). -/
def State.rehalt (s : State) (x : CtxRef) : State :=
  match s.partOf x.core with
  | some p => if s.halted.contains p then s.updCtx x Ctx.halt else s
  | none => s

/-- The end of a handler with its group (R221, R362): what its last group wrote at the next cycle lands, then the return. -/
def State.handlerEnd (s : State) (x : CtxRef) : State :=
  let c := s.ctx x
  match c.tret with
  | some w => (s.updCtx x Ctx.landDue).emuReturn x w
  | none => if c.eret then (s.updCtx x Ctx.landDue).leaveHandler x else s

/-- A group's effects stand: events, marker, next position (R55, R64, R371, R382). -/
def State.commitGroup (s : State) (x : CtxRef) (slots : List GSlot) : State :=
  let s := s.event x 0x01 1
  let n := (slots.filter fun e => rawMove e.raw).length
  let s := if n = 0 then s else s.event x 0x02 n
  let s := s.markStart x
  let s := match slots.find? fun e => decide (e.slot = 0) && e.mkv with
    | some e => if (s.ctx x).emu then s else s.marker x e
    | none => s
  let s := s.updCtx x fun c => c.commit slots
  let s := s.updCore x.core fun k => k.issued x.ctx
  let s := { s with fabric := s.fabric.dropReqs fun q => q.x == x && !q.load }
  s.handlerEnd x

/-! ### A program of one move -/

/-- The bundle that holds one move in slot 0 and empty slots, a stop after each slot (R52, R53, R58). -/
def oneMove (w : BitVec 24) : Bundle := ⟨w :: List.replicate 7 0xF#24, 0xFF#64⟩

/-- The address of the one-move program, virtual and physical. -/
def placeBase : Nat := 0x10000

/-- The page tables of SID 1 for the one-move program (R341-R345): space-table entry, one table, one leaf that maps the
first 64 GiB onto stack 0 with R, W and X. -/
def placeTables (devid : Nat) : List (Nat × Nat) :=
  [(8, 0x4001), (0x4000, 0x6001), (0x6000, 0x79 + devid * 2 ^ 56)]

/-- An 8-byte entry written to physical memory. -/
def Store.putPte (st : Store) (e : Nat × Nat) : Store := { st with mem := cellsWrite st.mem e.1 (leBytes 8 e.2) }

/-- The store that holds a bundle at the program's address, and the page tables. -/
def Store.place (st : Store) (devid : Nat) (b : Bundle) : Store :=
  let st := (placeTables devid).foldl Store.putPte st
  { st with
    mem := cellsWrite st.mem placeBase b.toBytes
    poison := st.poison.filter fun l => l != lineOf placeBase }

/-- A launch record of one entry for the one-move program; what the program does not use is zero. -/
def placeRecord : Record :=
  { lmagic := 0, lver := 1, nsub := 1, open_ := false, strict := false, fpm := 0#2, diemask := 1#8, ninst := 1, args := 0,
    entries := 0, emuh := 0, savebase := 0, savecnt := 0, saveslot := 0, status := 0, chcore := 0, chgrove := 0,
    grants := [], pipes := [] }

/-- Its entry: one member, leases over the mapped pages. -/
def placeEntry : Entry :=
  { hdr := placeBase, period := 1, phase := 0, width := 1, prio := 0, tok := 0, dcyc := 0, drain := 0, nthr := 0, thr := [],
    nvreg := 32, natile := 8, nctile := 4, spb := 0x10000, lsb := 4096, grb := 0, cnb := 0, asets := 0, naset := 0,
    leases := 0, nlease := 1, setList := [], leaseList := [(0, 2 ^ 36)] }

/-- Its reaction, running in context 0 of core 0. -/
def placeReaction : Reaction :=
  { stamp := 0, inst := 0, entry := 0, members := [0], width := 0, st := .running, prio := 0, tok := 0, die := 0, since := 0,
    places := [(⟨0, 0⟩, 0)], tended := [], wounds := 0, slots := [], saved := [], sets := [], irrev := false, trap := none,
    action := none, lastCore := 0 }

/-- Its launch, ordered, of SID 1. -/
def placeLaunch (lid : Nat) : Launch :=
  { lid := lid, sid := 1#16, done := 0, core := 512, raw := [], record := placeRecord, entries := [placeEntry],
    phase := .running, nextInst := 1, cleared := 0, reacts := [placeReaction], pins := [], slots := [], report := none,
    nother := 0, aborting := false, peers := [], guests := [], away := [], checked := 0, closing := none, maps := [] }

/-- A context set to fetch at the program's address, with nothing pending. -/
def Ctx.place (c : Ctx) (r : Option RunRef) : Ctx :=
  { c with
    pc := BitVec.ofNat 64 placeBase, first := 0, delay := none, status := .ready, pend := [], loop0 := Loop.zero
    loop1 := Loop.zero, emu := false, emuDone := [], tret := none, eret := false, react := r, sid := 0#16, run := 0
    ord := r.isSome, alloc := if r.isSome then ⟨4096, 0x10000, 0, 0, 0⟩ else c.alloc, skipBreak := true }

/-- The one-move program placed where the next step fetches it: in context 0 of compute core 0 as the reaction of a
launch, or, for a move that needs supervisor mode, in context 0 of supervisor core 512. Boot, die 0's usable memory, the
access table and the partitions are as a boot and a resident kernel leave them (R385, R397, R402). -/
def State.placeWord (s : State) (w : BitVec 24) : State :=
  let sup := decide (0x2C0 ≤ rawDst w) || decide (0x60 ≤ rawDst w ∧ rawDst w < 0x80) || decide (bitsOf w.toNat 14 10 = 0x8B)
  let core := if sup then 512 else 0
  let s : State := { s with
    agenda := [], boot := .done, turn := [10000 + 4 * core], resetting := [], lateness := []
    store := s.store.place s.devid (oneMove w) }
  let s := s.updDie 0 fun d =>
    { d with
      cfg := { d.cfg with usable := 68719411200#64, cores := d.cfg.cores ||| 1#64, pch := BitVec.allOnes 160 }
      sptbase := 0#37, access := Vector.replicate 57 0x00FFFFFF#32 }
  let s := if sup then s else { s with launches := s.launches ++ [placeLaunch s.nextLid], nextLid := s.nextLid + 1 }
  let r : Option RunRef := if sup then none else some ⟨s.nextLid - 1, 0, 0⟩
  s.updCore core fun k => { k.setCtx 0 ((k.ctx 0).place r) with running := some 0, ended := false, freeze := none, gated := false }

end Sys2Proof.Machine
end

