-- ==== Sys2Proof/Machine/Br.lean ====
section
/-!
DEFINITION. The branch unit (09_seq_control R176-R182): jumps, hardware loops and program marks.
-/

namespace Sys2Proof.Machine

/-- Control taint set where a decision operand is tainted (R176). -/
def State.judge (s : State) (tainted : Bool) : State :=
  s.updCtx s.cur fun c => { c with ctaint := c.ctaint || tainted }

/-- The target of a displacement from the trigger's bundle (R177, R178). -/
def State.target (s : State) (d : Word) : Word := s.issue.bundle + d

/-- A control transfer (R64, R178, R181): LOOP_FORM in the end bundle of an armed loop, then the target's alignment,
taken or not; if taken, fetch goes on at the target after the delay bundles. -/
def transferTo (s : State) (dest : Word) (taken : Bool) (k : State → State) : MoveR :=
  let c := s.me
  let b := s.issue.bundle
  if c.armedEnd 0 b || c.armedEnd 1 b then fault5 cLoopForm 0
  else if dest.toNat % 32 ≠ 0 then fault5 cBrTarget 0
  else
    let s := if taken then s.updCtx s.cur fun c => { c with delay := some ⟨b, some dest⟩ } else s
    .ok (k s)

/-- `br.jmp` (R178). -/
def jmpOp (a : Opnds) (s : State) : MoveR := transferTo s (s.target a.t.word) true id

/-- `br.jz` (R178). -/
def jzOp (a : Opnds) (s : State) : MoveR :=
  transferTo s (s.target a.t.word) (decide (a.o.word = 0#64)) fun s => s.judge a.o.taint

/-- `br.jnz` (R178). -/
def jnzOp (a : Opnds) (s : State) : MoveR :=
  transferTo s (s.target a.t.word) (decide (a.o.word ≠ 0#64)) fun s => s.judge a.o.taint

/-- `br.jr` (R178). -/
def jrOp (a : Opnds) (s : State) : MoveR := transferTo s a.t.word true fun s => s.judge a.t.taint

/-- `br.call`: the address after the second delay bundle lands in `br.q` (R178). -/
def callOp (a : Opnds) (s : State) : MoveR :=
  transferTo s (s.target a.t.word) true fun s =>
    s.land .brq 1 (.scalar (s.issue.bundle + 96#64) a.tag a.taint) 0#6

/-- `br.lp0` and `br.lp1` (R181). -/
def lpOp (n : Nat) (a : Opnds) (s : State) : MoveR :=
  let e := s.target a.t.word
  if a.o.word = 0#64 ∨ a.t.word.toInt < 32 ∨ a.t.word.toNat % 32 ≠ 0 then fault5 cLoopForm 0
  else if s.me.armedEnd (1 - n) e then fault5 cLoopForm 0
  else .ok ((s.landAt (.loopArm n a.o.word (s.issue.bundle + 32#64) e) (.sc SVal.zero)).judge a.o.taint)

/-- `br.lpend` (R181). -/
def lpendOp (a : Opnds) (s : State) : MoveR :=
  if 1 < a.t.word.toNat then fault5 cLoopForm 0 else .ok (s.landAt (.lpend a.t.word.toNat) (.sc SVal.zero))

/-- `br.lcrd` (R181). -/
def lcrdOp (a : Opnds) (s : State) : MoveR :=
  if 1 < a.t.word.toNat then fault5 cLoopForm 0
  else .ok (s.land .brq 1 (.scalar (s.me.loop a.t.word.toNat).lc a.tag a.taint) 0#6)

/-- `br.mark`: bits 31:0 of `t` in a program-mark record, with its taint (R182, R373). -/
def markOp (a : Opnds) (s : State) : MoveR := .ok (s.traceCtx s.cur 0 0x100 a.t.taint (a.t.word.toNat % 2 ^ 32))

/-- BR_JMP (R178). -/
def execBrJmp (a : Src) (g : Guard) (s : State) : Out := trigger .br 0x142 .t jmpOp a g s

/-- BR_JZ (R178). -/
def execBrJz (a : Src) (g : Guard) (s : State) : Out := trigger .br 0x143 .ot jzOp a g s

/-- BR_JNZ (R178). -/
def execBrJnz (a : Src) (g : Guard) (s : State) : Out := trigger .br 0x144 .ot jnzOp a g s

/-- BR_JR (R178). -/
def execBrJr (a : Src) (g : Guard) (s : State) : Out := trigger .br 0x145 .t jrOp a g s

/-- BR_CALL (R178). -/
def execBrCall (a : Src) (g : Guard) (s : State) : Out := trigger .br 0x146 .t callOp a g s

/-- BR_LP0 (R181). -/
def execBrLp0 (a : Src) (g : Guard) (s : State) : Out := trigger .br 0x147 .ot (lpOp 0) a g s

/-- BR_LP1 (R181). -/
def execBrLp1 (a : Src) (g : Guard) (s : State) : Out := trigger .br 0x148 .ot (lpOp 1) a g s

/-- BR_LPEND (R181). -/
def execBrLpend (a : Src) (g : Guard) (s : State) : Out := trigger .br 0x149 .t lpendOp a g s

/-- BR_LCRD (R181). -/
def execBrLcrd (a : Src) (g : Guard) (s : State) : Out := trigger .br 0x14A .t lcrdOp a g s

/-- BR_MARK (R182). -/
def execBrMark (a : Src) (g : Guard) (s : State) : Out := trigger .br 0x14B .t markOp a g s

end Sys2Proof.Machine
end

