-- ==== Sys2Proof/Machine/Ls.lean ====
section
/-!
DEFINITION. The load/store unit (08_seq_scalar R169-R175): plain loads and stores, full/empty transfers (04_memory R87,
R99, 05_ordering R121, 02_instants R44, R45) and load-blocks (04_memory R89).
-/

namespace Sys2Proof.Machine

/-! ### Levels of an address -/

/-- Whether a window is die scratchpad or translated space. -/
def Win.isShared : Win → Bool
  | .translated | .ownDsp | .dieDsp _ => true
  | _ => false

/-- Whether a window is core scratchpad or grove memory, in either view (R173). -/
def Win.isChan : Win → Bool
  | .cspAlloc | .cspChan | .groveAlloc | .groveChan => true
  | _ => false

/-- Whether a window is an allocation view of core scratchpad or grove memory (R173). -/
def Win.isAlloc : Win → Bool
  | .cspAlloc | .groveAlloc => true
  | _ => false

/-- Whether a window is a view inside the core (latency 3, R169). -/
def Win.isCore : Win → Bool
  | .lane | .cspAlloc | .cspChan => true
  | _ => false

/-- Whether a translated address lies in a memory-side page of a context's space (R92), by the tables as they stood before the group
(R413), once the walk's answer from the device that continues it is here (R347). -/
def State.msPage (s : State) (x : CtxRef) (va : Nat) : Except Block Bool :=
  if winOf va ≠ .translated ∨ s.sidOf x = 0 then .ok false
  else
    let w := s.judged.walk (dieOf x.core) (s.sidOf x) va
    if s.judged.walkDenied (s.master x.core) w then .ok false
    else
    match w.ending with
    | .leaf => .ok (pteMs w.entry)
    | .remote =>
      match s.walkResp x (pteDev w.entry) va w.entry w.lvl with
      | some d => .ok (decide (leNat ((d.drop 9).take 1) = 0) && pteMs (leNat (d.take 8)))
      | none =>
        if s.routed (dieOf x.core) (pteDev w.entry) then
          .error (.remote (pteDev w.entry) va (some (BitVec.ofNat 64 w.entry, w.lvl)) (s.sidOf x) 2 va)
        else .ok false
    | _ => .ok false

/-- Whether one of some addresses lies in a memory-side page. -/
def State.anyMs (s : State) (x : CtxRef) : List Nat → Except Block Bool
  | [] => .ok false
  | va :: l =>
    match s.msPage x va with
    | .ok false => s.anyMs x l
    | r => r

/-- One address in each 64 KiB page of a range, in rising order. -/
def pagesOf (va n : Nat) : List Nat :=
  if n = 0 then []
  else (List.range ((va + n - 1) / 65536 - va / 65536 + 1)).map fun i => max va ((va / 65536 + i) * 65536)

/-- Whether a window is one of the eight dies' scratchpad windows (R83). -/
def Win.isDie : Win → Bool
  | .dieDsp _ => true
  | _ => false

/-- Whether a nonempty range lies wholly in translated space, in the window of the own die's scratchpad, or in the
windows of the dies' scratchpads (R83). -/
def sharedRange (va n : Nat) : Bool :=
  match winOf va with
  | .translated => decide (va + n ≤ 2 ^ 55)
  | .ownDsp => decide (winOf (va + n - 1) = .ownDsp)
  | .dieDsp _ => (winOf (va + n - 1)).isDie
  | _ => false

/-- The rest of an operation on a range that lies wholly in die scratchpad or translated space outside memory-side pages
(R174, R189, R197), else its fault. -/
def State.inPlain (s : State) (x : CtxRef) (va n : Nat) (cause : Byte) (k : State → MoveR) : MoveR :=
  if !sharedRange va n then fault5 cause 0
  else
    match s.anyMs x (pagesOf va n) with
    | .ok true => fault5 cause 0
    | .ok false => k s
    | .error b => .block b
/-! ### Landing loaded data (R76, R77, R169, R372, R382) -/

/-- Whether a piece goes through the L1: not one in a memory-side page (R88, R92). -/
def Piece.cached (p : Piece) : Bool := (winOf p.va).isShared && !p.page.memSide

/-- The freeze cause of a piece that comes late (R372): 1 if it has missed the L1 on its way to memory of this device, else
2. -/
def Piece.lateCause (p : Piece) : Nat :=
  match p.page with
  | .ver | .direct => 1
  | _ => 2

/-- The unfilled load-block, of any context of the core that executes, since they share its L1, of which some pieces hit a line, by
context and base (R89). -/
def State.unfilled (s : State) (ps : List Piece) : Option (Nat × Nat) :=
  (List.range 4).findSome? fun k =>
    ((s.ctx ⟨s.cur.core, k⟩).blocks.find? fun b =>
      !b.filled && ps.any fun p => b.ranges.any fun r => r.meetsLine ⟨p.key, p.n⟩).map fun b => (k, b.base)

/-- The value that loaded bytes make lands at a port. Core views are never late; elsewhere the lateness oracle decides, or the
load-block whose line is not filled, or the data of another device, which is asked for now and lands with the result; a late
access through the L1 counts as a miss, one on time as a hit (R77, R89, R111, log 22). -/
def State.landLoad (s : State) (q : Port) (lat : Nat) (conv : Conv) (bytes : List Byte) (tag : Tag) (taint : Bool) (causes : List Nat)
    (ps : List Piece) : State :=
  let v := conv.value bytes tag taint
  match ps.find? fun p => !(winOf p.va).isCore with
  | none => s.land q lat v 0#6
  | some p =>
    let r := s.takeLate
    let fill := s.unfilled ps
    let s := if ps.any Piece.cached && decide (s.cur.core < 512) then r.1.event s.cur (if r.2 then 0x07 else 0x06) 1 else r.1
    let w := s.awaitFor s.cur ps conv tag taint
    w.1.updCtx s.cur fun c =>
      { c with pend := c.pend ++
          [⟨lat, .port q, v, 0#6, r.2 || fill.isSome || w.2.isSome, causes, BitVec.ofNat 64 p.va, fill, w.2⟩] }

/-- The freeze causes of a load's pieces (R372). -/
def loadCauses (ps : List Piece) : List Nat := ((ps.filter fun p => !(winOf p.va).isCore).map Piece.lateCause).eraseDups

/-! ### Plain loads and stores (R170-R172) -/

/-- `ld.sW` and `ld.nW` of `w` bytes (R171). -/
def loadOp (w : Nat) (signed : Bool) (a : Opnds) (s : State) : MoveR :=
  let va := a.t.word.toNat
  admitThen s [⟨va, w, false⟩] fun s ps =>
    match ps with
    | [p] =>
      let r := s.readSpan s.cur p
      .ok (r.1.landLoad .lsq (latencyOf va) (.scalar w signed) r.2.1 a.tag (a.taint || r.2.2) (loadCauses p.ps) p.ps)
    | _ => .ok s

/-- A plain store to a memory-side page passes the irreversible point of an open launch (R327). -/
def State.storeIrrev (s : State) (p : SpanP) : State := if p.ps.any fun q => q.page.memSide then s.irrev s.cur else s

/-- Bytes stored at an address with the data taint of R170. -/
def storeBytes (va : Nat) (bytes : List Byte) (a : Opnds) (s : State) : MoveR :=
  admitThen s [⟨va, bytes.length, true⟩] fun s ps =>
    match ps with
    | [p] => (s.storeIrrev p).writeSpan s.cur p bytes (a.taint || s.me.ctaint)
    | _ => .ok s

/-- `st.nW` (R172). -/
def storeOp (w : Nat) (a : Opnds) (s : State) : MoveR := storeBytes a.o.word.toNat (leBytes w a.t.word.toNat) a s

/-- `st2.b64` (R172): `t` below `p`. -/
def store2Op (a : Opnds) (s : State) : MoveR :=
  storeBytes a.o.word.toNat (leBytes 8 a.t.word.toNat ++ leBytes 8 a.p.word.toNat) a s

/-! ### Full/empty transfers (R173) -/

/-- The operand faults of a full/empty transfer in the order of R175: misaligned or equal lines, then levels, with the
INFO of R210. -/
def feFault (f d : Nat) : Option (Byte × Nat) :=
  if f % 128 ≠ 0 ∨ d % 128 ≠ 0 ∨ d = f then some (cLsForm, 0)
  else if !(winOf f).isChan then some (cFeLevel, f)
  else if !(winOf d).isAlloc then some (cFeLevel, d)
  else none

/-- Whether a pair of waiters' order puts `a` first: earliest wait, then core, then context (R99, R121). -/
def waitsBefore (ta : Nat) (a : CtxRef) (tb : Nat) (b : CtxRef) : Bool :=
  decide (ta < tb) || (decide (ta = tb) && (decide (a.core < b.core) || (decide (a.core = b.core) && decide (a.ctx < b.ctx))))

/-- The core cycle in which a context's wait on a line began: now, unless it waits already. -/
def State.waitSince (s : State) (x : CtxRef) (line : Nat) : Nat :=
  match (s.ctx x).feWait with
  | some (l, t) => if l = line then t else s.timebase.toNat
  | none => s.timebase.toNat

/-- Whether another context that waits on the line for the same state comes first (R99, R121). -/
def State.outwaited (s : State) (x : CtxRef) (line : Nat) (full : Bool) : Bool :=
  s.allCtxs.any fun y =>
    y != x && (decide ((s.ctx y).status = .ready) || decide ((s.ctx y).status = .blocked (.fe line full))) &&
      (match (s.ctx y).feWait with
        | some (l, t) => decide (l = line) && waitsBefore t y (s.waitSince x line) x
        | none => false)

/-- Whether the line is in the state a transfer waits for, and the transfer's turn has come. -/
def State.feTurn (s : State) (x : CtxRef) (line : Nat) (full : Bool) : Bool :=
  ((s.store.full? line).isSome == full) && !s.outwaited x line full

/-- A line of local memory overwritten with the bytes and sector taints of another (R173). -/
def Store.copyLine (st : Store) (src dst : Nat) (taint : Bool) : Store :=
  (List.range 4).foldl (fun (st : Store) i =>
    let sec := st.sector (src * 4 + i)
    st.setSector (dst * 4 + i) (sec.1, sec.2 || taint)) st

/-- The consumption of a line recorded for repair (R46) and as a dependence edge on an uncleared producer (R45). -/
def State.consume (s : State) (x : CtxRef) (f : FeLine) : State :=
  match (s.ctx x).react with
  | none => s
  | some r =>
    let st := s.store
    let c : Consumed := ⟨r.lid, r.stamp, f.line, cellsRead st.mem (f.line * 128) 128,
      (List.range 4).map (fun i => st.taint.contains (f.line * 4 + i)), f⟩
    let uncleared := (s.launch? f.lid).any fun l => (l.react? f.stamp).any fun q => decide (q.st ≠ .retired)
    let es := if f.lid = r.lid ∧ f.stamp ≠ r.stamp ∧ uncleared then [(⟨r.lid, f.stamp, r.stamp, f.line⟩ : Edge)] else []
    { s with store := { st with consumed := c :: st.consumed, edges := es ++ st.edges } }

/-- `ls.ld.fe` (R173): waits for full, then moves line `t` to line `o` and empties it. -/
def ldFeOp (a : Opnds) (s : State) : MoveR :=
  let f := a.t.word.toNat
  let d := a.o.word.toNat
  match feFault f d with
  | some (c, i) => fault5 c i
  | none =>
    admitOne s [⟨f, 128, false⟩, ⟨d, 128, true⟩] fun s ps =>
      match ps.map SpanP.ps with
      | [pf :: rest, pd :: _] =>
        let line := lineOf pf.key
        if !s.feTurn s.cur line true then .block (.fe line true)
        else
          match s.store.full? line with
          | none => .block (.fe line true)
          | some rec =>
            let c := s.me
            if c.ord && decide (c.stamp.toNat < rec.stamp) then fault5 cChannelFuture 0
            else
              let bytes := cellsRead s.store.mem pf.key 8
              let first := s.store.taint.contains (sectorOf pf.key)
              let open_ := c.react.isSome && !c.ord
              let other := open_ && decide (rec.inst = instOf c.stamp.toNat) && decide (rec.stamp ≠ c.stamp.toNat)
              let s := s.consume s.cur rec
              let s : State := { s with store := (s.store.copyLine line (lineOf pd.key) c.ctaint).setEmpty line }
              .ok (s.landLoad .lsq (latencyOf f) (.scalar 8 false) bytes a.tag (a.taint || first || other)
                (loadCauses (pf :: rest)) (pf :: rest))
      | _ => .ok s

/-- `ls.st.fe` (R173): waits for empty, then moves line `t` to line `o` and sets it full with the producer's stamp. -/
def stFeOp (a : Opnds) (s : State) : MoveR :=
  let f := a.o.word.toNat
  let d := a.t.word.toNat
  match feFault f d with
  | some (c, i) => fault5 c i
  | none =>
    admitOne s [⟨f, 128, true⟩, ⟨d, 128, false⟩] fun s ps =>
      match ps.map SpanP.ps with
      | [pf :: _, pd :: _] =>
        let line := lineOf pf.key
        if !s.feTurn s.cur line false then .block (.fe line false)
        else
          let c := s.me
          let r := c.react.getD ⟨0, 0, 0⟩
          let st := s.store.copyLine (lineOf pd.key) line c.ctaint
          let s : State := { s with store := st.setFull ⟨line, r.lid, c.stamp.toNat, r.entry, instOf c.stamp.toNat⟩ }
          .ok (s.irrev s.cur)
      | _ => .ok s

/-! ### Load-blocks (R89, R174) -/

/-- A live block evicted whole: at once if it has filled, else once it has (R174). -/
def evictBlock (hit : LoadBlock → Bool) (l : List LoadBlock) : List LoadBlock :=
  (l.filter fun b => !(hit b && b.filled)).map fun b => if hit b then { b with evict := true } else b

/-- The lines of the live blocks: those of a block evicted before it has filled count no more (log 134). -/
def liveLines (l : List LoadBlock) : Nat := ((l.filter fun b => !b.evict).map LoadBlock.lines).sum

/-- Oldest blocks evicted until `n` more lines fit in 256 (R89). Blocks stand oldest first. -/
def evictOldest (n : Nat) : Nat → List LoadBlock → List LoadBlock
  | 0, l => l
  | fuel + 1, l =>
    if liveLines l + n ≤ 256 then l
    else
      match l.find? fun b => !b.evict with
      | none => l
      | some b => evictOldest n fuel (evictBlock (fun c => decide (c.base = b.base) && !c.evict) l)

/-- A counter selector checked: SY_FORM, then LEASE_EXIT for an ungranted shared counter (R191). -/
def State.selFault (s : State) (x : CtxRef) (w : Word) : Option Byte :=
  match s.sel x w with
  | .bad => some cSyForm
  | c => if s.granted x c then none else some cLeaseExit

/-- Whether a completion on a counter passes the irreversible point (R327). -/
def Sel.irreversible : Sel → Bool
  | .gang _ => true
  | c => c.shared

/-- `ls.blk` (R174). -/
def blkOp (a : Opnds) (s : State) : MoveR :=
  let base := a.o.word.toNat
  let n := a.t.word.toNat
  let x := s.cur
  if base % 128 ≠ 0 ∨ n = 0 ∨ 64 < n then fault5 cLsForm 0
  else
    s.inPlain x base (128 * n) cLsForm fun s =>
      match s.selFault x a.p.word with
      | some c => fault5 c 0
      | none =>
        match s.resolve x .r base (128 * n) with
        | .trap c i => fault5 c i
        | .block b => .block b
        | .reset => .reset
        | .ok ps =>
          let lines := rangesOfPieces ps
          let meets (b : LoadBlock) : Bool := b.ranges.any fun r => lines.any fun q => r.meetsLine q
          let s := s.updCtx x fun c =>
            { c with blocks :=
                evictOldest n 256 (evictBlock meets c.blocks) ++ [⟨base, n, lines, false, false, a.p.word.toNat, c.ctaint⟩] }
          .ok (if (s.sel x a.p.word).irreversible then s.irrev x else s)

/-- `ls.inv` (R174). -/
def invOp (a : Opnds) (s : State) : MoveR :=
  .ok (s.updCtx s.cur fun c =>
    { c with blocks := evictBlock (fun b => decide (b.base = a.t.word.toNat) && !b.evict) c.blocks })

/-! ### The trigger ports -/

/-- LS_LD_S8 (R171). -/
def execLsLdS8 (a : Src) (g : Guard) (s : State) : Out := trigger .ls 0x102 .t (loadOp 1 true) a g s

/-- LS_LD_N8 (R171). -/
def execLsLdN8 (a : Src) (g : Guard) (s : State) : Out := trigger .ls 0x103 .t (loadOp 1 false) a g s

/-- LS_LD_S16 (R171). -/
def execLsLdS16 (a : Src) (g : Guard) (s : State) : Out := trigger .ls 0x104 .t (loadOp 2 true) a g s

/-- LS_LD_N16 (R171). -/
def execLsLdN16 (a : Src) (g : Guard) (s : State) : Out := trigger .ls 0x105 .t (loadOp 2 false) a g s

/-- LS_LD_S32 (R171). -/
def execLsLdS32 (a : Src) (g : Guard) (s : State) : Out := trigger .ls 0x106 .t (loadOp 4 true) a g s

/-- LS_LD_N32 (R171). -/
def execLsLdN32 (a : Src) (g : Guard) (s : State) : Out := trigger .ls 0x107 .t (loadOp 4 false) a g s

/-- LS_LD_N64 (R171). -/
def execLsLdN64 (a : Src) (g : Guard) (s : State) : Out := trigger .ls 0x108 .t (loadOp 8 false) a g s

/-- LS_ST_N8 (R172). -/
def execLsStN8 (a : Src) (g : Guard) (s : State) : Out := trigger .ls 0x109 .ot (storeOp 1) a g s

/-- LS_ST_N16 (R172). -/
def execLsStN16 (a : Src) (g : Guard) (s : State) : Out := trigger .ls 0x10A .ot (storeOp 2) a g s

/-- LS_ST_N32 (R172). -/
def execLsStN32 (a : Src) (g : Guard) (s : State) : Out := trigger .ls 0x10B .ot (storeOp 4) a g s

/-- LS_ST_N64 (R172). -/
def execLsStN64 (a : Src) (g : Guard) (s : State) : Out := trigger .ls 0x10C .ot (storeOp 8) a g s

/-- LS_ST2_B64 (R172). -/
def execLsSt2B64 (a : Src) (g : Guard) (s : State) : Out := trigger .ls 0x10D .opt store2Op a g s

/-- LS_LD_FE (R173). -/
def execLsLdFe (a : Src) (g : Guard) (s : State) : Out := trigger .ls 0x10E .ot ldFeOp a g s

/-- LS_ST_FE (R173). -/
def execLsStFe (a : Src) (g : Guard) (s : State) : Out := trigger .ls 0x10F .ot stFeOp a g s

/-- LS_BLK (R174). -/
def execLsBlk (a : Src) (g : Guard) (s : State) : Out := trigger .ls 0x110 .opt blkOp a g s

/-- LS_INV (R174). -/
def execLsInv (a : Src) (g : Guard) (s : State) : Out := trigger .ls 0x111 .t invOp a g s

end Sys2Proof.Machine
end

