-- ==== Sys2Proof/Machine/Ck.lean ====
section
/-!
DEFINITION. The clock unit (09_seq_control R183-R190): definitions, sampling, merges and delays.
-/

namespace Sys2Proof.Machine

/-- Whether a value's clock is present; tag 0xF counts as present (R185). -/
def Ctx.tagPres (c : Ctx) (t : Tag) : Bool := t == Tag.any || c.pres t.toNat

/-- The tag of a target clock index (R184). -/
def tagOf (n : Nat) : Tag := BitVec.ofNat 4 n

/-- A target clock index, if bits 63:4 are zero (R184). -/
def clockIndex (w : Word) : Option Nat := if w.toNat < 16 then some w.toNat else none

/-- A selector word's fields, if every other bit is zero (R184). -/
def clockSel (w : Word) : Option (Nat × Nat × Nat) :=
  if w.toNat < 2 ^ 12 then some (bitsOf w.toNat 0 4, bitsOf w.toNat 4 4, bitsOf w.toNat 8 4) else none

/-- A definition of a clock register (R183, R186): the target is 1 to 14, once in a reaction; the presence lands in
`ck.q` with tag 0x0 when the definition does. -/
def defineClock (a : Opnds) (s : State) (target : Nat) (present : Bool) (k : State → State) : MoveR :=
  if target = 0 ∨ 15 ≤ target then fault5 cCkForm 0
  else if s.me.kdef.getLsbD target then fault5 cClockRedef 0
  else
    let s := s.landAt (.clock target present) (.sc SVal.zero)
    .ok (k (s.land .ckq 1 (.scalar (if present then 1#64 else 0#64) 0#4 a.taint) 0#6))

/-- `ck.def` (R186). -/
def ckDefOp (a : Opnds) (s : State) : MoveR :=
  let n := bitsOf a.o.word.toNat 0 16
  let p := bitsOf a.o.word.toNat 16 16
  match clockSel a.t.word with
  | some (k, 0, 0) =>
    if 2 ^ 32 ≤ a.o.word.toNat ∨ n = 0 ∨ 4096 < n ∨ n ≤ p then fault5 cCkForm 0
    else defineClock a s k (decide (instOf s.me.stamp.toNat % n = p)) id
  | _ => fault5 cCkForm 0

/-- `ck.sub` (R186). -/
def ckSubOp (a : Opnds) (s : State) : MoveR :=
  match clockSel a.t.word with
  | some (k, 0, 0) => defineClock a s k (decide (a.o.word ≠ 0#64)) fun s => s.judge a.o.taint
  | _ => fault5 cCkForm 0

/-- `ck.union` (R186). -/
def ckUnionOp (a : Opnds) (s : State) : MoveR :=
  match clockSel a.t.word with
  | some (k, x, y) => defineClock a s k (s.me.pres x || s.me.pres y) id
  | none => fault5 cCkForm 0

/-- `ck.not` (R186). -/
def ckNotOp (a : Opnds) (s : State) : MoveR :=
  match clockSel a.t.word with
  | some (k, x, y) => defineClock a s k (s.me.pres x && !s.me.pres y) id
  | none => fault5 cCkForm 0

/-- `ck.when` (R187). -/
def ckWhenOp (a : Opnds) (s : State) : MoveR :=
  match clockIndex a.t.word with
  | some k => .ok (s.land .ckq 1 (.scalar a.o.word (tagOf k) a.taint) 0#6)
  | none => fault5 cCkForm 0

/-- `ck.isp`: no taint beyond CT (R187). -/
def ckIspOp (a : Opnds) (s : State) : MoveR :=
  .ok (s.land .ckq 1 (.scalar (if s.me.tagPres a.t.tag then 1#64 else 0#64) 0#4 false) 0#6)

/-- `ck.merge` and `ck.mergep` by the rows of R188 in order. -/
def mergeOp (prio : Bool) (a : Opnds) (s : State) : MoveR :=
  match clockIndex a.t.word with
  | none => fault5 cCkForm 0
  | some k =>
    let c := s.me
    let l := c.tagPres a.o.tag
    let r := c.tagPres a.p.tag
    let t := c.pres k
    let take (s : State) (v : Value) : State := s.land .ckq 1 (.scalar v.word (tagOf k) (a.taint || v.taint)) 0#6
    if l && r then
      if prio then .ok (take (s.landAt .dropAdd (.sc SVal.zero)) a.o) else fault5 cMergeBoth 0
    else if l && t then .ok (take s a.o)
    else if r && t then .ok (take s a.p)
    else if (l || r) && !t then fault5 cClockMismatch 0
    else if t then fault5 cAbsentRead 0
    else .ok (s.land .ckq 1 (.scalar 0#64 (tagOf k) a.taint) 0#6)

/-! ### Delays (R189) -/

/-- The rest of an operation on a well placed delay cell, else CK_FORM; a freeze for its data has cause 8 (R189, R372). -/
def State.inCell (s : State) (va : Nat) (k : State → MoveR) : MoveR :=
  (if va % 32 ≠ 0 then fault5 cCkForm 0 else s.inPlain s.cur va 32 cCkForm k).lateAs 8

/-- The bytes of a cell that holds a value (R189). -/
def cellBytes (v : Word) : List Byte := leBytes 8 v.toNat ++ leBytes 8 1 ++ List.replicate 16 0#8

/-- What a cell's bytes give lands: VAL where the cell is valid, else another value; data of another device is asked for now and
lands with the result (R77, R111, R189). -/
def State.landCell (s : State) (p : SpanP) (bytes : List Byte) (secTaint : Bool) (alt : Word) (altTaint : Bool) (tag : Tag)
    (taint : Bool) : State :=
  let conv : Conv := .cell alt altTaint secTaint
  let r := s.takeLate
  let w := r.1.awaitFor s.cur p.ps conv tag taint
  w.1.updCtx s.cur fun c =>
    { c with pend := c.pend ++ [⟨1, .port .ckq, conv.value bytes tag taint, 0#6, r.2 || w.2.isSome, [8],
        BitVec.ofNat 64 p.span.va, none, w.2⟩] }

/-- `ck.fby` and `ck.pre`: the cell read, then written, at one access point (R189). -/
def delayOp (va : Nat) (init : Value) (a : Opnds) (s : State) : MoveR :=
  s.inCell va fun s =>
    admitOne s [⟨va, 32, false⟩, ⟨va, 32, true⟩] fun s ps =>
      match ps with
      | [p, w] =>
        let r := s.readSpan s.cur p
        (r.1.landCell p r.2.1 r.2.2 init.word init.taint a.t.tag a.taint).writeSpan s.cur w (cellBytes a.t.word)
          (a.taint || s.me.ctaint)
      | _ => .ok s

/-- `ck.hold` (R189). -/
def holdOp (a : Opnds) (s : State) : MoveR :=
  let va := a.p.word.toNat
  match clockIndex a.t.word with
  | none => fault5 cCkForm 0
  | some k =>
    s.inCell va fun s =>
    if s.me.tagPres a.o.tag then
      admitThen s [⟨va, 32, true⟩] fun s ps =>
        match ps with
        | [w] =>
          match s.writeSpan s.cur w (cellBytes a.o.word) (a.taint || a.o.taint || s.me.ctaint) with
          | .ok s => .ok (s.land .ckq 1 (.scalar a.o.word (tagOf k) (a.taint || a.o.taint)) 0#6)
          | m => m
        | _ => .ok s
    else
      admitThen s [⟨va, 32, false⟩] fun s ps =>
        match ps with
        | [p] =>
          let r := s.readSpan s.cur p
          .ok (r.1.landCell p r.2.1 r.2.2 0#64 false (tagOf k) a.taint)
        | _ => .ok s

/-- CK_DEF (R186). -/
def execCkDef (a : Src) (g : Guard) (s : State) : Out := trigger .ck 0x162 .ot ckDefOp a g s

/-- CK_SUB (R186). -/
def execCkSub (a : Src) (g : Guard) (s : State) : Out := trigger .ck 0x163 .ot ckSubOp a g s

/-- CK_WHEN (R187). -/
def execCkWhen (a : Src) (g : Guard) (s : State) : Out := trigger .ck 0x164 .ot ckWhenOp a g s

/-- CK_MERGE (R188): `o` and `p` are subjects (R185). -/
def execCkMerge (a : Src) (g : Guard) (s : State) : Out := trigger .ck 0x165 .t (mergeOp false) a g s

/-- CK_MERGEP (R188). -/
def execCkMergep (a : Src) (g : Guard) (s : State) : Out := trigger .ck 0x166 .t (mergeOp true) a g s

/-- CK_UNION (R186). -/
def execCkUnion (a : Src) (g : Guard) (s : State) : Out := trigger .ck 0x167 .t ckUnionOp a g s

/-- CK_FBY (R189). -/
def execCkFby (a : Src) (g : Guard) (s : State) : Out :=
  trigger .ck 0x168 .opt (fun a s => delayOp a.p.word.toNat a.o a s) a g s

/-- CK_HOLD (R189): `o` is the subject (R185). -/
def execCkHold (a : Src) (g : Guard) (s : State) : Out := trigger .ck 0x169 .pt holdOp a g s

/-- CK_ISP (R187): `t` is the subject (R185). -/
def execCkIsp (a : Src) (g : Guard) (s : State) : Out := trigger .ck 0x16A .none_ ckIspOp a g s

/-- CK_NOT (R186). -/
def execCkNot (a : Src) (g : Guard) (s : State) : Out := trigger .ck 0x16B .t ckNotOp a g s

/-- CK_PRE (R189). -/
def execCkPre (a : Src) (g : Guard) (s : State) : Out :=
  trigger .ck 0x16C .ot (fun a s => delayOp a.o.word.toNat (.sc SVal.zero) a s) a g s

end Sys2Proof.Machine
end

