-- ==== Sys2Proof/Machine/Sy.lean ====
section
/-!
DEFINITION. The sync unit (09_seq_control R191-R201, 05_ordering R116, R119): counters, fences, atomic-set
declarations, the end of a reaction and yields.
-/

namespace Sys2Proof.Machine

/-! ### What is still on its way (R116, R119) -/

/-- Whether a context has a command below number `n` in some queues. -/
def pendingCmd (qs : List (List Cmd)) (k n : Nat) : Bool :=
  qs.any fun q => q.any fun c => decide (c.ctx = k) && decide (c.id < n)

/-- Whether a held add is one of the program that a handler of its context has interrupted. -/
def Bank.owns (b : Bank) (a : HeldAdd) : Bool := decide (a.before ≤ b.seq)

/-- Whether the release condition of a held add is met (R112, R116): every earlier command of the context performed, those that a
handler has put aside among them, its loads from other devices here, and its stores there acknowledged. -/
def State.addReady (s : State) (core : Nat) (a : HeldAdd) : Bool :=
  let k := s.core core
  let c := k.ctx a.ctx
  !pendingCmd [k.mxq, k.cpq, k.msq] a.ctx a.before &&
    !(c.bank.any fun b => b.owns a && pendingCmd [b.mxq, b.cpq, b.msq] a.ctx a.before) &&
    !c.loadsOut && !s.ctxFlits ⟨core, a.ctx⟩

/-- The next held adds of a context in issue order: the first, and in a handler the first of the handler's own, which does not wait
for what the handler has put aside (R116, R220). -/
def State.nextAdds (s : State) (x : CtxRef) : List HeldAdd :=
  let mine := (s.core x.core).adds.filter fun a => decide (a.ctx = x.ctx)
  match (s.ctx x).bank with
  | none => mine.take 1
  | some b => (mine.filter b.owns).take 1 ++ (mine.filter fun a => !b.owns a).take 1

/-- The held adds of a context applied in issue order as far as their condition is met (R116). -/
def State.applyHeld (s : State) (x : CtxRef) : Nat → State
  | 0 => s
  | fuel + 1 =>
    match (s.nextAdds x).find? (s.addReady x.core) with
    | none => s
    | some a =>
      let s := s.updCore x.core fun k => { k with adds := k.adds.erase a }
      (s.applyAdd x (s.sel x (BitVec.ofNat 64 a.ctr)) a.n).applyHeld x fuel

/-- Whether an unacknowledged flit is a store of a context's own accesses (R110). -/
def OutFlit.ofAccess (o : OutFlit) (x : CtxRef) : Bool :=
  o.ofCtx x && decide (o.cmd = none) && (o.flit.fk == 1#4 || o.flit.fk == 7#4)

/-- Whether the work of a context's earlier groups is performed for a fence's scope (R119): memory-side operations, and the loads and
stores of the context at other devices, for every scope; copy and matrix commands, with their stores there, from scope 2 on. -/
def State.fenceDone (s : State) (x : CtxRef) (scope : Nat) : Bool :=
  let k := s.core x.core
  let b := s.pre x.core
  !pendingCmd [k.msq] x.ctx b.core.seq && !(b.flits.any fun o => o.ofAccess x) && !(b.core.ctx x.ctx).loadsOut &&
    (decide (scope < 2) || !pendingCmd [k.mxq, k.cpq] x.ctx b.core.seq)

/-! ### Waits (R195, R196) -/

/-- What a wait meets. -/
inductive WaitR where
  | met | unreachable | blocked
  deriving DecidableEq, Repr

/-- Whether something in flight will still add to a live counter of a context (R196): a command or a load-block whose
completion names it, or a held add; in a group what was in flight before it (R413). -/
def State.willAdd (s : State) (x : CtxRef) (c : Sel) : Bool :=
  let k := (s.pre x.core).core
  let names (w : Nat) : Bool := decide (s.sel x (BitVec.ofNat 64 w) = c)
  ((k.mxq ++ k.cpq ++ k.msq).any fun m => decide (m.ctx = x.ctx) && m.sel.any names) ||
    (k.ctx x.ctx).blocks.any (fun b => !b.filled && names b.sel) ||
    k.adds.any fun a => decide (a.ctx = x.ctx) && names a.ctr

/-- Whether a counter has been added to earlier in this core cycle, and in a group before it, so that its value is still to be seen
(R16; log 127). -/
def State.addedNow (s : State) (x : CtxRef) (c : Sel) : Bool :=
  (s.selKey x c).any fun k => (alGet (s.pre x.core).ctrOld k).isSome

/-- Whether a launch's clearing has reached an instant: every lower one has cleared on every device (R114), in an earlier core cycle,
so that the values it has cleared are seen (R16; log 127). -/
def State.reached (s : State) (l : Launch) (inst : Nat) : Bool :=
  decide (l.cleared = inst) && l.peers.all (fun p => decide (inst ≤ p.clr)) && !s.clearedNow.contains l.lid

/-- A local counter below a threshold: something will still add to it, or the threshold is out of reach (R196). -/
def State.localR (s : State) (x : CtxRef) (c : Sel) : WaitR := if s.willAdd x c || s.addedNow x c then .blocked else .unreachable

/-- A counter value with the reaction's own held adds (R195). -/
def State.ownAdds (s : State) (r : RunRef) (c : Sel) (v : Word) : Word :=
  (s.store.effs r.lid r.stamp).foldl (fun v e =>
    match e with
    | .add k n _ => if k = c.addKey then satAdd v n else v
    | _ => v) v

/-- Whether a counter's value is known at this device: one of another device is known once a response has told it. -/
def State.known (s : State) (c : Sel) : Bool :=
  match c with
  | .remote v d i => (alGet s.fabric.remoteCtrs (v * 2 ^ 24 + ctrKey d i)).isSome
  | _ => true

/-- What a wait for a threshold meets now (R195, R196). -/
def State.waitR (s : State) (x : CtxRef) (c : Sel) (n : Word) : WaitR :=
  let live := !c.shared
  match (s.ctx x).react, s.launchOf x with
  | some r, some l =>
    if l.record.open_ || live then
      if n.toNat ≤ (s.ctrVal x c).toNat ∧ s.known c then .met
      else
        match c with
        | .loc _ => s.localR x c
        | _ => .blocked
    else if !s.known c then .blocked
    else if n.toNat ≤ (s.ownAdds r c (s.ctrVal x c)).toNat then .met
    else if s.reached l (instOf r.stamp) then .unreachable
    else .blocked
  | _, _ =>
    if n.toNat ≤ (s.ctrVal x c).toNat ∧ s.known c then .met
    else
      match c with
      | .loc _ => s.localR x c
      | _ => .blocked

/-! ### The operations -/

/-- `sy.add` (R193, R195): held in the version, or applied once R116 allows. -/
def syAddOp (a : Opnds) (s : State) : MoveR :=
  let x := s.cur
  match s.selFault x a.o.word with
  | some c => fault5 c 0
  | none =>
    let c := s.sel x a.o.word
    let m := s.me
    if s.ordered x && c.shared then .ok (s.completionAdd x m.react a.o.word.toNat a.t.word m.ctaint)
    else
      let s := if c.irreversible then s.irrev x else s
      let s := s.updCore x.core fun k =>
        { k with adds := k.adds ++ [⟨x.ctx, c.word, a.t.word, m.ctaint, k.seq⟩] }
      .ok (s.applyHeld x ((s.core x.core).adds.length + 1))

/-- `sy.wait` (R195, R196). -/
def syWaitOp (a : Opnds) (s : State) : MoveR :=
  let x := s.cur
  match s.selFault x a.o.word with
  | some c => fault5 c 0
  | none =>
    match s.waitR x (s.sel x a.o.word) a.t.word with
    | .met => .ok s
    | .unreachable => fault5 cCounterUnreachable 0
    | .blocked => .block (.wait a.o.word a.t.word)

/-- A peek of another device's counter sent: its value lands with the result once it comes (R77, R111, R195). -/
def State.peekAway (s : State) (x : CtxRef) (tag : Tag) (v key : Nat) : State :=
  let seq := s.nextSeq v
  let q : RemoteReq := ⟨x, v, ctrAddr key, none, seq, none, true⟩
  let s : State := { s with fabric := { s.fabric with reqs := s.fabric.reqs ++ [q] } }
  (s.sendFor x.core x.ctx none 2 v 0 (ctrAddr key) [] 0xFFFFFFFF (s.ctx x).stamp.toNat).updCtx x fun c =>
    { c with pend := c.pend ++ [⟨1, .port .syq, .scalar 0#64 tag true, 0#6, true, [5], 0#64, none,
        some ⟨List.replicate 8 none, [⟨v, seq, 0, 8⟩], .scalar 8 false, tag, true⟩⟩] }

/-- `sy.peek`: the live value, tainted; one of another device comes by the fabric (R195). -/
def syPeekOp (a : Opnds) (s : State) : MoveR :=
  let x := s.cur
  match s.selFault x a.t.word with
  | some c => fault5 c 0
  | none =>
    let c := s.sel x a.t.word
    let out (w : Word) : Value := .scalar w a.tag true
    match c with
    | .remote v d i => if s.routed (dieOf x.core) v then .ok (s.peekAway x a.tag v (ctrKey d i)) else .reset
    | .die d _ =>
      if d = dieOf x.core then .ok (s.land .syq 1 (out (s.ctrVal x c)) 0#6)
      else .ok (s.landVar (.port .syq) 1 (out (s.ctrVal x c)) 0#6 5 0)
    | _ => .ok (s.land .syq 1 (out (s.ctrVal x c)) 0#6)

/-- `sy.fence`: its group issues once earlier groups' work is performed for the scope (R119, R197). -/
def syFenceOp (a : Opnds) (s : State) : MoveR :=
  let scope := a.t.word.toNat
  if 5 < scope then fault5 cSyForm 0
  else if s.fenceDone s.cur scope then .ok s
  else .block (.fence scope)

/-- A free word (log 3), with the count moved on. -/
def State.freeWord (s : State) : State × Word := ({ s with freeCount := s.freeCount + 1 }, Config.freeWord s.freeCount)

/-- `sy.asdecl` (R197). A context without a reaction has no sets to declare into: the number it reads is free (log 3). -/
def syAsdeclOp (a : Opnds) (s : State) : MoveR :=
  let x := s.cur
  let base := a.o.word.toNat
  let len := a.t.word.toNat
  let sets := ((s.reactOf x).map Reaction.sets).getD []
  if base % 128 ≠ 0 ∨ len = 0 ∨ len % 128 ≠ 0 then fault5 cSyForm 0
  else s.inPlain x base len cSyForm fun s =>
    if sets.any fun q => q.meets (s.rangesOf x base len) then fault5 cSyForm 0
    else
    match s.resolve x .r base len with
    | .trap c i => fault5 c i
    | .block b => .block b
    | .reset => .reset
    | .ok _ =>
      if 16 ≤ sets.length then fault5 cAsetLimit 0
      else
        match s.me.react with
        | none =>
          let r := s.freeWord
          .ok (r.1.land .syq 1 (.scalar r.2 a.tag a.taint) 0#6)
        | some ref =>
          let s := s.updReact ref.id fun r => { r with sets := r.sets ++ [⟨base, len, s.rangesOf x base len, false, false, false⟩] }
          .ok (s.land .syq 1 (.scalar (BitVec.ofNat 64 sets.length) a.tag a.taint) 0#6)

/-- `sy.tend`: its group issues whole and no later one; in a handler it is EMU_DOUBLE (R198, R222). -/
def syTendOp (_ : Opnds) (s : State) : MoveR :=
  if s.me.emu then fault5 cEmuDouble 0 else .ok (s.setStatus s.cur (.blocked .tend))

/-- The ready siblings of a context (R199). -/
def State.readySiblings (s : State) (x : CtxRef) : List Nat :=
  (List.range 4).filter fun k => decide (k ≠ x.ctx) && decide ((s.ctx ⟨x.core, k⟩).status = .ready)

/-- A context blocked until its ready siblings have issued, if there are any (R199, R206). -/
def State.yieldTo (s : State) (x : CtxRef) : State :=
  match s.readySiblings x with
  | [] => s
  | l => s.setStatus x (.blocked (.yield l))

/-- `sy.yield` (R199). -/
def syYieldOp (_ : Opnds) (s : State) : MoveR := .ok (s.yieldTo s.cur)

/-- `sy.stamp` (R200). -/
def syStampOp (a : Opnds) (s : State) : MoveR :=
  let c := s.me
  let st := c.stamp.toNat
  let out (n : Nat) (t : Bool) : MoveR := .ok (s.land .syq 1 (.scalar (BitVec.ofNat 64 n) a.tag (a.taint || t)) 0#6)
  match a.t.word.toNat with
  | 0 => out st false
  | 1 => out (st / 2 ^ 16) false
  | 2 => out (st % 2 ^ 16) false
  | 3 => out (((s.reactOf s.cur).map Reaction.wounds).getD 0) true
  | 4 => out (if c.ctaint then 1 else 0) false
  | _ => fault5 cSyForm 0

/-- `sy.taint` (R200). -/
def syTaintOp (a : Opnds) (s : State) : MoveR := .ok (s.land .syq 1 (.scalar a.t.word a.t.tag true) 0#6)

/-- SY_ADD (R195). -/
def execSyAdd (a : Src) (g : Guard) (s : State) : Out := trigger .sy 0x182 .ot syAddOp a g s

/-- SY_WAIT (R195). -/
def execSyWait (a : Src) (g : Guard) (s : State) : Out := trigger .sy 0x183 .ot syWaitOp a g s

/-- SY_PEEK (R195). -/
def execSyPeek (a : Src) (g : Guard) (s : State) : Out := trigger .sy 0x184 .t syPeekOp a g s

/-- SY_FENCE (R119). -/
def execSyFence (a : Src) (g : Guard) (s : State) : Out := trigger .sy 0x185 .t syFenceOp a g s

/-- SY_ASDECL (R197). -/
def execSyAsdecl (a : Src) (g : Guard) (s : State) : Out := trigger .sy 0x186 .ot syAsdeclOp a g s

/-- SY_TEND (R198). -/
def execSyTend (a : Src) (g : Guard) (s : State) : Out := trigger .sy 0x187 .none_ syTendOp a g s

/-- SY_YIELD (R199). -/
def execSyYield (a : Src) (g : Guard) (s : State) : Out := trigger .sy 0x188 .none_ syYieldOp a g s

/-- SY_STAMP (R200). -/
def execSyStamp (a : Src) (g : Guard) (s : State) : Out := trigger .sy 0x189 .t syStampOp a g s

/-- SY_TAINT (R200). -/
def execSyTaint (a : Src) (g : Guard) (s : State) : Out := trigger .sy 0x18A .t syTaintOp a g s

end Sys2Proof.Machine
end

