-- ==== Sys2Proof/Machine/Scalar.lean ====
section
/-!
DEFINITION. The scalar units `x0` and `x1` (08_seq_scalar R161-R168): one function per operation, one meaning per
trigger port.
-/

namespace Sys2Proof.Machine

/-! ### Integer and logic operations (R165) -/

/-- A Boolean as 0 or 1. -/
def bit01 (b : Bool) : Word := if b then 1#64 else 0#64

/-- `add` (R165). -/
def addW (o t : Word) : Word := o + t
/-- `sub` (R165). -/
def subW (o t : Word) : Word := o - t
/-- `and` (R165). -/
def andW (o t : Word) : Word := o &&& t
/-- `or` (R165). -/
def orW (o t : Word) : Word := o ||| t
/-- `xor` (R165). -/
def xorW (o t : Word) : Word := o ^^^ t
/-- `shl`: bits 63:6 of the amount are ignored (R165). -/
def shlW (o t : Word) : Word := o <<< (t.toNat % 64)
/-- `shr` (R165). -/
def shrW (o t : Word) : Word := o >>> (t.toNat % 64)
/-- `sar` (R165). -/
def sarW (o t : Word) : Word := o.sshiftRight (t.toNat % 64)
/-- `ror`; a shift of the full width gives 0, so an amount of 0 gives `o` (R165). -/
def rorW (o t : Word) : Word := o >>> (t.toNat % 64) ||| o <<< (64 - t.toNat % 64)
/-- `ceq`: bit patterns compared (R165). -/
def ceqW (o t : Word) : Word := bit01 (decide (o = t))
/-- `clt.s64` (R165). -/
def cltS64 (o t : Word) : Word := bit01 (decide (o.toInt < t.toInt))
/-- `clt.n64` (R165). -/
def cltN64 (o t : Word) : Word := bit01 (decide (o.toNat < t.toNat))
/-- `sel` (R165). -/
def selW (o p t : Word) : Word := if t = 0#64 then p else o
/-- `min.s64` (R165). -/
def minS64 (o t : Word) : Word := if o.toInt ≤ t.toInt then o else t
/-- `max.s64` (R165). -/
def maxS64 (o t : Word) : Word := if t.toInt ≤ o.toInt then o else t
/-- `clz`; 0 gives 64 (R165). -/
def clzW (t : Word) : Word := BitVec.ofNat 64 (64 - Num.bitLen t.toNat)
/-- `popc` (R165). -/
def popcW (t : Word) : Word := BitVec.ofNat 64 ((List.range 64).filter fun i => t.getLsbD i).length
/-- `bfx`: width 0 or above 64 gives 0 (R165). -/
def bfxW (o t : Word) : Word :=
  let wid := bitsOf t.toNat 6 7
  if wid = 0 ∨ 64 < wid then 0#64 else BitVec.ofNat 64 (bitsOf o.toNat (t.toNat % 64) wid)
/-- `sxt`: `t` names the sign bit (R165). -/
def sxtW (o t : Word) : Word := BitVec.ofInt 64 (BitVec.ofNat (t.toNat % 64 + 1) o.toNat).toInt

/-! ### Multiply and divide (R166) -/

/-- `mul` (R166). -/
def mulW (o t : Word) : Word := o * t
/-- `mulh.s64`: bits 127:64 of the exact product (R166). -/
def mulhS64 (o t : Word) : Word := BitVec.ofInt 64 (o.toInt * t.toInt / 2 ^ 64)
/-- `mulh.n64` (R166). -/
def mulhN64 (o t : Word) : Word := BitVec.ofNat 64 (o.toNat * t.toNat / 2 ^ 64)
/-- `div.s64`: toward zero; a division by 0 gives all ones, and −2^63 by −1 itself (R166). -/
def divS64 (o t : Word) : Word :=
  if t = 0#64 then BitVec.allOnes 64
  else if o = 0x8000000000000000#64 ∧ t.toInt = -1 then 0x8000000000000000#64
  else BitVec.ofInt 64 (Int.tdiv o.toInt t.toInt)
/-- `div.n64` (R166). -/
def divN64 (o t : Word) : Word := if t = 0#64 then BitVec.allOnes 64 else BitVec.ofNat 64 (o.toNat / t.toNat)
/-- `rem.s64`: the sign of `o` (R166). -/
def remS64 (o t : Word) : Word :=
  if t = 0#64 then o
  else if o = 0x8000000000000000#64 ∧ t.toInt = -1 then 0#64
  else BitVec.ofInt 64 (o.toInt - t.toInt * Int.tdiv o.toInt t.toInt)
/-- `rem.n64` (R166). -/
def remN64 (o t : Word) : Word := if t = 0#64 then o else BitVec.ofNat 64 (o.toNat % t.toNat)

/-! ### FP32 operations and conversions (R164, R167) -/

/-- Bits 31:0 of an operand as FP32 (R164). -/
def f32w (w : Word) : Num.FVal := Num.ofBits Num.fp32 (w.toNat % 2 ^ 32)

/-- An FP32 result in bits 31:0, bits 63:32 zero (R164). -/
def f32res (r : Nat × Num.Flags) : Word × Num.Flags := (BitVec.ofNat 64 (r.1 % 2 ^ 32), r.2)

/-- `add.f32` (R167). -/
def addF32 (md : Num.Mode) (o _ t : Word) : Word × Num.Flags := f32res (Num.addV Num.fp32 md (f32w o) (f32w t))
/-- `mul.f32` (R167). -/
def mulF32 (md : Num.Mode) (o _ t : Word) : Word × Num.Flags := f32res (Num.mulV Num.fp32 md (f32w o) (f32w t))
/-- `fma.f32`: one rounding (R167). -/
def fmaF32 (md : Num.Mode) (o p t : Word) : Word × Num.Flags := f32res (Num.fmaV Num.fp32 md (f32w o) (f32w p) (f32w t))
/-- `clt.f32`: a signalling compare (R167). -/
def cltF32 (_ : Num.Mode) (o _ t : Word) : Word × Num.Flags :=
  (bit01 (Num.ltV (f32w o) (f32w t)), Num.cltFlags (f32w o) (f32w t))
/-- `itof.s64` (R167). -/
def itofS64 (md : Num.Mode) (_ _ t : Word) : Word × Num.Flags := f32res (Num.ofInt Num.fp32 md t.toInt)
/-- `ftoi.s64` (R126, R167). -/
def ftoiS64 (md : Num.Mode) (_ _ t : Word) : Word × Num.Flags :=
  let r := Num.toInt md 64 (f32w t)
  (BitVec.ofInt 64 r.1, r.2)

/-! ### Context registers (R161, R162, R168) -/

/-- The rounding mode in force for the context (R131). -/
def Ctx.mode (c : Ctx) : Num.Mode := Num.Mode.ofBits c.fpm

/-- The faults of `crd` and `cwr` (R161, R168): a reserved number before privilege. -/
def regFault (c : Ctx) (sup : Bool) (t : Word) : Option Byte :=
  let n := t.toNat
  if !(decide (n < 8) || decide (0x10 ≤ n ∧ n < 0x19)) then some cCtxReg
  else if decide (0x10 ≤ n) && !(sup || c.emu) then some cPriv
  else none

/-- A `ctx` register as a `crd` reads it, with the taint that R161 sets beyond the operand's. -/
def State.readReg (s : State) (n : Nat) : Word × Bool :=
  let c := s.me
  match n with
  | 0x00 => (BitVec.ofNat 64 c.fpm.toNat, false)
  | 0x01 => (flagsRead c, false)
  | 0x02 => (c.stamp, false)
  | 0x03 => (BitVec.ofNat 64 c.drop.toNat, false)
  | 0x04 => (BitVec.ofNat 64 (s.cur.core + s.cur.ctx * 2 ^ 10 + s.devid * 2 ^ 12), true)
  | 0x05 => (BitVec.ofNat 64 ((if s.sup then 1 else 0) + (if c.emu then 2 else 0) + (if c.ord then 4 else 0) +
      (if c.strict then 8 else 0)), false)
  | 0x06 => (BitVec.ofNat 64 c.cyc.toNat, false)
  | 0x07 => (BitVec.ofNat 64 c.nrg.toNat, true)
  | 0x10 => (c.tr.tcause, false)
  | 0x11 => (c.tr.tgrp, false)
  | 0x12 => (c.tr.tinfo, false)
  | 0x13 => (c.tr.tmove, false)
  | 0x14 => (c.tr.topo, false)
  | 0x15 => (c.tr.topp, false)
  | 0x16 => (c.tr.topt, false)
  | 0x17 => (c.tr.tres, false)
  | _ => (0#64, false)

/-! ### The moulds of the two units -/

/-- An integer operation of a unit with result port `q`: its result lands after `lat` cycles (R164, R74). -/
def intOp (q : Port) (lat : Nat) (f : Word → Word → Word → Word) (a : Opnds) (s : State) : MoveR :=
  .ok (s.land q lat (.scalar (f a.o.word a.p.word a.t.word) a.tag a.taint) 0#6)

/-- An FP32 operation under the mode as it stands at the trigger; its flags land with the result (R131, R135, R167). -/
def fpOp (q : Port) (lat : Nat) (f : Num.Mode → Word → Word → Word → Word × Num.Flags) (a : Opnds) (s : State) : MoveR :=
  let r := f s.me.mode a.o.word a.p.word a.t.word
  .ok (s.land q lat (.scalar r.1 a.tag a.taint) r.2)

/-- `crd` (R168). -/
def crdOp (q : Port) (a : Opnds) (s : State) : MoveR :=
  match regFault s.me s.sup a.t.word with
  | some c => fault5 c 0
  | none =>
    let r := s.readReg a.t.word.toNat
    .ok (s.land q 1 (.scalar r.1 a.tag (a.taint || r.2)) 0#6)

/-- `cwr` (R163, R168): the write lands at trigger cycle + 1; in emulation mode a write of `ctx.tret` ends the handler
with its group (R221), and one with LAT 0, NORES 0 and FAIL 0 is EMU_DOUBLE (R222). -/
def cwrOp (a : Opnds) (s : State) : MoveR :=
  match regFault s.me s.sup a.t.word with
  | some c => fault5 c 0
  | none =>
    if a.t.word = 0x18#64 then
      let w := a.o.word
      if !s.me.emu then .ok s
      else if !w.getLsbD 0 && !w.getLsbD 7 && decide (bitsOf w.toNat 1 6 = 0) then fault5 cEmuDouble 0
      else .ok (s.updCtx s.cur fun c => { c with tret := some w })
    else .ok (s.landAt (.ctxReg a.t.word.toNat) (.scalar a.o.word a.tag a.taint))

/-! ### `x0` -/

/-- X0_ADD (R165). -/
def execX0Add (a : Src) (g : Guard) (s : State) : Out :=
  trigger .x0 0x082 .ot (intOp .x0q 1 (fun o _ t => addW o t)) a g s

/-- X0_SUB (R165). -/
def execX0Sub (a : Src) (g : Guard) (s : State) : Out :=
  trigger .x0 0x083 .ot (intOp .x0q 1 (fun o _ t => subW o t)) a g s

/-- X0_AND (R165). -/
def execX0And (a : Src) (g : Guard) (s : State) : Out :=
  trigger .x0 0x084 .ot (intOp .x0q 1 (fun o _ t => andW o t)) a g s

/-- X0_OR (R165). -/
def execX0Or (a : Src) (g : Guard) (s : State) : Out :=
  trigger .x0 0x085 .ot (intOp .x0q 1 (fun o _ t => orW o t)) a g s

/-- X0_XOR (R165). -/
def execX0Xor (a : Src) (g : Guard) (s : State) : Out :=
  trigger .x0 0x086 .ot (intOp .x0q 1 (fun o _ t => xorW o t)) a g s

/-- X0_SHL (R165). -/
def execX0Shl (a : Src) (g : Guard) (s : State) : Out :=
  trigger .x0 0x087 .ot (intOp .x0q 1 (fun o _ t => shlW o t)) a g s

/-- X0_SHR (R165). -/
def execX0Shr (a : Src) (g : Guard) (s : State) : Out :=
  trigger .x0 0x088 .ot (intOp .x0q 1 (fun o _ t => shrW o t)) a g s

/-- X0_SAR (R165). -/
def execX0Sar (a : Src) (g : Guard) (s : State) : Out :=
  trigger .x0 0x089 .ot (intOp .x0q 1 (fun o _ t => sarW o t)) a g s

/-- X0_ROR (R165). -/
def execX0Ror (a : Src) (g : Guard) (s : State) : Out :=
  trigger .x0 0x08A .ot (intOp .x0q 1 (fun o _ t => rorW o t)) a g s

/-- X0_CEQ (R165). -/
def execX0Ceq (a : Src) (g : Guard) (s : State) : Out :=
  trigger .x0 0x08B .ot (intOp .x0q 1 (fun o _ t => ceqW o t)) a g s

/-- X0_CLT_S64 (R165). -/
def execX0CltS64 (a : Src) (g : Guard) (s : State) : Out :=
  trigger .x0 0x08C .ot (intOp .x0q 1 (fun o _ t => cltS64 o t)) a g s

/-- X0_CLT_N64 (R165). -/
def execX0CltN64 (a : Src) (g : Guard) (s : State) : Out :=
  trigger .x0 0x08D .ot (intOp .x0q 1 (fun o _ t => cltN64 o t)) a g s

/-- X0_SEL (R165). -/
def execX0Sel (a : Src) (g : Guard) (s : State) : Out :=
  trigger .x0 0x08E .opt (intOp .x0q 1 selW) a g s

/-- X0_MIN_S64 (R165). -/
def execX0MinS64 (a : Src) (g : Guard) (s : State) : Out :=
  trigger .x0 0x08F .ot (intOp .x0q 1 (fun o _ t => minS64 o t)) a g s

/-- X0_MAX_S64 (R165). -/
def execX0MaxS64 (a : Src) (g : Guard) (s : State) : Out :=
  trigger .x0 0x090 .ot (intOp .x0q 1 (fun o _ t => maxS64 o t)) a g s

/-- X0_CLZ (R165). -/
def execX0Clz (a : Src) (g : Guard) (s : State) : Out :=
  trigger .x0 0x091 .t (intOp .x0q 1 (fun _ _ t => clzW t)) a g s

/-- X0_POPC (R165). -/
def execX0Popc (a : Src) (g : Guard) (s : State) : Out :=
  trigger .x0 0x092 .t (intOp .x0q 1 (fun _ _ t => popcW t)) a g s

/-- X0_BFX (R165). -/
def execX0Bfx (a : Src) (g : Guard) (s : State) : Out :=
  trigger .x0 0x093 .ot (intOp .x0q 1 (fun o _ t => bfxW o t)) a g s

/-- X0_SXT (R165). -/
def execX0Sxt (a : Src) (g : Guard) (s : State) : Out :=
  trigger .x0 0x094 .ot (intOp .x0q 1 (fun o _ t => sxtW o t)) a g s

/-- X0_MUL (R166). -/
def execX0Mul (a : Src) (g : Guard) (s : State) : Out :=
  trigger .x0 0x095 .ot (intOp .x0q 3 (fun o _ t => mulW o t)) a g s

/-- X0_MULH_S64 (R166). -/
def execX0MulhS64 (a : Src) (g : Guard) (s : State) : Out :=
  trigger .x0 0x096 .ot (intOp .x0q 3 (fun o _ t => mulhS64 o t)) a g s

/-- X0_MULH_N64 (R166). -/
def execX0MulhN64 (a : Src) (g : Guard) (s : State) : Out :=
  trigger .x0 0x097 .ot (intOp .x0q 3 (fun o _ t => mulhN64 o t)) a g s

/-- X0_DIV_S64 (R166). -/
def execX0DivS64 (a : Src) (g : Guard) (s : State) : Out :=
  trigger .x0 0x098 .ot (intOp .x0q 18 (fun o _ t => divS64 o t)) a g s

/-- X0_DIV_N64 (R166). -/
def execX0DivN64 (a : Src) (g : Guard) (s : State) : Out :=
  trigger .x0 0x099 .ot (intOp .x0q 18 (fun o _ t => divN64 o t)) a g s

/-- X0_REM_S64 (R166). -/
def execX0RemS64 (a : Src) (g : Guard) (s : State) : Out :=
  trigger .x0 0x09A .ot (intOp .x0q 18 (fun o _ t => remS64 o t)) a g s

/-- X0_REM_N64 (R166). -/
def execX0RemN64 (a : Src) (g : Guard) (s : State) : Out :=
  trigger .x0 0x09B .ot (intOp .x0q 18 (fun o _ t => remN64 o t)) a g s

/-- X0_ADD_F32 (R167). -/
def execX0AddF32 (a : Src) (g : Guard) (s : State) : Out :=
  trigger .x0 0x09C .ot (fpOp .x0q 3 addF32) a g s

/-- X0_MUL_F32 (R167). -/
def execX0MulF32 (a : Src) (g : Guard) (s : State) : Out :=
  trigger .x0 0x09D .ot (fpOp .x0q 3 mulF32) a g s

/-- X0_FMA_F32 (R167). -/
def execX0FmaF32 (a : Src) (g : Guard) (s : State) : Out :=
  trigger .x0 0x09E .opt (fpOp .x0q 3 fmaF32) a g s

/-- X0_CLT_F32 (R167). -/
def execX0CltF32 (a : Src) (g : Guard) (s : State) : Out :=
  trigger .x0 0x09F .ot (fpOp .x0q 1 cltF32) a g s

/-- X0_ITOF_S64 (R167). -/
def execX0ItofS64 (a : Src) (g : Guard) (s : State) : Out :=
  trigger .x0 0x0A0 .t (fpOp .x0q 3 itofS64) a g s

/-- X0_FTOI_S64 (R167). -/
def execX0FtoiS64 (a : Src) (g : Guard) (s : State) : Out :=
  trigger .x0 0x0A1 .t (fpOp .x0q 3 ftoiS64) a g s

/-- X0_CRD (R168). -/
def execX0Crd (a : Src) (g : Guard) (s : State) : Out := trigger .x0 0x0A2 .t (crdOp .x0q) a g s

/-- X0_CWR (R168). -/
def execX0Cwr (a : Src) (g : Guard) (s : State) : Out := trigger .x0 0x0A3 .ot cwrOp a g s

/-! ### `x1` -/

/-- X1_ADD (R165). -/
def execX1Add (a : Src) (g : Guard) (s : State) : Out :=
  trigger .x1 0x0C2 .ot (intOp .x1q 1 (fun o _ t => addW o t)) a g s

/-- X1_SUB (R165). -/
def execX1Sub (a : Src) (g : Guard) (s : State) : Out :=
  trigger .x1 0x0C3 .ot (intOp .x1q 1 (fun o _ t => subW o t)) a g s

/-- X1_AND (R165). -/
def execX1And (a : Src) (g : Guard) (s : State) : Out :=
  trigger .x1 0x0C4 .ot (intOp .x1q 1 (fun o _ t => andW o t)) a g s

/-- X1_OR (R165). -/
def execX1Or (a : Src) (g : Guard) (s : State) : Out :=
  trigger .x1 0x0C5 .ot (intOp .x1q 1 (fun o _ t => orW o t)) a g s

/-- X1_XOR (R165). -/
def execX1Xor (a : Src) (g : Guard) (s : State) : Out :=
  trigger .x1 0x0C6 .ot (intOp .x1q 1 (fun o _ t => xorW o t)) a g s

/-- X1_SHL (R165). -/
def execX1Shl (a : Src) (g : Guard) (s : State) : Out :=
  trigger .x1 0x0C7 .ot (intOp .x1q 1 (fun o _ t => shlW o t)) a g s

/-- X1_SHR (R165). -/
def execX1Shr (a : Src) (g : Guard) (s : State) : Out :=
  trigger .x1 0x0C8 .ot (intOp .x1q 1 (fun o _ t => shrW o t)) a g s

/-- X1_SAR (R165). -/
def execX1Sar (a : Src) (g : Guard) (s : State) : Out :=
  trigger .x1 0x0C9 .ot (intOp .x1q 1 (fun o _ t => sarW o t)) a g s

/-- X1_ROR (R165). -/
def execX1Ror (a : Src) (g : Guard) (s : State) : Out :=
  trigger .x1 0x0CA .ot (intOp .x1q 1 (fun o _ t => rorW o t)) a g s

/-- X1_CEQ (R165). -/
def execX1Ceq (a : Src) (g : Guard) (s : State) : Out :=
  trigger .x1 0x0CB .ot (intOp .x1q 1 (fun o _ t => ceqW o t)) a g s

/-- X1_CLT_S64 (R165). -/
def execX1CltS64 (a : Src) (g : Guard) (s : State) : Out :=
  trigger .x1 0x0CC .ot (intOp .x1q 1 (fun o _ t => cltS64 o t)) a g s

/-- X1_CLT_N64 (R165). -/
def execX1CltN64 (a : Src) (g : Guard) (s : State) : Out :=
  trigger .x1 0x0CD .ot (intOp .x1q 1 (fun o _ t => cltN64 o t)) a g s

/-- X1_SEL (R165). -/
def execX1Sel (a : Src) (g : Guard) (s : State) : Out :=
  trigger .x1 0x0CE .opt (intOp .x1q 1 selW) a g s

/-- X1_MIN_S64 (R165). -/
def execX1MinS64 (a : Src) (g : Guard) (s : State) : Out :=
  trigger .x1 0x0CF .ot (intOp .x1q 1 (fun o _ t => minS64 o t)) a g s

/-- X1_MAX_S64 (R165). -/
def execX1MaxS64 (a : Src) (g : Guard) (s : State) : Out :=
  trigger .x1 0x0D0 .ot (intOp .x1q 1 (fun o _ t => maxS64 o t)) a g s

/-- X1_CLZ (R165). -/
def execX1Clz (a : Src) (g : Guard) (s : State) : Out :=
  trigger .x1 0x0D1 .t (intOp .x1q 1 (fun _ _ t => clzW t)) a g s

/-- X1_POPC (R165). -/
def execX1Popc (a : Src) (g : Guard) (s : State) : Out :=
  trigger .x1 0x0D2 .t (intOp .x1q 1 (fun _ _ t => popcW t)) a g s

/-- X1_BFX (R165). -/
def execX1Bfx (a : Src) (g : Guard) (s : State) : Out :=
  trigger .x1 0x0D3 .ot (intOp .x1q 1 (fun o _ t => bfxW o t)) a g s

/-- X1_SXT (R165). -/
def execX1Sxt (a : Src) (g : Guard) (s : State) : Out :=
  trigger .x1 0x0D4 .ot (intOp .x1q 1 (fun o _ t => sxtW o t)) a g s

/-- X1_MUL (R166). -/
def execX1Mul (a : Src) (g : Guard) (s : State) : Out :=
  trigger .x1 0x0D5 .ot (intOp .x1q 3 (fun o _ t => mulW o t)) a g s

/-- X1_MULH_S64 (R166). -/
def execX1MulhS64 (a : Src) (g : Guard) (s : State) : Out :=
  trigger .x1 0x0D6 .ot (intOp .x1q 3 (fun o _ t => mulhS64 o t)) a g s

/-- X1_MULH_N64 (R166). -/
def execX1MulhN64 (a : Src) (g : Guard) (s : State) : Out :=
  trigger .x1 0x0D7 .ot (intOp .x1q 3 (fun o _ t => mulhN64 o t)) a g s

/-- X1_DIV_S64 (R166). -/
def execX1DivS64 (a : Src) (g : Guard) (s : State) : Out :=
  trigger .x1 0x0D8 .ot (intOp .x1q 18 (fun o _ t => divS64 o t)) a g s

/-- X1_DIV_N64 (R166). -/
def execX1DivN64 (a : Src) (g : Guard) (s : State) : Out :=
  trigger .x1 0x0D9 .ot (intOp .x1q 18 (fun o _ t => divN64 o t)) a g s

/-- X1_REM_S64 (R166). -/
def execX1RemS64 (a : Src) (g : Guard) (s : State) : Out :=
  trigger .x1 0x0DA .ot (intOp .x1q 18 (fun o _ t => remS64 o t)) a g s

/-- X1_REM_N64 (R166). -/
def execX1RemN64 (a : Src) (g : Guard) (s : State) : Out :=
  trigger .x1 0x0DB .ot (intOp .x1q 18 (fun o _ t => remN64 o t)) a g s

/-- X1_ADD_F32 (R167). -/
def execX1AddF32 (a : Src) (g : Guard) (s : State) : Out :=
  trigger .x1 0x0DC .ot (fpOp .x1q 3 addF32) a g s

/-- X1_MUL_F32 (R167). -/
def execX1MulF32 (a : Src) (g : Guard) (s : State) : Out :=
  trigger .x1 0x0DD .ot (fpOp .x1q 3 mulF32) a g s

/-- X1_FMA_F32 (R167). -/
def execX1FmaF32 (a : Src) (g : Guard) (s : State) : Out :=
  trigger .x1 0x0DE .opt (fpOp .x1q 3 fmaF32) a g s

/-- X1_CLT_F32 (R167). -/
def execX1CltF32 (a : Src) (g : Guard) (s : State) : Out :=
  trigger .x1 0x0DF .ot (fpOp .x1q 1 cltF32) a g s

/-- X1_ITOF_S64 (R167). -/
def execX1ItofS64 (a : Src) (g : Guard) (s : State) : Out :=
  trigger .x1 0x0E0 .t (fpOp .x1q 3 itofS64) a g s

/-- X1_FTOI_S64 (R167). -/
def execX1FtoiS64 (a : Src) (g : Guard) (s : State) : Out :=
  trigger .x1 0x0E1 .t (fpOp .x1q 3 ftoiS64) a g s

/-- X1_CRD (R168). -/
def execX1Crd (a : Src) (g : Guard) (s : State) : Out := trigger .x1 0x0E2 .t (crdOp .x1q) a g s

/-- X1_CWR (R168). -/
def execX1Cwr (a : Src) (g : Guard) (s : State) : Out := trigger .x1 0x0E3 .ot cwrOp a g s

end Sys2Proof.Machine
end

