-- ==== Sys2Proof/Machine/Ve.lean ====
section
/-!
DEFINITION. The vector engine (12_vector R246-R268): lane-wise arithmetic, conversions, integer and byte work,
reductions, lane movement and vector accesses.
-/

namespace Sys2Proof.Machine

/-! ### Landing (R248) -/

/-- A vector result landing in `ve.q` (R248). -/
def State.vland (s : State) (r : Lanes) (lat : Nat) (a : Opnds) (f : Num.Flags) : State :=
  s.land .veq lat (.ve ⟨r, a.tag, a.taint⟩) f

/-- A scalar result landing in `ve.q2` (R248). -/
def State.sland (s : State) (w : Word) (lat : Nat) (a : Opnds) (f : Num.Flags) : State :=
  s.land .veq2 lat (.scalar w a.tag a.taint) f

/-- A mask from a condition on the lane number (R247). -/
def maskOf (f : Nat → Bool) : Word :=
  BitVec.ofNat 64 ((List.range 64).foldl (fun n i => if f i then n + 2 ^ i else n) 0)

/-- A lane of a vector by its number, modulo 64. -/
def laneAt (v : Lanes) (i : Nat) : Lane := v[Fin.ofNat 64 i]

/-- VE_FORM for a vector in a scalar operand (R247), else the operation. -/
def scalarOnly (vs : List Value) (k : MoveR) : MoveR := if vs.any Value.isVec then fault5 cVeForm 0 else k

/-! ### Floating point (R250-R253) -/

/-- An FP32 result as a lane. -/
def lane32 (r : Nat × Num.Flags) : Lane × Num.Flags := (BitVec.ofNat 32 r.1, r.2)

/-- The flags of all lanes gathered (R248). -/
def laneFlags (l : List (Lane × Num.Flags)) : Num.Flags := l.foldl (fun a r => a ||| r.2) 0#6

/-- A lane-wise floating-point operation under the mode as it stands at the trigger (R131, R248). -/
def vfpOp (lat : Nat) (f : Num.Mode → Lane → Lane → Lane → Lane × Num.Flags) (a : Opnds) (s : State) : MoveR :=
  let o := a.o.lanes
  let p := a.p.lanes
  let t := a.t.lanes
  let rs := (List.range 64).map fun i => f s.me.mode (laneAt o i) (laneAt p i) (laneAt t i)
  .ok (s.vland (lanesOfList (rs.map Prod.fst)) lat a (laneFlags rs))

/-- `add.f32` (R250). -/
def vAdd (md : Num.Mode) (o _ t : Lane) : Lane × Num.Flags := lane32 (Num.addV Num.fp32 md (Num.f32 o) (Num.f32 t))
/-- `sub.f32` (R250): the sum with the negated operand; a NaN stays a NaN. -/
def vSub (md : Num.Mode) (o _ t : Lane) : Lane × Num.Flags :=
  lane32 (Num.addV Num.fp32 md (Num.f32 o) (Num.f32 t).negate)
/-- `mul.f32` (R250). -/
def vMul (md : Num.Mode) (o _ t : Lane) : Lane × Num.Flags := lane32 (Num.mulV Num.fp32 md (Num.f32 o) (Num.f32 t))
/-- `fma.f32`: one rounding (R250). -/
def vFma (md : Num.Mode) (o p t : Lane) : Lane × Num.Flags :=
  lane32 (Num.fmaV Num.fp32 md (Num.f32 o) (Num.f32 p) (Num.f32 t))
/-- `min.f32` (R250). -/
def vMin (_ : Num.Mode) (o _ t : Lane) : Lane × Num.Flags :=
  lane32 (Num.minmaxV Num.fp32 false (Num.f32 o) (Num.f32 t) o.toNat t.toNat)
/-- `max.f32` (R250). -/
def vMax (_ : Num.Mode) (o _ t : Lane) : Lane × Num.Flags :=
  lane32 (Num.minmaxV Num.fp32 true (Num.f32 o) (Num.f32 t) o.toNat t.toNat)
/-- `div.f32` (R252). -/
def vDiv (md : Num.Mode) (o _ t : Lane) : Lane × Num.Flags := lane32 (Num.divV Num.fp32 md (Num.f32 o) (Num.f32 t))
/-- `sqrt.f32` (R252). -/
def vSqrt (md : Num.Mode) (_ _ t : Lane) : Lane × Num.Flags := lane32 (Num.sqrtV Num.fp32 md (Num.f32 t))
/-- `rsqrt.f32` (R252). -/
def vRsqrt (md : Num.Mode) (_ _ t : Lane) : Lane × Num.Flags := lane32 (Num.rsqrtV Num.fp32 md (Num.f32 t))
/-- `exp2.f32` (R252). -/
def vExp2 (md : Num.Mode) (_ _ t : Lane) : Lane × Num.Flags := lane32 (Num.exp2V Num.fp32 md (Num.f32 t))
/-- `log2.f32` (R252). -/
def vLog2 (md : Num.Mode) (_ _ t : Lane) : Lane × Num.Flags := lane32 (Num.log2V Num.fp32 md (Num.f32 t))
/-- `ftoi.s32` (R126, R253). -/
def vFtoi (md : Num.Mode) (_ _ t : Lane) : Lane × Num.Flags :=
  let r := Num.toInt md 32 (Num.f32 t)
  (BitVec.ofInt 32 r.1, r.2)
/-- `itof.s32` (R253). -/
def vItof (md : Num.Mode) (_ _ t : Lane) : Lane × Num.Flags := lane32 (Num.ofInt Num.fp32 md t.toInt)
/-- `cvt.bf16` (R253). -/
def vCvtBf16 (md : Num.Mode) (_ _ t : Lane) : Lane × Num.Flags := lane32 (Num.cvt Num.bf16 md (Num.f32 t))
/-- `cvt.f16` (R253). -/
def vCvtF16 (md : Num.Mode) (_ _ t : Lane) : Lane × Num.Flags := lane32 (Num.cvt Num.fp16 md (Num.f32 t))
/-- `wid.bf16`: exact (R253). -/
def vWidBf16 (_ : Num.Mode) (_ _ t : Lane) : Lane × Num.Flags :=
  lane32 (Num.cvt Num.fp32 .rne (Num.ofBits Num.bf16 (t.toNat % 2 ^ 16)))
/-- `wid.f16`: exact (R253). -/
def vWidF16 (_ : Num.Mode) (_ _ t : Lane) : Lane × Num.Flags :=
  lane32 (Num.cvt Num.fp32 .rne (Num.ofBits Num.fp16 (t.toNat % 2 ^ 16)))

/-- A lane-wise compare writing a mask, with its flags (R251, R256). -/
def vcmpOp (lat : Nat) (f : Lane → Lane → Bool) (fl : Lane → Lane → Num.Flags) (a : Opnds) (s : State) : MoveR :=
  let o := a.o.lanes
  let t := a.t.lanes
  .ok (s.sland (maskOf fun i => f (laneAt o i) (laneAt t i)) lat a
    ((List.range 64).foldl (fun x i => x ||| fl (laneAt o i) (laneAt t i)) 0#6))

/-- `ceq.f32`: quiet (R251). -/
def vCeqF (o t : Lane) : Bool := Num.eqV (Num.f32 o) (Num.f32 t)
/-- The flags of `ceq.f32` (R251). -/
def vCeqFlags (o t : Lane) : Num.Flags := Num.snanFlag [Num.f32 o, Num.f32 t]
/-- `clt.f32`: signalling (R251). -/
def vCltF (o t : Lane) : Bool := Num.ltV (Num.f32 o) (Num.f32 t)
/-- The flags of `clt.f32` (R251). -/
def vCltFlags (o t : Lane) : Num.Flags := Num.cltFlags (Num.f32 o) (Num.f32 t)

/-! ### BX blocks (R254, R255) -/

/-- The BX format of a FMT code (R130, R254). -/
def bxOf (fmt : Nat) : Option Num.BxFmt :=
  match fmt with
  | 3 => some Num.bx8
  | 4 => some Num.bx6
  | 5 => some Num.bx4
  | _ => none

/-- Whether a CLAMP field obeys the rules of R130 for a BX format. -/
def bxClampOk (b : Num.BxFmt) (clamp : BitVec 32) : Bool := decide (clamp = 0#32) || Num.bxOnGrid b clamp

/-- Whether an element of an encoded block decodes to another value than its input, NaN inputs apart (R254). -/
def bxInexact (b : Num.BxFmt) (e0 e1 el : Nat) (x : Num.FVal) : Bool :=
  !x.isNan && !Num.eqV x (Num.bxValue b e0 e1 el)

/-- One block of `ve.bxenc`: its element bytes as a number, its exponents, and its flags (R254). -/
def bxencBlock (b : Num.BxFmt) (split : Nat) (clamp : BitVec 32) (x : List Num.FVal) : Nat × Nat × Num.Flags :=
  let r := Num.bxEncode b split clamp x
  let els := r.2.2.1
  (Num.bxPack b els, r.1 + r.2.1 * 2 ^ 8,
    Num.snanFlag x |||
      Num.flagIf ((List.zipWith (fun el v => bxInexact b r.1 r.2.1 el v) els x).any id) Num.NX |||
      Num.flagIf r.2.2.2 Num.CL)

/-- `ve.bxenc` (R254). -/
def bxencOp (a : Opnds) (s : State) : MoveR :=
  scalarOnly [a.t] <|
    let w := a.t.word.toNat
    let clamp := BitVec.ofNat 32 (bitsOf w 32 32)
    match bxOf (bitsOf w 0 3) with
    | none => fault5 cVeForm 0
    | some b =>
      if bitsOf w 3 5 ≠ 0 ∨ bitsOf w 12 20 ≠ 0 ∨ !bxClampOk b clamp then fault5 cVeForm 0
      else
        let x := a.o.lanes.toList.map Num.f32
        let b0 := bxencBlock b (bitsOf w 8 4) clamp (x.take 32)
        let b1 := bxencBlock b (bitsOf w 8 4) clamp (x.drop 32)
        let n := b0.1 + b1.1 * 2 ^ (32 * b.w)
        let r := lanesOf fun i => BitVec.ofNat 32 (bitsOf n (32 * i) 32)
        .ok ((s.vland r 4 a (b0.2.2 ||| b1.2.2)).sland (BitVec.ofNat 64 (b0.2.1 + b1.2.1 * 2 ^ 16)) 4 a
          (b0.2.2 ||| b1.2.2))

/-- The number that the lanes of a vector make, lane 0 lowest (R246). -/
def lanesNat (v : Lanes) : Nat := v.toList.foldr (fun l n => l.toNat + 2 ^ 32 * n) 0

/-- An element value as FP32 bits: a NaN canonical, every other value exact (R255). -/
def bxLane (x : Num.FVal) : Lane := BitVec.ofNat 32 (Num.cvt Num.fp32 .rne x).1

/-- `ve.bxdec` (R255). -/
def bxdecOp (a : Opnds) (s : State) : MoveR :=
  scalarOnly [a.t] <|
    let w := a.t.word.toNat
    match bxOf (bitsOf w 32 3) with
    | none => fault5 cVeForm 0
    | some b =>
      if bitsOf w 35 29 ≠ 0 then fault5 cVeForm 0
      else
        let n := lanesNat a.o.lanes
        let r := lanesOf fun i =>
          let blk := i / 32
          bxLane (Num.bxValue b (bitsOf w (16 * blk) 8) (bitsOf w (16 * blk + 8) 8)
            (Num.bxElem b (bitsOf n (32 * b.w * blk) (32 * b.w)) (i % 32)))
        .ok (s.vland r 4 a 0#6)

/-! ### Integers, logic, bytes, checksums and the burl hash (R256-R260) -/

/-- A lane-wise operation without flags (R256). -/
def vintOp (lat : Nat) (f : Lane → Lane → Lane) (a : Opnds) (s : State) : MoveR :=
  let o := a.o.lanes
  let t := a.t.lanes
  .ok (s.vland (lanesOf fun i => f (laneAt o i) (laneAt t i)) lat a 0#6)

/-- `shl.b32`: bits 31:5 of the amount are ignored (R256). -/
def vShl (o t : Lane) : Lane := o <<< (t.toNat % 32)
/-- `shr.b32` (R256). -/
def vShr (o t : Lane) : Lane := o >>> (t.toNat % 32)
/-- `sar.b32` (R256). -/
def vSar (o t : Lane) : Lane := o.sshiftRight (t.toNat % 32)
/-- `min.s32` (R256). -/
def vMinS (o t : Lane) : Lane := if o.toInt ≤ t.toInt then o else t
/-- `max.s32` (R256). -/
def vMaxS (o t : Lane) : Lane := if t.toInt ≤ o.toInt then o else t

/-- Byte `j` of a lane (R246). -/
def laneByte (x : Lane) (j : Nat) : Byte := BitVec.ofNat 8 (bitsOf x.toNat (8 * j) 8)

/-- `beq.n8` (R258). -/
def vBeq (o t : Lane) : Lane :=
  BitVec.ofNat 32 ((List.range 4).foldl (fun n j => if laneByte o j = laneByte t j then n + 2 ^ j else n) 0)
/-- `bfind.n8` (R258). -/
def vBfind (o t : Lane) : Lane :=
  BitVec.ofNat 32 (((List.range 4).find? fun j => decide (laneByte o j = laneByte t 0)).getD 4)
/-- `bcmp.n8` (R258). -/
def vBcmp (o t : Lane) : Lane :=
  match (List.range 4).find? fun j => decide (laneByte o j ≠ laneByte t j) with
  | none => 0#32
  | some j =>
    if (laneByte o j).toNat < (laneByte t j).toNat then BitVec.ofInt 32 (-((j : Int) + 1)) else BitVec.ofNat 32 (j + 1)

/-- One byte into a CRC-32C state (R259). -/
def crcByte (c : Lane) (b : Byte) : Lane :=
  (List.range 8).foldl (fun c _ => if c.getLsbD 0 then (c >>> 1) ^^^ 0x82F63B78#32 else c >>> 1)
    (c ^^^ b.zeroExtend 32)
/-- `crc32c.n8` (R259). -/
def vCrc8 (o t : Lane) : Lane := crcByte o (laneByte t 0)
/-- `crc32c.b32` (R259). -/
def vCrc32 (o t : Lane) : Lane := (List.range 4).foldl (fun c j => crcByte c (laneByte t j)) o

/-- `burl` (R260). -/
def vBurl (o t : Lane) : Lane :=
  ((o ^^^ (t * 0x7A3D91C5#32).rotateLeft 11).rotateLeft 19) * 5#32 + 0x2C6B8E13#32
/-- `burlf` (R260). -/
def vBurlf (_ t : Lane) : Lane :=
  let h := (t ^^^ (t >>> 15)) * 0x6C8E9CF5#32
  let h := (h ^^^ (h >>> 13)) * 0x3A1B5D27#32
  h ^^^ (h >>> 16)

/-- `ve.sel.b32` (R257). -/
def vselOp (a : Opnds) (s : State) : MoveR :=
  scalarOnly [a.t] <|
    let o := a.o.lanes
    let p := a.p.lanes
    .ok (s.vland (lanesOf fun i => if a.t.word.getLsbD i then laneAt o i else laneAt p i) 2 a 0#6)

/-- `ve.lid` (R257). -/
def vlidOp (a : Opnds) (s : State) : MoveR :=
  scalarOnly [a.t] (.ok (s.vland (lanesOf fun i => BitVec.ofNat 32 (a.t.word.toNat + i)) 2 a 0#6))

/-! ### Reductions and lane movement (R261, R262) -/

/-- A reduction of the lanes that a mask selects (R261): an empty one gives +0. -/
def vredOp (pad : Nat) (node : Num.Mode → Nat → Nat → Nat × Num.Flags) (a : Opnds) (s : State) : MoveR :=
  scalarOnly [a.t] <|
    if a.t.word = 0#64 then .ok (s.sland 0#64 6 a 0#6)
    else
      let o := a.o.lanes
      let r := Num.tree64 (node s.me.mode)
        ((List.range 64).map fun i => if a.t.word.getLsbD i then (laneAt o i).toNat else pad)
      .ok (s.sland (BitVec.ofNat 64 r.1) 6 a r.2)

/-- `perm` (R262). -/
def vpermOp (a : Opnds) (s : State) : MoveR :=
  let o := a.o.lanes
  let t := a.t.lanes
  .ok (s.vland (lanesOf fun i => laneAt o (laneAt t i).toNat) 6 a 0#6)

/-- `lrot` (R262). -/
def vlrotOp (a : Opnds) (s : State) : MoveR :=
  scalarOnly [a.t] <|
    let o := a.o.lanes
    .ok (s.vland (lanesOf fun i => laneAt o (i + 64 - a.t.word.toNat % 64)) 6 a 0#6)

/-- VE_FORM for a lane index above 63 (R262), else the operation. -/
def laneIndex (t : Value) (k : MoveR) : MoveR := if 64 ≤ t.word.toNat then fault5 cVeForm 0 else k

/-- `lext` (R262). -/
def vlextOp (a : Opnds) (s : State) : MoveR :=
  scalarOnly [a.t] (laneIndex a.t
    (.ok (s.sland (BitVec.ofNat 64 (laneAt a.o.lanes a.t.word.toNat).toNat) 6 a 0#6)))

/-- `lins` (R262). -/
def vlinsOp (a : Opnds) (s : State) : MoveR :=
  scalarOnly [a.t, a.p] (laneIndex a.t
    (let o := a.o.lanes
    .ok (s.vland (lanesOf fun i => if i = a.t.word.toNat then BitVec.ofNat 32 a.p.word.toNat else laneAt o i) 6 a 0#6)))

/-- `ffs` (R262). -/
def vffsOp (a : Opnds) (s : State) : MoveR :=
  scalarOnly [a.t]
    (.ok (s.sland (BitVec.ofNat 64 (((List.range 64).find? fun i => a.t.word.getLsbD i).getD 64)) 6 a 0#6))

/-! ### Vector accesses (R263-R267) -/

/-- The accesses of a vector operation checked in the order of R267, order by order over all lanes, then the rest of the
operation. `watched` are the spans that watchpoints are held against. -/
def veAdmit (s : State) (watched l : List Span) (k : State → List SpanP → MoveR) : MoveR :=
  admitLevel cVeLevel .plain none s watched l k

/-- Checked spans read in lane order: their bytes, and the OR of their taints. -/
def State.readSpans (s : State) (l : List SpanP) : State × List (List Byte) × Bool :=
  l.foldl (fun a p =>
    let r := a.1.readSpan s.cur p
    (r.1, a.2.1 ++ [r.2.1], a.2.2 || r.2.2)) (s, [], false)

/-- Bytes stored to checked spans in lane order. -/
def State.writeSpans (s : State) (taint : Bool) : List (SpanP × List Byte) → MoveR
  | [] => .ok s
  | (p, bs) :: l =>
    match s.writeSpan s.cur p bs taint with
    | .ok s => s.writeSpans taint l
    | r => r


/-- The bytes of a vector (R246). -/
def lanesBytes (v : Lanes) : List Byte := v.toList.flatMap fun l => leBytes 4 l.toNat

/-- `ld.b32` and `ld16.b64` (R264): `n` bytes, aligned to `al`. -/
def vldOp (n al : Nat) (a : Opnds) (s : State) : MoveR :=
  scalarOnly [a.t] <|
    let va := a.t.word.toNat
    if va % al ≠ 0 then fault5 cVeAlign va
    else
      veAdmit s [⟨va, n, false⟩] [⟨va, n, false⟩] fun s ps =>
        let r := s.readSpans ps
        let pcs := ps.flatMap SpanP.ps
        .ok (r.1.landLoad .veq (latencyOf va) (.lanes (List.range 64)) r.2.1.flatten a.tag (a.taint || r.2.2) (loadCauses pcs) pcs)

/-- `st.b32` (R264). -/
def vstOp (a : Opnds) (s : State) : MoveR :=
  scalarOnly [a.o] <|
    let va := a.o.word.toNat
    if va % 4 ≠ 0 then fault5 cVeAlign va
    else
      veAdmit s [⟨va, 256, true⟩] [⟨va, 256, true⟩] fun s ps =>
        s.writeSpans (a.taint || s.me.ctaint) (ps.map fun p => (p, lanesBytes a.t.lanes))

/-- The view address of offset `b` of lane `i`'s slice (R83, R265). -/
def sliceAddr (i b : Nat) : Nat := 0xFF000000000000 + i * 4096 + b

/-- The faults of a lane-slice access in the order of R267: alignment of every lane, watchpoints, and the slice's end. No watchpoint is
held against a lane whose offset passes the lane's 4 KiB, since the address of R265 is then that of another lane (log 157). -/
def sliceFault (s : State) (offs : Lanes) (write : Bool) : Option (Byte × Nat) :=
  match (List.range 64).find? fun i => decide ((laneAt offs i).toNat % 4 ≠ 0) with
  | some i => some (cVeAlign, sliceAddr i (laneAt offs i).toNat)
  | none =>
    let within := (List.range 64).filter fun i => decide ((laneAt offs i).toNat + 4 ≤ 4096)
    match (s.watchSpans s.cur (within.map fun i => ⟨sliceAddr i (laneAt offs i).toNat, 4, write⟩)).2 with
    | some a => some (cWatch, a)
    | none =>
      ((List.range 64).find? fun i => decide (s.me.alloc.lsb < (laneAt offs i).toNat + 4)).map fun i =>
        (cLeaseExit, sliceAddr i (laneAt offs i).toNat)

/-- A lane-slice access: its faults, then its lanes' spans. -/
def sliceThen (s : State) (offs : Lanes) (write : Bool) (k : State → List SpanP → MoveR) : MoveR :=
  match sliceFault s offs write with
  | some (c, i) => fault5 c i
  | none => veAdmit s [] ((List.range 64).map fun i => ⟨sliceAddr i (laneAt offs i).toNat, 4, write⟩) k

/-- `ldl.b32` (R265). -/
def vldlOp (a : Opnds) (s : State) : MoveR :=
  sliceThen s a.t.lanes false fun s ps =>
    let r := s.readSpans ps
    .ok (r.1.land .veq 3 (.ve ⟨lanesOfList (r.2.1.map laneOf), a.tag, a.taint || r.2.2⟩) 0#6)

/-- `stl.b32` (R265). -/
def vstlOp (a : Opnds) (s : State) : MoveR :=
  sliceThen s a.o.lanes true fun s ps =>
    s.writeSpans (a.taint || s.me.ctaint) (ps.zip (a.t.lanes.toList.map fun l => leBytes 4 l.toNat))

/-- The active lanes of a gather or scatter with their addresses (R266). -/
def activeLanes (base : Word) (offs : Lanes) : List (Nat × Nat) :=
  ((List.range 64).filter fun i => laneAt offs i != 0xFFFFFFFF#32).map fun i =>
    (i, (base + (laneAt offs i).zeroExtend 64).toNat)

/-- The checks of a gather or scatter (R266, R267), then the rest. -/
def lanesThen (s : State) (acts : List (Nat × Nat)) (write : Bool) (k : State → List SpanP → MoveR) : MoveR :=
  match acts.find? fun l => decide (l.2 % 4 ≠ 0) with
  | some l => fault5 cVeAlign l.2
  | none =>
    let spans := acts.map fun l => (⟨l.2, 4, write⟩ : Span)
    veAdmit s spans spans k

/-- `gath.b32` (R266): latency 3 if every active lane lies in the lane-slice or core-scratchpad views, else 5. -/
def vgathOp (a : Opnds) (s : State) : MoveR :=
  scalarOnly [a.o] <|
    let acts := activeLanes a.o.word a.t.lanes
    lanesThen s acts false fun s ps =>
      let r := s.readSpans ps
      let pcs := ps.flatMap SpanP.ps
      let lat := if acts.all fun l => (winOf l.2).isCore then 3 else 5
      .ok (r.1.landLoad .veq lat (.lanes (acts.map Prod.fst)) r.2.1.flatten a.tag (a.taint || r.2.2) (loadCauses pcs) pcs)

/-- `scat.b32` (R266): in rising lane order, so that the highest of colliding lanes stands. -/
def vscatOp (a : Opnds) (s : State) : MoveR :=
  scalarOnly [a.o] <|
    let acts := activeLanes a.o.word a.t.lanes
    let p := a.p.lanes
    lanesThen s acts true fun s ps =>
      s.writeSpans (a.taint || s.me.ctaint) (ps.zip (acts.map fun l => leBytes 4 (laneAt p l.1).toNat))

/-! ### The trigger ports -/

/-- VE_AddF32 (R250). -/
def execVeAddF32 (a : Src) (g : Guard) (s : State) : Out :=
  trigger .ve 0x1A2 .ot (vfpOp 4 vAdd) a g s

/-- VE_SubF32 (R250). -/
def execVeSubF32 (a : Src) (g : Guard) (s : State) : Out :=
  trigger .ve 0x1A3 .ot (vfpOp 4 vSub) a g s

/-- VE_MulF32 (R250). -/
def execVeMulF32 (a : Src) (g : Guard) (s : State) : Out :=
  trigger .ve 0x1A4 .ot (vfpOp 4 vMul) a g s

/-- VE_FmaF32 (R250). -/
def execVeFmaF32 (a : Src) (g : Guard) (s : State) : Out :=
  trigger .ve 0x1A5 .opt (vfpOp 4 vFma) a g s

/-- VE_MinF32 (R250). -/
def execVeMinF32 (a : Src) (g : Guard) (s : State) : Out :=
  trigger .ve 0x1A6 .ot (vfpOp 4 vMin) a g s

/-- VE_MaxF32 (R250). -/
def execVeMaxF32 (a : Src) (g : Guard) (s : State) : Out :=
  trigger .ve 0x1A7 .ot (vfpOp 4 vMax) a g s

/-- VE_CeqF32 (R251). -/
def execVeCeqF32 (a : Src) (g : Guard) (s : State) : Out :=
  trigger .ve 0x1A8 .ot (vcmpOp 4 vCeqF vCeqFlags) a g s

/-- VE_CltF32 (R251). -/
def execVeCltF32 (a : Src) (g : Guard) (s : State) : Out :=
  trigger .ve 0x1A9 .ot (vcmpOp 4 vCltF vCltFlags) a g s

/-- VE_DivF32 (R252). -/
def execVeDivF32 (a : Src) (g : Guard) (s : State) : Out :=
  trigger .ve 0x1AA .ot (vfpOp 8 vDiv) a g s

/-- VE_SqrtF32 (R252). -/
def execVeSqrtF32 (a : Src) (g : Guard) (s : State) : Out :=
  trigger .ve 0x1AB .t (vfpOp 8 vSqrt) a g s

/-- VE_RsqrtF32 (R252). -/
def execVeRsqrtF32 (a : Src) (g : Guard) (s : State) : Out :=
  trigger .ve 0x1AC .t (vfpOp 8 vRsqrt) a g s

/-- VE_Exp2F32 (R252). -/
def execVeExp2F32 (a : Src) (g : Guard) (s : State) : Out :=
  trigger .ve 0x1AD .t (vfpOp 8 vExp2) a g s

/-- VE_Log2F32 (R252). -/
def execVeLog2F32 (a : Src) (g : Guard) (s : State) : Out :=
  trigger .ve 0x1AE .t (vfpOp 8 vLog2) a g s

/-- VE_FtoiS32 (R253). -/
def execVeFtoiS32 (a : Src) (g : Guard) (s : State) : Out :=
  trigger .ve 0x1AF .t (vfpOp 4 vFtoi) a g s

/-- VE_ItofS32 (R253). -/
def execVeItofS32 (a : Src) (g : Guard) (s : State) : Out :=
  trigger .ve 0x1B0 .t (vfpOp 4 vItof) a g s

/-- VE_CvtBf16 (R253). -/
def execVeCvtBf16 (a : Src) (g : Guard) (s : State) : Out :=
  trigger .ve 0x1B1 .t (vfpOp 4 vCvtBf16) a g s

/-- VE_CvtF16 (R253). -/
def execVeCvtF16 (a : Src) (g : Guard) (s : State) : Out :=
  trigger .ve 0x1B2 .t (vfpOp 4 vCvtF16) a g s

/-- VE_WidBf16 (R253). -/
def execVeWidBf16 (a : Src) (g : Guard) (s : State) : Out :=
  trigger .ve 0x1B3 .t (vfpOp 4 vWidBf16) a g s

/-- VE_WidF16 (R253). -/
def execVeWidF16 (a : Src) (g : Guard) (s : State) : Out :=
  trigger .ve 0x1B4 .t (vfpOp 4 vWidF16) a g s

/-- VE_Bxenc (R254). -/
def execVeBxenc (a : Src) (g : Guard) (s : State) : Out :=
  trigger .ve 0x1B5 .ot (bxencOp) a g s

/-- VE_Bxdec (R255). -/
def execVeBxdec (a : Src) (g : Guard) (s : State) : Out :=
  trigger .ve 0x1B6 .ot (bxdecOp) a g s

/-- VE_AddS32 (R256). -/
def execVeAddS32 (a : Src) (g : Guard) (s : State) : Out :=
  trigger .ve 0x1B7 .ot (vintOp 2 (fun o t => o + t)) a g s

/-- VE_SubS32 (R256). -/
def execVeSubS32 (a : Src) (g : Guard) (s : State) : Out :=
  trigger .ve 0x1B8 .ot (vintOp 2 (fun o t => o - t)) a g s

/-- VE_MulS32 (R256). -/
def execVeMulS32 (a : Src) (g : Guard) (s : State) : Out :=
  trigger .ve 0x1B9 .ot (vintOp 2 (fun o t => o * t)) a g s

/-- VE_AndB32 (R256). -/
def execVeAndB32 (a : Src) (g : Guard) (s : State) : Out :=
  trigger .ve 0x1BA .ot (vintOp 2 (fun o t => o &&& t)) a g s

/-- VE_OrB32 (R256). -/
def execVeOrB32 (a : Src) (g : Guard) (s : State) : Out :=
  trigger .ve 0x1BB .ot (vintOp 2 (fun o t => o ||| t)) a g s

/-- VE_XorB32 (R256). -/
def execVeXorB32 (a : Src) (g : Guard) (s : State) : Out :=
  trigger .ve 0x1BC .ot (vintOp 2 (fun o t => o ^^^ t)) a g s

/-- VE_ShlB32 (R256). -/
def execVeShlB32 (a : Src) (g : Guard) (s : State) : Out :=
  trigger .ve 0x1BD .ot (vintOp 2 vShl) a g s

/-- VE_ShrB32 (R256). -/
def execVeShrB32 (a : Src) (g : Guard) (s : State) : Out :=
  trigger .ve 0x1BE .ot (vintOp 2 vShr) a g s

/-- VE_SarB32 (R256). -/
def execVeSarB32 (a : Src) (g : Guard) (s : State) : Out :=
  trigger .ve 0x1BF .ot (vintOp 2 vSar) a g s

/-- VE_MinS32 (R256). -/
def execVeMinS32 (a : Src) (g : Guard) (s : State) : Out :=
  trigger .ve 0x1C0 .ot (vintOp 2 vMinS) a g s

/-- VE_MaxS32 (R256). -/
def execVeMaxS32 (a : Src) (g : Guard) (s : State) : Out :=
  trigger .ve 0x1C1 .ot (vintOp 2 vMaxS) a g s

/-- VE_CeqB32 (R256). -/
def execVeCeqB32 (a : Src) (g : Guard) (s : State) : Out :=
  trigger .ve 0x1C2 .ot (vcmpOp 2 (fun o t => decide (o = t)) (fun _ _ => 0#6)) a g s

/-- VE_CltS32 (R256). -/
def execVeCltS32 (a : Src) (g : Guard) (s : State) : Out :=
  trigger .ve 0x1C3 .ot (vcmpOp 2 (fun o t => decide (o.toInt < t.toInt)) (fun _ _ => 0#6)) a g s

/-- VE_SelB32 (R257). -/
def execVeSelB32 (a : Src) (g : Guard) (s : State) : Out :=
  trigger .ve 0x1C4 .opt (vselOp) a g s

/-- VE_Lid (R257). -/
def execVeLid (a : Src) (g : Guard) (s : State) : Out :=
  trigger .ve 0x1C5 .t (vlidOp) a g s

/-- VE_BeqN8 (R258). -/
def execVeBeqN8 (a : Src) (g : Guard) (s : State) : Out :=
  trigger .ve 0x1C6 .ot (vintOp 2 vBeq) a g s

/-- VE_BfindN8 (R258). -/
def execVeBfindN8 (a : Src) (g : Guard) (s : State) : Out :=
  trigger .ve 0x1C7 .ot (vintOp 2 vBfind) a g s

/-- VE_BcmpN8 (R258). -/
def execVeBcmpN8 (a : Src) (g : Guard) (s : State) : Out :=
  trigger .ve 0x1C8 .ot (vintOp 2 vBcmp) a g s

/-- VE_Crc32cN8 (R259). -/
def execVeCrc32cN8 (a : Src) (g : Guard) (s : State) : Out :=
  trigger .ve 0x1C9 .ot (vintOp 2 vCrc8) a g s

/-- VE_Crc32cB32 (R259). -/
def execVeCrc32cB32 (a : Src) (g : Guard) (s : State) : Out :=
  trigger .ve 0x1CA .ot (vintOp 2 vCrc32) a g s

/-- VE_Burl (R260). -/
def execVeBurl (a : Src) (g : Guard) (s : State) : Out :=
  trigger .ve 0x1CB .ot (vintOp 2 vBurl) a g s

/-- VE_Burlf (R260). -/
def execVeBurlf (a : Src) (g : Guard) (s : State) : Out :=
  trigger .ve 0x1CC .t (vintOp 2 vBurlf) a g s

/-- VE_RsumF32 (R261). -/
def execVeRsumF32 (a : Src) (g : Guard) (s : State) : Out :=
  trigger .ve 0x1CD .ot (vredOp 0x80000000 (Num.sumNode Num.fp32)) a g s

/-- VE_RmaxF32 (R261). -/
def execVeRmaxF32 (a : Src) (g : Guard) (s : State) : Out :=
  trigger .ve 0x1CE .ot (vredOp 0xFF800000 (fun _ => Num.maxminNode Num.fp32 true)) a g s

/-- VE_RminF32 (R261). -/
def execVeRminF32 (a : Src) (g : Guard) (s : State) : Out :=
  trigger .ve 0x1CF .ot (vredOp 0x7F800000 (fun _ => Num.maxminNode Num.fp32 false)) a g s

/-- VE_Perm (R262). -/
def execVePerm (a : Src) (g : Guard) (s : State) : Out :=
  trigger .ve 0x1D0 .ot (vpermOp) a g s

/-- VE_Lrot (R262). -/
def execVeLrot (a : Src) (g : Guard) (s : State) : Out :=
  trigger .ve 0x1D1 .ot (vlrotOp) a g s

/-- VE_Lext (R262). -/
def execVeLext (a : Src) (g : Guard) (s : State) : Out :=
  trigger .ve 0x1D2 .ot (vlextOp) a g s

/-- VE_Lins (R262). -/
def execVeLins (a : Src) (g : Guard) (s : State) : Out :=
  trigger .ve 0x1D3 .opt (vlinsOp) a g s

/-- VE_Ffs (R262). -/
def execVeFfs (a : Src) (g : Guard) (s : State) : Out :=
  trigger .ve 0x1D4 .t (vffsOp) a g s

/-- VE_LdB32 (R264). -/
def execVeLdB32 (a : Src) (g : Guard) (s : State) : Out :=
  trigger .ve 0x1D5 .t (vldOp 256 4) a g s

/-- VE_StB32 (R264). -/
def execVeStB32 (a : Src) (g : Guard) (s : State) : Out :=
  trigger .ve 0x1D6 .ot (vstOp) a g s

/-- VE_LdlB32 (R265). -/
def execVeLdlB32 (a : Src) (g : Guard) (s : State) : Out :=
  trigger .ve 0x1D7 .t (vldlOp) a g s

/-- VE_StlB32 (R265). -/
def execVeStlB32 (a : Src) (g : Guard) (s : State) : Out :=
  trigger .ve 0x1D8 .ot (vstlOp) a g s

/-- VE_GathB32 (R266). -/
def execVeGathB32 (a : Src) (g : Guard) (s : State) : Out :=
  trigger .ve 0x1D9 .ot (vgathOp) a g s

/-- VE_ScatB32 (R266). -/
def execVeScatB32 (a : Src) (g : Guard) (s : State) : Out :=
  trigger .ve 0x1DA .opt (vscatOp) a g s

/-- VE_Ld16B64 (R264). -/
def execVeLd16B64 (a : Src) (g : Guard) (s : State) : Out :=
  trigger .ve 0x1DB .t (vldOp 16 16) a g s

end Sys2Proof.Machine
end

