-- ==== Sys2Proof/Machine/Engine.lean ====
section
/-!
DEFINITION. What the matrix and copy engines share: the format record (06_numbers R130), the reading of records and
descriptors at a trigger (03_bundles R413, 14_matrix R280, 16_copy R297), the engine queues (03_bundles R78), the order
between commands of a core (04_memory R98, 14_matrix R273), and the reading and writing of a command's bytes
(05_ordering R115).
-/

namespace Sys2Proof.Machine

/-! ### The format record (R130) -/

/-- The fields of a format record, with its reserved bits. -/
structure FmtRec where
  fmt : Nat
  split : Nat
  clamp : BitVec 32
  ebase : Nat
  xbase : Nat
  estr : Nat
  xstr : Nat
  reserved : Nat
  deriving DecidableEq, Repr

/-- A format record from its 32 bytes. -/
def fmtRec (bs : List Byte) : FmtRec :=
  let v := leNat bs
  ⟨bitsOf v 0 8, bitsOf v 8 4, BitVec.ofNat 32 (bitsOf v 32 32), bitsOf v 64 56, bitsOf v 120 56, bitsOf v 176 32,
    bitsOf v 208 32, bitsOf v 12 20 + bitsOf v 240 16⟩

/-- The BX format of a record. -/
def FmtRec.bx (r : FmtRec) : Option Num.BxFmt := bxOf r.fmt

/-- The IEEE format of a record. -/
def FmtRec.ieee (r : FmtRec) : Option Num.Fmt :=
  match r.fmt with
  | 0 => some Num.fp32
  | 1 => some Num.fp16
  | 2 => some Num.bf16
  | _ => none

/-- The width of an integer format of a record. -/
def FmtRec.int (r : FmtRec) : Option Nat :=
  match r.fmt with
  | 6 => some 8
  | 7 => some 16
  | 8 => some 32
  | _ => none

/-- Whether a record's format is one of the 16-bit formats. -/
def FmtRec.half (r : FmtRec) : Bool := decide (r.fmt = 1 ∨ r.fmt = 2)

/-- The bytes of an element of an IEEE or integer format. -/
def FmtRec.esize (r : FmtRec) : Nat :=
  match r.fmt with
  | 0 => 4
  | 8 => 4
  | 6 => 1
  | _ => 2

/-- Whether a CLAMP field obeys R130 for an IEEE format: positive, finite, and exactly a value of the format. -/
def ieeeClampOk (f : Num.Fmt) (clamp : BitVec 32) : Bool :=
  match Num.f32 clamp with
  | .fin false m e =>
    let r := Num.cvt f .rne (.fin false m e)
    decide (m ≠ 0) && decide (r.1 < f.infBits) && Num.eqV (Num.ofBits f r.1) (.fin false m e)
  | _ => false

/-- Whether the CLAMP field of a record obeys R130. -/
def FmtRec.clampOk (r : FmtRec) : Bool :=
  decide (r.clamp = 0#32) ||
  (match r.ieee, r.bx with
    | some f, _ => ieeeClampOk f r.clamp
    | none, some b => Num.bxOnGrid b r.clamp
    | none, none => false)

/-- Whether a record is valid (R130). -/
def FmtRec.valid (r : FmtRec) : Bool :=
  decide (r.fmt ≤ 8) && decide (r.reserved = 0) && r.clampOk &&
  (if r.bx.isSome then
    decide (r.ebase % 8 = 0) && decide (r.estr % 8 = 0) && decide (r.xbase % 2 = 0) && decide (r.xstr % 2 = 0)
  else
    decide (r.split = 0) && decide (r.xbase = 0) && decide (r.xstr = 0) &&
      decide (r.ebase % r.esize = 0) && decide (r.estr % r.esize = 0))

/-- The address of element `c` of row `i` (14_matrix R282). -/
def FmtRec.eaddr (r : FmtRec) (i c : Nat) : Nat := r.ebase + i * r.estr + c * r.esize

/-- The address of BX block `b` of row `i`, with `w` the element width (14_matrix R282). -/
def FmtRec.baddr (r : FmtRec) (w i b : Nat) : Nat := r.ebase + i * r.estr + b * (4 * w)

/-- The address of the exponents of BX block `b` of row `i` (14_matrix R282). -/
def FmtRec.xaddr (r : FmtRec) (i b : Nat) : Nat := r.xbase + i * r.xstr + 2 * b

/-- The exact value of an element of an IEEE or integer format from its bits (R122, R126). -/
def FmtRec.value (r : FmtRec) (bits : Nat) : Num.FVal :=
  match r.ieee with
  | some f => Num.ofBits f bits
  | none =>
    let v := (BitVec.ofNat (8 * r.esize) bits).toInt
    .fin (decide (v < 0)) v.natAbs 0

/-- An exact value written to an IEEE or integer format: RNE, then the clamp or the saturation (R126, R132, R133, R306). -/
def FmtRec.round (r : FmtRec) (x : Num.FVal) : Nat :=
  match r.ieee with
  | some f =>
    Num.cvtClamp f (if r.clamp = 0#32 then none else some (Num.cvt f .rne (Num.f32 r.clamp)).1) x
  | none =>
    let w := 8 * r.esize
    (BitVec.ofInt w (Num.toInt .rne w x).1).toNat

/-- A BX block of 32 exact values: its element bytes and its two exponent bytes (R128, R129). -/
def FmtRec.block (r : FmtRec) (b : Num.BxFmt) (x : List Num.FVal) : List Byte × List Byte :=
  let e := Num.bxEncode b r.split r.clamp x
  (leBytes b.blockBytes (Num.bxPack b e.2.2.1), [BitVec.ofNat 8 e.1, BitVec.ofNat 8 e.2.1])

/-- The 32 exact values of a BX block from its element bytes and its exponents (R127). -/
def bxValues (b : Num.BxFmt) (blk e0 e1 : Nat) : List Num.FVal :=
  (List.range 32).map fun k => Num.bxValue b e0 e1 (Num.bxElem b blk k)

/-! ### Reading a record or descriptor at a trigger -/

/-- `n` bytes of a record, descriptor, table or index list read as an `ls` load as they stand before the group: WATCH,
LEASE_EXIT, the level fault, then what remains (R291, R311, R413); late data freezes the core (R372). The rest of the
trigger gets the bytes and their taint. -/
def readRecord (level : Byte) (va n : Nat) (s : State) (k : State → List Byte → Bool → MoveR) : MoveR :=
  match s.vetLevel level .record none [⟨va, n, false⟩] [⟨va, n, false⟩] with
  | .ok s [p] => let r := s.readBefore p; k (r.1.recordLate va) r.2.1 r.2.2
  | .ok s _ => k s [] false
  | r => r.failed.lateAs 4

/-- The data accesses of a command checked (R291, R311), with the fault of an ungranted completion counter: the rest gets
the pieces it reads and those it writes, in element order. -/
def admitData (level : Byte) (gate : Option Byte) (l : List Span) (s : State) (k : State → List Piece → List Piece → MoveR) : MoveR :=
  admitLevel level .command gate s l l fun s ps =>
    k s ((ps.filter fun a => !a.span.write).flatMap SpanP.ps) ((ps.filter fun a => a.span.write).flatMap SpanP.ps)

/-! ### Queues (R78) -/

/-- The entries of a queue: the commands that have not started. -/
def waitingCmds (q : List Cmd) : Nat := (q.filter fun c => !c.started).length

/-- Whether an engine queue of a core is full (R78). -/
def queueFull (q : List Cmd) : Bool := decide (Config.queueDepth ≤ waitingCmds q)

/-- The engine queue of a unit on a core. -/
def Core.queue (k : Core) (u : Unit11) : List Cmd :=
  match u with
  | .mx => k.mxq
  | .cp => k.cpq
  | .ms => k.msq
  | _ => []

/-- A command put at the end of its engine's queue, with the next number of the core's program order. -/
def Core.push (k : Core) (u : Unit11) (c : Cmd) : Core :=
  let k := { k with seq := k.seq + 1 }
  match u with
  | .mx => { k with mxq := k.mxq ++ [c] }
  | .cp => { k with cpq := k.cpq ++ [c] }
  | .ms => { k with msq := k.msq ++ [c] }
  | _ => k

/-- A command entering its engine's queue, or the block of a full one (R78); its completion selector is resolved for the die of its
trigger (R191), and one that names a shared or gang counter passes the irreversible point (R327). -/
def State.enqueue (s : State) (u : Unit11) (c : Cmd) : MoveR :=
  if queueFull ((s.core s.cur.core).queue u) then .block (.queue u)
  else
    let v := s.viewer s.cur
    let c := { c with sel := c.sel.map fun w => (s.sel s.cur (BitVec.ofNat 64 w)).word }
    let s := s.updCore s.cur.core fun k => k.push u c
    let s := if v.ordered then { s with store := s.store.log v.lid v.stamp [.cmd s.cur.core c.id] } else s
    .ok (if (s.cmdSel s.cur c).irreversible then s.irrev s.cur else s)


/-! ### Order between the commands of a core (R98, R273) -/

/-- Whether a later command must wait in its engine for an earlier one. -/
def Cmd.waitsFor (later earlier : Cmd) : Bool :=
  let lr := rangesOfPieces later.reads
  let lw := rangesOfPieces later.writes
  piecesMeet earlier.writes lr || piecesMeet earlier.reads lw || piecesMeet earlier.writes lw

/-- Whether a command of a core has nothing earlier in the matrix and copy engines to wait for; one that has started is earlier
than every one that has not. -/
def Core.clear (k : Core) (c : Cmd) : Bool :=
  !k.held.any fun e => (decide (e.id < c.id) || (e.started && decide (e.id ≠ c.id))) && c.waitsFor e

/-- Whether a context waits for a precise stop that has been asked for: a kill chosen for its reaction, or a checkpoint, which
waits while a member runs its emulation handler (R214, R220, R240). -/
def State.stopping (s : State) (x : CtxRef) : Bool :=
  (s.reactOf x).any fun r => decide (r.action = some .kill) ||
    (decide (r.action = some .checkpoint) && !r.places.any fun p => (s.ctx p.1).emu)

/-- Whether a context's queued commands may start: not in a precise stop or a halt, where they stay queued (R214, R376). A stop
waits for a freeze line to drop, and so do its commands' stops (R204). -/
def State.mayStart (s : State) (x : CtxRef) : Bool :=
  ((s.core x.core).freeze.isSome || (!s.coreHalted x.core && !s.stopping x)) &&
    (match (s.ctx x).status with
      | .stopped _ _ => false
      | _ => true)

/-- A command of a queue marked as started. -/
def startCmd (q : List Cmd) (id : Nat) : List Cmd := q.map fun c => if c.id = id then { c with started := true } else c

/-! ### A command's bytes (R115) -/


/-- The sources of a command that other devices hold asked for, each once (R111). -/
def State.askSources (s : State) (core : Nat) (c : Cmd) : State :=
  let x := cmdAgent core c.id
  c.reads.foldl (fun s p => match p.page with
    | .remote dev _ _ => s.ask core 0 (s.cmdViewer c).asks ⟨x, dev, keyOff p.key, none, 0, none, false⟩
    | _ => s) s

/-- Whether a source of a command has not come from its device (R111). -/
def State.awaits (s : State) (core : Nat) (c : Cmd) : Bool := (s.missingPiece (cmdAgent core c.id) c.reads).isSome

/-- The leases that the reading of a command's sources leaves (R102). -/
def State.cmdLease (s : State) (c : Cmd) : State :=
  { s with store := c.reads.foldl (fun st p => st.lease s.devid (s.cmdViewer c) p) s.store }

/-- The sources of a command read whole: the bytes in element order, and the OR of their taints; leases are left. -/
def State.cmdRead (s : State) (x : CtxRef) (c : Cmd) : State × List Byte × Bool :=
  (s.cmdLease c, s.readPieces (cmdAgent x.core c.id) (s.cmdViewer c) c.reads)

/-- A command that stores to a pinned entry ends its reaction, and is gone without its completion (R352). -/
def State.cmdPinned (s : State) (x : CtxRef) (c : Cmd) (va : Nat) : State :=
  (s.engTrap x c va).updCore x.core fun k => { k with mxq := dropCmd k.mxq c.id, cpq := dropCmd k.cpq c.id }

/-- The destinations of a command written whole, in element order; none while there is no room for a version (R90,
R318). A pinned entry refuses the write (R352). -/
def State.cmdWrite (s : State) (x : CtxRef) (c : Cmd) (bytes : List Byte) (taint : Bool) : Option State :=
  match s.pinSpanIn s.pinned c.writes bytes with
  | some (_, va) => some (s.cmdPinned x c va)
  | none =>
    let v := s.cmdViewer c
    (s.roomFor x v c.writes).map fun s => (s.writePieces x v c.writes bytes taint).unpoison v c.writes

/-! ### From an engine's effect to its end (R14, R15, R115, R203, R400) -/

/-- Whether a core's freeze is due to the matrix scoreboard alone (R279). -/
def Core.scoreFrozen (k : Core) : Bool := k.freeze.any fun f => decide (f.cmask = 4#8)

/-- Whether a core's matrix engine runs: in a freeze only while that is due to the scoreboard alone (R203, R279). -/
def Core.mxRuns (k : Core) : Bool := !k.gated && (k.freeze.isNone || k.scoreFrozen)

/-- Whether a core's copy engine runs: not in a freeze (R203), but for a scoreboard freeze that waits through the matrix queue
for a copy command, which would never end otherwise (R279; log 135). -/
def Core.cpRuns (k : Core) : Bool :=
  !k.gated && (k.freeze.isNone || (k.scoreFrozen && k.mxq.any fun m => k.cpq.any fun c =>
    decide (c.id < m.id) && m.waitsFor c))

/-- A command that leaves its engine: its effect settled in its reaction's log, its event counted, its completion made. -/
def State.cmdEnd (s t : State) (core : Nat) (ev n : Nat) (c : Cmd) : State :=
  let x : CtxRef := ⟨core, c.ctx⟩
  let t := if n = 0 then t else t.event x ev n
  let t := (t.updCore core fun k => { k with mxq := dropCmd k.mxq c.id, cpq := dropCmd k.cpq c.id }).dropAsked (cmdAgent core c.id)
  s.settle (t.complete x c) core false c

/-- Whether a command stores to another device. -/
def Cmd.away (c : Cmd) : Bool := c.writes.any fun p => match p.page with
  | .remote _ _ _ => true
  | _ => false

/-- A started command of an engine comes to its end: its remote sources are asked for until they are here; a poisoned source
resets the partition (R400); its effect is made once, and it reports and leaves once its stores at other devices are
acknowledged (R14, R115). -/
def State.cmdFinish (s : State) (core : Nat) (effect : State → Cmd → Option State) (ev n : Nat) (c : Cmd) : State :=
  let live (t : State) : Bool := (t.core core).held.any fun e => decide (e.id = c.id)
  if c.sent then (if s.cmdFlits core c.id then s else s.cmdEnd s core ev n c)
  else if s.awaits core c then s.askSources core c
  else if s.poisoned c.reads then s.resetOf core
  else
    match effect s c with
    | none => s
    | some t =>
      if !live t then t
      else if c.away then
        let mark (q : List Cmd) : List Cmd := q.map fun e => if e.id = c.id then { e with sent := true } else e
        (s.settle t core true c).updCore core fun k => { k with mxq := mark k.mxq, cpq := mark k.cpq }
      else s.cmdEnd t core ev n c

/-! ### The canopy (R271, R93) -/

/-- The key of byte `b` of slot `s` of slice `j` of a context's canopy element plane. -/
def canopyKey (x : CtxRef) (j slot b : Nat) : Nat := keyOf .canopyElem (x.core * 4 + x.ctx) (j * 65536 + 32 * slot + b)

/-- The key of the first exponent byte of slot `s` of slice `j`. -/
def canopyExpKey (x : CtxRef) (j slot : Nat) : Nat := keyOf .canopyExp (x.core * 4 + x.ctx) (j * 4096 + 2 * slot)

/-- Slots of a context's canopy as a piece, by which fills and steps wait for one another (R273). -/
def canopyPiece (x : CtxRef) (slot n : Nat) : Piece := ⟨0, 32 * n, canopyKey x 0 slot 0, .local_⟩

/-- Slots per step of a format (R272). -/
def slotsPerStep (fmt : Nat) : Nat := if fmt = 1 ∨ fmt = 2 then 2 else 1

end Sys2Proof.Machine
end

