-- ==== Sys2Proof/Machine/Mx.lean ====
section
/-!
DEFINITION. The matrix engine (14_matrix R271-R292): the loop state, the tiles and their scoreboard, the eleven trigger
ports, and what a command does when it completes.
-/

namespace Sys2Proof.Machine

/-! ### The loop state (R276, R287, R288) -/

/-- SFMT of a loop state. -/
def mxFmt (w : Word) : Nat := bitsOf w.toNat 4 3
/-- BASE of a loop state. -/
def mxBase (w : Word) : Nat := bitsOf w.toNat 7 11
/-- CUR of a loop state. -/
def mxCur (w : Word) : Nat := bitsOf w.toNat 18 11
/-- PLEN of a loop state. -/
def mxPlen (w : Word) : Nat := bitsOf w.toNat 29 11
/-- REM of a loop state. -/
def mxRem (w : Word) : Nat := bitsOf w.toNat 40 24

/-- A loop state from its fields. -/
def mxWord (p fmt base cur plen rem : Nat) : Word :=
  BitVec.ofNat 64 (p + fmt * 2 ^ 4 + base * 2 ^ 7 + cur * 2 ^ 18 + plen * 2 ^ 29 + rem * 2 ^ 40)

/-- The bits that `mx.loop` writes: all but BASE. -/
def mxLoopMask : Word := mxWord 0xF 7 0 0x7FF 0x7FF 0xFFFFFF
/-- The bits that `mx.off` writes: BASE and CUR. -/
def mxOffMask : Word := mxWord 0 0 0x7FF 0x7FF 0 0
/-- The bits that `mx.step` writes: the predicates, CUR and REM. -/
def mxStepMask : Word := mxWord 0xF 0 0 0x7FF 0 0xFFFFFF

/-- Whether a step is real, and what it and the loop state become (R287): whether REM > 0, and the new word. -/
def mxStepWord (w : Word) : Word :=
  let real := decide (0 < mxRem w)
  let rem := mxRem w - 1
  let cur := mxCur w + slotsPerStep (mxFmt w)
  let edge := real && decide (cur = mxPlen w + 1)
  let p := (if 0 < rem then 1 else 0) + bitsOf w.toNat 0 1 * 2 + bitsOf w.toNat 1 1 * 4 + (if edge then 8 else 0)
  mxWord p 0 0 (if real then (if edge then 0 else cur) else mxCur w) 0 rem

/-! ### Tiles and the scoreboard (R275, R279) -/

/-- The bit of an A tile in a tile mask. -/
def aBit (n : Nat) : Nat := 2 ^ (n % 8)
/-- The bit of an accumulator tile in a tile mask. -/
def cBit (n : Nat) : Nat := 2 ^ (8 + n % 4)

/-- The tiles that a command reads and writes, and whether it is a step (R281). -/
def cmdTiles (port : Nat) (t : Word) : Nat × Nat × Bool :=
  let a := aBit (bitsOf t.toNat 0 3)
  let c := cBit (bitsOf t.toNat 0 2)
  match port with
  | 0x222 => (0, a, false)
  | 0x22A => (0, a, false)
  | 0x223 => (0, c, false)
  | 0x225 => (0, c, false)
  | 0x224 => (c, 0, false)
  | 0x22B => (c, c, false)
  | 0x226 => let d := cBit (bitsOf t.toNat 4 2); (a + d, d, true)
  | _ => (0, 0, false)

/-- Whether a trigger that reads and writes some tiles meets a busy one (R279): it writes a busy tile, or reads one that
a command in flight writes; a step only chains behind earlier steps. -/
def tilesBusy (q : List Cmd) (k rd wr : Nat) (step : Bool) : Bool :=
  (q.filter fun c => decide (c.ctx = k)).any fun c =>
    let m := cmdTiles c.port c.t.word
    !(step && m.2.2) && (decide (wr &&& (m.1 ||| m.2.1) ≠ 0) || decide (rd &&& m.2.1 ≠ 0))

/-- The tag that a tile will have once the commands in flight that write it are done (R73, R275). -/
def State.tileTag (s : State) (x : CtxRef) (bit : Nat) (now : Tag) : Tag :=
  match ((s.core x.core).mxq.filter fun c => decide (c.ctx = x.ctx) && decide ((cmdTiles c.port c.t.word).2.1 = bit)).getLast? with
  | some c => c.tag
  | none => now

/-- An A tile of a context. -/
def Ctx.aTile (c : Ctx) (n : Nat) : Tile := c.at8[Fin.ofNat 8 n]
/-- An accumulator tile of a context. -/
def Ctx.cTile (c : Ctx) (n : Nat) : Tile := c.ct4[Fin.ofNat 4 n]

/-- The check of R73 over latches and tiles together, then the operation with the common tag. -/
def withTiles (us : Uses) (tags : State → List Tag) (body : Opnds → State → MoveR) (a : Opnds) (s : State) : MoveR :=
  let b := s.me.opnds .mx us a.t
  let all := (us.vals b.o b.p b.t).map Value.tag ++ tags s
  match tagCheck s.me all with
  | some cause => .trap cause 4 0
  | none => body { b with tag := commonTag all } s

/-- A command entering the matrix queue: frozen on the scoreboard while it meets a busy tile (R278, R279). -/
def State.mxEnqueue (s : State) (c : Cmd) : MoveR :=
  let m := cmdTiles c.port c.t.word
  if tilesBusy (s.core s.cur.core).mxq s.cur.ctx m.1 m.2.1 m.2.2 then .block (.tiles m.1 m.2.1 m.2.2)
  else s.enqueue .mx c

/-- A command with its record, what it reads and writes, and what taints it beside its operands (R280). -/
def State.mxCmd (s : State) (port : Nat) (a : Opnds) (recs : List (List Byte)) (rd wr : List Piece) (taint : Bool) : Cmd :=
  let c := s.newCmd port a
  { c with recs := recs, reads := rd, writes := wr, taint := c.taint || taint }

/-! ### Operand words (R282) -/

/-- MX_FORM for a record address or an operand word out of its form, else the rest. -/
def mxForm (bad : Bool) (k : MoveR) : MoveR := if bad then fault5 cMxForm 0 else k

/-- *row0* of a position word. -/
def posRow (p : Word) : Nat := bitsOf p.toNat 0 32
/-- The column field of a position word. -/
def posCol (p : Word) : Nat := bitsOf p.toNat 32 32

/-- The record of a command read and judged (R291): the rest gets the record, its bytes and their taint. A fault of a field
that was read stands behind the record's own access faults (R218). -/
def mxRecord (a : Opnds) (late : FmtRec → Bool) (ok : FmtRec → Bool) (s : State)
    (k : State → FmtRec → List Byte → Bool → MoveR) : MoveR :=
  let va := a.o.word.toNat
  readRecord cMxLevel va 32 s fun s bs taint =>
    let r := fmtRec bs
    if late r then faultRead cMxForm 0
    else if !r.valid || !ok r then fault5 cTileFormat va
    else k s r bs taint

/-! ### Tile loads, accumulator loads and stores (R283-R286) -/

/-- The source spans of `mx.tld` in element order. -/
def tldSpans (r : FmtRec) (row0 kb : Nat) : List Span :=
  (List.range 64).flatMap fun i =>
    match r.bx with
    | some b => [⟨r.baddr b.w (row0 + i) kb, b.blockBytes, false⟩, ⟨r.xaddr (row0 + i) kb, 2, false⟩]
    | none => [⟨r.eaddr (row0 + i) (32 * kb), 64, false⟩]

/-- `mx.tld` (R283). -/
def tldOp (a : Opnds) (s : State) : MoveR :=
  mxForm (decide (a.t.word.toNat ≥ 8) || decide (a.o.word.toNat % 32 ≠ 0)) <|
    mxRecord a (fun _ => false) (fun r => r.half || r.bx.isSome) s fun s r bs taint =>
      admitData cMxLevel none (tldSpans r (posRow a.p.word) (posCol a.p.word)) s fun s rd wr =>
        s.mxEnqueue (s.mxCmd 0x222 a [bs] rd wr taint)

/-- `mx.xa` (R283): element by element, transposed. -/
def xaOp (a : Opnds) (s : State) : MoveR :=
  mxForm (decide (a.t.word.toNat ≥ 8) || decide (a.o.word.toNat % 32 ≠ 0)) <|
    mxRecord a (fun _ => false) FmtRec.half s fun s r bs taint =>
      let spans := (List.range 64).flatMap fun i => (List.range 32).map fun k =>
        (⟨r.eaddr (posRow a.p.word + k) (posCol a.p.word + i), 2, false⟩ : Span)
      admitData cMxLevel none spans s fun s rd wr => s.mxEnqueue (s.mxCmd 0x22A a [bs] rd wr taint)

/-- `mx.cld` (R284). -/
def cldOp (a : Opnds) (s : State) : MoveR :=
  mxForm (decide (a.t.word.toNat ≥ 4) || decide (a.o.word.toNat % 32 ≠ 0)) <|
    mxRecord a (fun _ => false) (fun r => decide (r.fmt = 0)) s fun s r bs taint =>
      let spans := (List.range 64).map fun i =>
        (⟨r.eaddr (posRow a.p.word + i) (posCol a.p.word), 256, false⟩ : Span)
      admitData cMxLevel none spans s fun s rd wr => s.mxEnqueue (s.mxCmd 0x223 a [bs] rd wr taint)

/-- The destination spans of `mx.cst` in element order (R285). -/
def cstSpans (r : FmtRec) (row0 c0 : Nat) : List Span :=
  (List.range 64).flatMap fun i =>
    match r.bx with
    | some b => (List.range 2).flatMap fun j =>
        [⟨r.baddr b.w (row0 + i) (c0 / 32 + j), b.blockBytes, true⟩, ⟨r.xaddr (row0 + i) (c0 / 32 + j), 2, true⟩]
    | none => [⟨r.eaddr (row0 + i) c0, 64 * r.esize, true⟩]


/-- `mx.cst` (R285): the tile is taken as it stands at the trigger, which no command in flight writes (R279, R280). Its data
taint is that of the tile and the operands. -/
def cstOp (a : Opnds) (s : State) : MoveR :=
  mxForm (decide (a.t.word.toNat ≥ 4) || decide (a.o.word.toNat % 32 ≠ 0)) <|
    mxRecord a (fun r => r.bx.isSome && decide (posCol a.p.word % 32 ≠ 0)) (fun _ => true) s fun s r bs _ =>
      admitData cMxLevel none (cstSpans r (posRow a.p.word) (posCol a.p.word)) s fun s rd wr =>
        let c := s.me.cTile (bitsOf a.t.word.toNat 0 2)
        s.mxEnqueue (s.mxCmd 0x224 a [bs, c.bytes] rd wr c.taint)

/-- `mx.zero` (R284). -/
def zeroOp (a : Opnds) (s : State) : MoveR :=
  mxForm (decide (a.t.word.toNat ≥ 4)) (s.mxEnqueue (s.mxCmd 0x225 a [] [] [] false))

/-- `mx.scl` (R286). -/
def sclOp (a : Opnds) (s : State) : MoveR :=
  mxForm (decide (a.t.word.toNat ≥ 4) || decide (a.o.word.toNat % 4 ≠ 0)) <|
    admitData cMxLevel none [⟨a.o.word.toNat, 256, false⟩] s fun s rd wr =>
      s.mxEnqueue (s.mxCmd 0x22B a [] rd wr false)

/-! ### The step, the walk and the rest (R287-R290) -/

/-- Whether a step word is out of its form (R282). -/
def stepBad (t : Word) : Bool := decide (bitsOf t.toNat 3 1 ≠ 0) || decide (t.toNat ≥ 64)

/-- A step's queueing, once its operands have passed R73 (R287). -/
def realStepOp (a : Opnds) (s : State) : MoveR :=
  let w := s.me.mxl
  let slot := mxBase w + mxCur w
  let sps := slotsPerStep (mxFmt w)
  if s.me.alloc.cnb / 32 < slot + sps then fault5 cMxCanopy slot
  else
    let c := s.mxCmd 0x226 a [] [canopyPiece s.cur slot sps] [] false
    match s.mxEnqueue { c with slot := slot, sfmt := mxFmt w } with
    | .ok s => .ok (s.landAt (.mxLoop (mxStepWord w) mxStepMask) (.sc SVal.zero))
    | r => r

/-- The tags of the tiles of a step (R281). -/
def stepTags (t : Word) (s : State) : List Tag :=
  let a := bitsOf t.toNat 0 3
  let c := bitsOf t.toNat 4 2
  [s.tileTag s.cur (aBit a) (s.me.aTile a).tag, s.tileTag s.cur (cBit c) (s.me.cTile c).tag]

/-- `mx.step` (R287): a null step touches no tile and enters no queue, and still rotates the predicates. -/
def stepOp (a : Opnds) (s : State) : MoveR :=
  if mxRem s.me.mxl = 0 then
    withTiles .t (fun _ => []) (fun b s => mxForm (stepBad b.t.word)
      (.ok (s.landAt (.mxLoop (mxStepWord s.me.mxl) 0xF#64) (.sc SVal.zero)))) a s
  else
    withTiles .t (stepTags a.t.word) (fun b s => mxForm (stepBad b.t.word) (realStepOp b s)) a s

/-- `mx.loop` (R288). -/
def loopOp (a : Opnds) (s : State) : MoveR :=
  let w := a.o.word.toNat
  let t := a.t.word.toNat
  let kp := bitsOf w 0 12
  let n := bitsOf w 16 24
  let sps := slotsPerStep t
  mxForm (decide (bitsOf w 12 4 ≠ 0 ∨ w ≥ 2 ^ 40 ∨ t < 1 ∨ 5 < t ∨ kp = 0 ∨ 2048 < kp ∨ 2048 < kp * sps))
    (.ok (s.landAt (.mxLoop (mxWord (if 0 < n then 1 else 0) t 0 0 (kp * sps - 1) n) mxLoopMask) (.sc SVal.zero)))

/-- `mx.off` (R288). -/
def offOp (a : Opnds) (s : State) : MoveR :=
  mxForm (decide (a.t.word.toNat ≥ 2048))
    (.ok (s.landAt (.mxLoop (mxWord 0 0 a.t.word.toNat 0 0 0) mxOffMask) (.sc SVal.zero)))

/-- Item 0 of `mx.busy` (R289): busy tiles of the context, and the core's commands queued or in a pipe. -/
def busyWord (q : List Cmd) (k : Nat) : Word :=
  let m := (q.filter fun c => decide (c.ctx = k)).foldl (fun (n : Nat) c =>
    let t := cmdTiles c.port c.t.word; n ||| t.1 ||| t.2.1) 0
  BitVec.ofNat 64 (m + q.length * 2 ^ 12)

/-- `mx.busy` (R289). -/
def busyOp (a : Opnds) (s : State) : MoveR :=
  mxForm (decide (a.t.word.toNat ≥ 2))
    (if a.t.word = 0#64 then
      .ok (s.land .mxq 1 (.scalar (busyWord (s.core s.cur.core).mxq s.cur.ctx) a.tag true) 0#6)
    else .ok (s.land .mxq 1 (.scalar s.me.mxl a.tag a.taint) 0#6))

/-- `mx.drain` (R290). -/
def drainOp (_ : Opnds) (s : State) : MoveR :=
  if (s.core s.cur.core).mxq.any fun c => decide (c.ctx = s.cur.ctx) then .block .mxDrain else .ok s

/-! ### The trigger ports -/

/-- MX_TLD (R283). -/
def execMxTld (a : Src) (g : Guard) (s : State) : Out := trigger .mx 0x222 .opt tldOp a g s

/-- MX_CLD (R284). -/
def execMxCld (a : Src) (g : Guard) (s : State) : Out := trigger .mx 0x223 .opt cldOp a g s

/-- MX_CST (R285): the accumulator tile is an operand too. -/
def execMxCst (a : Src) (g : Guard) (s : State) : Out :=
  trigger .mx 0x224 .none_
    (fun b => withTiles .opt (fun s => let n := bitsOf b.t.word.toNat 0 2; [s.tileTag s.cur (cBit n) (s.me.cTile n).tag])
      cstOp b) a g s

/-- MX_ZERO (R284). -/
def execMxZero (a : Src) (g : Guard) (s : State) : Out := trigger .mx 0x225 .t zeroOp a g s

/-- MX_STEP (R287). -/
def execMxStep (a : Src) (g : Guard) (s : State) : Out := trigger .mx 0x226 .none_ stepOp a g s

/-- MX_LOOP (R288). -/
def execMxLoop (a : Src) (g : Guard) (s : State) : Out := trigger .mx 0x227 .ot loopOp a g s

/-- MX_OFF (R288). -/
def execMxOff (a : Src) (g : Guard) (s : State) : Out := trigger .mx 0x228 .t offOp a g s

/-- MX_BUSY (R289). -/
def execMxBusy (a : Src) (g : Guard) (s : State) : Out := trigger .mx 0x229 .t busyOp a g s

/-- MX_XA (R283). -/
def execMxXa (a : Src) (g : Guard) (s : State) : Out := trigger .mx 0x22A .opt xaOp a g s

/-- MX_SCL (R286): the accumulator tile is an operand too. -/
def execMxScl (a : Src) (g : Guard) (s : State) : Out :=
  trigger .mx 0x22B .none_
    (fun b => withTiles .ot (fun s => let n := bitsOf b.t.word.toNat 0 2; [s.tileTag s.cur (cBit n) (s.me.cTile n).tag])
      sclOp b) a g s

/-- MX_DRAIN (R290). -/
def execMxDrain (a : Src) (g : Guard) (s : State) : Out := trigger .mx 0x22C .none_ drainOp a g s

/-! ### What a command does when it completes (R279, R283-R287) -/

/-- An A tile set. -/
def Ctx.setA (c : Ctx) (n : Nat) (t : Tile) : Ctx := { c with at8 := c.at8.set (Fin.ofNat 8 n) t }
/-- An accumulator tile set. -/
def Ctx.setC (c : Ctx) (n : Nat) (t : Tile) : Ctx := { c with ct4 := c.ct4.set (Fin.ofNat 4 n) t }

/-- Bytes `off` to `off + n - 1` of a tile; a byte not listed is 0. -/
def Tile.slice (t : Tile) (off n : Nat) : List Byte := (List.range n).map fun i => t.bytes.getD (off + i) 0#8

/-- FP32 element `i` of an accumulator tile (R275). -/
def Tile.f32 (t : Tile) (i : Nat) : Nat := leNat (t.slice (4 * i) 4)

/-- The bytes of an A tile loaded from BX blocks, each with its exponents behind it, in the layout of R274. -/
def bxTileBytes (b : Num.BxFmt) (src : List Byte) : List Byte :=
  let n := b.blockBytes + 2
  let rows := (List.range 64).map fun r => (src.drop (n * r)).take n
  let el := rows.flatMap fun r => r.take b.blockBytes
  el ++ List.replicate (2048 - el.length) 0#8 ++ rows.flatMap fun r => r.drop b.blockBytes

/-- Row `r` of an A tile under a step format (R274): its 32 exact values. -/
def tileRow (fmt : Nat) (t : Tile) (r : Nat) : List Num.FVal :=
  match bxOf fmt with
  | some b =>
    bxValues b (leNat (t.slice (b.blockBytes * r) b.blockBytes)) (t.bytes.getD (0x800 + 2 * r) 0#8).toNat
      (t.bytes.getD (0x801 + 2 * r) 0#8).toNat
  | none =>
    let f := if fmt = 1 then Num.fp16 else Num.bf16
    (List.range 32).map fun k => Num.ofBits f (leNat (t.slice (64 * r + 2 * k) 2))

/-- Column `j` of a B block at a slot under a step format (R272): its 32 exact values. -/
def State.canopyCol (s : State) (x : CtxRef) (fmt slot j : Nat) : List Num.FVal :=
  let m := s.store.mem
  match bxOf fmt with
  | some b =>
    bxValues b (leNat (cellsRead m (canopyKey x j slot 0) b.blockBytes)) (cellGet m (canopyExpKey x j slot)).toNat
      (cellGet m (canopyExpKey x j slot + 1)).toNat
  | none =>
    let f := if fmt = 1 then Num.fp16 else Num.bf16
    (List.range 32).map fun k => Num.ofBits f (leNat (cellsRead m (canopyKey x j slot (2 * k)) 2))

/-- Whether a slot that a step reads is tainted in some slice (R271, R287). -/
def State.slotTaint (s : State) (x : CtxRef) (fmt slot : Nat) : Bool :=
  (List.range 64).any fun j => (List.range (slotsPerStep fmt)).any fun m =>
    s.store.taint.contains (sectorOf (canopyKey x j (slot + m) 0))

/-- A step executed (R287, R136). -/
def State.stepEffect (s : State) (x : CtxRef) (c : Cmd) : State :=
  let t := c.t.word.toNat
  let ct := s.ctx x
  let ta := ct.aTile (bitsOf t 0 3)
  let tc := ct.cTile (bitsOf t 4 2)
  let cols := (List.range 64).map (s.canopyCol x c.sfmt c.slot)
  let bytes := (List.range 64).flatMap fun r =>
    let row := tileRow c.sfmt ta r
    (List.zipWith (fun j col =>
      leBytes 4 (Num.addV Num.fp32 .rne (Num.ofBits Num.fp32 (tc.f32 (64 * r + j)))
        (Num.ofBits Num.fp32 (Num.dot32 row col))).1) (List.range 64) cols).flatten
  let taint := c.taint || tc.taint || ta.taint || s.slotTaint x c.sfmt c.slot
  (s.updCtx x fun k => k.setC (bitsOf t 4 2) ⟨bytes, c.tag, taint⟩).event x 0x08 1

/-- The bytes that `mx.cst` stores, in element order (R285). -/
def cstBytes (r : FmtRec) (t : Tile) : List Byte :=
  (List.range 64).flatMap fun i =>
    let row := (List.range 64).map fun j => Num.ofBits Num.fp32 (t.f32 (64 * i + j))
    match r.bx with
    | some b => (List.range 2).flatMap fun j => let e := r.block b ((row.drop (32 * j)).take 32); e.1 ++ e.2
    | none => row.flatMap fun v => leBytes r.esize (r.round v)

/-- The elements of an accumulator tile scaled row by row (R286). -/
def sclBytes (t : Tile) (scale : List Byte) : List Byte :=
  (List.range 64).flatMap fun r =>
    let f := Num.ofBits Num.fp32 (leNat ((scale.drop (4 * r)).take 4))
    (List.range 64).flatMap fun j =>
      leBytes 4 (Num.mulV Num.fp32 .rne (Num.ofBits Num.fp32 (t.f32 (64 * r + j))) f).1

/-- A matrix command's effect; none while a store waits for version room. -/
def State.mxEffect (s : State) (core : Nat) (c : Cmd) : Option State :=
  let x : CtxRef := ⟨core, c.ctx⟩
  let a := bitsOf c.t.word.toNat 0 3
  let d := bitsOf c.t.word.toNat 0 2
  let r := fmtRec (c.recs.headD [])
  let mine := decide ((s.ctx x).react = c.react)
  match c.port with
  | 0x224 =>
    s.cmdWrite x c (cstBytes r ⟨c.recs.getD 1 [], c.tag, c.taint⟩) c.taint
  | 0x226 => some (if mine then s.stepEffect x c else s)
  | 0x225 => some (if mine then s.updCtx x fun k => k.setC d ⟨[], c.tag, c.taint⟩ else s)
  | p =>
    if !mine then some s
    else
      let q := s.cmdRead x c
      let taint := c.taint || q.2.2
      some (q.1.updCtx x fun k =>
        if p = 0x223 then k.setC d ⟨q.2.1, c.tag, taint⟩
        else if p = 0x22B then
          k.setC d ⟨sclBytes (k.cTile d) q.2.1, c.tag, taint || (k.cTile d).taint⟩
        else
          k.setA a ⟨match r.bx with
            | some b => if p = 0x222 then bxTileBytes b q.2.1 else q.2.1
            | none => q.2.1, c.tag, taint⟩)

/-! ### Pipes (R278) -/

/-- Whether a command runs in the array pipe. -/
def inArray (c : Cmd) : Bool := decide (c.port = 0x226 ∨ c.port = 0x225 ∨ c.port = 0x22B)

/-- The matrix engine takes the head command to its pipe, if the pipe is free, nothing earlier holds what the command reads or
writes, and its context is in no stop (R278, R98, R214, R273). -/
def State.mxStart (s : State) (core : Nat) : State :=
  let k := s.core core
  match k.mxq.find? fun c => !c.started with
  | none => s
  | some c =>
    if !k.mxRuns || !s.mayStart ⟨core, c.ctx⟩ || (k.mxq.any fun e => e.started && (inArray e == inArray c)) || !k.clear c then s
    else s.updCore core fun k => { k with mxq := startCmd k.mxq c.id }

/-- A context that waits frozen on the scoreboard goes on once its tiles are free (R279). -/
def State.tilesFree (s : State) (core : Nat) : State :=
  (List.range 4).foldl (fun (s : State) i =>
    match ((s.core core).ctx i).status with
    | .blocked (.tiles rd wr step) =>
      if tilesBusy (s.core core).mxq i rd wr step then s
      else (s.setStatus ⟨core, i⟩ .ready).dropFreeze core
    | _ => s) s

/-- The running command of a pipe comes to its end: its tiles written or its stores performed, and what waited for its tiles
goes on (R278, R279). -/
def State.mxComplete (s : State) (core : Nat) (array : Bool) : State :=
  let k := s.core core
  if !k.mxRuns then s
  else
    match k.mxq.find? fun c => c.started && (inArray c == array) with
    | none => s
    | some c => (s.cmdFinish core (fun s c => s.mxEffect core c) 0 0 c).tilesFree core

end Sys2Proof.Machine
end

