-- ==== Sys2Proof/Machine/Cp.lean ====
section
/-!
DEFINITION. The copy engine (16_copy R296-R312): the thirteen trigger ports, batches, and what a command does when it
completes.
-/

namespace Sys2Proof.Machine

/-! ### Completion selectors (R298) -/

/-- A completion selector, none for 0xFFFFFFFF. -/
def cselOf (w : Nat) : Option Nat := if w = 0xFFFFFFFF then none else some w

/-- SY_FORM for a bad completion selector (R298, R311 order 6), else the rest with the fault of an ungranted one. Behind the
read of a record or descriptor it stands behind that read's access faults (R218). -/
def withSel (read : Bool) (s : State) (sel : Option Nat) (k : Option Byte → MoveR) : MoveR :=
  match sel with
  | none => k none
  | some w =>
    match s.selFault s.cur (BitVec.ofNat 64 w) with
    | none => k none
    | some c => if c ≠ cSyForm then k (some c) else if read then faultRead cSyForm 0 else fault5 cSyForm 0

/-- CP_FORM for an operand word or address out of its form (R311 order 1), else the rest. -/
def cpForm (bad : Bool) (k : MoveR) : MoveR := if bad then fault5 cCpForm 0 else k

/-- A data command entering the copy queue; its completion count is the context's latest (R301). -/
def State.cpEnqueue (s : State) (port : Nat) (a : Opnds) (recs : List (List Byte)) (taint : Bool) (sel : Option Nat)
    (count : Nat) (rd wr : List Piece) : MoveR :=
  let c := s.newCmd port a
  let c := { c with
    recs := recs, reads := rd, writes := wr, taint := c.taint || taint, sel := sel
    count := BitVec.ofNat 64 count }
  match s.enqueue .cp c with
  | .ok s => .ok (if port = 0x269 then s else s.updCtx s.cur fun t => { t with lastCnt := BitVec.ofNat 64 count })
  | r => r

/-! ### Linear copies and fills (R302) -/

/-- `cp.lin` (R302). -/
def linOp (a : Opnds) (s : State) : MoveR :=
  let n := bitsOf a.t.word.toNat 0 32
  let sel := cselOf (bitsOf a.t.word.toNat 32 32)
  cpForm (decide (n = 0)) <| withSel false s sel fun gate =>
    admitData cCpLevel gate [⟨a.o.word.toNat, n, false⟩, ⟨a.p.word.toNat, n, true⟩] s fun s rd wr =>
      s.cpEnqueue 0x262 a [] false sel n rd wr

/-- `cp.fill` (R302). -/
def fillOp (a : Opnds) (s : State) : MoveR :=
  let n := bitsOf a.t.word.toNat 0 32
  let sel := cselOf (bitsOf a.t.word.toNat 32 32)
  cpForm (decide (n = 0)) <| withSel false s sel fun gate =>
    admitData cCpLevel gate [⟨a.p.word.toNat, n, true⟩] s fun s rd wr => s.cpEnqueue 0x266 a [] false sel n rd wr

/-! ### Strided copies and gathers (R303) -/

/-- The fields of a strided descriptor. -/
structure Strided where
  src : Nat
  dst : Nat
  csel : Nat
  esz : Nat
  n0 : Nat
  n1 : Nat
  n2 : Nat
  ss : List Int
  ds : List Int
  idx : Nat
  reserved : Nat
  deriving DecidableEq, Repr

/-- A signed 32-bit field. -/
def sfield (v at_ : Nat) : Int := (BitVec.ofNat 32 (bitsOf v at_ 32)).toInt

/-- A strided descriptor from its 64 bytes (R303). -/
def strided (bs : List Byte) : Strided :=
  let v := leNat bs
  ⟨bitsOf v 0 56, bitsOf v 64 56, bitsOf v 128 32, bitsOf v 160 3, bitsOf v 192 16, bitsOf v 208 16, bitsOf v 224 16,
    [sfield v 256, sfield v 288, sfield v 320], [sfield v 352, sfield v 384, sfield v 416], bitsOf v 448 56,
    bitsOf v 56 8 + bitsOf v 120 8 + bitsOf v 163 29 + bitsOf v 240 16 + bitsOf v 504 8⟩

/-- Whether the strides from dimension `n` on are zero and the others multiples of the element size. -/
def stridesOk (e n : Nat) (l : List Int) : Bool :=
  (l.take n).all (fun x => decide (x % (e : Int) = 0)) && (l.drop n).all fun x => decide (x = 0)

/-- Whether a descriptor breaks R303, for `dims` dimensions (0 for a gather). -/
def Strided.bad (d : Strided) (dims : Nat) : Bool :=
  let e := 2 ^ d.esz
  decide (d.reserved ≠ 0) || decide (4 < d.esz) || decide (d.n0 = 0) ||
  (if dims < 2 then decide (d.n1 ≠ 0) else decide (d.n1 = 0)) ||
  (if dims < 3 then decide (d.n2 ≠ 0) else decide (d.n2 = 0)) ||
  decide (d.src % e ≠ 0) || decide (d.dst % e ≠ 0) ||
  !stridesOk e dims d.ss || !stridesOk e (max 1 dims) d.ds ||
  (if dims = 0 then decide (d.idx % 4 ≠ 0) else decide (d.idx ≠ 0))

/-- An address from a base and a signed displacement, in 64 bits. -/
def addrPlus (base : Nat) (off : Int) : Nat := (((base : Int) + off) % 2 ^ 64).toNat

/-- One axis of a stride. -/
def strideAt (l : List Int) (i : Nat) (k : Nat) : Int := l.getD i 0 * (k : Int)

/-- The element pairs of `cp.str2` and `cp.str3` in element order: source and destination addresses. -/
def Strided.pairs (d : Strided) : List (Nat × Nat) :=
  (List.range (max 1 d.n2)).flatMap fun i2 => (List.range d.n1).flatMap fun i1 => (List.range d.n0).map fun i0 =>
    (addrPlus d.src (strideAt d.ss 0 i0 + strideAt d.ss 1 i1 + strideAt d.ss 2 i2),
      addrPlus d.dst (strideAt d.ds 0 i0 + strideAt d.ds 1 i1 + strideAt d.ds 2 i2))

/-- The spans of element pairs: each element's source before its destination. -/
def pairSpans (e : Nat) (l : List (Nat × Nat)) : List Span :=
  l.flatMap fun p => [⟨p.1, e, false⟩, ⟨p.2, e, true⟩]

/-- `cp.str2` and `cp.str3` (R303). -/
def strOp (port dims : Nat) (a : Opnds) (s : State) : MoveR :=
  let va := a.t.word.toNat
  cpForm (decide (va % 64 ≠ 0)) <| readRecord cCpLevel va 64 s fun s bs taint =>
    let d := strided bs
    if d.bad dims then faultRead cCpForm va
    else
      let sel := cselOf d.csel
      withSel true s sel fun gate =>
        admitData cCpLevel gate (pairSpans (2 ^ d.esz) d.pairs) s fun s rd wr =>
          s.cpEnqueue port a [bs] taint sel (d.n0 * d.n1 * max 1 d.n2 * 2 ^ d.esz) rd wr

/-- The offsets of a gather's index list. -/
def gatherOffsets (bs : List Byte) (n : Nat) : List Nat := (List.range n).map fun e => leNat ((bs.drop (4 * e)).take 4)

/-- The element pairs of a gather in element order, the skipped ones left out. -/
def Strided.gathered (d : Strided) (offs : List Nat) : List (Nat × Nat) :=
  ((offs.zip (List.range offs.length)).filter fun p => p.1 != 0xFFFFFFFF).map fun p =>
    (addrPlus d.src p.1, addrPlus d.dst (strideAt d.ds 0 p.2))

/-- `cp.gath` (R303): the index list is read after the descriptor and before its fields are judged (R311). -/
def cgathOp (a : Opnds) (s : State) : MoveR :=
  let va := a.t.word.toNat
  cpForm (decide (va % 64 ≠ 0)) <| readRecord cCpLevel va 64 s fun s bs taint =>
    let d := strided bs
    readRecord cCpLevel d.idx (4 * d.n0) s fun s ix ixTaint =>
      let offs := gatherOffsets ix d.n0
      if d.bad 0 then faultRead cCpForm va
      else
        match (List.range d.n0).find? fun e =>
            decide (offs.getD e 0 ≠ 0xFFFFFFFF) && decide (offs.getD e 0 % 2 ^ d.esz ≠ 0) with
        | some e => faultRead cCpForm (d.idx + 4 * e)
        | none =>
          let sel := cselOf d.csel
          withSel true s sel fun gate =>
            admitData cCpLevel gate (pairSpans (2 ^ d.esz) (d.gathered offs)) s fun s rd wr =>
              s.cpEnqueue 0x265 a [bs, ix] (taint || ixTaint) sel (d.n0 * 2 ^ d.esz) rd wr

/-! ### Canopy fills (R304) -/

/-- The source spans of a canopy fill: rows, then blocks of a row. -/
def canopySpans (r : FmtRec) (nb kb : Nat) : List Span :=
  (List.range 64).flatMap fun j => (List.range nb).flatMap fun m =>
    match r.bx with
    | some b => [⟨r.baddr b.w j (kb + m), b.blockBytes, false⟩, ⟨r.xaddr j (kb + m), 2, false⟩]
    | none => [⟨r.eaddr j (32 * (kb + m)), 64, false⟩]

/-- The bytes that one block of a canopy fill moves. -/
def FmtRec.fillBytes (r : FmtRec) : Nat :=
  match r.bx with
  | some b => b.blockBytes + 2
  | none => 64

/-- `cp.canopy` (R304). -/
def canopyOp (a : Opnds) (s : State) : MoveR :=
  let w := a.t.word.toNat
  let va := a.o.word.toNat
  let slot := bitsOf w 0 12
  let nb := bitsOf w 12 12
  let kb := bitsOf w 24 24
  cpForm (decide (2048 ≤ slot ∨ nb = 0 ∨ 2048 < nb ∨ 2 ^ 48 ≤ w ∨ va % 32 ≠ 0)) <|
    readRecord cCpLevel va 32 s fun s bs taint =>
      let r := fmtRec bs
      let sel := cselOf a.p.word.toNat
      withSel true s sel fun gate =>
        if !r.valid || !(r.half || r.bx.isSome) then fault5 cCopyFormat va
        else
          let n := nb * slotsPerStep r.fmt
          let lim := s.me.alloc.cnb / 32
          if lim < slot + n then fault5 cCpCanopy (max slot lim)
          else
            admitData cCpLevel gate (canopySpans r nb kb) s fun s rd _ =>
              s.cpEnqueue 0x268 a [bs] taint sel (64 * nb * r.fillBytes) rd [canopyPiece s.cur slot n]

/-! ### Grids (R305-R310) -/

/-- The fields of a grid descriptor (R305). -/
structure GridDesc where
  srec : Nat
  drec : Nat
  csel : Nat
  mx : Nat
  my : Nat
  mz : Nat
  nx : Nat
  ny : Nat
  nz : Nat
  reserved : Nat
  deriving DecidableEq, Repr

/-- A grid descriptor from its 64 bytes. -/
def gridDesc (bs : List Byte) : GridDesc :=
  let v := leNat bs
  ⟨bitsOf v 0 56, bitsOf v 64 56, bitsOf v 128 32, bitsOf v 192 16, bitsOf v 208 16, bitsOf v 224 16, bitsOf v 256 16,
    bitsOf v 272 16, bitsOf v 288 16,
    bitsOf v 56 8 + bitsOf v 120 8 + bitsOf v 160 32 + bitsOf v 240 16 + bitsOf v 304 208⟩

/-- Whether a descriptor's own fields break R305. -/
def GridDesc.bad (d : GridDesc) : Bool :=
  decide (d.reserved ≠ 0 ∨ d.mx = 0 ∨ d.my = 0 ∨ d.mz = 0 ∨ d.nx = 0 ∨ d.ny = 0 ∨ d.nz = 0)

/-- The fields of a stencil table (R307). -/
structure Stencil where
  dim : Nat
  bnd : Nat
  shift : Nat
  lvl : Nat
  drec : Nat
  weights : List Int
  reserved : Nat
  deriving DecidableEq, Repr

/-- A stencil table from its 128 bytes. -/
def stencil (bs : List Byte) : Stencil :=
  let v := leNat bs
  ⟨bitsOf v 0 2, bitsOf v 2 2, bitsOf v 8 5, bitsOf v 16 2, bitsOf v 64 56,
    (List.range 27).map fun k => (BitVec.ofNat 16 (bitsOf v (128 + 16 * k) 16)).toInt,
    bitsOf v 4 4 + bitsOf v 13 3 + bitsOf v 18 46 + bitsOf v 120 8 + bitsOf v 560 464⟩

/-- Whether a table breaks R307. -/
def Stencil.bad (t : Stencil) : Bool :=
  decide (t.dim < 2 ∨ t.bnd = 3 ∨ 1 < t.lvl ∨ t.reserved ≠ 0) ||
    (decide (t.dim = 2) && (t.weights.drop 9).any fun w => decide (w ≠ 0))

/-- The spans of grid row `i` of a record, `n` points long, in element order (R305). -/
def FmtRec.rowSpans (r : FmtRec) (i n : Nat) (write : Bool) : List Span :=
  match r.bx with
  | some b => (List.range ((n + 31) / 32)).flatMap fun k =>
      [⟨r.baddr b.w i k, b.blockBytes, write⟩, ⟨r.xaddr i k, 2, write⟩]
  | none => [⟨r.eaddr i 0, n * r.esize, write⟩]

/-- The spans of a grid of `rows` rows of `n` points. -/
def FmtRec.gridSpans (r : FmtRec) (rows n : Nat) (write : Bool) : List Span :=
  (List.range rows).flatMap fun i => r.rowSpans i n write

/-- The bytes of a grid row. -/
def FmtRec.rowBytes (r : FmtRec) (n : Nat) : Nat :=
  match r.bx with
  | some b => (n + 31) / 32 * (b.blockBytes + 2)
  | none => n * r.esize

/-- The exact values of a grid row from its bytes (R127, R306). -/
def FmtRec.rowValues (r : FmtRec) (n : Nat) (bs : List Byte) : List Num.FVal :=
  match r.bx with
  | some b =>
    ((List.range ((n + 31) / 32)).flatMap fun k =>
      let blk := (bs.drop (k * (b.blockBytes + 2))).take (b.blockBytes + 2)
      bxValues b (leNat (blk.take b.blockBytes)) (blk.getD b.blockBytes 0#8).toNat
        (blk.getD (b.blockBytes + 1) 0#8).toNat).take n
  | none => (List.range n).map fun k => r.value (leNat ((bs.drop (k * r.esize)).take r.esize))

/-- The rows of a grid from its bytes. -/
def FmtRec.grid (r : FmtRec) (rows n : Nat) (bs : List Byte) : List (List Num.FVal) :=
  (List.range rows).map fun i => r.rowValues n ((bs.drop (i * r.rowBytes n)).take (r.rowBytes n))

/-- The bytes of a row of exact output values (R306). -/
def FmtRec.writeRow (r : FmtRec) (vals : List Num.FVal) : List Byte :=
  match r.bx with
  | some b => (List.range (vals.length / 32)).flatMap fun k =>
      let e := r.block b ((vals.drop (32 * k)).take 32); e.1 ++ e.2
  | none => vals.flatMap fun v => leBytes r.esize (r.round v)

/-- A source coordinate under the boundary rule (R309): none for the zero rule's +0. -/
def bound (bnd : Nat) (u : Int) (m : Nat) : Option Nat :=
  if 0 ≤ u ∧ u < m then some u.toNat
  else if bnd = 0 then none
  else
    let u := if bnd = 2 then (if u < 0 then -u else 2 * ((m : Int) - 1) - u) else u
    some (min (max u 0) ((m : Int) - 1)).toNat

/-- A point of a grid of `my` rows a plane, with the boundary rule applied; +0 outside under the zero rule. -/
def pointAt (g : List (List Num.FVal)) (my : Nat) (x y z : Option Nat) : Num.FVal :=
  match x, y, z with
  | some x, some y, some z => (g.getD (y + my * z) []).getD x (.fin false 0 0)
  | _, _, _ => .fin false 0 0

/-- A value scaled by a power of two. -/
def scaleVal (v : Num.FVal) (k : Int) : Num.FVal :=
  match v with
  | .fin n m e => .fin n m (e + k)
  | v => v

/-- The weight of a tap as an exact value: a zero weight counts as +0 (R139). -/
def weightVal (w : Int) : Num.FVal := .fin (decide (w < 0)) w.natAbs 0

/-- One output point of a restriction or a prolongation, formed exactly (R310, R139). -/
def gridPoint (t : Stencil) (d : GridDesc) (restrict : Bool) (src : List (List Num.FVal)) (old : Option Num.FVal)
    (x y z : Nat) : Num.FVal :=
  let three := decide (t.dim = 3)
  let terms := (List.range (if three then 27 else 9)).filterMap fun k =>
    let dx : Int := (k % 3 : Nat) - 1
    let dy : Int := (k / 3 % 3 : Nat) - 1
    let dz : Int := if three then (k / 9 : Nat) - 1 else 0
    let fx : Int := (x : Int) - dx
    let fy : Int := (y : Int) - dy
    let fz : Int := (z : Int) - dz
    if !restrict && (decide (fx % 2 ≠ 0) || decide (fy % 2 ≠ 0) || (three && decide (fz % 2 ≠ 0))) then none
    else
      let u : Int × Int × Int :=
        if restrict then (2 * x + dx, 2 * y + dy, if three then 2 * z + dz else z)
        else (fx / 2, fy / 2, if three then fz / 2 else z)
      let v := pointAt src d.my (bound t.bnd u.1 d.mx) (bound t.bnd u.2.1 d.my) (bound t.bnd u.2.2 d.mz)
      some (scaleVal (Num.mulExact (weightVal (t.weights.getD k 0)) v) (-(t.shift : Int)))
  Num.sumExact (terms ++ old.toList)

/-- The completion count of a grid command (R305). -/
def GridDesc.count (d : GridDesc) (r : FmtRec) : Nat :=
  match r.bx with
  | some b => d.nx * d.ny * d.nz * b.w / 8 + d.nx / 32 * d.ny * d.nz * 2
  | none => d.nx * d.ny * d.nz * r.esize

/-- A grid command once its descriptor, table and records have been read (R305-R311): fields, then the selector, then the
records, then the data. -/
def gridBody (port : Nat) (a : Opnds) (recs : List (List Byte)) (taint : Bool) (fieldFault : Option Nat) (add : Bool)
    (d : GridDesc) (drec : Nat) (s : State) : MoveR :=
  match fieldFault with
  | some i => faultRead cCpForm i
  | none =>
    let sel := cselOf d.csel
    withSel true s sel fun gate =>
      let src := fmtRec (recs.getD 2 [])
      let dst := fmtRec (recs.getD 3 [])
      if !src.valid then fault5 cCopyFormat d.srec
      else if !dst.valid || (dst.bx.isSome && decide (d.nx % 32 ≠ 0)) then fault5 cCopyFormat drec
      else
        let out := dst.gridSpans (d.ny * d.nz) d.nx
        admitData cCpLevel gate (src.gridSpans (d.my * d.mz) d.mx false ++ (if add then out false else []) ++ out true) s
          fun s rd wr => s.cpEnqueue port a recs taint sel (d.count dst) rd wr

/-- `cp.cvt` (R306). -/
def cvtOp (a : Opnds) (s : State) : MoveR :=
  let va := a.t.word.toNat
  cpForm (decide (va % 64 ≠ 0)) <| readRecord cCpLevel va 64 s fun s gb tg =>
    let d := gridDesc gb
    if d.srec % 32 ≠ 0 ∨ d.drec % 32 ≠ 0 then faultRead cCpForm va
    else
      readRecord cCpLevel d.srec 32 s fun s sb ts => readRecord cCpLevel d.drec 32 s fun s db td =>
        gridBody 0x267 a [gb, [], sb, db] (tg || ts || td)
          (if d.bad || decide (d.mx ≠ d.nx ∨ d.my ≠ d.ny ∨ d.mz ≠ d.nz) then some va else none) false d d.drec s

/-- The field faults of a restriction or prolongation in order (R305, R307, R309, R310): the address reported. -/
def levelFault (d : GridDesc) (t : Stencil) (desc table : Nat) : Option Nat :=
  if d.bad || decide (d.drec ≠ 0) then some desc
  else if t.bad then some table
  else if (t.dim = 2 ∧ d.mz ≠ d.nz) ∨ (t.bnd = 2 ∧ (d.mx < 2 ∨ d.my < 2 ∨ (t.dim = 3 ∧ d.mz < 2))) then some desc
  else none

/-- `cp.restrict` and `cp.prolong` (R310). -/
def levelOp (port : Nat) (a : Opnds) (s : State) : MoveR :=
  let va := a.t.word.toNat
  let ta := a.o.word.toNat
  cpForm (decide (va % 64 ≠ 0 ∨ ta % 128 ≠ 0)) <| readRecord cCpLevel va 64 s fun s gb tg =>
    let d := gridDesc gb
    if d.srec % 32 ≠ 0 then faultRead cCpForm va
    else
      readRecord cCpLevel ta 128 s fun s tb tt =>
        let t := stencil tb
        if t.drec % 32 ≠ 0 then faultRead cCpForm ta
        else
          readRecord cCpLevel d.srec 32 s fun s sb ts => readRecord cCpLevel t.drec 32 s fun s db td =>
            gridBody port a [gb, tb, sb, db] (tg || tt || ts || td) (levelFault d t va ta) (decide (t.lvl = 1)) d t.drec s

/-- `cp.stbl` (R308). -/
def stblOp (a : Opnds) (s : State) : MoveR :=
  let va := a.t.word.toNat
  cpForm (decide (va % 128 ≠ 0)) <| readRecord cCpLevel va 128 s fun s tb tt =>
    let t := stencil tb
    if t.drec % 32 ≠ 0 ∨ t.bad then faultRead cCpForm va
    else s.cpEnqueue 0x269 a [tb] tt none 0 [] []

/-! ### Batches (R299-R301) -/

/-- A context's close markers in the queue: its outstanding batches. -/
def markers (q : List Cmd) (k : Nat) : Nat := (q.filter fun c => decide (c.ctx = k) && decide (c.port = 0x26C)).length

/-- A close (R299), which a full queue blocks where it needs a marker (R78). -/
def closeOp (_ : Opnds) (s : State) : MoveR :=
  let k := s.core s.cur.core
  if openLive k.cpq s.cur.ctx s.me.batch && queueFull k.cpq then .block (.queue .cp)
  else .ok (s.updCore s.cur.core fun k => k.closeBatch s.cur.ctx)

/-- `cp.waitb` (R300): the open batch is closed first, also where the group then waits; commands that its own group has
triggered are not waited for (log 131). -/
def waitbOp (a : Opnds) (s : State) : MoveR :=
  let n := a.t.word.toNat
  cpForm (decide (255 < n)) <|
    let q := (s.core s.cur.core).cpq.filter fun c => decide (c.id < s.ownFrom s.cur.core)
    let open_ := openLive q s.cur.ctx s.me.batch
    if open_ && queueFull q then .block (.queue .cp)
    else if n < markers q s.cur.ctx + (if open_ then 1 else 0) then .block (.waitb n)
    else closeOp a s

/-- `cp.cnt` (R301). -/
def cntOp (a : Opnds) (s : State) : MoveR :=
  let q := (s.core s.cur.core).cpq
  let mine := (q.filter fun c => decide (c.ctx = s.cur.ctx)).length
  let put (w : Word) (taint : Bool) : MoveR := .ok (s.land .cpq 1 (.scalar w a.tag taint) 0#6)
  match a.t.word.toNat with
  | 0 => put (BitVec.ofNat 64 (markers q s.cur.ctx)) true
  | 1 => put (BitVec.ofNat 64 mine) true
  | 2 => put s.me.lastCnt a.taint
  | _ => fault5 cCpForm 0

/-! ### The trigger ports -/

/-- CP_LIN (R302). -/
def execCpLin (a : Src) (g : Guard) (s : State) : Out := trigger .cp 0x262 .opt linOp a g s

/-- CP_STR2 (R303). -/
def execCpStr2 (a : Src) (g : Guard) (s : State) : Out := trigger .cp 0x263 .t (strOp 0x263 2) a g s

/-- CP_STR3 (R303). -/
def execCpStr3 (a : Src) (g : Guard) (s : State) : Out := trigger .cp 0x264 .t (strOp 0x264 3) a g s

/-- CP_GATH (R303). -/
def execCpGath (a : Src) (g : Guard) (s : State) : Out := trigger .cp 0x265 .t cgathOp a g s

/-- CP_FILL (R302). -/
def execCpFill (a : Src) (g : Guard) (s : State) : Out := trigger .cp 0x266 .opt fillOp a g s

/-- CP_CVT (R306). -/
def execCpCvt (a : Src) (g : Guard) (s : State) : Out := trigger .cp 0x267 .t cvtOp a g s

/-- CP_CANOPY (R304). -/
def execCpCanopy (a : Src) (g : Guard) (s : State) : Out := trigger .cp 0x268 .opt canopyOp a g s

/-- CP_STBL (R308). -/
def execCpStbl (a : Src) (g : Guard) (s : State) : Out := trigger .cp 0x269 .t stblOp a g s

/-- CP_RESTRICT (R310). -/
def execCpRestrict (a : Src) (g : Guard) (s : State) : Out := trigger .cp 0x26A .ot (levelOp 0x26A) a g s

/-- CP_PROLONG (R310). -/
def execCpProlong (a : Src) (g : Guard) (s : State) : Out := trigger .cp 0x26B .ot (levelOp 0x26B) a g s

/-- CP_CLOSE (R299). -/
def execCpClose (a : Src) (g : Guard) (s : State) : Out := trigger .cp 0x26C .none_ closeOp a g s

/-- CP_WAITB (R300). -/
def execCpWaitb (a : Src) (g : Guard) (s : State) : Out := trigger .cp 0x26D .t waitbOp a g s

/-- CP_CNT (R301). -/
def execCpCnt (a : Src) (g : Guard) (s : State) : Out := trigger .cp 0x26E .t cntOp a g s

/-! ### What a command does when it completes (R297, R298, R304-R310) -/

/-- The output bytes of a grid command from its source bytes (R306, R310). -/
def gridOut (c : Cmd) (bytes : List Byte) : List Byte :=
  let d := gridDesc (c.recs.headD [])
  let t := stencil (c.recs.getD 1 [])
  let src := fmtRec (c.recs.getD 2 [])
  let dst := fmtRec (c.recs.getD 3 [])
  let rows := d.my * d.mz
  let g := src.grid rows d.mx bytes
  let old := dst.grid (d.ny * d.nz) d.nx (bytes.drop (rows * src.rowBytes d.mx))
  (List.range d.nz).flatMap fun z => (List.range d.ny).flatMap fun y =>
    dst.writeRow ((List.range d.nx).map fun x =>
      if c.port = 0x267 then (g.getD (y + d.my * z) []).getD x (.fin false 0 0)
      else
        gridPoint t d (decide (c.port = 0x26A)) g
          (if t.lvl = 1 then some ((old.getD (y + d.ny * z) []).getD x (.fin false 0 0)) else none) x y z)

/-- The first pieces of a list that make up `n` bytes, and the rest. -/
def takePieces : List Piece → Nat → List Piece × List Piece
  | [], _ => ([], [])
  | p :: ps, n => if n = 0 then ([], p :: ps) else let r := takePieces ps (n - p.n); (p :: r.1, r.2)

/-- Bytes put into a slot of the canopy with their taint (R304). -/
def State.putSlot (s : State) (x : CtxRef) (j slot : Nat) (bytes : List Byte) (taint : Bool) : State :=
  let key := canopyKey x j slot 0
  { s with store := { s.store with
      mem := cellsWrite s.store.mem key bytes, taint := numSet s.store.taint (sectorOf key) taint } }

/-- One block of a canopy fill (R304): 32 bytes and the exponents of a slot, or two slots. -/
def State.fillBlock (s : State) (x : CtxRef) (r : FmtRec) (j slot : Nat) (bytes : List Byte) (taint : Bool) : State :=
  match r.bx with
  | some b =>
    let s := s.putSlot x j slot (bytes.take b.blockBytes ++ List.replicate (32 - b.blockBytes) 0#8) taint
    { s with store := { s.store with mem := cellsWrite s.store.mem (canopyExpKey x j slot) (bytes.drop b.blockBytes) } }
  | none => (s.putSlot x j slot (bytes.take 32) taint).putSlot x j (slot + 1) (bytes.drop 32) taint

/-- The blocks of a canopy fill written in order from the command's source pieces, each with its own taint. -/
def State.fillBlocks (s : State) (x : CtxRef) (v : Viewer) (r : FmtRec) (c : Cmd) :
    List (Nat × Nat) → List Piece → State
  | [], _ => s
  | (j, slot) :: l, ps =>
    let q := takePieces ps r.fillBytes
    let d := s.readPieces (cmdAgent x.core c.id) v q.1
    (s.fillBlock x r j slot d.1 (c.taint || d.2)).fillBlocks x v r c l q.2

/-- A canopy fill made (R304). -/
def State.canopyEffect (s : State) (x : CtxRef) (c : Cmd) : State :=
  let r := fmtRec (c.recs.headD [])
  let w := c.t.word.toNat
  let slots := (List.range 64).flatMap fun j => (List.range (bitsOf w 12 12)).map fun m =>
    (j, bitsOf w 0 12 + m * slotsPerStep r.fmt)
  (s.fillBlocks x (s.cmdViewer c) r c slots c.reads).cmdLease c

/-- The bytes of a fill pattern (R302). -/
def patternBytes (w : Word) (n : Nat) : List Byte :=
  (List.range n).map fun k => BitVec.ofNat 8 (bitsOf w.toNat (8 * (k % 8)) 8)

/-- A copy command's effect without its completion; none while a store waits for version room. -/
def State.cpEffect (s : State) (core : Nat) (c : Cmd) : Option State :=
  let x : CtxRef := ⟨core, c.ctx⟩
  match c.port with
  | 0x269 => some (s.updCore core fun k => { k with stbl := c.recs.head? })
  | 0x268 => some (if (s.ctx x).react = c.react then s.canopyEffect x c else s)
  | 0x266 => s.cmdWrite x c (patternBytes c.o.word (c.writes.map Piece.n).sum) c.taint
  | p =>
    let q := s.cmdRead x c
    let bytes := if p = 0x267 ∨ p = 0x26A ∨ p = 0x26B then gridOut c q.2.1 else q.2.1
    q.1.cmdWrite x c bytes (c.taint || q.2.2)

/-- The engine starts the first data command that waits, if fewer than four run, nothing earlier of the core holds what it
reads or writes, and its context is in no stop (R296, R98, R214, R273). A frozen core's engine halts (R203). -/
def State.cpStart (s : State) (core : Nat) : State :=
  let k := s.core core
  match k.cpq.find? fun c => !c.started && decide (c.port ≠ 0x26C) with
  | none => s
  | some c =>
    if !k.cpRuns || !s.mayStart ⟨core, c.ctx⟩ || decide (4 ≤ (k.cpq.filter Cmd.started).length) || !k.clear c then s
    else s.updCore core fun k => { k with cpq := startCmd k.cpq c.id }

/-- A running data command comes to its end (R298): its bytes moved, the copied bytes counted, its add made, and it leaves the
engine; in a freeze it waits at the core's edge (R203). -/
def State.cpComplete (s : State) (core id : Nat) : State :=
  match (s.core core).cpq.find? fun c => c.started && decide (c.id = id) with
  | none => s
  | some c =>
    if !(s.core core).cpRuns then s else s.cmdFinish core (fun s c => s.cpEffect core c) 0x09 c.count.toNat c

/-- A close marker retires once every earlier data command of its context has completed (R299). -/
def State.markerRetire (s : State) (core id : Nat) : State :=
  match (s.core core).cpq.find? fun c => decide (c.port = 0x26C) && decide (c.id = id) with
  | none => s
  | some m =>
    if (s.core core).cpq.any fun c => decide (c.ctx = m.ctx) && decide (c.id < id) && decide (c.port ≠ 0x26C) then s
    else s.updCore core fun k => { k with cpq := dropCmd k.cpq id }

end Sys2Proof.Machine
end

