-- ==== Sys2Proof/Machine/Ms.lean ====
section
/-!
DEFINITION. The memory-side unit `ms` (18_clearing R329-R334): atomic updates, reductions, fences and marks, and the
arrival of queued operations at their stacks.
-/

namespace Sys2Proof.Machine

/-! ### Checks (R334) -/

/-- The first byte of some checked spans that lies outside a memory-side page of this device: no flit carries a memory-side
operation to another device (R392; log 136). -/
def firstPlain (l : List SpanP) : Option Nat :=
  l.findSome? fun a => (a.ps.find? fun p => decide (p.page ≠ .ms)).map Piece.va

/-- The stack that homes a list of pieces. -/
def stackOf (ps : List Piece) : Nat := (ps.head?.map fun p => p.key / 2 ^ 36).getD 0

/-- The accesses of a memory-side operation checked: WATCH, LEASE_EXIT, MS_LEVEL, then room in the log (R318) and poison.
Touches of sets and range holds are not asked (R98, R322). -/
def msAdmit (s : State) (watched : List Watched) (l : List Span) (k : State → List SpanP → MoveR) : MoveR :=
  match s.watchOne s.cur watched with
  | (_, some a) => fault5 cWatch a
  | (s, none) =>
    match s.resolveSpans s.cur l with
    | .error r => r.failed
    | .ok ps =>
      match firstPlain ps with
      | some va => fault5 cMsLevel va
      | none =>
        match s.roomFor s.cur (s.viewer s.cur) ((ps.filter fun a => a.span.write).flatMap SpanP.ps) with
        | none => .block .version
        | some s => if s.poisoned (ps.flatMap SpanP.ps) then .reset else k s ps

/-- A memory-side operation counted (R382) and the irreversible point passed (R327). -/
def State.msIssued (s : State) : State := (s.event s.cur 0x0A 1).irrev s.cur

/-! ### Atomic updates (R331) -/

/-- An update logged under the stamp of a reaction of an ordered launch; it meets the leases of later instants (R102,
R329). -/
def State.msLog (s : State) (x : CtxRef) (v : Viewer) (op : MsUpd) (key : Nat) (t p : Word) (taint : Bool) : State :=
  let s := { s with store := s.store.log v.lid v.stamp [.msop op key t p taint] }
  s.wound v.lid (s.origin x) (s.store.leaseJobs v.lid v.stamp (lineOf key))

/-- A queued update (R330, R331): logged at once in an ordered launch, and a queue entry in either. -/
def msUpdOp (port : Nat) (a : Opnds) (s : State) : MoveR :=
  let op := msUpdOf port
  let va := a.o.word.toNat
  if va % op.width ≠ 0 then fault5 cMsForm va
  else
    msAdmit s [⟨va, op.width, true, true⟩] [⟨va, op.width, true⟩] fun s ps =>
      let pcs := ps.flatMap SpanP.ps
      let v := s.viewer s.cur
      let c := s.newCmd port a
      let c := { c with writes := pcs, stack := stackOf pcs, taint := c.taint || v.open_ }
      match s.enqueue .ms c with
      | .ok s =>
        .ok (if v.ordered then (s.msLog s.cur v op ((pcs.head?.map Piece.key).getD 0) a.t.word a.p.word c.taint).msIssued
          else s.msIssued)
      | r => r

/-- The pinned entry that an update of an open launch, or of a supervisor context, applied now would change (R352). -/
def State.msPinned (s : State) (x : CtxRef) (v : Viewer) (op : MsUpd) (ps : List Piece) (t p : Word) : Option (Nat × Nat) :=
  if v.ordered then none
  else s.pinSpan ps (leBytes op.width (op.apply (leNat (s.readPieces x v ps).1) t.toNat p.toNat))

/-- `ms.swap.b64` and `ms.cas.b64` (R331): the value seen lands after 32 cycles, late data freezing the core. -/
def msSwapOp (port : Nat) (a : Opnds) (s : State) : MoveR :=
  let op := msUpdOf port
  let va := a.o.word.toNat
  if va % 8 ≠ 0 then fault5 cMsForm va
  else
    msAdmit s [⟨va, 8, true, true⟩] [⟨va, 8, true⟩] fun s ps =>
      let pcs := ps.flatMap SpanP.ps
      let v := s.viewer s.cur
      let taint := a.taint || s.me.ctaint || v.open_
      let s := s.msDrain s.cur (stackOf pcs)
      match s.msPinned s.cur v op pcs a.t.word a.p.word with
      | some (e, at_) => if isSup s.cur.core then fault5 cPtPinned e else fault5 cLeaseExit at_
      | none =>
      let r : State × Nat × Bool :=
        if v.ordered then
          let old := s.readPieces s.cur v pcs
          let s' := { s with store := pcs.foldl (fun st p => st.lease s.devid v p) s.store }
          (s'.msLog s.cur v op ((pcs.head?.map Piece.key).getD 0) a.t.word a.p.word taint, leNat old.1, old.2)
        else s.msUpdate s.cur v op pcs a.t.word a.p.word taint
      .ok ((r.1.msIssued).landVar (.port .msq) 32 (.scalar (BitVec.ofNat 64 r.2.1) a.tag (taint || r.2.2)) 0#6 6 va)

/-! ### Reductions (R332) -/

/-- Whether a parameter block breaks R332. -/
def RedBlock.bad (b : RedBlock) : Bool :=
  decide (b.nsrc = 0 ∨ 8 < b.nsrc ∨ b.fmt = 3 ∨ b.opr = 3 ∨ b.count = 0 ∨ b.reserved ≠ 0 ∨ b.dst % b.width ≠ 0 ∨
    b.sbase % 64 ≠ 0) || (b.soffs.drop b.nsrc).any fun x => decide (x ≠ 0)

/-- The device and stack of the page that a context's space gives a translated address, whatever the page allows; none where it gives
none. -/
def State.pageStack (s : State) (x : CtxRef) (va : Nat) : Option (Nat × Nat) :=
  let of (e : Nat) : Nat × Nat := (pteDev e, pteFrame e / 2 ^ 36)
  if winOf va ≠ .translated then none
  else if s.sidOf x = 0 then (if s.physOk va then some (s.devid, va / 2 ^ 36) else none)
  else
    let w := s.judged.walk (dieOf x.core) (s.sidOf x) va
    if s.judged.walkDenied (s.master x.core) w then none
    else
    match w.ending with
    | .leaf => some (of w.entry)
    | .remote =>
      (s.walkResp x (pteDev w.entry) va w.entry w.lvl).bind fun d =>
        if leNat ((d.drop 9).take 1) = 0 then some (of (leNat (d.take 8))) else none
    | _ => none

/-- Whether the sources and the destination of a reduction lie on more than one stack. -/
def State.redStacks (s : State) (x : CtxRef) (b : RedBlock) : Bool :=
  let n := b.count * b.width
  let pages := pagesOf b.dst n ++ (List.range b.nsrc).flatMap fun i => pagesOf (b.src i 0) n
  decide (1 < ((pages.filterMap (s.pageStack x)).eraseDups).length)

/-- The spans of a reduction in element order, each element's sources before its destination. -/
def RedBlock.spans (b : RedBlock) : List Span :=
  (List.range b.count).flatMap fun e =>
    (List.range b.nsrc).map (fun n => (⟨b.src n e, b.width, false⟩ : Span)) ++ [⟨b.dst + e * b.width, b.width, true⟩]

/-- The parameter block of a reduction read (R332, R334): WATCH and LEASE_EXIT, then its data, as it stands before the group;
late data freezes the core. The rest of the trigger gets the block's span, its bytes and their taint. -/
def redRead (va : Nat) (s : State) (k : State → SpanP → List Byte → Bool → MoveR) : MoveR :=
  match s.watchSpans s.cur [⟨va, 64, false⟩] with
  | (_, some a) => fault5 cWatch a
  | (s, none) =>
    match s.resolveSpans s.cur [⟨va, 64, false⟩] with
    | .ok [bp] =>
      match s.missingRemote s.cur [bp] with
      | some b => (MoveR.block b).lateAs 4
      | none => let rb := s.readBefore bp; k (rb.1.recordLate va) bp rb.2.1 rb.2.2
    | .ok _ => .ok s
    | .error r => r.failed

/-- A reduction queued once all its checks have passed: its results logged at once in an ordered launch (R332). -/
def State.redIssue (s : State) (a : Opnds) (b : RedBlock) (bytes : List Byte) (taint : Bool) (sel : Option Nat)
    (ps : List SpanP) : MoveR :=
  let rd := (ps.filter fun p => !p.span.write).flatMap SpanP.ps
  let wr := (ps.filter fun p => p.span.write).flatMap SpanP.ps
  let v := s.viewer s.cur
  let c := s.newCmd 0x2A9 a
  let c := { c with
    recs := [bytes], reads := rd, writes := wr, taint := c.taint || taint || v.open_, sel := sel, count := b.inc
    stack := stackOf wr }
  match s.enqueue .ms c with
  | .ok s =>
    if v.ordered then
      let taint := c.taint || (s.readPieces s.cur v rd).2
      let s : State := { s with store := rd.foldl (fun st p => st.lease s.devid v p) s.store }
      .ok (s.redWhole s.cur v b rd wr taint).msIssued
    else .ok s.msIssued
  | r => r

/-- `ms.red` (R332): the orders of R334, the touch of a set by the read of the block as the last. -/
def msRedOp (a : Opnds) (s : State) : MoveR :=
  let va := a.t.word.toNat
  if va % 64 ≠ 0 then fault5 cMsForm va
  else
    redRead va s fun s bp bytes taint =>
      let b := redBlock bytes
      if b.bad || s.redStacks s.cur b then faultRead cMsForm va
      else
        let sel := cselOf b.csel
        match sel.bind fun w => s.selFault s.cur (BitVec.ofNat 64 w) with
        | some c => faultRead c 0
        | none =>
          msAdmit s (b.spans.map Span.watched) b.spans fun s ps =>
            match s.admitSpans s.cur [bp] with
            | .ok s _ => s.redIssue a b bytes taint sel ps
            | r => r.failed.lateAs 4

/-! ### Fence and mark (R333) -/

/-- Whether a context has no memory-side operation left to apply or log, and no store of an earlier group at another device left to
acknowledge, among which are those to memory-side pages there (R14, R333; log 131). -/
def State.msSettled (s : State) (x : CtxRef) : Bool :=
  !(s.core x.core).msq.any (fun c => decide (c.ctx = x.ctx)) && !(s.pre x.core).flits.any fun o => o.ofAccess x

/-- `ms.fence` (R333). -/
def msFenceOp (_ : Opnds) (s : State) : MoveR := if s.msSettled s.cur then .ok s else .block .msFence

/-- `ms.mark` (R333). -/
def msMarkOp (a : Opnds) (s : State) : MoveR :=
  let va := a.t.word.toNat
  match s.watchSpans s.cur [⟨va, 1, false⟩] with
  | (_, some i) => fault5 cWatch i
  | (s, none) =>
    match s.resolveSpans s.cur [⟨va, 1, false⟩] with
    | .error r => r.failed
    | .ok ps =>
      match s.selFault s.cur a.o.word with
      | some c => faultRead c 0
      | none =>
        match firstPlain ps with
        | some i => fault5 cMsLevel i
        | none =>
          let c := s.newCmd 0x2AB a
          match s.enqueue .ms { c with
              sel := some a.o.word.toNat, count := a.p.word, stack := stackOf (ps.flatMap SpanP.ps) } with
          | .ok s => .ok s.msIssued
          | r => r

/-! ### The trigger ports -/

/-- MS_ADD_F32 (R331). -/
def execMsAddF32 (a : Src) (g : Guard) (s : State) : Out := trigger .ms 0x2A2 .ot (msUpdOp 0x2A2) a g s

/-- MS_ADD_S64 (R331). -/
def execMsAddS64 (a : Src) (g : Guard) (s : State) : Out := trigger .ms 0x2A3 .ot (msUpdOp 0x2A3) a g s

/-- MS_MAX_S64 (R331). -/
def execMsMaxS64 (a : Src) (g : Guard) (s : State) : Out := trigger .ms 0x2A4 .ot (msUpdOp 0x2A4) a g s

/-- MS_MIN_S64 (R331). -/
def execMsMinS64 (a : Src) (g : Guard) (s : State) : Out := trigger .ms 0x2A5 .ot (msUpdOp 0x2A5) a g s

/-- MS_OR_B64 (R331). -/
def execMsOrB64 (a : Src) (g : Guard) (s : State) : Out := trigger .ms 0x2A6 .ot (msUpdOp 0x2A6) a g s

/-- MS_SWAP_B64 (R331). -/
def execMsSwapB64 (a : Src) (g : Guard) (s : State) : Out := trigger .ms 0x2A7 .ot (msSwapOp 0x2A7) a g s

/-- MS_CAS_B64 (R331). -/
def execMsCasB64 (a : Src) (g : Guard) (s : State) : Out := trigger .ms 0x2A8 .opt (msSwapOp 0x2A8) a g s

/-- MS_RED (R332). -/
def execMsRed (a : Src) (g : Guard) (s : State) : Out := trigger .ms 0x2A9 .t msRedOp a g s

/-- MS_FENCE (R333). -/
def execMsFence (a : Src) (g : Guard) (s : State) : Out := trigger .ms 0x2AA .none_ msFenceOp a g s

/-- MS_MARK (R333). -/
def execMsMark (a : Src) (g : Guard) (s : State) : Out := trigger .ms 0x2AB .opt msMarkOp a g s

/-! ### Arrival at the stack (R117, R329) -/

/-- Whether a queued command is the first of its context to its stack: those arrive in issue order (R117). -/
def msFirst (q : List Cmd) (c : Cmd) : Bool :=
  !q.any fun e => decide (e.ctx = c.ctx) && decide (e.stack = c.stack) && decide (e.id < c.id)

/-- The queued command `id` of a core of one of some ports performed, if its turn at its stack has come. -/
def State.msArrive (s : State) (core id : Nat) (ports : List Nat) : State :=
  let q := (s.core core).msq
  match q.find? fun c => decide (c.id = id) && ports.contains c.port with
  | none => s
  | some c => if msFirst q c then s.msDone core c else s

end Sys2Proof.Machine
end

