-- ==== Sys2Proof/Machine/Group.lean ====
section
/-!
DEFINITION. The moves of a group executed and the group issued (03_bundles R59-R63, R78-R80, R413, 09_seq_control R203, 10_seq_traps
R208, R218), with what a group's own engine commands do before a later slot of it meets their data (04_memory R94, R98). Every
function that runs a move takes the meaning of instructions as an argument `ex`; Step.lean puts `exec` in.
-/

namespace Sys2Proof.Machine

/-! ### Commands that the group itself has triggered (R94, R98, R413; log 131) -/

/-- The commands of a core's engines that the group in progress has triggered and whose effects are still to be made, in program
order. -/
def State.ownCmds (s : State) (core : Nat) : List Cmd :=
  ((s.core core).held.filter fun c => decide (s.ownFrom core ≤ c.id) && !c.sent && decide (c.port ≠ 0x26C)).foldl
    (fun l c => insertCmd c l) []

/-- Whether a command of a group still waits for an earlier one of its core (R98, R273). -/
def Core.ownWaits (k : Core) (c : Cmd) : Bool := k.held.any fun e => decide (e.id < c.id) && !e.sent && c.waitsFor e

/-- The data of other devices that a context has brought handed to an engine command of it. -/
def Fabric.handOver (f : Fabric) (x y : CtxRef) : Fabric :=
  { f with reqs := f.reqs.map fun q => if q.x = x ∧ q.resp.isSome then { q with x := y } else q }

/-- What the effect of a group's own command comes to. -/
inductive OwnR where
  | ok (s : State)
  | block (b : Block)
  | reset

/-- A group's own command takes its effect whole, as at its issue, before a later slot meets its data (R98; log 131): once every
earlier command of the core that it meets is complete, its sources on other devices are here and there is room for its versions. It
completes in its engine as before. -/
def State.ownEffect (s : State) (x : CtxRef) (c : Cmd) : OwnR :=
  if (s.core x.core).ownWaits c then .block (.hold (rangesOfPieces c.reads) (rangesOfPieces c.writes))
  else
    match s.missingPiece x c.reads with
    | some q => .block (.remote q.1 q.2.1 none 0 2 q.2.2)
    | none =>
      if s.poisoned c.reads then .reset
      else
        let y := cmdAgent x.core c.id
        let s := { s with fabric := s.fabric.handOver x y }
        match (if (unitAt c.port).1 = .cp then s.cpEffect x.core c else s.mxEffect x.core c) with
        | none => .block .version
        | some t =>
          let mark (q : List Cmd) : List Cmd := q.map fun e => if e.id = c.id then { e with sent := true } else e
          .ok (((s.settle t x.core true c).updCore x.core fun k => { k with mxq := mark k.mxq, cpq := mark k.cpq }).dropAsked y)

/-- The effects of a group's own commands made in program order. -/
def State.ownEffects (s : State) (x : CtxRef) : List Cmd → OwnR
  | [] => .ok s
  | c :: cs =>
    match s.ownEffect x c with
    | .ok s => s.ownEffects x cs
    | r => r

/-! ### The moves of a group -/

/-- The class 5 causes that stand behind the watchpoints whatever raises them (R218, R267, R291, R311, R334). -/
def lateCauses : List Byte :=
  [cLeaseExit, cTranslationNode, cPtPerm, cPtPinned, cChannelFuture, cOrderIrrev, cCounterUnreachable, cAsetLimit, cMergeBoth,
    cVeLevel, cMxLevel, cMxCanopy, cTileFormat, cCpLevel, cCpCanopy, cCopyFormat, cMsLevel]

/-- Where a trap stands in the order of R63 and R218: its class, then within class 5 operand-form faults, WATCH, and the
faults that come after it, those of fields that were read among them. -/
def Trap.rank (t : Trap) : Nat :=
  min 5 t.cls * 4 +
    if t.cls < 5 then 0 else if t.cause = cWatch then 1 else if t.cls = 6 ∨ lateCauses.contains t.cause then 2 else 0

/-- What the moves of a group have come to: the state, the best trap so far with its LIMM, the first block, whether a
poisoned line was read, and whether the context has lost its reaction. -/
structure Fold where
  st : State
  trap : Option (Trap × BitVec 32)
  block : Option Block
  poison : Bool
  gone : Bool

/-- A trap noted if it stands before the best so far; within a rank the earlier slot stands (R63). -/
def Fold.note (f : Fold) (t : Trap) (limm : BitVec 32) : Fold :=
  match f.trap with
  | none => { f with trap := some (t, limm) }
  | some b => if t.rank < b.1.rank then { f with trap := some (t, limm) } else f


/-- The issue registers for a slot. -/
def State.atSlot (s : State) (e : GSlot) (pre : Before) : State :=
  { s with issue := ⟨e.bundle, e.slot, e.limm, e.nextb, some pre⟩, last := .done }

/-- Whether a context still runs what it ran before the group. -/
def sameRun (a b : Ctx) : Bool := decide (a.react = b.react) && decide (b.status ≠ .idle)

/-- The outcome of one move taken into account. -/
def Fold.take (f : Fold) (x : CtxRef) (c0 : Ctx) (e : GSlot) (t : State) : Fold :=
  match t.last with
  | .done => { f with st := t, gone := !sameRun c0 (t.ctx x) }
  | .trapped tr => f.note tr e.limm
  | .blocked b => { f with block := some (f.block.getD b) }
  | .poisoned _ => { f with poison := true }

/-- A slot that the emulation handler has carried out: its captured tags are checked, and its result lands with the
group (R221). -/
def Fold.emulated (f : Fold) (x : CtxRef) (c0 : Ctx) (e : GSlot) (m : EmuSlot) : Fold :=
  match tagCheck c0 m.tags with
  | some cause => f.note (e.trap cause 4 0) e.limm
  | none =>
    match m.result with
    | none => f
    | some r => { f with st := f.st.updCtx x fun c => { c with pend := c.pend ++ [r] } }

/-- The guard of a slot as encoded, before the group (R57). -/
def GSlot.guardOk (e : GSlot) (c : Ctx) : Bool := ((Guard.ofCode (bitsOf e.raw.toNat 0 4)).map c.guard).getD false

/-- Whether a slot is a control transfer in the end bundle of an armed loop that its guard keeps from executing: LOOP_FORM,
which the encoding and the loop state decide (R181; log 133). -/
def GSlot.idleTransfer (e : GSlot) (c : Ctx) : Bool :=
  rawTransfer e.raw && !e.guardOk c && (c.armedEnd 0 e.bundle || c.armedEnd 1 e.bundle)

/-- Whether a move has met the data of a command that its own group has triggered (R98). -/
def State.metOwn (s : State) (x : CtxRef) (t : State) : Bool :=
  match t.last with
  | .blocked (.hold _ _) => !(s.ownCmds x.core).isEmpty
  | _ => false

/-- A move executed; where it meets the data of commands that its own group has triggered, their effects come first, then the move
again (R98; log 131). -/
def Fold.move (ex : Exec) (x : CtxRef) (c0 : Ctx) (pre : Before) (f : Fold) (e : GSlot) (i : Instr) : Except Out Fold :=
  match ex i (f.st.atSlot e pre) with
  | .next t =>
    if !(f.st.atSlot e pre).metOwn x t then .ok (f.take x c0 e t)
    else
      match (f.st.atSlot e pre).ownEffects x ((f.st.atSlot e pre).ownCmds x.core) with
      | .block b => .ok { f with block := some (f.block.getD b) }
      | .reset => .ok { f with poison := true }
      | .ok s =>
        match ex i (s.atSlot e pre) with
        | .next t => .ok (({ f with st := s } : Fold).take x c0 e t)
        | o => .error o
  | o => .error o

/-- One slot of a group executed (R63, R94): an emulated slot is suppressed, an unassigned port with a true guard is
UNDEF_OP, any other move has its meaning. A fault or refusal of a meaning ends the step. -/
def Fold.slot (ex : Exec) (x : CtxRef) (c0 : Ctx) (pre : Before) (f : Fold) (e : GSlot) : Except Out Fold :=
  if f.gone || !rawMove e.raw then .ok f
  else if e.idleTransfer c0 then .ok (f.note (e.trap cLoopForm 5 0) e.limm)
  else
    match (if c0.emu then none else c0.emuDone.find? fun m => decide (m.slot = e.slot)) with
    | some m => .ok (f.emulated x c0 e m)
    | none =>
      match decodeSlot e.raw with
      | .error _ => .ok (if e.guardOk c0 then f.note (e.trap cUndefOp 3 0) e.limm else f)
      | .ok i => f.move ex x c0 pre e i

/-- The slots of a group executed in order. -/
def foldSlots (ex : Exec) (x : CtxRef) (c0 : Ctx) (pre : Before) : Fold → List GSlot → Except Out Fold
  | f, [] => .ok f
  | f, e :: es =>
    match f.slot ex x c0 pre e with
    | .ok f => foldSlots ex x c0 pre f es
    | .error o => .error o

/-- The order in which a group's slots are executed: slot order, with moves to clock registers last, since every
presence check of the group reads the clocks as they stood before it (R57, R73, R413). -/
def execOrder (l : List GSlot) : List GSlot :=
  let toClock (e : GSlot) : Bool := decide (0x60 ≤ rawDst e.raw ∧ rawDst e.raw < 0x70)
  l.filter (fun e => !toClock e) ++ l.filter toClock

/-- A trap of a group taken, with the LIMM of the offending move's bundle (R208, R210). -/
def State.trapWith (s : State) (x : CtxRef) (limm : BitVec 32) (t : Trap) : State :=
  ({ s with issue := { s.issue with slot := t.slot, limm := limm, nextb := t.nextb } } : State).takeTrap x t

/-- The state once the moves of a group are through: what stood before the group is kept no longer (R413). -/
def State.afterGroup (s : State) : State := { s with issue := { s.issue with pre := none } }

/-- A group's outcome (R63, R78, R208): the best trap, precise before the group; else a block, and the group issues whole
later; else the reset that a poisoned read brings; else its effects. -/
def Fold.close (f : Fold) (x : CtxRef) (s0 : State) (slots : List GSlot) : State :=
  match f.trap with
  | some (t, limm) => s0.trapWith x limm t
  | none =>
    match f.block with
    | some b => s0.enterBlock x b
    | none =>
      if f.poison then s0.resetOf x.core
      else
        if f.gone then f.st.afterGroup else f.st.afterGroup.commitGroup x slots

/-! ### Issuing a group -/

/-- A breakpoint that matches a context's next group (R375). -/
def State.breakHit (s : State) (x : CtxRef) : Bool :=
  let c := s.ctx x
  !c.emu && !c.skipBreak && (List.range 8).any fun i =>
    let w := s.obs.bp[Fin.ofNat 8 i]
    w.getLsbD 0 && s.actsOn s.obs.bpPart[Fin.ofNat 8 i] x.core && decide (bitsOf w.toNat 64 16 = s.sidOf x) && decide (bitsOf w.toNat 5 51 = bitsOf c.pc.toNat 5 51)


/-- The freeze line asserted for late results (R203, R372). -/
def State.freezeFor (s : State) (core : Nat) (late : List Pend) : State :=
  let causes := late.flatMap Pend.fcause
  let mask := causes.foldl (fun a c => a ||| BitVec.ofNat 8 (2 ^ (c - 1))) 0#8
  let lastc := causes.getLast?.getD 0
  let addr := (late.head?.map Pend.addr).getD 0#64
  s.updCore core fun k => { k with freeze := some ⟨mask, lastc, s.timebase.toNat, addr⟩ }

/-- A trap of a fetch that fails: the group does not issue (R179, R346). -/
def State.fetchFail (s : State) (x : CtxRef) (f : FetchR) : State :=
  match f with
  | .ok _ => s
  | .trap c i => s.takeTrap x ⟨c, 5, BitVec.ofNat 64 i, (s.ctx x).first, false, 0#24⟩
  | .block b => s.enterBlock x b
  | .reset => s.resetOf x.core

/-- The LIMM of the bundle of a trap's slot. -/
def Group.limmOf (gr : Group) (t : Trap) : BitVec 32 :=
  ((gr.slots.find? fun e => decide (e.slot = t.slot) && (e.nextb == t.nextb)).map GSlot.limm).getD 0#32

/-- A formed group checked and executed (R63). -/
def State.issueGroup (ex : Exec) (s : State) (x : CtxRef) (gr : Group) : Out :=
  let c := s.ctx x
  match gr.check (isSup x.core) c with
  | some t => .next (s.trapWith x (gr.limmOf t) t)
  | none =>
    match gr.fail with
    | some f => .next (s.fetchFail x f)
    | none =>
      match foldSlots ex x c (s.before x.core) ⟨s, none, none, false, false⟩ (execOrder gr.slots) with
      | .ok f => .next (f.close x s gr.slots)
      | .error o => o

/-- The next group of a context issues (R59, R60, R63, R203, R218): late data freezes the core, results land, a
breakpoint stops, else the group is fetched, checked and executed. -/
def State.issue1 (ex : Exec) (s : State) (x : CtxRef) : Out :=
  let s : State := { s with cur := x }
  let late := (s.ctx x).lateNow
  if late ≠ [] then .next (s.freezeFor x.core late)
  else
    let s := s.updCtx x Ctx.landDue
    if s.breakHit x then
      .next (s.takeTrap x ⟨cBreak, 0, 0#64, (s.ctx x).first, false, 0#24⟩)
    else
      match s.fetch x (s.ctx x).pc with
      | .ok b =>
        match s.issueGroup ex x (s.form x b) with
        | .next t => .next (t.rehalt x)
        | o => o
      | f => .next (s.fetchFail x f)

end Sys2Proof.Machine
end

