-- ==== Sys2Proof/Machine/Launch.lean ====
section
/-!
DEFINITION. Launch records, entries and lists, and the checks of a submitted launch (02_instants R22-R31, R47,
11_dispatch R224-R231, 21_spaces R349).
-/

namespace Sys2Proof.Machine

/-! ### Reading the record (R224, R225, R227, R228, R30) -/

/-- Grant `n` of a record. -/
def grantOf (v n : Nat) : Grant := ⟨bitsOf v (1024 + 64 * n) 32, bitsOf v (1056 + 64 * n) 16⟩

/-- Pipe `n` of a record; NAME 0 is an unused one. -/
def pipeOf (v n : Nat) : Pipe :=
  let b := 2048 + 64 * n
  ⟨bitsOf v b 16, bitsOf v (b + 16) 5, bitsOf v (b + 21) 5, bitsOf v (b + 26) 16, bitsOf v (b + 42) 16⟩

/-- The fields of a launch record from its 512 bytes (R224). -/
def recordOf (bs : List Byte) : Record :=
  let v := leNat bs
  { lmagic := bitsOf v 0 16, lver := bitsOf v 16 8, nsub := bitsOf v 24 6, open_ := v.testBit 30, strict := v.testBit 31
    fpm := BitVec.ofNat 2 (bitsOf v 32 2), diemask := BitVec.ofNat 8 (bitsOf v 40 8), ninst := bitsOf v 64 48
    args := bitsOf v 128 56, entries := bitsOf v 192 56, emuh := bitsOf v 256 56, savebase := bitsOf v 320 56
    savecnt := bitsOf v 384 16, saveslot := bitsOf v 416 32, status := bitsOf v 448 56, chcore := bitsOf v 512 24
    chgrove := bitsOf v 536 24, grants := (List.range 16).map (grantOf v), pipes := (List.range 32).map (pipeOf v) }

/-- Threshold entry from its 96 bits at a bit position (R30, R227). -/
def thrOf (v b : Nat) : Thr := ⟨bitsOf v b 32, bitsOf v (b + 32) 16, bitsOf v (b + 48) 48⟩

/-- The items of a list from its bytes: base and length (R228). -/
def itemsOf (bs : List Byte) : List (Nat × Nat) :=
  (List.range (bs.length / 16)).map fun i =>
    let v := leNat ((bs.drop (16 * i)).take 16)
    (bitsOf v 0 56, bitsOf v 64 64)

/-- The fields of a subprogram entry from its 128 bytes (R227), without its lists. -/
def parseEntry (bs : List Byte) : Entry :=
  let v := leNat bs
  { hdr := bitsOf v 0 56, period := bitsOf v 64 13, phase := bitsOf v 80 12, width := bitsOf v 96 12
    prio := bitsOf v 112 3, tok := bitsOf v 128 16, dcyc := bitsOf v 160 32, drain := bitsOf v 192 32
    nthr := bitsOf v 224 3, thr := (List.range 4).map fun t => thrOf v (256 + 96 * t)
    nvreg := bitsOf v 640 6, natile := bitsOf v 646 4, nctile := bitsOf v 650 3, spb := bitsOf v 656 22
    lsb := bitsOf v 680 13, grb := bitsOf v 696 24, cnb := bitsOf v 720 17, asets := bitsOf v 768 56
    naset := bitsOf v 824 5, leases := bitsOf v 832 56, nlease := bitsOf v 888 8, setList := [], leaseList := [] }

/-- The reserved fields of a record: first bit and width (R224). -/
def recordReserved : List (Nat × Nat) :=
  [(34, 6), (48, 16), (112, 16), (184, 8), (248, 8), (312, 8), (376, 8), (400, 16), (504, 8), (560, 464)]

/-- The reserved fields of an entry (R227). -/
def entryReserved : List (Nat × Nat) :=
  [(56, 8), (77, 3), (92, 4), (108, 4), (115, 13), (144, 16), (227, 29), (653, 3), (678, 2), (693, 3), (737, 31), (829, 3),
    (896, 128)]

/-! ### Gangs (R226, R47) -/

/-- A gang: the number of its lowest used pipe, and its entries. -/
abbrev Gang := Nat × List Nat

/-- A pipe's link added to the gangs found so far. -/
def addLink (gs : List Gang) (i a b : Nat) : List Gang :=
  let hit := gs.filter fun g => g.2.contains a || g.2.contains b
  let rest := gs.filter fun g => !(g.2.contains a || g.2.contains b)
  rest ++ [((hit.map Prod.fst).foldl min i, (hit.flatMap Prod.snd ++ [a, b]).eraseDups)]

/-- The used pipes of a record whose entries exist, with their numbers. -/
def Record.usedPipes (r : Record) : List (Nat × Pipe) :=
  (r.pipes.zipIdx.map fun p => (p.2, p.1)).filter fun p => decide (p.2.name ≠ 0)

/-- The gangs of a launch (R226): their entries in record order. -/
def Record.gangs (r : Record) : List Gang :=
  let gs := (r.usedPipes.filter fun p => decide (p.2.prod < r.nsub) && decide (p.2.cons < r.nsub)).foldl
    (fun gs p => addLink gs p.1 p.2.prod p.2.cons) []
  gs.map fun g => (g.1, (List.range 32).filter g.2.contains)

/-- The gang of an entry, if it has one. -/
def Record.gangOf (r : Record) (e : Nat) : Option Gang := r.gangs.find? fun g => g.2.contains e

/-! ### The save image's size (R243) -/

/-- A length rounded up to a multiple of 128. -/
def pad128 (n : Nat) : Nat := (n + 127) / 128 * 128

/-- The size of the save image of an entry that holds `grb` bytes of grove memory in its own image. -/
def imageSize (e : Entry) (grb : Nat) : Nat :=
  0x27000 + pad128 (64 * e.lsb) + pad128 e.spb + pad128 ((e.spb + 1023) / 1024) + pad128 grb +
    pad128 ((grb + 1023) / 1024) +
    pad128 (68 * e.cnb)

/-- The grove-memory bytes of an entry's allocation: for a gang, the sum over its members (R85, R230). -/
def groveBytes (r : Record) (es : List Entry) (e : Nat) : Nat :=
  let grb (k : Nat) : Nat := (es[k]?.map Entry.grb).getD 0
  match r.gangOf e with
  | some g => (g.2.map grb).sum
  | none => grb e

/-- The grove-memory bytes that entry `e`'s own image holds: a gang's stand in its first member's (R243). -/
def imageGrove (r : Record) (es : List Entry) (e : Nat) : Nat :=
  match r.gangOf e with
  | some g => if g.2.head? = some e then groveBytes r es e else 0
  | none => groveBytes r es e

/-! ### Reading under the launch's SID -/

/-- What reads and walks of the dispatch engines still wait for: requests to other devices, dies on whose migration counters
walks wait, and whether a poisoned line was read. -/
structure Need where
  reqs : List RemoteReq
  walks : List Nat
  poison : Bool
  deriving DecidableEq, Repr

/-- Nothing to wait for. -/
def Need.none : Need := ⟨[], [], false⟩

/-- Two needs together. -/
def Need.add (a b : Need) : Need := ⟨a.reqs ++ b.reqs, a.walks ++ b.walks, a.poison || b.poison⟩

/-- Whether there is something to wait for. -/
def Need.any (n : Need) : Bool := decide (n ≠ Need.none)

/-- The outcome of a read by the dispatch engine: bytes; not readable; or what must come first. -/
inductive DispR where
  | ok (bs : List Byte)
  | bad
  | wait (n : Need)
  deriving DecidableEq, Repr

/-- One outcome after another. -/
def DispR.append (a b : DispR) : DispR :=
  match a, b with
  | .ok x, .ok y => .ok (x ++ y)
  | .bad, _ => .bad
  | _, .bad => .bad
  | .wait x, .wait y => .wait (x.add y)
  | .wait x, .ok _ => .wait x
  | .ok _, .wait y => .wait y

/-- What a read waits for. -/
def DispR.need : DispR → Need
  | .wait n => n
  | _ => .none

/-- Bytes of a piece at a resolved location; at another device the response that is here, or the request; a poisoned line is
met (R400). -/
def State.dispPiece (s : State) (x : CtxRef) (p : Piece) : DispR :=
  match p.page with
  | .remote dev _ _ =>
    match s.remoteData x dev (keyOff p.key) with
    | some b => .ok (b.take p.n)
    | none => .wait ⟨[⟨x, dev, keyOff p.key, none, 0, none, false⟩], [], false⟩
  | _ => if s.poisoned [p] then .wait ⟨[], [], true⟩ else .ok (cellsRead s.store.mem p.key p.n)

/-- Bytes read by the dispatch engine of the checking die under the launch's SID; a migrating page is waited for (R345). -/
def State.dispRead (s : State) (l : Launch) (va n : Nat) : DispR :=
  if n = 0 then .ok [] else if 2 ^ 55 < va + n then .bad
  else
    (cut va n).foldl (fun a c =>
      a.append (match s.dispTrans l.agent l.checkDie l.sid.toNat (s.master l.core) .r c.1 c.2 with
        | .ok p => s.dispPiece l.agent p
        | .bad => .bad
        | .wait q => .wait ⟨q.toList, if q.isNone then [l.checkDie] else [], false⟩
        | .poison => .wait ⟨[], [], true⟩)) (.ok [])

/-! ### Pages walked (R345, R347, R349) -/

/-- A page of a byte range walked by the dispatch engine of a die: its first byte, the bytes of the range in it, the entries of
this device read on the walk, and the outcome. -/
structure PageR where
  va : Nat
  n : Nat
  die : Nat
  read : List Nat
  leaf : LeafR
  deriving DecidableEq, Repr

/-- The pages of a byte range of translated space walked by the dispatch engine of a die under the launch's SID. -/
def State.pagesAt (s : State) (l : Launch) (die va n : Nat) : List PageR :=
  if 2 ^ 55 < va + n then []
  else (pagesOf va n).map fun a =>
    ⟨a, min (va + n) ((a / 65536 + 1) * 65536) - a, die, (s.walk die l.sid.toNat a).read,
      s.dispLeaf (dispAgent die l.lid) die l.sid.toNat (s.master l.core) a⟩

/-- What a page's walk waits for. -/
def PageR.need (p : PageR) : Need :=
  match p.leaf with
  | .wait (some q) => ⟨[q], [], false⟩
  | .wait none => ⟨[], [p.die], false⟩
  | .poison => ⟨[], [], true⟩
  | _ => .none

/-- What some pages wait for. -/
def needOf (l : List PageR) : Need := l.foldl (fun a p => a.add p.need) .none

/-- Whether a page's leaf has a bit. -/
def PageR.bit (p : PageR) (f : Nat → Bool) : Bool :=
  match p.leaf with
  | .leaf e _ => f e
  | _ => false

/-- The location of a page's bytes, if it has a leaf. -/
def State.pageRange (s : State) (p : PageR) : Option Range :=
  match p.leaf with
  | .leaf e lvl =>
    let phys := pteFrame e + p.va % pageSize lvl
    some ⟨if pteDev e = s.devid then phys else keyOf .remote (pteDev e) phys, p.n⟩
  | _ => none

/-- Whether some byte of a range lies outside translated space, or in a page that is memory-side or versioned (R230). -/
def State.specialPage (s : State) (l : Launch) (va n : Nat) : Bool :=
  (decide (n ≠ 0) && decide (2 ^ 55 < va + n)) ||
    (s.pagesAt l l.checkDie va n).any fun p => p.bit fun e => pteMs e || pteVer e

/-- A launch rejected (R24, R230, R232). -/
def State.reject (s : State) (lid : Nat) (cause : Byte) (field : Nat) : State :=
  s.endRaised lid (((s.launch? lid).map Launch.core).getD 0) ⟨cause, field, 0, 0, 0#64, 0, false⟩

/-- What the dispatch engines asked for and noted for a launch, done with. -/
def State.dropDisp (s : State) (lid : Nat) : State := (List.range 8).foldl (fun s d => s.dropAsked (dispAgent d lid)) s

/-- What a launch's reads and walks wait for asked for: requests sent, walks noted; a poisoned line read, or a device without a
route asked, resets the partition that submitted the launch (R345, R394, R400). -/
def State.askNeed (s : State) (l : Launch) (n : Need) : State :=
  let s := if n.poison then s.resetSoon l.core else s
  let s := n.reqs.foldl (fun (s : State) q => s.ask (s.dieCore l (q.x.core - 1000)) l.sid.toNat noView q) s
  n.walks.foldl (fun s d => s.noteWalk (dispAgent d l.lid) d) s

/-- A launch check that waits: its requests sent, its walks noted. A poisoned line read, or a device without a route asked,
resets the partition that submitted the launch, and the launch ends (R394, R400). -/
def State.dispWait (s : State) (l : Launch) (n : Need) : State :=
  if n.poison || n.reqs.any fun q => !s.routed (q.x.core - 1000) q.dev then
    ((s.dropDisp l.lid).endLaunch l.lid (some ⟨cMachineCheck, 0, 0, 0, 0#64, 0, false⟩) 0).resetSoon l.core
  else s.askNeed l n

/-! ### The first pass: LAUNCH_SHAPE (R230, R231) -/

/-- Whether a selector names a shared counter of kind 0x2, 0x3 or 0x4 validly (R191, R225). -/
def validShared (dev sel : Nat) : Bool := (resolveSel dev 0 (BitVec.ofNat 64 sel)).shared

/-- The fields of the record that break a shape limit, as bit numbers (R230, R231): a fault in a grant or a pipe names
that grant or pipe. The rules do not say which field STRICT set with OPEN names, nor which of two used pipes with one NAME:
DESIGN CHOICE (log 158), STRICT, bit 31, and the pipe with the higher number. -/
def recordShape (dev : Nat) (v : Nat) (r : Record) (es : List Entry) : List Nat :=
  let t (c : Bool) (bit : Nat) : List Nat := if c then [bit] else []
  let used := r.usedPipes
  t (decide (r.lmagic ≠ 0xC7A2)) 0 ++ t (decide (r.lver ≠ 1)) 16 ++ t (decide (r.nsub = 0 ∨ 32 < r.nsub)) 24 ++
  t (r.strict && r.open_) 31 ++ t (decide (r.diemask = 0#8)) 40 ++ t (decide (r.ninst = 0)) 64 ++
  (recordReserved.filter fun p => decide (bitsOf v p.1 p.2 ≠ 0)).map Prod.fst ++
  t (decide (r.entries % 128 ≠ 0)) 192 ++ t (decide (r.emuh % 32 ≠ 0)) 256 ++ t (decide (r.savebase % 128 ≠ 0)) 320 ++
  t (decide (r.saveslot % 128 ≠ 0)) 416 ++ t (decide (r.status % 64 ≠ 0)) 448 ++ t (decide (r.chcore % 128 ≠ 0)) 512 ++
  t (decide (r.chgrove % 128 ≠ 0)) 536 ++
  (List.range 16).flatMap (fun n =>
    let g := grantOf v n
    t (decide (bitsOf v (1072 + 64 * n) 16 ≠ 0) ||
      (decide (g.count ≠ 0) && (!validShared dev g.sel || decide (16384 < g.sel % 65536 + g.count)))) (1024 + 64 * n)) ++
  (List.range 32).flatMap (fun n =>
    let p := pipeOf v n
    t (decide (bitsOf v (2106 + 64 * n) 6 ≠ 0) ||
      (decide (p.name ≠ 0) &&
        (decide (r.nsub ≤ p.prod ∨ r.nsub ≤ p.cons ∨ p.prod = p.cons ∨ p.lines = 0) ||
          used.any fun q => decide (q.1 < n) && decide (q.2.name = p.name)))) (2048 + 64 * n)) ++
  r.gangs.flatMap fun g =>
    let ms := g.2.filterMap fun e => es[e]?
    t (decide (8 < g.2.length) || ms.any (fun e => decide (e.width ≠ 1)) ||
      ms.any fun e => ms.any fun f => decide (e.period ≠ f.period ∨ e.phase ≠ f.phase)) (2048 + 64 * g.1)

/-- What a set item names: an own-die item names that window's bytes on every die of the mask (R228). -/
def setNames (m : BitVec 8) (it : Nat × Nat) : List (Nat × Nat) :=
  if winOf it.1 = .ownDsp then (diesOf m).map fun d => (0xFF000040000000 + d * 0x4000000 + (it.1 - 0xFF000010000000), it.2)
  else [it]

/-- Whether two byte ranges share a line. -/
def shareLine (a b : Nat × Nat) : Bool :=
  decide (a.1 / 128 * 128 < b.1 + b.2) && decide (b.1 / 128 * 128 < a.1 + a.2)

/-- Ranges in order with those that follow one another made one. -/
def joinRanges (l : List Range) : List Range :=
  l.foldr (fun r rest => match rest with
    | q :: qs => if r.key + r.len = q.key then ⟨r.key, r.len + q.len⟩ :: qs else r :: rest
    | [] => [r]) []

/-- The location ranges of a byte range of a set for a die, by the pages of the die's table (R197, R228). -/
def State.itemRanges (s : State) (l : Launch) (die : Nat) (it : Nat × Nat) : List Range :=
  match winOf it.1 with
  | .translated => joinRanges ((s.pagesAt l die it.1 it.2).filterMap s.pageRange)
  | .ownDsp => [⟨keyOf .dsp die (it.1 - 0xFF000010000000), it.2⟩]
  | .dieDsp d => [⟨keyOf .dsp d (it.1 - 0xFF000040000000 - d * 0x4000000), it.2⟩]
  | _ => []

/-- The bytes that a set item may name: its locations on every die of the launch (R228). -/
def State.itemBytes (s : State) (l : Launch) (it : Nat × Nat) : List Range :=
  (diesOf l.record.diemask).flatMap fun d => s.itemRanges l d it

/-- Whether a set list breaks R228: a bad item, one with a memory-side page, or two that share a line by their addresses or by
the bytes they may name. -/
def State.setsBad (s : State) (l : Launch) (raw : List Byte) : Bool :=
  let m := l.record.diemask
  let items := itemsOf raw
  (List.range items.length).any fun i =>
    let it := items.getD i (0, 0)
    decide (bitsOf (leNat ((raw.drop (16 * i)).take 8)) 56 8 ≠ 0) || decide (it.1 % 128 ≠ 0) || decide (it.2 = 0) ||
    decide (it.2 % 128 ≠ 0) || !sharedRange it.1 it.2 ||
    ((diesOf m).any fun d => (s.pagesAt l d it.1 it.2).any fun p => p.bit pteMs) ||
    (((items.take i).flatMap (setNames m)).any fun a => (setNames m it).any (shareLine a)) ||
    (((items.take i).flatMap (s.itemBytes l)).any fun a => (s.itemBytes l it).any a.meetsLine)

/-- Whether a lease list breaks R228. -/
def leasesBad (raw : List Byte) : Bool :=
  (List.range (raw.length / 16)).any fun i =>
    let v := leNat ((raw.drop (16 * i)).take 16)
    let b := bitsOf v 0 56
    let n := bitsOf v 64 64
    decide (bitsOf v 56 8 ≠ 0 ∨ b = 0 ∨ n = 0 ∨ b % 65536 ≠ 0 ∨ n % 65536 ≠ 0 ∨ 2 ^ 55 < b + n)

/-- Whether a launch's grants cover a selector on every die of its mask (R31, R225, R416). -/
def Record.coversAll (r : Record) (dev sel : Nat) : Bool :=
  (diesOf r.diemask).all fun d =>
    let c := resolveSel dev d (BitVec.ofNat 64 sel)
    r.grants.any fun g => g.covers dev d c

/-- The faults of a reaction header and of the copies in its entry (R31, R231), by bit of the entry. -/
def headerShape (dev : Nat) (r : Record) (e : Entry) (hdr : List Byte) : List Nat :=
  let t (c : Bool) (bit : Nat) : List Nat := if c then [bit] else []
  let v := leNat hdr
  let nthr := bitsOf v 24 3
  let thr (k : Nat) : Thr := thrOf v (128 + 96 * k)
  t (hdr.isEmpty || decide (bitsOf v 0 16 ≠ 0xC7A1 ∨ bitsOf v 16 8 ≠ 1 ∨ bitsOf v 32 32 = 0 ∨ 4 < nthr ∨ bitsOf v 27 5 ≠ 0 ∨
      bitsOf v 64 64 ≠ 0) ||
    ((List.range 4).any fun k => decide (nthr ≤ k) && decide (bitsOf v (128 + 96 * k) 96 ≠ 0)) ||
    ((List.range 4).any fun k => decide (k < nthr) && !(validShared dev (thr k).csel && r.coversAll dev (thr k).csel))) 0 ++
  t (decide (bitsOf v 32 32 ≠ e.dcyc)) 160 ++ t (decide (nthr ≠ e.nthr)) 224 ++
  (List.range 4).flatMap fun k => t (decide (e.thr.getD k ⟨0, 0, 0⟩ ≠ thr k)) (256 + 96 * k)

/-- What the checks read of one entry: its bytes, its header (empty if it cannot be read) and its lists. -/
structure EntryRaw where
  raw : List Byte
  hdr : List Byte
  sets : DispR
  leases : DispR
  deriving DecidableEq, Repr

/-- The bytes of a list that was read; none if it could not be. -/
def DispR.bytes : DispR → List Byte
  | .ok b => b
  | _ => []

/-- The shape faults of an entry, by bit (R25, R29, R227, R228, R230). -/
def State.entryShape (s : State) (l : Launch) (q : EntryRaw) : List Nat :=
  let t (c : Bool) (bit : Nat) : List Nat := if c then [bit] else []
  let v := leNat q.raw
  let e := parseEntry q.raw
  t (decide (e.hdr % 64 ≠ 0)) 0 ++ t (decide (e.period = 0 ∨ 4096 < e.period)) 64 ++
  t (decide (e.period ≤ e.phase)) 80 ++ t (decide (e.width = 0 ∨ 2048 < e.width)) 96 ++
  (entryReserved.filter fun p => decide (bitsOf v p.1 p.2 ≠ 0)).map Prod.fst ++
  t (decide (e.spb % 128 ≠ 0)) 656 ++ t (decide (e.lsb % 32 ≠ 0)) 680 ++ t (decide (e.grb % 128 ≠ 0)) 696 ++
  t (decide (e.cnb % 64 ≠ 0)) 720 ++ t (decide (e.asets % 16 ≠ 0) || s.setsBad l q.sets.bytes) 768 ++
  t (decide (16 < e.naset)) 824 ++ t (decide (e.leases % 16 ≠ 0) || leasesBad q.leases.bytes) 832 ++
  headerShape s.devid l.record e q.hdr

/-! ### The second pass: LAUNCH_RESOURCE (R230, R349) -/

/-- The lowest of some numbers. -/
def least (l : List Nat) : Option Nat := l.min?

/-- Whether some grove on a die of the launch has enough present cores for a gang (R19). -/
def State.groveFor (s : State) (m : BitVec 8) (n : Nat) : Bool :=
  (diesOf m).any fun d => (List.range 8).any fun g =>
    decide (n ≤ ((List.range 8).filter fun k => s.present (64 * d + 8 * g + k)).length)


/-- The contexts of a core that hold a reaction. -/
def Core.residents (k : Core) : List Ctx := k.ctxs.toList.filter fun c => c.react.isSome

/-- The running launches whose channel regions lie on a core. -/
def State.launchesOn (s : State) (core : Nat) : List Launch :=
  s.launches.filter fun l => decide (l.phase = .running) && l.record.diemask.getLsbD (dieOf core) &&
    decide (s.partOf l.core = s.partOf core)

/-- The core-scratchpad bytes held on a core. -/
def State.spbUsed (s : State) (core : Nat) : Nat := ((s.core core).residents.map fun c => c.alloc.spb).sum

/-- The grove-memory bytes held in a core's grove: each allocation counted at its owner. -/
def State.groveUsed (s : State) (core : Nat) : Nat :=
  (((List.range 8).flatMap fun k =>
    let n := groveOf core * 8 + k
    (List.range 4).map fun j =>
      let c := s.ctx ⟨n, j⟩
      if c.react.isSome && decide (c.alloc.grvOwner = n * 4 + j) then c.alloc.grb else 0)).sum

/-- The cores of a launch: those of its partition on its dies that the package has. -/
def State.coresOf (s : State) (l : Launch) : List Nat :=
  ((diesOf l.record.diemask).flatMap fun d => (List.range 64).map fun k => 64 * d + k).filter fun c =>
    s.present c && decide (s.partOf c = s.partOf l.core)

/-- The channel bytes of a level on a core of a launch: its own and those of the running launches whose regions lie there
(R86). -/
def State.chanOn (s : State) (l : Launch) (f : Record → Nat) (core : Nat) : Nat :=
  ((s.launchesOn core).map fun q => f q.record).sum + f l.record

/-- The most channel bytes of a level on a core of a launch (R86). -/
def State.chanUsed (s : State) (l : Launch) (f : Record → Nat) : Nat := ((s.coresOf l).map (s.chanOn l f)).foldl max (f l.record)

/-- Whether the channel region of a launch leaves no room on some core or grove for what is allocated there now, or for an
allocation that a running launch may place there (R86). -/
def State.chanCrowds (s : State) (l : Launch) (f : Record → Nat) (held : Nat → Nat) (need : Launch → Nat) (size : Nat) : Bool :=
  decide (f l.record ≠ 0) && (s.coresOf l).any fun c =>
    decide (size < held c + s.chanOn l f c) || (s.launchesOn c).any fun q => decide (size < need q + s.chanOn l f c)

/-- The largest core-scratchpad allocation of a launch. -/
def Launch.maxSpb (l : Launch) : Nat := (l.entries.map Entry.spb).foldl max 0

/-- The largest grove-memory allocation of a launch, a gang's as one. -/
def Launch.maxGrb (l : Launch) : Nat := ((List.range l.entries.length).map (groveBytes l.record l.entries)).foldl max 0

/-- The fields of the record that break a resource limit, by bit. -/
def State.recordResource (s : State) (l : Launch) (es : List Entry) : List Nat :=
  let t (c : Bool) (bit : Nat) : List Nat := if c then [bit] else []
  let r := l.record
  let size := ((List.range es.length).map fun e =>
    (es[e]?.map fun q => imageSize q (imageGrove r es e)).getD 0).foldl max 0
  t (decide (0 < r.savecnt) && s.specialPage l r.savebase (r.savecnt * r.saveslot)) 320 ++
  t (decide (0 < r.savecnt) && decide (r.saveslot < size)) 416 ++
  t (s.specialPage l r.entries (128 * r.nsub)) 192 ++ t (s.specialPage l r.status 64) 448 ++
  t (s.chanCrowds l Record.chcore s.spbUsed Launch.maxSpb (2 ^ 21)) 512 ++
  t (s.chanCrowds l Record.chgrove s.groveUsed Launch.maxGrb (2 ^ 23)) 536 ++
  (r.usedPipes.filter fun p => decide (r.chgrove < 128 * (p.2.offset + p.2.lines))).map (fun p => 2048 + 64 * p.1) ++
  r.gangs.flatMap fun g =>
    t (decide (2 ^ 23 < groveBytes r es (g.2.headD 0) + s.chanUsed l Record.chgrove) || !s.groveFor r.diemask g.2.length)
      (2048 + 64 * g.1)

/-- The resource faults of an entry, by bit, but for its lease walk. -/
def State.entryResource (s : State) (l : Launch) (q : EntryRaw) (member : Bool) : List Nat :=
  let t (c : Bool) (bit : Nat) : List Nat := if c then [bit] else []
  let e := parseEntry q.raw
  t (decide (32 < e.nvreg)) 640 ++ t (decide (8 < e.natile)) 646 ++ t (decide (4 < e.nctile)) 650 ++
  t (decide (4096 < e.lsb)) 680 ++ t (decide (65536 < e.cnb)) 720 ++ t (decide (2 ^ 21 < e.spb + s.chanUsed l Record.chcore)) 656 ++
  t (!member && decide (2 ^ 23 < e.grb + s.chanUsed l Record.chgrove)) 696 ++
  t (s.specialPage l e.asets (16 * e.naset) || decide (q.sets = .bad)) 768 ++
  t (s.specialPage l e.leases (16 * e.nlease) || decide (q.leases = .bad)) 832

/-! ### The check of a launch (R230, R231) -/

/-- The bytes that the checks need, one entry of them, and what they wait for: the pages of its sets too (R228). -/
def State.readEntry (s : State) (l : Launch) (raw : List Byte) : EntryRaw × Need :=
  let e := parseEntry raw
  let h := s.dispRead l e.hdr 64
  let a := s.dispRead l e.asets (16 * min 16 e.naset)
  let b := s.dispRead l e.leases (16 * e.nlease)
  let sets := (diesOf l.record.diemask).flatMap fun d => (itemsOf a.bytes).flatMap fun it => s.pagesAt l d it.1 it.2
  (⟨raw, h.bytes, a, b⟩, ((h.need.add a.need).add b.need).add (needOf sets))

/-- The first entry with a fault, as a field index (R231). -/
def firstEntry (faults : List (List Nat)) : Option Nat :=
  (faults.zipIdx.findSome? fun p => (least p.1).map fun bit => 0x8000 + p.2 * 1024 + bit)

/-- The field index of the first fault of a pass: record faults in bit order, then entry by entry (R231). -/
def firstField (record : List Nat) (entries : List (List Nat)) : Option Nat := least record <|> firstEntry entries

/-- The channel regions of a launch set up on every core and grove of its partition on its dies: lines empty, sectors
tainted (R44, R86, R87). -/
def State.setupChannels (s : State) (l : Launch) : State :=
  let cores := s.coresOf l
  let st := if l.record.chcore = 0 then s.store else cores.foldl (fun (st : Store) c =>
    st.allocate ⟨keyOf .cspChan (l.lid * 1024 + c) 0, l.record.chcore⟩) s.store
  let st := if l.record.chgrove = 0 then st else (cores.map groveOf).eraseDups.foldl (fun (st : Store) g =>
    st.allocate ⟨keyOf .groveChan (l.lid * 64 + g) 0, l.record.chgrove⟩) st
  { s with store := st }

/-- The entries of a launch with their lists. -/
def entriesOf (qs : List EntryRaw) : List Entry :=
  qs.map fun q => { parseEntry q.raw with setList := itemsOf q.sets.bytes, leaseList := itemsOf q.leases.bytes }

/-- The leases of every entry walked by the dispatch engine of a die (R349). -/
def State.leaseWalk (s : State) (l : Launch) (die : Nat) (es : List Entry) : List (List PageR) :=
  es.map fun e => e.leaseList.flatMap fun it => s.pagesAt l die it.1 it.2

/-- Whether some lease page of entry `i` reaches no valid leaf with R in the table of some die (R349). -/
def leaseFails (ws : List (List (List PageR))) (i : Nat) : Bool :=
  ws.any fun w => (w.getD i []).any fun p => !p.bit fun e => e.testBit 4

/-- The location ranges of an entry's sets and leases for every die of a launch (R228, R237, R349). -/
def State.launchMaps (s : State) (l : Launch) (es : List Entry) (dies : List Nat) (ws : List (List (List PageR))) :
    List (Nat × Nat × List (List Range) × List Range) :=
  (dies.zip ws).flatMap fun d => (es.zip d.2).zipIdx.map fun e =>
    (d.1, e.2, e.1.1.setList.map (s.itemRanges l d.1), joinRanges (e.1.2.filterMap s.pageRange))

/-- Every page whose kind the second pass asks for: the save area, the entries, STATUS and the lists (R230). -/
def State.kindPages (s : State) (l : Launch) (es : List Entry) : List PageR :=
  let r := l.record
  ([(r.savebase, r.savecnt * r.saveslot), (r.entries, 128 * r.nsub), (r.status, 64)] ++
    es.flatMap fun (e : Entry) => [(e.asets, 16 * e.naset), (e.leases, 16 * e.nlease)]).flatMap fun (it : Nat × Nat) =>
      s.pagesAt l l.checkDie it.1 it.2

/-- What the second pass waits for: the walks of the leases and sets on every die, and the pages whose kind it asks for. -/
def State.pass2Need (s : State) (l : Launch) (es : List Entry) (dies : List Nat) (ws : List (List (List PageR))) : Need :=
  let sets := dies.flatMap fun d => es.flatMap fun e => e.setList.flatMap fun it => s.pagesAt l d it.1 it.2
  needOf (ws.flatMap List.flatten ++ sets ++ s.kindPages l es)

/-- The second pass, once the first has found nothing: the resource limits, then the leases walked on every die of the launch;
an accepted launch has every entry of this device read on those walks pinned, and runs (R230, R349). -/
def State.launchPass2 (s : State) (l : Launch) (qs : List EntryRaw) (bad : Bool) : State :=
  let es := entriesOf qs
  let dies := diesOf l.record.diemask
  let ws := dies.map fun d => s.leaseWalk l d es
  let need := s.pass2Need l es dies ws
  if need.any then s.dispWait l need
  else
    let faults := qs.zipIdx.map fun q =>
      s.entryResource l q.1 (l.record.gangOf q.2).isSome ++ if leaseFails ws q.2 then [832] else []
    match firstField (s.recordResource l es ++ if bad then [192] else []) faults with
    | some f => (s.dropDisp l.lid).reject l.lid cLaunchResource f
    | none =>
      let pins := ws.flatMap fun w => w.flatMap fun ps => ps.flatMap PageR.read
      ((s.dropDisp l.lid).updLaunch l.lid fun q =>
        { q with
          phase := .running, entries := es, pins := pins.eraseDups
          maps := s.launchMaps l es dies ws }).setupChannels l

/-- LAUNCH_CHECK of a submitted launch (R230, R231): it waits for what other devices must answer and for migrating pages; the
first fault of the first pass, else of the second, rejects it. -/
def State.launchCheck (s : State) (lid : Nat) : State :=
  match s.launch? lid with
  | none => s
  | some l =>
    if l.phase ≠ .submitted then s
    else
      let n := min l.record.nsub 32
      match s.dispRead l l.record.entries (128 * n) with
      | .wait w => s.dispWait l w
      | tbl =>
        let n := if tbl = .bad then 0 else n
        let rd := (List.range n).map fun i => s.readEntry l ((tbl.bytes.drop (128 * i)).take 128)
        let need := (rd.map Prod.snd).foldl Need.add .none
        if need.any then s.dispWait l need
        else
          let qs := rd.map Prod.fst
          match firstField (recordShape s.devid (leNat l.raw) l.record (entriesOf qs)) (qs.map (s.entryShape l)) with
          | some f => (s.dropDisp lid).reject lid cLaunchShape f
          | none => s.launchPass2 l qs (decide (tbl = .bad))

/-- A launch submitted: its record read, handed to the dispatch engines (R358). -/
def State.submit (s : State) (sid : BitVec 16) (done core : Nat) (raw : List Byte) : State :=
  let l : Launch :=
    { lid := s.nextLid, sid := sid, done := done, core := core, raw := raw, record := recordOf raw, entries := []
      phase := .submitted, nextInst := 0, cleared := 0, reacts := [], pins := [], slots := [], report := none, nother := 0
      aborting := false, peers := [], guests := [], away := [], checked := 0, closing := none, maps := [] }
  { s with launches := s.launches ++ [l], nextLid := s.nextLid + 1 }

end Sys2Proof.Machine
end

