-- ==== Sys2Proof/Machine/Image.lean ====
section
/-!
DEFINITION. The save image of a checkpointed context (10_seq_traps R215, R216, 11_dispatch R242-R244), and the reads and
writes the device makes of its own accord in translated space.
-/

namespace Sys2Proof.Machine

/-! ### The device's own accesses in translated space (R232, R244, R321, R395) -/

/-- The outcome of resolving a range for an engine: its pieces; a page that does not permit it; or what must come first. -/
inductive SysR where
  | ok (ps : List Piece)
  | bad
  | wait (n : Need)
  deriving DecidableEq, Repr

/-- One outcome after another. -/
def SysR.append (a b : SysR) : SysR :=
  match a, b with
  | .ok x, .ok y => .ok (x ++ y)
  | .bad, _ => .bad
  | _, .bad => .bad
  | .wait x, .wait y => .wait (x.add y)
  | .wait x, .ok _ => .wait x
  | .ok _, .wait y => .wait y

/-- What the resolving of a range waits for. -/
def SysR.need : SysR → Need
  | .wait n => n
  | _ => .none

/-- The pieces of a range under a launch's SID for the engines of a die, if every one lies in a page that permits the access and
is neither versioned nor memory-side. -/
def State.sysPieces (s : State) (l : Launch) (die : Nat) (acc : Acc) (va n : Nat) : SysR :=
  if 2 ^ 55 < va + n then .bad
  else
    (cut va n).foldl (fun a c =>
      a.append (match s.dispTrans (dispAgent die l.lid) die l.sid.toNat (s.master l.core) acc c.1 c.2 with
        | .ok p =>
          (match p.page with
          | .direct => .ok [p]
          | .remote _ false false => .ok [p]
          | _ => .bad)
        | .bad => .bad
        | .wait q => .wait ⟨q.toList, if q.isNone then [die] else [], false⟩
        | .poison => .wait ⟨[], [], true⟩)) (.ok [])

/-- Bytes stored to pieces without taint; at another device by store flits (R110, R244). -/
def State.sysStore (s : State) (core : Nat) : List Piece → List Byte → State
  | [], _ => s
  | p :: ps, bs =>
    let mine := bs.take p.n
    let s := match p.page with
      | .remote dev _ _ => s.sendFlit core 1 dev 0 (keyOff p.key) mine (2 ^ mine.length - 1) 0
      | _ =>
        let s := s.note none false [sectorOf p.key]
        { s with store := s.store.put p.key mine false }
    s.sysStore core ps (bs.drop p.n)

/-- A write by a die's engine under a launch's SID; none where the pages do not permit it or a pinned entry would change
(R352). -/
def State.sysWrite (s : State) (l : Launch) (die va : Nat) (bs : List Byte) : Option State :=
  match s.sysPieces l die .w va bs.length with
  | .ok ps => if (s.pinSpan ps bs).isSome then none else some ((s.sysStore (s.dieCore l die) ps bs).unpoison (s.viewerOf none) ps)
  | _ => none

/-- A read by a die's engine under a launch's SID (R244). -/
def State.sysRead (s : State) (l : Launch) (die va n : Nat) : DispR :=
  match s.sysPieces l die .r va n with
  | .ok ps => ps.foldl (fun a p => a.append (s.dispPiece (dispAgent die l.lid) p)) (.ok [])
  | .bad => .bad
  | .wait n => .wait n

/-! ### Parts of the image (R243) -/

/-- `n` zero bytes. -/
def zeros (n : Nat) : List Byte := List.replicate n 0#8

/-- Bytes filled with zeros, or cut, to a length. -/
def fitTo (bs : List Byte) (n : Nat) : List Byte := (bs ++ zeros (n - bs.length)).take n

/-- Bytes filled with zeros to a multiple of 128. -/
def padTo128 (bs : List Byte) : List Byte := bs ++ zeros (pad128 bs.length - bs.length)

/-- `n` bytes of an image from an offset. -/
def part (img : List Byte) (off n : Nat) : List Byte := (img.drop off).take n

/-- A general register: value, tag, taint in 16 bytes. -/
def regBytes (v : SVal) : List Byte :=
  leBytes 8 v.w.toNat ++ [BitVec.ofNat 8 v.tag.toNat, if v.taint then 1#8 else 0#8] ++ zeros 6

/-- A general register from its 16 bytes. -/
def regOfBytes (bs : List Byte) : SVal :=
  let v := leNat bs
  ⟨BitVec.ofNat 64 (bitsOf v 0 64), BitVec.ofNat 4 (bitsOf v 64 4), v.testBit 72⟩

/-- A value: 256 bytes, tag, taint and vector flag in 272 bytes. -/
def valBytes (v : Value) : List Byte :=
  let data := match v with
    | .sc x => leBytes 8 x.w.toNat ++ zeros 248
    | .ve x => x.lanes.toList.flatMap fun l => leBytes 4 l.toNat
  data ++ [BitVec.ofNat 8 v.tag.toNat, BitVec.ofNat 8 ((if v.taint then 1 else 0) + if v.isVec then 2 else 0)] ++ zeros 14

/-- A value from its 272 bytes. -/
def valOfBytes (bs : List Byte) : Value :=
  let tag : Tag := BitVec.ofNat 4 (leNat (part bs 256 1))
  let f := leNat (part bs 257 1)
  if f.testBit 1 then .ve ⟨lanesOfBytes bs, tag, f.testBit 0⟩
  else .sc ⟨BitVec.ofNat 64 (leNat (part bs 0 8)), tag, f.testBit 0⟩

/-- A tile's bytes at full size. -/
def tileBytes (t : Tile) (n : Nat) : List Byte := fitTo t.bytes n

/-- A number made of bits, lowest first. -/
def natOfBits (l : List Bool) : Nat := l.foldr (fun b n => 2 * n + if b then 1 else 0) 0

/-- The 8-byte words at offset 0x440 (R243, R276); `ctx.ff` with the flags that have landed at the stop (R135, R214). -/
def State.imageWords (s : State) (x : CtxRef) : List Nat :=
  let c := s.ctx x
  let t := ({ s with cur := x } : State).updCtx x fun c => { c with ffPre := none }
  let tiles := c.at8.toList ++ c.ct4.toList
  (List.range 8).map (fun n => (t.readReg n).1.toNat) ++
  [c.kdef.toNat / 2 % 2 ^ 14 + c.kpres.toNat / 2 % 2 ^ 14 * 2 ^ 16, c.loop0.lc.toNat, c.loop0.f.toNat, c.loop0.e.toNat,
    c.loop1.lc.toNat, c.loop1.f.toNat, c.loop1.e.toNat, c.mxl.toNat,
    (tiles.foldr (fun t n => n * 16 + t.tag.toNat) 0) + natOfBits (tiles.map Tile.taint) * 2 ^ 48] ++
  c.lctr.toList.map BitVec.toNat

/-! ### The saddlebag (R215, R216) -/

/-- KIND, DEST and ADD of a captured result; none for one that has no entry. -/
def saddleDest : Land → Option (Nat × Nat × Nat)
  | .port q => some (1, 0x80 + (portIdx q).val, 0)
  | .ctxReg n => some (1, 0x400 + n, 0)
  | .dropAdd => some (1, 0x403, 1)
  | .loopArm n _ _ _ => some (3, n, 0)
  | _ => none

/-- The header and payload of a captured result or loop arm. -/
def saddleEntry (p : Pend) (k : Nat × Nat × Nat) : List Byte :=
  let head := k.1 + k.2.1 * 2 ^ 2 + p.left * 2 ^ 13 + p.val.tag.toNat * 2 ^ 29 + (if p.val.taint then 2 ^ 41 else 0) +
    p.flags.toNat * 2 ^ 44 + k.2.2 * 2 ^ 50 + if p.val.isVec then 2 ^ 51 else 0
  let w := match p.dest with
    | .loopArm _ lc f e => (lc.toNat, f.toNat, e.toNat)
    | _ => (p.val.word.toNat, 0, 0)
  leBytes 8 head ++ leBytes 8 w.1 ++ leBytes 8 w.2.1 ++ leBytes 8 w.2.2 ++
    match p.val with
    | .ve v => v.lanes.toList.flatMap fun l => leBytes 4 l.toNat
    | .sc _ => []

/-- Whether a later trigger makes a result lost at its port (R75, R216). -/
def lostAtPort (p : Pend) (later : List Pend) : Bool :=
  match p.dest with
  | .port q => later.any fun r => decide (r.dest = .port q) && decide (r.left = p.left)
  | _ => false

/-- The results that R75 lets land. -/
def keepAll : List Pend → List Pend
  | [] => []
  | p :: ps => if lostAtPort p ps then keepAll ps else p :: keepAll ps

/-- The captured results in the order of R216: rising DUE, then trigger order. -/
def saddleOrder (ps : List Pend) : List Pend :=
  let ps := keepAll ps
  (List.range 65).flatMap fun d => ps.filter fun p => decide (p.left = d)

/-- The header of a captured command. -/
def saddleCmd (c : Cmd) : List Byte :=
  let head := 2 + c.port * 2 ^ 2 + c.o.tag.toNat * 2 ^ 29 + c.p.tag.toNat * 2 ^ 33 + c.t.tag.toNat * 2 ^ 37 +
    (if c.o.taint then 2 ^ 41 else 0) + (if c.p.taint then 2 ^ 42 else 0) + if c.t.taint then 2 ^ 43 else 0
  leBytes 8 head ++ leBytes 8 c.o.word.toNat ++ leBytes 8 c.p.word.toNat ++ leBytes 8 c.t.word.toNat

/-- A captured result from its entry (R217). -/
def pendOfEntry (bs : List Byte) : Pend :=
  let h := leNat (part bs 0 8)
  let w (k : Nat) : Word := BitVec.ofNat 64 (leNat (part bs (8 * k) 8))
  let dest := bitsOf h 2 11
  let port := ([Port.x0q, .x1q, .lsq, .brq, .ckq, .syq, .veq, .veq2, .mxq, .cpq, .msq, .svq])[dest - 0x80]?
  let land : Land :=
    if bitsOf h 0 2 = 3 then .loopArm dest (w 1) (w 2) (w 3)
    else if h.testBit 50 then .dropAdd
    else if 0x400 ≤ dest then .ctxReg (dest - 0x400)
    else match port with
      | some q => .port q
      | none => .flagsOnly
  let tag : Tag := BitVec.ofNat 4 (bitsOf h 29 4)
  let v : Value := if h.testBit 51 then .ve ⟨lanesOfBytes (bs.drop 32), tag, h.testBit 41⟩ else .sc ⟨w 1, tag, h.testBit 41⟩
  ⟨bitsOf h 13 16, land, v, BitVec.ofNat 6 (bitsOf h 44 6), false, [], 0#64, none, none⟩

/-- The captured results of a saddlebag, and the bytes behind them. -/
def pendsOf : Nat → List Byte → List Pend × List Byte
  | 0, bs => ([], bs)
  | n + 1, bs =>
    let len := if (leNat (part bs 0 8)).testBit 51 then 288 else 32
    let r := pendsOf n (bs.drop len)
    (pendOfEntry bs :: r.1, r.2)

/-- The operands of captured commands from their entries, put into the commands as captured. -/
def cmdsOf : List Cmd → List Byte → List Cmd
  | [], _ => []
  | c :: cs, bs =>
    let h := leNat (part bs 0 8)
    let v (k tag taint : Nat) : Value :=
      .sc ⟨BitVec.ofNat 64 (leNat (part bs (8 * k) 8)), BitVec.ofNat 4 (bitsOf h tag 4), h.testBit taint⟩
    { c with o := v 1 29 41, p := v 2 33 42, t := v 3 37 43 } :: cmdsOf cs (bs.drop 32)

/-! ### The image of a context -/

/-- The full/empty bits of the lines of an allocation, from its first line. -/
def Store.feBits (st : Store) (key bytes : Nat) : List Byte :=
  leBytes ((bytes + 1023) / 1024)
    (natOfBits ((List.range (bytes / 128)).map fun i => (st.full? (lineOf key + i)).isSome))

/-- The allocations of a context as its image holds them (R243): lane slices, scratchpad and its bits, grove memory and
its bits, canopy slice by slice, elements before exponents. -/
def State.imageAlloc (s : State) (x : CtxRef) (e : Entry) (grb : Nat) : List Byte :=
  let own := x.core * 4 + x.ctx
  let m := s.store.mem
  let csp := keyOf .cspAlloc own 0
  let grv := keyOf .groveAlloc (s.ctx x).alloc.grvOwner 0
  padTo128 ((List.range 64).flatMap fun l => cellsRead m (keyOf .lane own (l * 4096)) e.lsb) ++
  padTo128 (cellsRead m csp e.spb) ++ padTo128 (s.store.feBits csp e.spb) ++
  padTo128 (cellsRead m grv grb) ++ padTo128 (s.store.feBits grv grb) ++
  padTo128 ((List.range 64).flatMap fun j =>
    cellsRead m (canopyKey x j 0 0) e.cnb ++ cellsRead m (canopyExpKey x j 0) (e.cnb / 16))

/-- The save image of a context with its captured commands (R242, R243). -/
def State.image (s : State) (x : CtxRef) (e : Entry) (grb : Nat) (cmds : List Cmd) : List Byte :=
  let c := s.ctx x
  let ents := (saddleOrder c.pend).filterMap fun p => (saddleDest p.dest).map (saddleEntry p)
  let head := c.stamp.toNat + c.cyc.toNat * 2 ^ 64 + (if c.ctaint then 2 ^ 112 else 0) + cmds.length % 64 * 2 ^ 120 +
    x.core * 2 ^ 126 + c.pc.toNat % 2 ^ 56 * 2 ^ 136 + c.first % 8 * 2 ^ 192 + ents.length % 1024 * 2 ^ 196
  leBytes 64 head ++ c.g.toList.flatMap regBytes ++ fitTo ((s.imageWords x).flatMap (leBytes 8)) 1024 ++
  (List.zipWith (fun o p => valBytes o ++ valBytes p) c.lo.toList c.lp.toList).flatten ++ c.q.toList.flatMap valBytes ++
  c.v.toList.flatMap (fun v => valBytes (.ve v)) ++ zeros 416 ++
  c.at8.toList.flatMap (fun t => tileBytes t 4096) ++ c.ct4.toList.flatMap (fun t => tileBytes t 16384) ++
  fitTo (ents.flatten ++ cmds.flatMap saddleCmd) 40960 ++ s.imageAlloc x e grb

/-! ### From an image back to a context (R217, R244) -/

/-- Word `n` of the words at 0x440. -/
def imageWord (img : List Byte) (n : Nat) : Nat := leNat (part img (0x440 + 8 * n) 8)

/-- The context that resumes from an image; what the image does not hold is as it stood at the stop. -/
def ctxOfImage (sv : Saved) (img : List Byte) : Ctx :=
  let c := sv.ctx
  let h := leNat (part img 0 64)
  let k := imageWord img 8
  let tags := imageWord img 16
  let w (n : Nat) : Word := BitVec.ofNat 64 (imageWord img n)
  let lat (n : Nat) : Value := valOfBytes (part img (0x840 + 272 * n) 272)
  let tile (n off len : Nat) : Tile :=
    ⟨part img off len, BitVec.ofNat 4 (bitsOf tags (4 * n) 4), tags.testBit (48 + n)⟩
  let vec (n : Nat) : VVal :=
    match valOfBytes (part img (0x2C60 + 272 * n) 272) with
    | .ve v => v
    | .sc x => ⟨lanesOf fun _ => BitVec.ofNat 32 x.w.toNat, x.tag, x.taint⟩
  { c with
    g := ⟨⟨(List.range 64).map fun n => regOfBytes (part img (0x40 + 16 * n) 16)⟩, by simp⟩
    v := ⟨⟨(List.range 32).map vec⟩, by simp⟩
    lo := ⟨⟨(List.range 11).map fun n => lat (2 * n)⟩, by simp⟩
    lp := ⟨⟨(List.range 11).map fun n => lat (2 * n + 1)⟩, by simp⟩
    q := ⟨⟨(List.range 12).map fun n => lat (22 + n)⟩, by simp⟩
    kdef := BitVec.ofNat 16 (0x8001 + bitsOf k 0 14 * 2)
    kpres := BitVec.ofNat 16 (0x8001 + bitsOf k 16 14 * 2)
    fpm := BitVec.ofNat 2 (imageWord img 0), ff := BitVec.ofNat 6 (imageWord img 1), drop := BitVec.ofNat 32 (imageWord img 3)
    cyc := BitVec.ofNat 48 (bitsOf h 64 48), nrg := BitVec.ofNat 48 (imageWord img 7)
    loop0 := ⟨w 9, w 10, w 11⟩, loop1 := ⟨w 12, w 13, w 14⟩, mxl := w 15
    at8 := ⟨⟨(List.range 8).map fun n => tile n (0x5000 + 4096 * n) 4096⟩, by simp⟩
    ct4 := ⟨⟨(List.range 4).map fun n => tile (8 + n) (0xD000 + 16384 * n) 16384⟩, by simp⟩
    lctr := ⟨⟨(List.range 16).map fun n => w (17 + n)⟩, by simp⟩
    ctaint := h.testBit 112
    pc := BitVec.ofNat 64 (bitsOf h 136 56), first := bitsOf h 192 3
    pend := if part img 0x1D000 40960 = part sv.image 0x1D000 40960 then c.pend
      else (pendsOf (bitsOf h 196 10) (part img 0x1D000 40960)).1 }

/-- The captured commands of an image, in their saved order. -/
def cmdsOfImage (sv : Saved) (img : List Byte) : List Cmd :=
  let h := leNat (part img 0 64)
  let bag := part img 0x1D000 40960
  if bag = part sv.image 0x1D000 40960 then sv.cmds
  else cmdsOf (sv.cmds.take (bitsOf h 120 6)) (pendsOf (bitsOf h 196 10) bag).2

/-- The full lines of a member's scratchpad and grove memory by the bits of its image (R243, R244): a line that was full at the
stop keeps who filled it, and any other counts as filled by the reaction that resumes, `me` (DESIGN CHOICE, log 159). -/
def fullOf (sv : Saved) (me : FeLine) (own grv : Nat) (e : Entry) (grb : Nat) (img : List Byte) : List FeLine :=
  let o1 := 0x27000 + pad128 (64 * e.lsb) + pad128 e.spb
  let o2 := o1 + pad128 ((e.spb + 1023) / 1024) + pad128 grb
  let read (kind key bytes at_ : Nat) : List FeLine :=
    let bits := leNat (part img at_ ((bytes + 1023) / 1024))
    ((List.range (bytes / 128)).filter bits.testBit).map fun i =>
      let was := sv.lines.find? fun q => decide (q.1 = kind ∧ q.2.1 = 128 * i)
      { (was.map fun q => q.2.2).getD me with line := lineOf key + i }
  read 3 (keyOf .cspAlloc own 0) e.spb o1 ++ read 5 (keyOf .groveAlloc grv 0) grb o2

/-- Bytes of an image's allocations put into the allocations of the context that resumes. -/
def State.restoreAlloc (s : State) (x : CtxRef) (e : Entry) (grb : Nat) (img : List Byte) : State :=
  let own := x.core * 4 + x.ctx
  let o1 := 0x27000
  let o2 := o1 + pad128 (64 * e.lsb)
  let o3 := o2 + pad128 e.spb + pad128 ((e.spb + 1023) / 1024)
  let o4 := o3 + pad128 grb + pad128 ((grb + 1023) / 1024)
  let m := (List.range 64).foldl (fun m l =>
    cellsWrite m (keyOf .lane own (l * 4096)) (part img (o1 + l * e.lsb) e.lsb)) s.store.mem
  let m := cellsWrite m (keyOf .cspAlloc own 0) (part img o2 e.spb)
  let m := cellsWrite m (keyOf .groveAlloc (s.ctx x).alloc.grvOwner 0) (part img o3 grb)
  let n := e.cnb + e.cnb / 16
  let m := (List.range 64).foldl (fun m j =>
    cellsWrite (cellsWrite m (canopyKey x j 0 0) (part img (o4 + j * n) e.cnb)) (canopyExpKey x j 0)
      (part img (o4 + j * n + e.cnb) (e.cnb / 16))) m
  { s with store := { s.store with mem := m } }

end Sys2Proof.Machine
end

