-- ==== Sys2Proof/Machine/Tickets.lean ====
section
/-!
DEFINITION. Instants and tickets (02_instants R25-R49, 11_dispatch R233-R237): enqueueing an instant, a core taking a
ticket, the start of a reaction and the resume of a checkpointed one.
-/

namespace Sys2Proof.Machine

/-! ### Instants (R25, R38, R42, R43, R233) -/

/-- The reactions of an instant in age order: first entry, members and width index (R25, R29, R38, R48). -/
def Launch.present (l : Launch) (i : Nat) : List (Nat × List Nat × Nat) :=
  (l.entries.zipIdx).flatMap fun p =>
    let e := p.1
    if i % e.period ≠ e.phase then []
    else
      match l.record.gangOf p.2 with
      | some g => if g.2.head? = some p.2 then [(p.2, g.2, 0)] else []
      | none => (List.range e.width).map fun w => (p.2, [p.2], w)

/-- The die that the reaction of age `a` of instant `i` goes to (R233). -/
def homeOf (m : BitVec 8) (a i : Nat) : Nat :=
  let ds := diesOf m
  if ds = [] then 0 else ds.getD ((a + i) % ds.length) 0

/-- A reaction as it is enqueued (R38, R49, R233, R234). -/
def Launch.newReaction (l : Launch) (i now age : Nat) (p : Nat × List Nat × Nat) : Reaction :=
  let e := l.entries[p.1]?
  { stamp := i * 2 ^ 16 + age, inst := i, entry := p.1, members := p.2.1, width := p.2.2, st := .queued
    prio := (e.map Entry.prio).getD 0, tok := (e.map Entry.tok).getD 0, die := homeOf l.record.diemask age i, since := now
    places := [], tended := [], wounds := 0, slots := [], saved := [], sets := [], irrev := false, trap := none
    action := none, lastCore := 0 }

/-- An instant of a launch over: its reactions retire, and what other devices' reactions of it held or had asked for is gone (R37,
R43). -/
def Launch.dropInstant (l : Launch) (i : Nat) : Launch :=
  { l with
    reacts := l.reacts.filter fun r => r.inst != i, cleared := i + 1
    guests := l.guests.filter fun g => decide (i < instOf g.stamp)
    away := l.away.filter fun a => decide (i < instOf a.stamp) }

/-- The oldest instant of an open launch closed if every reaction of it is finished: its reactions retire, and with the
last instant the launch ends (R43, R23). -/
def State.closeInstant (s : State) (lid : Nat) : State :=
  match s.launch? lid with
  | none => s
  | some l =>
    if !l.record.open_ || l.aborting || decide (l.phase ≠ .running) || decide (l.nextInst ≤ l.cleared) ||
        (l.reacts.any fun r => decide (r.inst = l.cleared) && decide (r.st ≠ .finished)) then s
    else
      let s := s.updLaunch lid fun l => l.dropInstant l.cleared
      let s : State := { s with store := { s.store with recent := s.store.recent.filter fun q => q.lid != lid } }
      if l.cleared + 1 = l.record.ninst then s.endLaunch lid none 0 else s

/-- Whether the next instant of a launch may be enqueued (R42, R43). -/
def Launch.mayEnqueue (l : Launch) : Bool :=
  decide (l.phase = .running) && !l.aborting && decide (l.nextInst < l.record.ninst) &&
    (if l.record.open_ then decide (l.nextInst = l.cleared) else decide (l.nextInst < l.cleared + 4))

/-- INSTANT_ENQUEUE: the reactions of the next instant join their ticket counters in stamp order (R233). -/
def State.instantEnqueue (s : State) (lid : Nat) : State :=
  match s.launch? lid with
  | none => s
  | some l =>
    if !l.mayEnqueue then s
    else
      let rs := (l.present l.nextInst).zipIdx.map fun p => l.newReaction l.nextInst s.timebase.toNat p.2 p.1
      let s := s.updLaunch lid fun l => { l with reacts := l.reacts ++ rs, nextInst := l.nextInst + 1 }
      let s := rs.foldl (fun (s : State) r => s.setTickets r.die r.prio (s.ticketsOf r.die r.prio ++ [⟨lid, r.stamp⟩])) s
      s.closeInstant lid

/-! ### Tokens (R234) -/


/-- TOKEN_GAIN: 65,536 core cycles of a reaction's wait told as one token (R234). -/
def State.tokenGain (s : State) (id : ReactId) : State :=
  s.updReact id fun r =>
    if r.st = .queued ∧ r.since + 65536 ≤ s.timebase.toNat then
      { r with tok := min 0xFFFF (r.tok + 1), since := r.since + 65536 }
    else r

/-! ### Room on a core (R85, R86, R236) -/


/-- Whether an entry's allocation fits a core beside what it holds (R236); `grb` is what it adds to the grove. -/
def State.fits (s : State) (core : Nat) (e : Entry) (grb : Nat) : Bool :=
  let rs := (s.core core).residents
  let ls := s.launchesOn core
  decide (s.spbUsed core + (ls.map fun l => l.record.chcore).sum + e.spb ≤ 2 ^ 21) &&
  decide ((rs.map fun c => c.alloc.lsb).sum + e.lsb ≤ 4096) && decide ((rs.map fun c => c.alloc.cnb).sum + e.cnb ≤ 65536) &&
  decide (s.groveUsed core + (ls.map fun l => l.record.chgrove).sum + grb ≤ 2 ^ 23)

/-! ### Whether a core may take a head (R235-R237) -/

/-- Whether a core may run work of a launch at all: present, awake, on a die of the launch, in the partition of the
submitting core, which is neither halted nor in reset (R17, R235, R376, R399). -/
def State.coreOpen (s : State) (l : Launch) (core : Nat) : Bool :=
  decide (core < 512) && s.present core && !(s.core core).gated && l.record.diemask.getLsbD (dieOf core) &&
    decide (s.partOf core = s.partOf l.core) &&
    (match s.partOf core with
      | some p => !s.halted.contains p && !s.resetting.contains p
      | none => false)

/-- A free context of a core for a reaction: idle, and not reserved for another (R235, R240); one reserved for it comes
first. -/
def State.freeCtx (s : State) (core : Nat) (id : ReactId) : Option Nat :=
  let idle := (List.range 4).filter fun k => decide ((s.ctx ⟨core, k⟩).status = .idle)
  let held (k : Nat) : List ReactId := (s.reserved.filter fun q => decide (q.1 = ⟨core, k⟩)).map Prod.snd
  (idle.find? fun k => (held k).contains id) <|> idle.find? fun k => decide (held k = [])

/-- The contexts a reaction's members are placed in, if a core takes it: the first member on that core, the others on other
cores of its grove, each with a free context and room, every member resident at once (R19, R48, R235, R236). A reaction
with a reserved context is taken by its core only (R240). -/
def State.placesFor (s : State) (l : Launch) (r : Reaction) (core : Nat) : Option (List (CtxRef × Nat)) :=
  let id : ReactId := ⟨l.lid, r.stamp⟩
  let mine := s.reserved.filter fun q => decide (q.2 = id)
  if mine ≠ [] ∧ !mine.any (fun q => decide (q.1.core = core)) then none
  else

    let gb := groveBytes l.record l.entries r.entry
    let others := ((List.range 8).map fun k => groveOf core * 8 + k).filter fun n => n != core
    let step (a : Option (List Nat × List (CtxRef × Nat))) (e : Nat) : Option (List Nat × List (CtxRef × Nat)) :=
      a.bind fun (free, ps) =>
        (l.entries[e]?).bind fun q =>
          let grb := if ps = [] then gb else 0
          let pool := if ps = [] then [core] else free
          (pool.findSome? fun n =>
            if s.coreOpen l n && s.fits n q grb then (s.freeCtx n id).map fun k => (n, k) else none).map fun (n, k) =>
              (free.filter fun j => j != n, ps ++ [(⟨n, k⟩, e)])
    (r.members.foldl step (some (others, []))).map Prod.snd

/-- What the thresholds of a reaction meet on a core (R32, R33). -/
inductive ThrR where
  | met | unmet | unreachable
  deriving DecidableEq, Repr

/-- The thresholds of a reaction tested for a core (R32, R33): a selector of kind 0x2 names a counter of the core's die.
A resuming reaction has met them. -/
def State.thresholds (s : State) (l : Launch) (r : Reaction) (core : Nat) : ThrR :=
  let one (e : Entry) (t : Thr) : ThrR :=
    let c := resolveSel s.devid (dieOf core) (BitVec.ofNat 64 t.csel)
    let need := min (2 ^ 64 - 1) (t.base + t.step * ((r.inst - e.phase) / e.period))
    if !s.known c then .unmet
    else if need ≤ (s.ctrVal ⟨core, 0⟩ c).toNat then .met
    else if !l.record.open_ && s.reached l r.inst then .unreachable
    else .unmet
  if r.slots ≠ [] then .met
  else
    let all := (r.members.filterMap fun e => l.entries[e]?).flatMap fun e => (e.thr.take e.nthr).map (one e)
    if all.contains .unreachable then .unreachable else if all.contains .unmet then .unmet else .met

/-- The location ranges of the sets of a reaction's members on a die, or on every die of the launch (R228). -/
def Launch.setRanges (l : Launch) (r : Reaction) (die : Option Nat) : List Range :=
  (l.maps.filter fun m => r.members.contains m.2.1 && die.all fun d => decide (m.1 = d)).flatMap fun m => m.2.2.1.flatten

/-- The location ranges of the leases of a reaction's members on a die. -/
def Launch.leaseRanges (l : Launch) (r : Reaction) (die : Nat) : List Range :=
  (l.maps.filter fun m => r.members.contains m.2.1 && decide (m.1 = die)).flatMap fun m => m.2.2.2

/-- The ranges of the sets of a reaction's list and of those it has declared so far: where it stands if it has started, else on
any die it may start on (R237). -/
def Launch.ownSets (l : Launch) (y : Reaction) : List Range :=
  if y.st = .running ∨ y.slots ≠ [] then y.sets.flatMap ASet.ranges else l.setRanges y none

/-- Whether the start of a reaction on a core is held back by an older one of its launch that has been wounded 8 times (R51,
R237). A checkpointed reaction resumes and is not started. -/
def Launch.heldBack (l : Launch) (r : Reaction) (core : Nat) : Bool :=
  decide (r.slots = []) && l.reacts.any fun y =>
    decide (8 ≤ y.wounds) && decide (y.stamp < r.stamp) && decide (y.st = .queued ∨ y.st = .running) &&
      (l.setRanges r (some (dieOf core)) ++ l.leaseRanges r (dieOf core)).any fun a => (l.ownSets y).any fun b => a.meetsLine b

/-! ### The start of a reaction (R30, R35, R36, R49) -/

/-- The entry state of a context (R27, R35, R162). -/
def startCtx (old : Ctx) (l : Launch) (r : Reaction) (e : Entry) (k : Nat) (alloc : Alloc) : Ctx :=
  let j := (r.inst - e.phase) / e.period
  let put (g : Vector SVal 64) (n : Fin 64) (v : Nat) (t : Tag) : Vector SVal 64 := g.set n ⟨BitVec.ofNat 64 v, t, false⟩
  { Ctx.reset with
    g := put (put (put (put Ctx.reset.g 1 l.record.args Tag.any) 2 j 0#4) 3 r.width 0#4) 4 r.inst 0#4
    fpm := l.record.fpm, stamp := BitVec.ofNat 64 r.stamp, ord := !l.record.open_, strict := l.record.strict
    nrg := old.nrg, sid := old.sid, pc := BitVec.ofNat 64 (e.hdr + 64), status := .ready
    react := some ⟨l.lid, r.stamp, k⟩, alloc := alloc }

/-- The allocations of a member made: every sector tainted, every line empty (R36, R87, R93). -/
def Store.allocateFor (st : Store) (x : CtxRef) (e : Entry) (grvOwner grb : Nat) : Store :=
  let own := x.core * 4 + x.ctx
  let st := (List.range 64).foldl (fun (st : Store) l => st.allocate ⟨keyOf .lane own (l * 4096), e.lsb⟩) st
  let st := st.allocate ⟨keyOf .cspAlloc own 0, e.spb⟩
  let st := (List.range 64).foldl (fun (st : Store) j => st.allocate ⟨canopyKey x j 0 0, e.cnb⟩) st
  if grvOwner = own then st.allocate ⟨keyOf .groveAlloc own 0, grb⟩ else st

/-- The sets of a reaction at a start: the items of its members' lists, in order, with their locations on the die they start on
(R197, R228). -/
def Launch.startSets (l : Launch) (ps : List (CtxRef × Nat)) : List ASet :=
  ps.flatMap fun p =>
    let rs := ((l.maps.find? fun m => decide (m.1 = dieOf p.1.core) && decide (m.2.1 = p.2)).map fun m => m.2.2.1).getD []
    ((l.entries[p.2]?.map Entry.setList).getD []).zipIdx.map fun it =>
      ⟨it.1.1, it.1.2, rs.getD it.2 [], false, false, false⟩

/-- The allocation of a member. -/
def allocOf (e : Entry) (owner grb : Nat) : Alloc := ⟨e.lsb, e.spb, grb, e.cnb, owner⟩

/-- A reaction taken out of its counter and of the reservations as it leaves QUEUED. -/
def State.takeTicket (s : State) (id : ReactId) : State :=
  let s := s.dropTicket id
  { s with reserved := s.reserved.filter fun q => q.2 != id }

/-- A reaction starts in its places, its gang counters 0 (R35, R36, R48, R49). -/
def State.start (s : State) (l : Launch) (r : Reaction) (ps : List (CtxRef × Nat)) : State :=
  let id : ReactId := ⟨l.lid, r.stamp⟩
  let owner := (ps.head?.map fun p => p.1.core * 4 + p.1.ctx).getD 0
  let gb := groveBytes l.record l.entries r.entry
  let sets := l.startSets ps
  let s := ((s.takeTicket id).ctrDrop ((List.range 16).map (gangKey id))).dropOld (ps.flatMap fun p => locKeys p.1)
  let s := ps.foldl (fun (s : State) p =>
    match l.entries[p.2]? with
    | none => s
    | some e =>
      let s := s.updCtx p.1 fun c => startCtx c l r e p.2 (allocOf e owner gb)
      { s with store := s.store.allocateFor p.1 e owner gb }) s
  let now := s.timebase.toNat
  s.updReact id fun q =>
    { q with st := .running, tok := r.tokens now, since := now, places := ps, tended := [], irrev := false, action := none, sets := sets }

/-! ### The resume of a checkpointed reaction (R217, R243, R244) -/

/-- The address of a save slot. -/
def Launch.slotAddr (l : Launch) (k : Nat) : Nat := l.record.savebase + k * l.record.saveslot

/-- A key of a reaction-local level moved from one owner to another. -/
def moveKey (from_ to_ gfrom gto : Nat) (key : Nat) : Nat :=
  let k := keyKind key
  if (k = 2 ∨ k = 3 ∨ k = 7 ∨ k = 8) ∧ keyOwner key = from_ then (to_ * 16 + k) * 2 ^ 40 + keyOff key
  else if k = 5 ∧ keyOwner key = gfrom then (gto * 16 + k) * 2 ^ 40 + keyOff key
  else key

/-- The key of an offset of a kind, by number, for the context that resumes. -/
def localKey (own grv kind off : Nat) : Nat := ((if kind = 5 then grv else own) * 16 + kind) * 2 ^ 40 + off
/-- A captured command as the resumed context holds it: `mx.cst` stores the tile that the context resumes with (R280). -/
def Ctx.recapture (c : Ctx) (m : Cmd) : Cmd :=
  if m.port = 0x224 then { m with recs := m.recs.take 1 ++ [(c.ct4[Fin.ofNat 4 (bitsOf m.t.word.toNat 0 2)]).bytes] } else m

/-- Whether a status is that of a context at its `sy.tend`, stopped or not. -/
def Status.atTend : Status → Bool
  | .blocked .tend => true
  | .stopped _ (some .tend) => true
  | _ => false

/-- A member resumes in a context (R217): registers, memories and full/empty bits from the image in its slot, captured commands
at the heads of their queues, what the image does not hold as it was kept. -/
def State.resumeMember (s : State) (l : Launch) (r : Reaction) (owner gb : Nat) (x : CtxRef) (sv : Saved) (slot : Nat) : State :=
  match l.entries[sv.entry]? with
  | none => s
  | some e =>
    let own := x.core * 4 + x.ctx
    let grb := imageGrove l.record l.entries sv.entry
    let img := match s.sysRead l l.checkDie (l.slotAddr slot) sv.image.length with
      | .ok b => b
      | _ => sv.image
    let seq := (s.core x.core).headId sv.cmds.length
    let mv := moveKey (sv.place.core * 4 + sv.place.ctx) own sv.ctx.alloc.grvOwner owner
    let piece (p : Piece) : Piece := { p with key := mv p.key }
    let c := ctxOfImage sv img
    let cmds := (cmdsOfImage sv img).zipIdx.map fun m =>
      { c.recapture m.1 with id := seq + m.2, ctx := x.ctx, reads := m.1.reads.map piece, writes := m.1.writes.map piece }
    let c := { c with
      status := if sv.ctx.status.atTend then .blocked .tend else .ready
      react := some ⟨l.lid, r.stamp, sv.entry⟩, alloc := allocOf e owner gb }
    let s := s.setCtx x c
    let s : State := { s with store := s.store.allocateFor x e owner gb }
    let s := s.restoreAlloc x e grb img
    let mine (k : Nat) : Bool :=
      let key := k * 32
      let kd := keyKind key
      (decide (kd = 2 ∨ kd = 3 ∨ kd = 7) && decide (keyOwner key = own)) ||
        (decide (kd = 5) && decide (keyOwner key = owner) && decide (owner = own))
    let s : State := { s with store := { s.store with
      taint := (sv.sectors.map fun q => localKey own owner q.1 q.2 / 32).foldl numPut (s.store.taint.filter fun k => !mine k)
      fe := fullOf sv ⟨0, l.lid, r.stamp, sv.entry, r.inst⟩ own owner e grb img ++ s.store.fe } }
    let s : State := { s with store := s.store.renumber l.lid r.stamp sv.place.core sv.cmds x.core seq }
    let s := (s.dropOld (locKeys x)).updCore x.core fun k =>
      { k.giveBack cmds with
        adds := k.adds ++ sv.adds.map fun a => { a.1 with ctx := x.ctx, before := seq + a.2 } }
    s.traceCtx x 4 0x104 false slot

/-- A checkpointed reaction resumes in its places, and its save slots are free again (R217, R244). -/
def State.resumeReact (s : State) (l : Launch) (r : Reaction) (ps : List (CtxRef × Nat)) : State :=
  let id : ReactId := ⟨l.lid, r.stamp⟩
  let owner := (ps.head?.map fun p => p.1.core * 4 + p.1.ctx).getD 0
  let gb := groveBytes l.record l.entries r.entry
  let s := s.takeTicket id
  let s := (List.range ps.length).foldl (fun (s : State) i =>
    match ps[i]?, r.saved[i]?, r.slots[i]? with
    | some p, some sv, some k => s.resumeMember l r owner gb p.1 sv k
    | _, _, _ => s) s
  let s := s.updLaunch l.lid fun l => { l with slots := l.slots.filter fun k => !r.slots.contains k }
  let now := s.timebase.toNat
  (s.dropAsked l.agent).updReact id fun q =>
    { q with st := .running, tok := r.tokens now, since := now, places := ps, action := none, slots := [], saved := [] }

/-- What the reading of a range for a launch waits for (R244, R347): page by page, where a page of this device has only poison to
wait for. -/
def State.spanNeed (s : State) (l : Launch) (va n : Nat) : Need :=
  (pagesOf va n).foldl (fun a p =>
    a.add (match s.sysPieces l l.checkDie .r p 1 with
      | .wait w => w
      | .bad => .none
      | .ok ps =>
        if s.store.poison = [] ∧ ps.all fun q => decide (q.page = .direct) then .none
        else (s.sysRead l l.checkDie p (min (va + n) ((p / 65536 + 1) * 65536) - p)).need)) .none

/-- What the reading of a checkpointed reaction's slots waits for (R244, R347). -/
def State.resumeNeed (s : State) (l : Launch) (r : Reaction) : Need :=
  (r.slots.zip r.saved).foldl (fun n p => n.add (s.spanNeed l (l.slotAddr p.1) p.2.image.length)) .none

/-! ### Taking a ticket (R235) -/

/-- Whether a reaction's ticket may ever leave: after an abort or a trap in an open launch only a checkpointed reaction goes on
(R212, R358). -/
def ticketLive (h : Launch × Reaction) : Bool := !h.1.aborting || decide (h.2.slots ≠ [])

/-- A reaction with its launch. -/
def State.ticket? (s : State) (id : ReactId) : Option (Launch × Reaction) :=
  (s.launch? id.lid).bind fun l => (l.react? id.stamp).map fun r => (l, r)

/-- The head of a ticket counter with its launch: the first ticket that may ever leave. -/
def State.headOf (s : State) (die prio : Nat) : Option (Launch × Reaction) :=
  ((s.ticketsOf die prio).filterMap s.ticket?).find? ticketLive

/-- A head put in its place among others: most tokens first, then the lower counter number. -/
def insertHead (now : Nat) (h : Launch × Reaction) : List (Launch × Reaction) → List (Launch × Reaction)
  | [] => [h]
  | k :: ks => if k.2.tokens now < h.2.tokens now then h :: k :: ks else k :: insertHead now h ks

/-- The heads of a die's eight ticket counters in the order of R235 step 1. -/
def State.heads (s : State) (die : Nat) : List (Launch × Reaction) :=
  ((List.range 8).filterMap (s.headOf die)).foldl (fun l h => insertHead s.timebase.toNat h l) []

/-- The reaction that a held-back head lets pass it in their ticket counter: one of the same launch that has been wounded 8
times, is older, and is not itself held back, so that every ready reaction runs eventually (R51, R237; log 126). -/
def State.passing (s : State) (core : Nat) (l : Launch) (r : Reaction) : Option Reaction :=
  ((s.ticketsOf r.die r.prio).filterMap fun id => if id.lid = l.lid then l.react? id.stamp else none).find? fun y =>
    decide (8 ≤ y.wounds) && decide (y.stamp < r.stamp) && ticketLive (l, y) && !l.heldBack y core

/-- A reaction whose thresholds are met placed and started, or resumed once its slots have been read (R217, R235, R236,
R244). -/
def State.place (s : State) (core : Nat) (l : Launch) (r : Reaction) : Option State :=
  if r.slots = [] then (s.placesFor l r core).map (s.start l r)
  else if (s.resumeNeed l r).any then none
  else (s.placesFor l r core).map (s.resumeReact l r)

/-- A ticket considered by a core with a context for it: taken, or its launch ended with COUNTER_UNREACHABLE (R33); none if it
stays. -/
def State.consider (s : State) (core : Nat) (h : Launch × Reaction) : Option State :=
  let l := h.1
  let r := h.2
  if !s.coreOpen l core || !ticketLive h || (s.freeCtx core ⟨l.lid, r.stamp⟩).isNone then none
  else
    match s.thresholds l r core with
    | .unreachable =>
      some (s.endRaised l.lid core (trapReport r.stamp ⟨cCounterUnreachable, 0#64, core⟩ false))
    | .unmet => none
    | .met =>
      if l.heldBack r core then
        (s.passing core l r).bind fun y => if s.thresholds l y core = .met then s.place core l y else none
      else s.place core l r

/-- The newcomers for which contexts of a core are reserved (R240). -/
def State.newcomersOf (s : State) (core : Nat) : List (Launch × Reaction) :=
  (s.reserved.filter fun q => decide (q.1.core = core)).filterMap fun q => s.ticket? q.2

/-- TICKET_TAKE: a core takes at most one ticket in a core cycle (R235): that of a reaction for which one of its contexts is
reserved (R240), else one of its die, else one of the next die that has one for it. A head whose consideration ends its launch
under R33 is the core's one ticket of the cycle (DESIGN CHOICE, log 160). -/
def State.ticketTake (s : State) (core : Nat) : State :=
  if 512 ≤ core ∨ s.took.contains core then s
  else
    let heads := ((List.range 8).map fun i => (dieOf core + i) % 8).flatMap s.heads
    match (s.newcomersOf core ++ heads).findSome? (s.consider core) with
    | some t => { t with took := core :: t.took }
    | none => s

end Sys2Proof.Machine
end

