-- ==== Sys2Proof/Machine/Preempt.lean ====
section
/-!
DEFINITION. Pre-emption (11_dispatch R238-R244): the choice of a victim and an action, the kill, the checkpoint, the end
of a load-block's fill, and the abort of a launch (21_spaces R358).
-/

namespace Sys2Proof.Machine

/-! ### The choice (R238, R239) -/

/-- The context of a reaction's first member. -/
def State.firstCtx (s : State) (r : Reaction) : Ctx := ((r.places.head?).map fun p => s.ctx p.1).getD Ctx.reset

/-- The remaining estimate of a running reaction; none where it is unbounded (R239). -/
def State.remaining (s : State) (l : Launch) (r : Reaction) : Option Nat :=
  let c := s.firstCtx r
  match c.mark.mrem with
  | some m => if m = 0x3FFFFF then none else some (m * 1024 - (c.cyc.toNat - c.mark.mcyc))
  | none => some (((l.entries[r.entry]?.map Entry.dcyc).getD 0) - c.cyc.toNat)

/-- The cost of a checkpoint (R239): the image sizes of the members summed. -/
def checkpointCost (l : Launch) (r : Reaction) : Nat :=
  512 + ((r.places.map fun p =>
    (l.entries[p.2]?.map fun e => imageSize e (imageGrove l.record l.entries p.2)).getD 0).sum) / 128

/-- Whether a reaction may be killed (R239): always in an ordered launch, before its irreversible point in an open one. -/
def killable (l : Launch) (r : Reaction) : Bool := !l.record.open_ || !r.irrev

/-- The pages of a save slot under the launch's SID (R244). -/
def State.slotPages (s : State) (l : Launch) (k : Nat) : SysR :=
  (pagesOf (l.slotAddr k) l.record.saveslot).foldl (fun a p =>
    a.append (s.sysPieces l l.checkDie .w p 1)) (.ok [])

/-- The free save slots of a launch that may be written, lowest first (R244); those whose pages must first be walked at another
device are among them. -/
def State.freeSlots (s : State) (l : Launch) : List Nat :=
  (List.range l.record.savecnt).filter fun k => !l.slots.contains k && decide (s.slotPages l k ≠ .bad)

/-- The members of a launch's reactions for which a checkpoint is chosen and not yet taken: each needs a slot. -/
def Launch.slotsDue (l : Launch) : Nat :=
  ((l.reacts.filter fun r => decide (r.action = some .checkpoint)).map fun r => r.places.length).sum

/-- The action for a victim (R239): drain, kill, checkpoint, or none. -/
def State.choose (s : State) (l : Launch) (r : Reaction) : Option Action :=
  let e := s.remaining l r
  let drain := (l.entries[r.entry]?.map Entry.drain).getD 0
  let long := match e with
    | none => true
    | some n => decide (4 * checkpointCost l r < n)
  let short := match e with
    | none => false
    | some n => decide (n ≤ drain)
  if short then some .drain
  else if long && killable l r then some .kill
  else if l.slotsDue + r.places.length ≤ (s.freeSlots l).length then some .checkpoint
  else if killable l r then some .kill
  else none

/-- The newcomer of a die (R238): the head that step 1 of R235 would take, if no context of the die can take it. -/
def State.newcomer (s : State) (die : Nat) : Option (Launch × Reaction) :=
  let cores := (List.range 64).map fun k => 64 * die + k
  let ready (h : Launch × Reaction) : Bool :=
    cores.any (s.coreOpen h.1) && ticketLive h && decide (s.thresholds h.1 h.2 (64 * die) = .met) &&
      !h.1.heldBack h.2 (64 * die)
  match (s.heads die).find? ready with
  | none => none
  | some h => if cores.any fun c => (s.placesFor h.1 h.2 c).isSome then none else some h

/-- The state as it would be with a reaction's contexts free. -/
def State.without (s : State) (r : Reaction) : State :=
  r.places.foldl (fun s p => s.updCtx p.1 fun c => { c with status := .idle, react := none, alloc := ⟨0, 0, 0, 0, 0⟩ }) s

/-- Whether a running reaction is a candidate for a newcomer (R238): one chosen for a drain is none. -/
def State.candidate (s : State) (die : Nat) (h : Launch × Reaction) (r : Reaction) : Bool :=
  decide (r.st = .running) && r.places.any (fun p => decide (dieOf p.1.core = die)) &&
    decide (r.tok < h.2.tokens s.timebase.toNat) && !(r.places.any fun p => (s.ctx p.1).emu) && decide (r.action ≠ some .drain) &&
    ((List.range 64).any fun k => ((s.without r).placesFor h.1 h.2 (64 * die + k)).isSome)

/-- Whether a candidate comes before another (R238): fewest tokens, then highest stamp, then highest core. -/
def victimBefore (a b : Reaction) : Bool :=
  let core (r : Reaction) : Nat := (r.places.head?.map fun p => p.1.core).getD 0
  decide (a.tok < b.tok) || (decide (a.tok = b.tok) &&
    (decide (b.stamp < a.stamp) || (decide (a.stamp = b.stamp) && decide (core b < core a))))

/-- The victim of a die for a newcomer. -/
def State.victim (s : State) (die : Nat) (h : Launch × Reaction) : Option (Launch × Reaction) :=
  let all := s.launches.flatMap fun l => (l.reacts.filter (s.candidate die h)).map fun r => (l, r)
  all.foldl (fun b v =>
    match b with
    | none => some v
    | some w => if victimBefore v.2 w.2 then some v else some w) none

/-- PREEMPT_CHOICE: in every core cycle whose timebase is a multiple of 4,096 a die chooses at most one victim and its action,
and the victim's contexts are reserved for the newcomer (R238-R240). -/
def State.preemptChoice (s : State) (die : Nat) : State :=
  if s.timebase.toNat % 4096 ≠ 0 ∨ s.chose.contains die then s
  else
    match s.newcomer die with
    | none => s
    | some h =>
      match s.victim die h with
      | none => s
      | some (l, r) =>
        match s.choose l r with
        | none => s
        | some a =>
          let s := s.updReact ⟨l.lid, r.stamp⟩ fun r => { r with action := some a }
          { s with
            chose := die :: s.chose
            reserved := s.reserved ++ r.places.map fun p => (p.1, ⟨h.1.lid, h.2.stamp⟩) }
/-! ### Kill (R46, R240) -/

/-- Whether no core of a reaction is frozen, so that its members stand at group boundaries (R204). -/
def State.atBoundary (s : State) (r : Reaction) : Bool := r.places.all fun p => (s.core p.1.core).freeze.isNone

/-- Whether a member of a reaction runs its emulation handler, which puts a checkpoint off (R220). -/
def State.inHandler (s : State) (r : Reaction) : Bool := r.places.any fun p => (s.ctx p.1).emu

/-- A running or checkpointed reaction thrown away and requeued: commands in flight abandoned, version discarded here and where
other devices hold it, with the wounds that follow, channels repaired, a checkpoint discarded (R46, R114, R240). -/
def State.killReact (s : State) (lid : Nat) (r : Reaction) : State :=
  let o := s.origin ((r.places.head?.map Prod.fst).getD ⟨r.lastCore, 0⟩)
  let jobs := s.store.dependents lid r.stamp
  let s := (s.releaseReact r false).tellDiscard lid r.stamp
  let s := { s with store := s.store.discard lid r.stamp [r.stamp] }
  let s := s.updLaunch lid fun l => { l with slots := l.slots.filter fun k => !r.slots.contains k }
  let s := s.updReact ⟨lid, r.stamp⟩ fun r => { r with slots := [], saved := [] }
  let s := s.requeue ⟨lid, r.stamp⟩
  s.woundLoop lid o s.woundFuel [r.stamp] jobs

/-- KILL: a chosen kill takes effect at the victim's group boundary (R240); a reaction of an open launch that has trapped does
not run again, which may end the launch (R212). -/
def State.kill (s : State) (id : ReactId) : State :=
  match s.react? id with
  | none => s
  | some r =>
    if r.action = some .kill ∧ r.st = .running ∧ s.atBoundary r then (s.killReact id.lid r).checkEnd id.lid else s

/-! ### Load-blocks (R89, R174) -/

/-- The data of a result that a load-block's fill brings. -/
def Pend.filledBy (k base : Nat) (p : Pend) : Pend :=
  if p.fill = some (k, base) then { p with fill := none, late := p.await.isSome } else p

/-- LOAD_BLOCK_FILLED: the first unfilled load-block of a context at an address has all its lines; its byte count is
added to its counter, it goes if it was to be evicted, and the loads that met its lines have their data (R89, R174). -/
def State.blockFilled (s : State) (x : CtxRef) (base : Nat) : State :=
  let c := s.ctx x
  match c.blocks.findIdx? fun b => decide (b.base = base) && !b.filled with
  | none => s
  | some i =>
    match c.blocks[i]? with
    | none => s
    | some b =>
      let s := s.completionAdd x c.react b.sel (BitVec.ofNat 64 (128 * b.lines)) b.tainted
      let s := s.updCtx x fun c =>
        { c with blocks := if b.evict then c.blocks.eraseIdx i else c.blocks.set i { b with filled := true } }
      if (s.ctx x).blocks.any fun b => decide (b.base = base) && !b.filled then s
      else s.dataCome x.core (Pend.filledBy x.ctx base)

/-! ### Checkpoint (R214-R216, R240-R244) -/

/-- The started commands of a context completed and its load-blocks filled (R214). -/
def State.drain (s : State) (x : CtxRef) : State :=
  let mine (q : List Cmd) : List Cmd := q.filter fun c => c.started && decide (c.ctx = x.ctx)
  let s := (mine (s.core x.core).cpq).foldl (fun s c => s.cpComplete x.core c.id) s
  let s := (mine (s.core x.core).mxq).foldl (fun s c => s.mxComplete x.core (inArray c)) s
  ((s.ctx x).blocks.filter fun b => !b.filled).foldl (fun s b => s.blockFilled x b.base) s

/-- Whether a context has no started command, no trap of one to come, and no load that another device has yet to answer. -/
def State.drained (s : State) (x : CtxRef) : Bool :=
  (!((s.core x.core).cpq ++ (s.core x.core).mxq).any fun c => c.started && decide (c.ctx = x.ctx)) &&
    !(s.ctx x).loadsOut && !s.engTraps.any fun t => decide (t.x = x)

/-- The commands a context has issued that have not started, in the order issued (R214, R216). -/
def State.captured (s : State) (x : CtxRef) : List Cmd :=
  let k := s.core x.core
  (((k.mxq ++ k.cpq ++ k.msq).filter fun c => decide (c.ctx = x.ctx)).foldl (fun l c => insertCmd c l) [])

/-- What is kept of a member beside its image: sector taints and full lines of its allocations by kind and offset. -/
def State.keep (s : State) (x : CtxRef) (entry : Nat) (cmds : List Cmd) (image : List Byte) : Saved :=
  let own := x.core * 4 + x.ctx
  let c := s.ctx x
  let mine (key : Nat) : Bool :=
    decide (keyOwner key = own) && (decide (keyKind key = 2 ∨ keyKind key = 3 ∨ keyKind key = 7) ||
      (decide (keyKind key = 5) && decide (c.alloc.grvOwner = own)))
  { entry := entry, place := x, ctx := c, cmds := cmds
    adds := ((s.core x.core).adds.filter fun a => decide (a.ctx = x.ctx)).map fun a =>
      (a, (cmds.filter fun c => decide (c.id < a.before)).length)
    image := image
    sectors := (s.store.taint.filter fun k => mine (k * 32)).map fun k => (keyKind (k * 32), keyOff (k * 32))
    lines := (s.store.fe.filter fun f => mine (f.line * 128)).map fun f => (keyKind (f.line * 128), keyOff (f.line * 128), f) }

/-- A context at its precise stop: what is due has landed, and every access has its data (R214). -/
def Ctx.settle (c : Ctx) : Ctx :=
  ({ c with pend := c.pend.map fun p => { p with late := false, fill := none, await := none } } : Ctx).landDue

/-- A member saved: its image written to its slot, a checkpoint record traced, its context free (R240, R243, R373). -/
def State.saveMember (s : State) (l : Launch) (x : CtxRef) (entry slot : Nat) : State × Option Saved :=
  match l.entries[entry]? with
  | none => (s, none)
  | some e =>
    let s := s.updCtx x Ctx.settle
    let cmds := s.captured x
    let img := s.image x e (imageGrove l.record l.entries entry) cmds
    let sv := s.keep x entry cmds img
    let s := s.traceCtx x 4 0x103 false slot
    let s := (s.sysWrite l l.checkDie (l.slotAddr slot) img).getD s
    (s.releaseCtx x false, some sv)

/-- The members of a reaction saved to slots, which are then in use, and the reaction at the head of its ticket counter with its
stamp, its tokens, its version, its leases and its sets (R240, R243, R244). -/
def State.saveReact (s : State) (l : Launch) (r : Reaction) (slots : List Nat) : State :=
  let id : ReactId := ⟨l.lid, r.stamp⟩
  let q := (r.places.zip slots).foldl (fun (a : State × List Saved) p =>
    let m := a.1.saveMember l p.1.1 p.1.2 p.2
    (m.1, a.2 ++ m.2.toList)) (s, [])
  let s := q.1.updLaunch l.lid fun l => { l with slots := l.slots ++ slots }
  let s := s.updReact id fun r =>
    { r with st := .queued, since := s.timebase.toNat, places := [], action := none, slots := slots, saved := q.2 }
  let s := (s.dropAsked l.agent).dropTicket id
  s.setTickets r.die r.prio (id :: s.ticketsOf r.die r.prio)

/-- CHECKPOINT: a chosen checkpoint is taken at the victim's group boundary outside emulation mode: started commands complete,
and every member is saved to the lowest free slots, once their pages have been walked (R214, R220, R240, R244). Where a
launch has too few slots that may be written, no action is taken. -/
def State.checkpoint (s : State) (id : ReactId) : State :=
  match s.react? id with
  | none => s
  | some r =>
    if r.action ≠ some .checkpoint ∨ r.st ≠ .running ∨ !s.atBoundary r ∨ s.inHandler r then s
    else
      let t := r.places.foldl (fun s p => s.drain p.1) s
      match t.launch? id.lid, t.react? id with
      | some l, some r =>
        if r.st ≠ .running ∨ !r.places.all fun p => t.drained p.1 then t
        else
          let slots := (t.freeSlots l).take r.places.length
          let need := (slots.map fun k => (t.slotPages l k).need).foldl Need.add .none
          if slots.length < r.places.length then t.updReact id fun r => { r with action := none }
          else if need.any then t.askNeed l need
          else t.saveReact l r slots
      | _, _ => t

/-! ### Abort (R358) -/

/-- `sv.abort` of the launch with a STATUS address (R358): an ordered launch ends at once, committed state standing; in an
open one every killable reaction is killed and the rest run to their end. -/
def State.abort (s : State) (status : Nat) : State :=
  match s.launches.find? fun l => decide (l.record.status = status) && decide (l.phase ≠ .ended) with
  | none => s
  | some l =>
    let rep : Report := ⟨cLaunchAbort, 0, 0, 0, 0#64, 0, false⟩
    if l.phase = .submitted ∨ !l.record.open_ then s.endLaunch l.lid (some rep) 0
    else
      let s := s.updLaunch l.lid fun l => { l with aborting := true, report := some rep, nother := 0 }
      let live (r : Reaction) : Bool := woundable true r && decide (r.st ≠ .finished ∧ r.st ≠ .failed)
      let s := (l.reacts.filter live).foldl (fun s r => s.killReact l.lid r) s
      s.checkEnd l.lid

end Sys2Proof.Machine
end

