-- ==== Sys2Proof/Machine/Clear.lean ====
section
/-!
DEFINITION. The end of a reaction and the clearing engine (02_instants R37, R41, R43; 05_ordering R103, R114;
09_seq_control R193, R198; 18_clearing R315, R319-R324): the retirement of `sy.tend`, clearing an instant, the taint log,
merging a version, and acquiring a set that was waited for.
-/

namespace Sys2Proof.Machine

/-! ### The retirement of `sy.tend` (R198) -/

/-- Whether a context is that of a gang member whose `sy.tend` has retired: it keeps its place until the gang is finished, so
that every member is resident at once (R48; log 138). -/
def State.hasTended (s : State) (x : CtxRef) : Bool :=
  (s.ctx x).react.any fun ref => (s.react? ref.id).any fun r => r.tended.contains ref.entry

/-- Whether a context at its `sy.tend` has nothing left to report: no command, no unfilled load-block, no held add, and no store
of its own, or load, that another device has yet to acknowledge or answer (R14, R112, R116, R198). -/
def State.tendReady (s : State) (x : CtxRef) : Bool :=
  let k := s.core x.core
  decide ((s.ctx x).status = .blocked .tend) && !s.hasTended x &&
    !(k.mxq ++ k.cpq ++ k.msq).any (fun c => decide (c.ctx = x.ctx)) &&
    (s.ctx x).blocks.all LoadBlock.filled && !k.adds.any (fun a => decide (a.ctx = x.ctx)) && !s.ctxFlits x &&
    !(s.ctx x).loadsOut && !s.engTraps.any fun t => decide (some t.react.id = (s.ctx x).react.map RunRef.id)

/-- A reaction all of whose members have retired: finished, its places free, its sets released to a past holder (R37, R324). -/
def Reaction.finish (r : Reaction) : Reaction :=
  { r with
    st := .finished, places := [], action := none
    sets := r.sets.map fun a => { a with held := false, past := a.past || a.held } }

/-- What a finished reaction brings about: an open instant may close (R43), an ordered launch's devices are told when the
whole instant is finished (R114), and a launch that waits for it may end (R211, R212). -/
def State.afterFinish (s : State) (lid : Nat) (inst : Nat) : State :=
  match s.launch? lid with
  | none => s
  | some l =>
    if l.record.open_ then (s.closeInstant lid).checkEnd lid
    else
      let whole := l.reacts.all fun r => decide (r.inst ≠ inst) || decide (r.st = .finished)
      let s := if whole then s.tellPeers l (.finished s.devid l.record.status inst) else s
      s.checkEnd lid

/-- TEND_RETIRE: the member's `sy.tend` retires, and with the last member the reaction is finished and its contexts are free
(R37, R48, R198). -/
def State.tendRetire (s : State) (x : CtxRef) : State :=
  if !s.tendReady x then s
  else
    match (s.ctx x).react with
    | none => s.releaseCtx x true
    | some ref =>
      let s := s.updReact ref.id fun r => { r with tended := r.tended ++ [ref.entry], lastCore := x.core }
      match s.react? ref.id with
      | some r =>
        if r.members.all fun e => r.tended.contains e then
          (((s.releaseReact r true).updReact ref.id Reaction.finish).tellRelease ref.lid ref.stamp false).afterFinish ref.lid r.inst
        else s
      | none => s.releaseCtx x true

/-! ### The taint log (R321) -/

/-- A taint-log record (R321). -/
def taintRecord (status kind stamp addr stamp2 : Nat) : Nat :=
  kind + bitsOf status 6 50 * 2 ^ 8 + stamp % 2 ^ 64 * 2 ^ 64 + addr % 2 ^ 56 * 2 ^ 128 + stamp2 % 2 ^ 64 * 2 ^ 192

/-- Whether the taint log of a die has room for a record. -/
def DieRegs.taintRoom (d : DieRegs) : Bool :=
  decide (d.tlord ≠ 0#5) && decide ((d.tlhead - d.tltail).toNat < 2 ^ d.tlord.toNat)

/-- The address of the `k`-th record to come of a die's taint log (R321). -/
def DieRegs.taintSlot (d : DieRegs) (k : Nat) : Nat := d.tlbase.toNat * 64 + 32 * ((d.tlhead.toNat + k) % 2 ^ d.tlord.toNat)

/-- A record written to the taint log of a die, or dropped and counted lost (R321). It is written under the launch's
space; a page that refuses it drops it. -/
def State.taintLog (s : State) (die : Nat) (l : Launch) (kind stamp addr stamp2 : Nat) : State :=
  let d := s.die die
  let lost := s.updDie die fun d => { d with tllost := d.tllost + 1#64 }
  if !d.taintRoom then lost
  else
    match s.sysWrite l die (d.taintSlot 0) (leBytes 32 (taintRecord l.record.status kind stamp addr stamp2)) with
    | some s => s.updDie die fun d => { d with tlhead := d.tlhead + 1#64 }
    | none => lost

/-- What the pages of the taint logs wait for before a record is written on each of some dies (R345, R347). -/
def State.taintNeed (s : State) (l : Launch) (dies : List Nat) : Need :=
  (List.range 8).foldl (fun n d =>
    if (s.die d).tlord = 0#5 then n
    else (List.range (dies.filter fun e => decide (e = d)).length).foldl (fun n k =>
      n.add (s.sysPieces l d .w ((s.die d).taintSlot k) 32).need) n) .none

/-! ### Conflicts (R103, R320) -/

/-- The logs of an instant of a launch, in stamp order. -/
def Store.instLogs (st : Store) (lid inst : Nat) : List RLog :=
  st.logs.filter fun g => decide (g.lid = lid) && decide (instOf g.stamp = inst)

/-- Whether an effect's location is homed on this device. -/
def homed (key : Nat) : Bool := decide (keyKind key ≠ Kind.remote.num)

/-- A store of an instant: sector, writer's stamp, writing member, and whether it is a set store. -/
structure Wrote where
  sector : Nat
  stamp : Nat
  who : Nat
  isSet : Bool
  deriving DecidableEq, Repr

/-- The stores of an instant's logs. -/
def wroteOf (gs : List RLog) : List Wrote :=
  gs.flatMap fun g => g.effs.filterMap fun e =>
    match e with
    | .store key _ _ st _ who => if homed key then some ⟨sectorOf key, g.stamp, who, st⟩ else none
    | _ => none

/-- Whether the stores to a sector conflict: two writers, and a plain store among them. Every member of a gang is a writer
of its own (R320). -/
def conflictIn (ws : List Wrote) (k : Nat) : Bool :=
  let mine := ws.filter fun w => decide (w.sector = k)
  decide (1 < ((mine.map fun w => (w.stamp, w.who)).eraseDups).length) && mine.any fun w => !w.isSet

/-- The lowest conflicting sector of an instant by address (R320). -/
def lowestConflict (addr : Nat → Nat) (ws : List Wrote) : Option Nat :=
  (((ws.map Wrote.sector).eraseDups).filter (conflictIn ws)).foldl (fun b k =>
    match b with
    | none => some k
    | some j => if addr (32 * k) < addr (32 * j) then some k else some j) none

/-- The stamps of a sector's writers, in stamp order, one for each writer. -/
def writerStamps (ws : List Wrote) (k : Nat) : List Nat :=
  (((ws.filter fun w => decide (w.sector = k)).map fun w => (w.stamp, w.who)).eraseDups).map Prod.fst

/-! ### Taint events (R319, R321) -/

/-- A taint event: kind of its record, stamp, location key or counter selector, and the die whose log receives the record; none
for a counter of another device. -/
structure TaintEv where
  kind : Nat
  stamp : Nat
  what : Nat
  die : Option Nat
  deriving DecidableEq, Repr

/-- Whether an effect is a store to a sector, memory-side or not; a memory-side operation is a log entry and no store (R319; log
139). -/
def Eff.storesTo (k : Nat) : Eff → Bool
  | .store key _ _ _ _ _ => decide (sectorOf key = k)
  | _ => false

/-- A sector's committed taint after the stores of an instant's logs (R319). -/
def Store.finalTaint (st : Store) (gs : List RLog) (k : Nat) : Bool :=
  (gs.foldl (fun x g => (g.effs.filter (Eff.storesTo k)).foldl (secEff k) x) (st.sector k)).2

/-- The memory-side entry of an effect as a taint event, if its data is tainted (R319). -/
def Eff.entryEvent (stamp : Nat) : Eff → List TaintEv
  | .store key _ true _ true _ => if homed key then [⟨3, stamp, key, some (homeDie key)⟩] else []
  | .msop _ key _ _ true => if homed key then [⟨3, stamp, key, some (homeDie key)⟩] else []
  | _ => []

/-- A tainted counter add as a taint event (R319). -/
def Eff.addEvent (stamp : Nat) : Eff → List TaintEv
  | .add ctr _ true =>
    let k := ctr % 2 ^ 24
    [⟨2, stamp, selWord (k / 16384) (k % 16384), if ctr < 2 ^ 24 then some (k / 16384) else none⟩]
  | _ => []

/-- The sector that an effect stores to as a taint event: its committed taint is set, and this is the last store to it of the
reaction with the highest stamp among its writers (R319). -/
def Store.sectorEvent (st : Store) (gs : List RLog) (stamp : Nat) (e : Eff) (later : List Eff) (above : List RLog) :
    List TaintEv :=
  match e.sector? with
  | none => []
  | some k =>
    if !homed (32 * k) || !e.storesTo k || later.any (Eff.storesTo k) || above.any (fun h => h.effs.any (Eff.storesTo k)) ||
        !st.finalTaint gs k then
      []
    else [⟨1, stamp, 32 * k, some (homeDie (32 * k))⟩]

/-- The taint events of the effects of a log in issue order (R319); of one memory-side store the entry's comes before its
sector's (log 139). -/
def Store.eventsOf (st : Store) (gs : List RLog) (g : RLog) (above : List RLog) : List Eff → List TaintEv
  | [] => []
  | e :: es => e.addEvent g.stamp ++ e.entryEvent g.stamp ++ st.sectorEvent gs g.stamp e es above ++ st.eventsOf gs g above es

/-- The taint events of an instant's logs: in stamp order, each reaction's in issue order (R319). -/
def Store.taintEvents (st : Store) (gs : List RLog) : List RLog → List TaintEv
  | [] => []
  | g :: rest => st.eventsOf gs g rest g.effs ++ st.taintEvents gs rest

/-- What a taint event reports: the counter selector, or the address as the launch names it (R321). -/
def State.eventInfo (s : State) (l : Launch) (t : TaintEv) : Nat := if t.kind = 2 then t.what else s.launchAddr l.lid t.what

/-- A taint event's record written. -/
def State.logEvent (s : State) (l : Launch) (t : TaintEv) : State :=
  match t.die with
  | some d => s.taintLog d l t.kind t.stamp (s.eventInfo l t) 0
  | none => s

/-! ### The commit (R315, R319) -/

/-- An effect committed to memory: a store under the whole-or-part rule, a memory-side operation on the value then
standing. A location homed on another device is committed there (R114). -/
def Store.commit (st : Store) (e : Eff) : Store :=
  match e with
  | .store key bytes t _ _ _ => if homed key then st.put key bytes t else st
  | .msop _ key _ _ _ => if homed key then st.setSector (sectorOf key) (secEff (sectorOf key) (st.sector (sectorOf key)) e) else st
  | .add _ _ _ => st
  | .cmd _ _ => st

/-- A held add applied at clearing (R193); one for another device goes there as a flit. -/
def State.commitAdd (s : State) (core stamp : Nat) (e : Eff) : State :=
  match e with
  | .add ctr n _ =>
    if ctr < 2 ^ 24 then s.ctrAdd ctr n
    else s.sendFlit core 4 (ctr / 2 ^ 24 - 1) 0 (ctrAddr (ctr % 2 ^ 24)) (leBytes 8 n.toNat) 0xFF stamp
  | _ => s

/-- The effects of a log in the order in which they are committed: its stores, then its memory-side entries (R319). -/
def RLog.ordered (g : RLog) : List Eff := (g.effs.filter fun e => !e.isMs) ++ g.effs.filter Eff.isMs

/-- The location and the bytes that an effect writes to memory here. -/
def Store.writes (st : Store) (e : Eff) : Option (Nat × List Byte) :=
  match e with
  | .store key bytes _ _ _ _ => if homed key then some (key, bytes) else none
  | .msop op key _ _ _ =>
    let bs := (secEff (sectorOf key) (st.sector (sectorOf key)) e).1
    if homed key then some (key, (bs.drop (key % 32)).take op.width) else none
  | _ => none

/-- The first change of a pinned entry that the commit of some effects would make: the entry (R350). -/
def State.pinMet (s : State) : List Eff → Option Nat
  | [] => none
  | e :: es =>
    match (s.store.writes e).bind fun w => s.pinHit w.1 w.2 with
    | some a => some a
    | none => ({ s with store := s.store.commit e } : State).pinMet es

/-- The first change of a pinned entry that the clearing of an instant would make, in stamp order: the reaction's stamp and the
entry (R350, R352). -/
def State.pinCommit (s : State) (gs : List RLog) : Option (Nat × Nat) :=
  if s.pinned = [] then none
  else
    (s.pinMet (gs.flatMap RLog.ordered)).map fun e =>
      let hit (f : Eff) : Bool := match s.store.writes f with
        | some w => decide (e < w.1 + w.2.length) && decide (w.1 < e + 8)
        | none => false
      (((gs.find? fun g => g.effs.any hit).map RLog.stamp).getD 0, e)

/-- Whether an effect stores a byte. -/
def Eff.covers (b : Nat) : Eff → Bool
  | .store key bytes _ _ _ _ => decide (key ≤ b) && decide (b < key + bytes.length)
  | _ => false

/-- The poisoned lines that the stores of an instant write whole: the commit clears them (R400; log 161). -/
def Store.wholePoisoned (st : Store) (gs : List RLog) : List Nat :=
  st.poison.filter fun k => (List.range 128).all fun i => gs.any fun g => g.effs.any (Eff.covers (128 * k + i))

/-- One reaction's part of a clearing: its stores, its memory-side log entries, its held adds, each in issue order
(R319). -/
def State.commitLog (s : State) (core : Nat) (g : RLog) : State :=
  let here := (g.effs.filterMap Eff.sector?).eraseDups.filter fun k => homed (32 * k)
  let s := s.note (some ⟨g.lid, g.stamp, 0⟩) false here
  let st := g.ordered.foldl Store.commit s.store
  g.effs.foldl (fun s e => s.commitAdd core g.stamp e) { s with store := st }

/-- The lines whose versions of an instant are to be merged (R315); memory-side lines have none. -/
def versionLines (gs : List RLog) : List Nat :=
  (gs.flatMap fun g => (g.effs.filter fun e => !e.isMs).filterMap Eff.line?).eraseDups.filter fun l => homed (128 * l)

/-- What an uncleared instant held in store gone as it clears: its logs, the leases that lapse, its edges, set loads and
repair records (R102, R319). -/
def Store.retire (st : Store) (lid inst : Nat) : Store :=
  let keep (stamp : Nat) : Bool := decide (instOf stamp ≠ inst)
  { st with
    logs := st.logs.filter fun g => g.lid != lid || keep g.stamp
    leases := st.leases.filter fun q => q.lid != lid || decide (inst + 1 < instOf q.stamp)
    edges := st.edges.filter fun e => e.lid != lid || (keep e.producer && keep e.consumer)
    setReads := st.setReads.filter fun e => e.lid != lid || (keep e.producer && keep e.consumer)
    consumed := st.consumed.filter fun c => c.lid != lid || keep c.stamp }

/-- Counter values known of other devices forgotten, with the requests whose answers are yet to come, so that cleared values are fetched
anew. -/
def Fabric.forget (f : Fabric) : Fabric :=
  { f.dropReqs fun q => decide (2 ^ 55 ≤ q.addr) && !q.load with remoteCtrs := [] }

/-- The instant `l.cleared` of a launch committed: its logs in stamp order, versions left to merge, reactions retired;
with the last instant the launch ends (R23, R41, R319). -/
def State.commitInstant (s : State) (l : Launch) (gs : List RLog) : State :=
  let i := l.cleared
  let s : State := { s with
    store := s.store.clearPoison (s.store.wholePoisoned gs)
    clearedNow := l.lid :: s.clearedNow }
  let s := gs.foldl (fun s g => s.commitLog l.core g) s
  let st := s.store.retire l.lid i
  let s : State := { s with
    store := { st with unmerged := st.unmerged ++ (versionLines gs).map fun k => (k, l.lid, i) }
    fabric := s.fabric.forget }
  let gangs := (l.reacts.filter fun r => decide (r.inst = i)).flatMap fun r =>
    (List.range 16).map fun n => gangKey ⟨l.lid, r.stamp⟩ n
  let s := (s.ctrDrop gangs).updLaunch l.lid fun l => l.dropInstant i
  let s := s.tellPeers l (.cleared s.devid l.record.status i)
  if i + 1 = l.record.ninst then s.endLaunch l.lid none 0 else s.checkEnd l.lid

/-- Whether the lowest uncleared instant of an ordered launch may clear (R41, R114). -/
def Launch.mayClear (l : Launch) : Bool :=
  decide (l.phase = .running) && !l.record.open_ && decide (l.cleared < l.nextInst) &&
    (l.reacts.all fun r => decide (r.inst ≠ l.cleared) || decide (r.st = .finished)) &&
    l.peers.all fun p => decide (l.cleared < p.fin) && decide (l.cleared ≤ p.clr)

/-- Whether every other device of a launch has found nothing against the lowest uncleared instant (R114; log 76). -/
def Launch.allChecked (l : Launch) : Bool := l.peers.all fun p => decide (l.cleared < p.chk)

/-- The other devices told, once, that nothing here stands against the lowest uncleared instant (R114). -/
def State.tellChecked (s : State) (l : Launch) : State :=
  if l.cleared < l.checked then s
  else
    (s.updLaunch l.lid fun q => { q with checked := l.cleared + 1 }).tellPeers l (.checked s.devid l.record.status l.cleared)

/-- The core on which a reaction finished. -/
def Launch.coreOf (l : Launch) (stamp : Nat) : Nat := ((l.react? stamp).map Reaction.lastCore).getD 0

/-- A conflict at a sector reported: nothing is committed, and the launch ends (R320). -/
def State.conflict (s : State) (l : Launch) (ws : List Wrote) (k : Nat) : State :=
  let st := writerStamps ws k
  let a := st.headD 0
  let addr := s.launchAddr l.lid (32 * k)
  let s := s.taintLog (homeDie (32 * k)) l 4 a addr (st.getD 1 0)
  s.endRaised l.lid (l.coreOf a) ⟨cWriteConflict, 0, 0, a, BitVec.ofNat 64 addr, l.coreOf a, false⟩

/-- The first taint event of a `strict` launch reported: nothing is committed, and the launch ends (R321). -/
def State.taintCommit (s : State) (l : Launch) (t : TaintEv) : State :=
  let info := BitVec.ofNat 64 (s.eventInfo l t)
  (s.logEvent l t).endRaised l.lid (l.coreOf t.stamp) ⟨cTaintCommit, 0, 0, t.stamp, info, l.coreOf t.stamp, false⟩

/-- A store of an instant that would change an entry pinned since it was made: the reaction ends with LEASE_EXIT, nothing is
committed, and the launch ends (R211, R350, R352; log 162). -/
def State.pinConflict (s : State) (l : Launch) (stamp e : Nat) : State :=
  let core := l.coreOf stamp
  s.endRaised l.lid core (trapReport stamp ⟨cLeaseExit, BitVec.ofNat 64 (s.launchAddr l.lid e), core⟩ false)

/-- CLEAR_INSTANT (R319-R321): a conflict ends the launch and commits nothing, and so does a store to a pinned entry; under `strict`
a taint event does; else, once every device of the launch has found as much (R114), the taint events are recorded and the instant
commits. It waits until the pages of the taint logs it writes have been walked; a poisoned line met there resets the launch's
partition (R345, R347, R400). -/
def State.clearInstant (s : State) (lid : Nat) : State :=
  match s.launch? lid with
  | none => s
  | some l =>
    if !l.mayClear then s
    else
      let gs := s.store.instLogs lid l.cleared
      let ws := wroteOf gs
      let bad := lowestConflict (s.launchAddr lid) ws
      let ts := if bad.isSome then [] else s.store.taintEvents gs gs
      let ts := if l.record.strict then ts.take 1 else ts
      let need := s.taintNeed l ((bad.map fun k => homeDie (32 * k)).toList ++ ts.filterMap TaintEv.die)
      if need.any && !need.poison then s.askNeed l need
      else
        let s := if need.poison then s.resetSoon l.core else s
        let done := s.dropDisp lid
        match bad, s.pinCommit gs, ts, l.record.strict with
        | some k, _, _, _ => done.conflict l ws k
        | none, some p, _, _ => done.pinConflict l p.1 p.2
        | none, none, t :: _, true => done.taintCommit l t
        | none, none, ts, _ =>
          if l.allChecked then (ts.foldl (fun s t => s.logEvent l t) (done.tellChecked l)).commitInstant l gs
          else s.tellChecked l

/-- VERSION_MERGE: a cleared version of a line merged in the background (R315). -/
def State.versionMerge (s : State) (line lid inst : Nat) : State :=
  { s with store := { s.store with unmerged := s.store.unmerged.filter fun u => u != (line, lid, inst) } }

/-! ### A set that was waited for (R323) -/

/-- SET_ACQUIRE: once no older holder stands, a waiting reaction acquires every line of the sets it touched, and its
context is ready. -/
def State.setAcquire (s : State) (x : CtxRef) : State :=
  match (s.ctx x).status with
  | .blocked (.set rs) =>
    (match s.touch x rs with
    | .ok s => s.setStatus x .ready
    | .irrev _ => s.setStatus x .ready
    | .wait _ => s.touchAgain x rs)
  | _ => s

end Sys2Proof.Machine
end

