-- ==== Sys2Proof/Machine/Power.lean ====
section
/-!
DEFINITION. Halts, debug states, partitions, soft errors and power (22_observation R376, R378; 23_system R399-R401,
R404, R406, R407, R409).
-/

namespace Sys2Proof.Machine

/-! ### Who has a launch running (R399, R409) -/

/-- Whether a launch runs on a partition: one submitted from it that has not ended. -/
def State.launchOn (s : State) (p : Nat) : Bool :=
  s.launches.any fun l => decide (l.phase ≠ .ended) && decide (s.partOf l.core = some p)

/-- Whether any launch runs. -/
def State.anyLaunch (s : State) : Bool := s.launches.any fun l => decide (l.phase ≠ .ended)

/-! ### Halt, resume and step (R376, R378, R406) -/

/-- The partitions that a debug write of a context acts on: none when locked or in standby, its own in user state, every
one in full state (R378, R406). -/
def State.debugParts (s : State) (x : CtxRef) : List Nat :=
  if s.stby then []
  else
    match s.dbg with
    | .locked => []
    | .user => (s.partOf x.core).toList
    | .full => List.range 8

/-- A halted context let go. -/
def Ctx.unhalt (c : Ctx) : Ctx :=
  match c.status with
  | .stopped .halt none => { c with status := .ready }
  | .stopped .halt (some b) => { c with status := .blocked b }
  | _ => c

/-- Every listed core of a partition changed. -/
def State.mapCores (s : State) (p : Nat) (f : Core → Core) : State :=
  let parts := s
  { s with cores := s.cores.map fun q => if parts.partOf q.1 = some p then (q.1, f q.2) else q }

/-- Throttle steps that came due during a halt, taken once no partition is halted (R407). -/
def State.takeSteps (s : State) : State :=
  if s.halted ≠ [] then s
  else
    (List.range 8).foldl (fun s d => s.updDie d fun r => { r with step := r.stepDue.getD r.step, stepDue := none }) s

/-- The halt of a partition ended: every stopped context resumes, and a halt that waits for a freeze line is not taken (R204,
R376). -/
def State.resumePartition (s : State) (p : Nat) : State :=
  if !s.halted.contains p then s
  else
    (({ s with
      halted := s.halted.filter fun q => q != p
      haltDue := s.haltDue.filter fun n => decide (s.partOf n ≠ some p) } : State).mapCores p fun k =>
        k.mapCtx Ctx.unhalt).takeSteps

/-- HALTREQ: every partition with a launch running that the writer may act on is halted; a parked one is left (R376,
R406). -/
def State.haltreq (s : State) (x : CtxRef) : State :=
  ((s.debugParts x).filter fun p => s.launchOn p && !s.park.getLsbD p).foldl State.haltPartition s

/-- RESUME: the halt of every partition that the writer may act on ends. -/
def State.resume (s : State) (x : CtxRef) : State := (s.debugParts x).foldl State.resumePartition s

/-- STEP: a stopped context `y` of a halted partition is let go for one group, after which it stops again (R376). -/
def State.stepCtx (s : State) (x y : CtxRef) : State :=
  match s.partOf y.core with
  | some p =>
    if (s.debugParts x).contains p ∧ s.halted.contains p ∧ !s.park.getLsbD p then s.updCtx y Ctx.unhalt else s
  | none => s

/-- DBG_WRITE (R404, R406, R407): 0 locks, after a RESUME if a partition is halted; 1 gives user state, unless the device
is revoked; other values are discarded. -/
def State.dbgWrite (s : State) (v : Word) : State :=
  match bitsOf v.toNat 59 2 with
  | 0 => { (List.range 8).foldl State.resumePartition s with dbg := .locked }
  | 1 => if s.sec = .revoked then s else { s with dbg := .user }
  | _ => s

/-! ### Partitions (R399) -/

/-- The 3-bit fields of a word written over a value at a bit offset: the fields that differ, as old and new owner. -/
def movedFields (old new n : Nat) : List (Nat × Nat) :=
  ((List.range n).map fun i => (bitsOf old (3 * i) 3, bitsOf new (3 * i) 3)).filter fun p => p.1 != p.2

/-- A 64-bit word of a wider value replaced. -/
def putWord (old w i : Nat) : Nat := old % 2 ^ (64 * i) + w * 2 ^ (64 * i) + old / 2 ^ (64 * (i + 1)) * 2 ^ (64 * (i + 1))

/-- PARTITION_ASSIGN_WRITE: a word of COREP, SUPP, SLICEP or PCHP written, or discarded with PERR where it would move a
resource into or out of a partition that has a launch running. A write of PERR clears it where its bit is 1. -/
def State.assignWrite (s : State) (die off : Nat) (v : Word) : State :=
  let d := s.die die
  let busy (ms : List (Nat × Nat)) : Bool := ms.any fun m => s.launchOn m.1 || s.launchOn m.2
  let put (old n i : Nat) (set : DieRegs → Nat → DieRegs) : State :=
    let new := putWord old v.toNat i % 2 ^ (3 * n)
    if busy (movedFields old new n) then s.updDie die fun d => { d with perr := true } else s.updDie die fun d => set d new
  if off < 0x18 then put d.corep.toNat 64 (off / 8) fun d n => { d with corep := BitVec.ofNat 192 n }
  else if off = 0x18 then put d.supp.toNat 2 0 fun d n => { d with supp := BitVec.ofNat 6 n }
  else if 0x20 ≤ off ∧ off < 0x30 then put d.slicep.toNat 32 ((off - 0x20) / 8) fun d n => { d with slicep := BitVec.ofNat 96 n }
  else if 0x40 ≤ off ∧ off < 0x80 then put d.pchp.toNat 160 ((off - 0x40) / 8) fun d n => { d with pchp := BitVec.ofNat 480 n }
  else if off = 0x80 then s.updDie die fun d => { d with perr := d.perr && !v.getLsbD 0 }
  else s

/-! ### Soft errors (R400, R401) -/

/-- A count raised by one, saturating at 2^64 − 1. -/
def satInc (w : Word) : Word := if w = BitVec.allOnes 64 then w else w + 1#64

/-- SRAM_SINGLE_BIT_ERROR: corrected in place and counted. -/
def State.sramSingle (s : State) (die : Nat) : State := s.updDie die fun d => { d with cecnt := satInc d.cecnt }

/-- The partition of a pseudo-channel of a die. -/
def State.pchOwner (s : State) (die c : Nat) : Nat := bitsOf (s.die die).pchp.toNat (3 * c) 3

/-- SRAM_DOUBLE_BIT_ERROR: counted, and the partition it is charged to is reset: the core's, the owner of the slice line's
pseudo-channel, or the slice's owner. -/
def State.sramDouble (s : State) (die : Nat) (p : SramPlace) : State :=
  let s := s.updDie die fun d => { d with uecnt := satInc d.uecnt }
  match p with
  | .core c => s.resetOf c
  | .sliceLine _ off => s.resetPartition (s.pchOwner die (pchOf (s.die die).cfg.pch.toNat off))
  | .slice k => s.resetPartition (s.sliceOwner die k)

/-- HBM_UNCORRECTABLE_ERROR: the line is poisoned. -/
def State.hbmError (s : State) (stack off : Nat) : State :=
  { s with store := { s.store with poison := numPut s.store.poison (lineOf (stack * 2 ^ 36 + off)) } }

/-- Lines of a pseudo-channel (R401). -/
def scrubLines : Nat := 3355440

/-- SCRUB_READ: one line of each present pseudo-channel read; not in standby (R401, R406). -/
def State.scrubRead (s : State) : State := if s.stby then s else { s with scrub := (s.scrub + 1) % scrubLines }

/-- A context as a supervisor core's release leaves it: fetching at physical address 0 (R402). -/
def supStart : Ctx := { Ctx.reset.fixPorts true with status := .ready }

/-- A supervisor core released. -/
def State.releaseSup (s : State) (core : Nat) : State := s.updCore core fun k => k.mapCtx fun _ => supStart

/-- PARTITION_RESET_COMPLETE: the partition runs again, its supervisor cores from their release point (R400), if the boot has
released supervisors at all (R387, R402). -/
def State.resetComplete (s : State) (p : Nat) : State :=
  if !s.resetting.contains p then s
  else
    let s : State := { s with
      resetting := s.resetting.filter fun q => q != p
      host := { s.host with preset := s.host.preset ||| BitVec.ofNat 8 (2 ^ p) } }
    if s.boot ≠ .done then s
    else ((List.range 16).filter fun i => decide (s.partOf (512 + i) = some p)).foldl (fun s i => s.releaseSup (512 + i)) s

/-! ### Parking and standby (R406, R409) -/

/-- Whether a context's core is itself parked. -/
def State.parked (s : State) (x : CtxRef) : Bool := (s.core x.core).gated

/-- PARTITION_PARK (R409). -/
def State.parkPartition (s : State) (x : CtxRef) (p : Nat) : State :=
  if s.parked x ∨ s.launchOn p then s else { s with park := s.park ||| BitVec.ofNat 8 (2 ^ p) }

/-- A PARK bit cleared. -/
def State.unpark (s : State) (p : Nat) : State := { s with park := s.park &&& ~~~(BitVec.ofNat 8 (2 ^ p)) }

/-- PARTITION_UNPARK (R409). -/
def State.unparkPartition (s : State) (x : CtxRef) (p : Nat) : State := if s.parked x then s else s.unpark p

/-- STANDBY_ENTER (R409). -/
def State.standbyEnter (s : State) (x : CtxRef) : State :=
  if s.parked x ∨ s.anyLaunch then s else { s with stby := true, park := 0xFF#8 }

/-- Standby and every PARK bit cleared. -/
def State.wakeAll (s : State) : State := { s with stby := false, park := 0#8 }

/-- STANDBY_EXIT (R409). -/
def State.standbyExit (s : State) (x : CtxRef) : State := if s.parked x then s else s.wakeAll

/-- A context clock-gated. -/
def Ctx.gate (c : Ctx) : Ctx :=
  match c.status with
  | .ready => { c with status := .stopped .gated none }
  | .blocked b => { c with status := .stopped .gated (some b) }
  | _ => c

/-- A gated context back at the group where it was gated. -/
def Ctx.ungate (c : Ctx) : Ctx :=
  match c.status with
  | .stopped .gated none => { c with status := .ready }
  | .stopped .gated (some b) => { c with status := .blocked b }
  | _ => c

/-- PARK_GATE: a core of a parked partition gated at its group boundary (R409). -/
def State.parkGate (s : State) (core : Nat) : State :=
  match s.partOf core with
  | some p =>
    if s.park.getLsbD p ∧ !(s.core core).gated ∧ (s.core core).freeze.isNone then
      s.updCore core fun k => { k.mapCtx Ctx.gate with gated := true }
    else s
  | none => s

/-- RETURN_TO_ACTIVE: every gated core whose partition is parked no longer runs again (R409). -/
def State.returnToActive (s : State) : State :=
  (List.range 8).foldl (fun (s : State) p =>
    if s.park.getLsbD p then s
    else s.mapCores p fun k => if k.gated then { k.mapCtx Ctx.ungate with gated := false } else k) s

/-- A write of PARK and STBY (R409): bits set park, bits cleared unpark, then STBY is entered, or left if it stood. -/
def State.parkWrite (s : State) (x : CtxRef) (v : Word) : State :=
  let was := s.park
  let s := (List.range 8).foldl (fun (s : State) p =>
    if v.getLsbD p && !was.getLsbD p then s.parkPartition x p
    else if !v.getLsbD p && was.getLsbD p then s.unparkPartition x p
    else s) s
  if v.getLsbD 8 then (if s.stby then s else s.standbyEnter x) else if s.stby then s.standbyExit x else s

/-! ### Throttle and temperature (R407) -/

/-- The next throttle step from a temperature and a package power. -/
def nextStep (step temp twarn thys power plimit : Nat) : Nat :=
  if twarn ≤ temp ∨ plimit < power then min 7 (step + 1)
  else if temp + thys ≤ twarn ∧ 16 * power ≤ 15 * plimit then step - 1
  else step

/-- STEP of a die moved, once in every 2^20th core cycle, by its temperature and the package power; during a halt the change
waits for the resume (R407). -/
def State.moveStep (s : State) (die : Nat) : State :=
  if s.timebase.toNat % 2 ^ 20 ≠ 0 ∨ s.stepped.contains die then s
  else
    let plimit := (s.die 0).plimit.toNat
    let halt := decide (s.halted ≠ [])
    ({ s with stepped := die :: s.stepped } : State).updDie die fun d =>
      let n := BitVec.ofNat 3
        (nextStep (d.stepDue.getD d.step).toNat d.temp.toNat d.twarn.toNat d.thys.toNat s.power plimit)
      if halt then { d with stepDue := some n } else { d with step := n }

/-- The partitions with a core on a die. -/
def State.dieParts (s : State) (die : Nat) : List Nat :=
  ((((List.range 64).map fun k => 64 * die + k).filter s.present ++ [512 + 2 * die, 513 + 2 * die]).filterMap
    s.partOf).eraseDups

/-- THERMAL_CRITICAL: the temperature of a die; at TCRIT every partition with a core on the die is reset and the package enters
standby (R407). -/
def State.thermal (s : State) (die : Nat) (temp : Byte) : State :=
  let s := s.updDie die fun d => { d with temp := temp }
  if temp.toNat < (s.die die).tcrit.toNat then s
  else { (s.dieParts die).foldl State.resetPartition s with stby := true, park := 0xFF#8 }

/-- THROTTLE_STEP_UPDATE: a die's temperature and the package power as they are now, then STEP by them if it is due (R407). -/
def State.throttle (s : State) (die : Nat) (temp : Byte) (power : Nat) : State :=
  (({ s with power := power } : State).thermal die temp).moveStep die

/-- What in standby does not run: only the management core, its port and the host window registers do (R406). -/
def State.awake (s : State) (k : State → State) : State := if s.stby then s else k s

end Sys2Proof.Machine
end

