-- ==== Sys2Proof/Machine/Storage.lean ====
section
/-!
DEFINITION. The storage port and the link responder (23_system R395, 22_observation R377, R380), and the port fault queue
(21_spaces R357, R361). The layout of submission and completion entries and the opcodes are those of NVMe (log 27).
-/

namespace Sys2Proof.Machine

/-! ### The port fault queue (R357) -/

/-- The supervisor and management contexts of a die told of a wake event (R362). -/
def State.wakeDie (s : State) (die : Nat) : State :=
  let up (c : Ctx) : Ctx := { c with wake := true }
  { s with cores := s.cores.map fun q =>
      if 512 ≤ q.1 ∧ dieOf q.1 = die then (q.1, q.2.mapCtx up) else q }

/-- A fault record queued, or waiting behind a full queue; its tag is the die's next (R357). -/
def State.queueFault (s : State) (die : Nat) (r : FaultRec) : State × BitVec 16 :=
  let d := s.die die
  let r := { r with tag := d.nextTag }
  let s := s.updDie die fun d => { d with nextTag := d.nextTag + 1#16 }
  if d.faultq.length < 16 then ((s.updDie die fun d => { d with faultq := d.faultq ++ [r] }).wakeDie die, r.tag)
  else (s.updDie die fun d => { d with waiting := d.waiting ++ [r] }, r.tag)

/-- A fault record's number (R357). -/
def FaultRec.num (r : FaultRec) : Nat :=
  r.va % 2 ^ 56 + r.sid.toNat * 2 ^ 64 + r.issuer * 2 ^ 80 + r.unit * 2 ^ 88 + r.cause.toNat * 2 ^ 98 +
    r.tag.toNat * 2 ^ 112 + r.entry.toNat * 2 ^ 128 + r.level % 8 * 2 ^ 192 + (if r.write then 2 ^ 195 else 0)

/-- The head record popped into TFREC, and the next waiting one queued (R361). -/
def State.popFault (s : State) (die : Nat) : State :=
  match (s.die die).faultq with
  | [] => s
  | r :: rest =>
    match (s.die die).waiting with
    | [] => s.updDie die fun d => { d with tfrec := BitVec.ofNat 256 r.num, faultq := rest }
    | w :: ws =>
      (s.updDie die fun d => { d with tfrec := BitVec.ofNat 256 r.num, faultq := rest ++ [w], waiting := ws }).wakeDie die

/-! ### A port's accesses in translated space (R344-R348, R397) -/

/-- The die of the storage port (R393). -/
def storDie : Nat := 7

/-- The master number of the storage port (R397). -/
def storMaster : Nat := 9

/-- The agent by which the storage port asks other devices, and waits on migration, for queue pair `q`. -/
def storAgent (q : Nat) : CtxRef := ⟨2007, q⟩

/-- The outcome of a port's walk over a range. -/
inductive PortR where
  | ok (ps : List Piece)
  /-- faulting address, cause, entry and level -/
  | fault (va : Nat) (cause : Byte) (entry lvl : Nat)
  | denied
  | wait (qs : List RemoteReq)
  | migrating
  deriving DecidableEq, Repr

/-- What a port meets at a leaf. -/
def State.portLeaf (s : State) (acc : Acc) (va n e lvl : Nat) : PortR :=
  match s.useLeaf storDie storMaster false acc va n e lvl with
  | .ok p => .ok [p]
  | .perm e l => .fault va cPtPerm e l
  | .denied => .denied
  | .node e l => .fault va cTranslationNode e l
  | .migrating e l => .fault va cTranslationNode e l
  | .remote e l => .fault va cTranslationNode e l
  | .poison => .denied

/-- One piece of die scratchpad for the storage port, through a window of it (R83, R397). -/
def State.portDsp (s : State) (acc : Acc) (va n die off : Nat) : PortR :=
  if s.mayDsp die off storMaster acc.isWrite then .ok [⟨va, n, keyOf .dsp die off, .dsp⟩] else .denied

/-- One piece of a range of translated space for queue pair `q`. -/
def State.portTrans (s : State) (q : Nat) (acc : Acc) (va n : Nat) : PortR :=
  let x := storAgent q
  match s.translate storDie (s.die storDie).stsid.toNat storMaster false acc va n with
  | .ok p => .ok [p]
  | .node e l => .fault va cTranslationNode e l
  | .perm e l => .fault va cPtPerm e l
  | .denied => .denied
  | .poison => .denied
  | .migrating e l =>
    if s.walks.any fun w => decide (w.x = x) && w.expired then .fault va cTranslationNode e l else .migrating
  | .remote e l =>
    match s.dispWalk x va e l with
    | .error r => .wait [r]
    | .ok (leaf, k, cause) =>
      if cause = 0 then s.portLeaf acc va n leaf k
      else .fault va (BitVec.ofNat 8 cause) leaf k

/-- One piece of a range for queue pair `q` (R83): a port reaches translated space and the windows of die scratchpad, its own
die's among them. -/
def State.portPiece (s : State) (q : Nat) (acc : Acc) (va n : Nat) : PortR :=
  match winOf va with
  | .translated => s.portTrans q acc va n
  | .ownDsp => s.portDsp acc va n storDie (va - 0xFF000010000000)
  | .dieDsp d => s.portDsp acc va n d (va - 0xFF000040000000 - d * 0x4000000)
  | _ => .fault va cTranslationNode 0 4

/-- A range resolved for queue pair `q`: the first failure in address order stands, and a byte in another window than the first
one's lies outside it (R84). -/
def State.portPieces (s : State) (q : Nat) (acc : Acc) (va n : Nat) : PortR :=
  (cut va n).foldl (fun a c =>
    match a with
    | .ok ps =>
      if winOf c.1 ≠ winOf va then .fault c.1 cTranslationNode 0 4
      else
        (match s.portPiece q acc c.1 c.2 with
        | .ok qs => .ok (ps ++ qs)
        | r => r)
    | r => r) (.ok [])

/-- A transfer of the storage port: what it does with its pieces. -/
inductive PortDone where
  | done (s : State)
  | held (s : State)
  | failed (s : State)

/-- A request put aside: under a fault tag, or until what it waits for is there (die 8 stands for no tag). -/
def State.hold (s : State) (q : Nat) (kind : HeldKind) (data : List Byte) (die : Nat) (tag : BitVec 16) : State :=
  { s with storage := { s.storage with held := s.storage.held ++ [⟨die, tag, q, kind, data⟩] } }

/-- The walk of a transfer made, and what follows from it (R346, R357): a fault is queued and the request held; a request
that must wait for migration or for another device is held without a tag; a denied one fails. -/
def State.withPort (s : State) (q : Nat) (kind : HeldKind) (data : List Byte) (acc : Acc) (va n : Nat)
    (k : State → List Piece → PortDone) : PortDone :=
  let x := storAgent q
  match s.portPieces q acc va n with
  | .ok ps =>
    (match k s ps with
    | .done s => .done (s.dropAsked x)
    | .failed s => .failed (s.dropAsked x)
    | .held s => .held s)
  | .denied => .failed (s.dropAsked x)
  | .fault a c e l =>
    let s := s.dropAsked x
    let r := s.queueFault storDie
      ⟨a, (s.die storDie).stsid, 2, 0, c, 0#16, BitVec.ofNat 64 e, l, acc.isWrite⟩
    .held (r.1.hold q kind data storDie r.2)
  | .wait qs =>
    .held ((qs.foldl (fun s r => s.ask 2007 (s.die storDie).stsid.toNat noView r) s).hold q kind data 8 0#16)
  | .migrating => .held ((s.noteWalk x storDie).hold q kind data 8 0#16)

/-- Bytes written for queue pair `q`; refused at a pinned entry (R352). -/
def State.portWrite (s : State) (q : Nat) (kind : HeldKind) (data : List Byte) (va : Nat) (bs : List Byte) : PortDone :=
  s.withPort q kind data .w va bs.length fun s ps =>
    if (s.pinSpan ps bs).isSome then .failed s else .done ((s.sysStore 2007 ps bs).unpoison (s.viewerOf none) ps)

/-- The bytes of pieces for queue pair `q`; none where another device has yet to answer or a line is poisoned. -/
def State.portBytes (s : State) (q : Nat) (ps : List Piece) : DispR :=
  if s.poisoned ps then .bad else ps.foldl (fun a p => a.append (s.dispPiece (storAgent q) p)) (.ok [])

/-! ### Queue pairs and entries (R395) -/

/-- A queue pair's registers. -/
def State.qpair (s : State) (q : Nat) : QPair := (alGet s.storage.qpairs q).getD QPair.reset

/-- Whether a queue pair is on: DEPTH is not 0, and QID is 0 or names one of the 64 I/O queues (R395; log 142). -/
def QPair.isOn (p : QPair) : Bool := decide (p.depth ≠ 0#10) && decide (p.qid.toNat ≤ 64)

/-- The entries of a queue. -/
def QPair.size (p : QPair) : Nat := p.depth.toNat + 1

/-- What a submitted command is (R395). -/
inductive NvmeKind where
  | connect | propGet | propSet | identify | getLog | keepAlive | read | write | flush | other
  deriving DecidableEq, Repr

/-- The kind of a submission entry of an admin queue (QID 0) or an I/O queue. -/
def nvmeKind (admin : Bool) (e : List Byte) : NvmeKind :=
  let op := leNat (e.take 1)
  let fc := leNat ((e.drop 4).take 1)
  if op = 0x7F then (if fc = 1 then .connect else if !admin then .other else if fc = 4 then .propGet else if fc = 0 then .propSet else .other)
  else if admin then
    (if op = 0x06 then .identify else if op = 0x02 then .getLog else if op = 0x18 then .keepAlive else .other)
  else if op = 0x02 then .read
  else if op = 0x01 then .write
  else if op = 0x00 then .flush
  else .other

/-- The buffer of a command: address and length of its keyed SGL data block. -/
def sglOf (e : List Byte) : Nat × Nat := (leNat ((e.drop 24).take 8), leNat ((e.drop 32).take 3))

/-- The command identifier of a submission entry. -/
def cidOf (e : List Byte) : Nat := leNat ((e.drop 2).take 2)

/-- The counter of a queue pair given +1, a release (R395). -/
def State.cselAdd (s : State) (q : Nat) : State :=
  match resolveSel s.devid storDie (BitVec.ofNat 64 (s.qpair q).csel.toNat) with
  | .die d i => s.ctrAdd (ctrKey d i) 1#64
  | .remote v d i => s.sendFlit 2007 4 v 0 (ctrAddr (ctrKey d i)) (leBytes 8 1) 0xFF 0
  | _ => s

/-- A counter's +1 given once the port's stores to other devices are acknowledged, as it is a release (R14, R112, R395). -/
def State.cselRelease (s : State) (q : Nat) : State :=
  if s.flitsOut 2007 then s.hold q .release [] 8 0#16 else s.cselAdd q

/-- A completion over: the next entry's place, and the counter's +1 (R395). -/
def State.cqDone (s : State) (q : Nat) : State :=
  let at_ := (alGet s.storage.cqtail q).getD 0
  ({ s with storage := { s.storage with cqtail := alPut s.storage.cqtail q ((at_ + 1) % (s.qpair q).size) } } : State).cselRelease q

/-- A completion entry written, then the counter's +1 (R395); where the write is denied or refused it has no effect and the command
is complete all the same (R352, R397; log 163). -/
def State.cqWrite (s : State) (q : Nat) (entry : List Byte) : State :=
  let p := s.qpair q
  let at_ := (alGet s.storage.cqtail q).getD 0
  match s.portWrite q .complete entry (p.cqbase.toNat + 16 * at_) entry with
  | .done s => s.cqDone q
  | .held s => s
  | .failed s => s.cqDone q

/-- A command completed by the port itself with a status (R395). -/
def State.localComplete (s : State) (q : Nat) (e : List Byte) (status : Nat) : State :=
  let head := (alGet s.storage.sqhead q).getD 0
  s.cqWrite q (List.replicate 8 0#8 ++ leBytes 2 head ++ leBytes 2 (s.qpair q).qid.toNat ++ leBytes 2 (cidOf e) ++
    leBytes 2 (2 * status))

/-- Status Invalid Command Opcode. -/
def stInvalidOpcode : Nat := 0x01

/-- Status of a transfer error. -/
def stTransfer : Nat := 0x04

/-- `n` free bytes (log 3), with the count moved on. -/
def State.freeBytes (s : State) (n : Nat) : State × List Byte :=
  ({ s with freeCount := s.freeCount + n }, (List.range n).map fun i => Config.freeByte (s.freeCount + i))

/-- A submission entry that could not be read passed over: its command completes with a transfer error (R397), with an identifier that
is free, as none was read (log 163). -/
def State.failEntry (s : State) (q : Nat) : State :=
  let head := (alGet s.storage.sqhead q).getD 0
  let s : State := { s with storage := { s.storage with sqhead := alPut s.storage.sqhead q ((head + 1) % (s.qpair q).size) } }
  let r := s.freeBytes 2
  r.1.localComplete q (zeros 2 ++ r.2) stTransfer

/-- What a read of the port waits for asked of other devices (R111). -/
def State.askPort (s : State) (n : Need) : State := n.reqs.foldl (fun s r => s.ask 2007 0 noView r) s

/-- Entries from the port's head to SQTAIL read and submitted, at most `fuel` (R395). -/
def State.fetchEntries (s : State) (q : Nat) : Nat → State
  | 0 => s
  | fuel + 1 =>
    let p := s.qpair q
    let head := (alGet s.storage.sqhead q).getD 0
    if !p.isOn || decide (head = p.sqtail.toNat % p.size) then s
    else
      match s.withPort q .fetch [] .r (p.sqbase.toNat + 64 * head) 64 fun s ps =>
          (match s.portBytes q ps with
          | .ok bs => .done { s with storage := { s.storage with
              pending := s.storage.pending ++ [(q, bs)], sqhead := alPut s.storage.sqhead q ((head + 1) % p.size) } }
          | .bad => .failed s
          | .wait n => .held ((s.askPort n).hold q .fetch [] 8 0#16)) with
      | .done s => s.fetchEntries q fuel
      | .held s => s
      | .failed s => (s.failEntry q).fetchEntries q fuel

/-- STORAGE_SQ_DOORBELL: SQTAIL written, and the entries up to it submitted (R395). -/
def State.sqDoorbell (s : State) (q : Nat) (tail : Word) : State :=
  let p := { s.qpair q with sqtail := BitVec.ofNat 16 tail.toNat }
  let s : State := { s with storage := { s.storage with qpairs := alPut s.storage.qpairs q p } }
  if s.stby || s.storage.held.any fun h => decide (h.q = q) && decide (h.kind = .fetch) then s else s.fetchEntries q 1024

/-! ### Commands sent (R395) -/

/-- The oldest submitted command of a queue pair, if it is of some kind and the connection is not paused. -/
def State.nextCmd (s : State) (q : Nat) (k : NvmeKind) : Option (List Byte) :=
  let p := s.qpair q
  if s.storage.paused.contains p.conn.toNat || !p.isOn then none
  else
    match s.storage.pending.find? fun e => decide (e.1 = q) with
    | none => none
    | some e => if nvmeKind (decide (p.qid = 0#7)) e.2 = k then some e.2 else none

/-- The oldest submitted command of a queue pair taken. -/
def State.popCmd (s : State) (q : Nat) : State :=
  match s.storage.pending.findIdx? fun e => decide (e.1 = q) with
  | none => s
  | some i => { s with storage := { s.storage with pending := s.storage.pending.eraseIdx i } }

/-- A command sent with its data. -/
def State.sendCmd (s : State) (q : Nat) (e data : List Byte) : State :=
  { s with storage := { s.storage with sent := s.storage.sent ++ [(q, e, data)] } }

/-- A command sent and no longer waited for. -/
def State.dropSent (s : State) (q : Nat) (e : List Byte) : State :=
  match s.storage.sent.findIdx? fun c => decide (c.1 = q) && decide (c.2.1 = e) with
  | none => s
  | some i => { s with storage := { s.storage with sent := s.storage.sent.eraseIdx i } }

/-- Data of a command moved into its buffer; an error completes the command, which is then waited for no longer (R352,
R397). -/
def State.moveIn (s : State) (q : Nat) (e data : List Byte) : State :=
  let b := sglOf e
  match s.portWrite q .read (e ++ data) b.1 (fitTo data b.2) with
  | .done s => s
  | .held s => s
  | .failed s => (s.dropSent q e).localComplete q e stTransfer

/-- A command sent with the data of its buffer; an error completes the command. -/
def State.moveOut (s : State) (q : Nat) (e : List Byte) : State :=
  let b := sglOf e
  match s.withPort q .write e .r b.1 b.2 fun s ps =>
      (match s.portBytes q ps with
      | .ok bs => .done (s.sendCmd q e bs)
      | .bad => .failed s
      | .wait n => .held ((s.askPort n).hold q .write e 8 0#16)) with
  | .done s => s
  | .held s => s
  | .failed s => s.localComplete q e stTransfer

/-- A command without data sent (Property Get, Property Set, Keep Alive, Flush). -/
def State.sendPlain (s : State) (q : Nat) (k : NvmeKind) : State :=
  match s.nextCmd q k with
  | none => s
  | some e => (s.popCmd q).sendCmd q e []

/-- A command sent with the data of its buffer (Connect, Write). -/
def State.sendOut (s : State) (q : Nat) (k : NvmeKind) : State :=
  match s.nextCmd q k with
  | none => s
  | some e => (s.popCmd q).moveOut q e

/-- A Read sent, and the data that comes back moved into its buffer. -/
def State.nvmeRead (s : State) (q : Nat) (data : List Byte) : State :=
  match s.nextCmd q .read with
  | none => s
  | some e => ((s.popCmd q).sendCmd q e []).moveIn q e data

/-- A command whose data the controller makes (Identify, Get Log Page): the data are free. -/
def State.sendIn (s : State) (q : Nat) (k : NvmeKind) : State :=
  match s.nextCmd q k with
  | none => s
  | some e =>
    let r := ((s.popCmd q).sendCmd q e []).freeBytes (sglOf e).2
    r.1.moveIn q e r.2

/-- INVALID_COMMAND_OPCODE: any other command completes locally, and nothing is sent (R395). -/
def State.invalidOpcode (s : State) (q : Nat) : State :=
  match s.nextCmd q .other with
  | none => s
  | some e => (s.popCmd q).localComplete q e stInvalidOpcode

/-- NVME_COMPLETION: the completion of a command sent on the queue pair arrives (R395). -/
def State.nvmeComplete (s : State) (q : Nat) (entry : List Byte) : State :=
  let cid := leNat ((entry.drop 12).take 2)
  match s.storage.sent.findIdx? fun c => decide (c.1 = q) && decide (cidOf c.2.1 = cid) with
  | none => s
  | some i => ({ s with storage := { s.storage with sent := s.storage.sent.eraseIdx i } } : State).cqWrite q entry

/-! ### Held requests (R361) -/

/-- A held request made again from its root. -/
def State.retryHeld (s : State) (h : HeldReq) : State :=
  let s : State := { s with storage := { s.storage with held := s.storage.held.erase h } }
  match h.kind with
  | .fetch => s.fetchEntries h.q 1024
  | .read => s.moveIn h.q (h.data.take 64) (h.data.drop 64)
  | .write => s.moveOut h.q h.data
  | .complete => s.cqWrite h.q h.data
  | .release => s.cselRelease h.q

/-- A held request ended with the error of its port. -/
def State.failHeld (s : State) (h : HeldReq) : State :=
  let s : State := { s with storage := { s.storage with held := s.storage.held.erase h } }
  match h.kind with
  | .fetch => s.failEntry h.q
  | .read => (s.dropSent h.q (h.data.take 64)).localComplete h.q (h.data.take 64) stTransfer
  | .write => s.localComplete h.q h.data stTransfer
  | .complete => s.cqDone h.q
  | .release => s
/-- `sv.tres` on a tag of a die: retry or fail (R361). -/
def State.resolveFault (s : State) (die : Nat) (tag : BitVec 16) (fail : Bool) : State :=
  match s.storage.held.find? fun h => decide (h.die = die) && decide (h.tag = tag) with
  | none => s
  | some h => if fail then s.failHeld h else s.retryHeld h

/-- Whether a request held without a tag need wait no longer: no walk of its agent waits on migration, every answer it asked for
is here, and what a release waits for is acknowledged. -/
def State.heldReady (s : State) (h : HeldReq) : Bool :=
  let x := storAgent h.q
  decide (h.die = 8) && !(s.walks.any fun w => decide (w.x = x) && !w.expired) &&
    (s.fabric.reqs.all fun r => decide (r.x ≠ x) || r.resp.isSome) && !(decide (h.kind = .release) && s.flitsOut 2007)

/-- Requests held without a tag made again once what they wait for is there. -/
def State.retryWaiting (s : State) : State :=
  (s.storage.held.filter s.heldReady).foldl State.retryHeld s

/-! ### Trace segments sent (R380) -/

/-- The submission entry by which a segment is written. -/
def segmentEntry (ns lba blocks : Nat) : List Byte :=
  leBytes 4 1 ++ leBytes 4 ns ++ List.replicate 32 0#8 ++ leBytes 8 lba ++ leBytes 2 (blocks - 1) ++ List.replicate 14 0#8

/-- SEGMENT_WRITE: the oldest sealed segment written to the trace queue through the storage port's own queue, number 520
(R380, R397); the connection of that queue is not named, so it waits while any is paused (R377; log 143). -/
def State.segmentWrite (s : State) : State :=
  let o := s.obs
  match o.sealed with
  | [] => s
  | g :: gs =>
    if o.tqlen = 0#32 ∨ !s.mayAccess storDie 45 12 true ∨ s.storage.paused ≠ [] then s
    else
      let per := 65536 / Config.lbaSize o.tqns.toNat
      let lba := o.tqlba.toNat + g.seq % o.tqlen.toNat * per
      ({ s with obs := { o with sealed := gs, sent := o.sent + 1#64 } } : State).sendCmd 520
        (segmentEntry o.tqns.toNat lba per) g.bytes

/-- SEGMENT_SEAL_TIMER: the open segment sealed 2^20 core cycles after its first record (R379). -/
def State.sealTimer (s : State) : State :=
  if s.obs.open_ ≠ [] ∧ s.obs.tb0 + 2 ^ 20 ≤ s.timebase.toNat then s.seal else s

/-! ### The link responder (R377) -/

/-- KEEP_ALIVE_TIMER: during a halt a Keep Alive goes to a connected controller, unless its connection is paused. -/
def State.keepAliveTimer (s : State) (conn : Nat) : State :=
  if s.halted ≠ [] ∧ !s.storage.paused.contains conn ∧
      (s.storage.qpairs.any fun q => decide (q.2.conn.toNat = conn) && q.2.isOn) then
    { s with storage := { s.storage with keepAlives := s.storage.keepAlives ++ [conn] } }
  else s

/-- ROCE_PACKET: ACK for a good packet of a queue pair in sequence, NAK otherwise, with the queue pair's sequence number: that of the
packet acknowledged, else the one it expects; and a pause frame where the receive buffers have passed their threshold, which the spec
leaves open and is free (log 144). -/
def State.rocePacket (s : State) (q : Nat) (psn : BitVec 24) (good : Bool) : State :=
  let want := (alGet s.storage.expect q).getD psn
  let ok := good && psn == want
  { s with
    freeCount := s.freeCount + 1
    storage := { s.storage with
      acks := s.storage.acks ++ [(q, want, ok)]
      expect := alPut s.storage.expect q (if ok then psn + 1#24 else want)
      pauses := if Config.bufferPassed s.freeCount then s.storage.pauses ++ [q] else s.storage.pauses } }

/-- PFC_PAUSE: a pause is honoured until it ends. -/
def State.pfcPause (s : State) (conn : Nat) (pause : Bool) : State :=
  { s with storage := { s.storage with paused := numSet s.storage.paused conn pause } }

end Sys2Proof.Machine
end

