-- ==== Sys2Proof/Machine/Fabric.lean ====
section
/-!
DEFINITION. The fabric ports (05_ordering R110-R114, 21_spaces R347, R353, 23_system R392-R394, R397) and multicasts of
table entries (R360).
-/

namespace Sys2Proof.Machine

/-! ### Flits received -/

/-- The die of a package link (R392). -/
def linkDie (link : Nat) : Nat := link / 2

/-- The master number of the fabric ports (R397). -/
def fabMaster : Nat := 10

/-- Whether a link brings flits: it is up, the bin leaves it a lane, and the package is not in standby (R17, R385, R392,
R406). -/
def State.linkUp (s : State) (link : Nat) : Bool :=
  !s.fabric.down.contains link && decide (s.linkLanes link ≠ 0#8) && !s.stby

/-- A flit that arrives on a link that is up: accepted with a credit returned if it is for this device, else discarded
and counted; either way the link's failures in a row end (R377, R392). -/
def State.accept (s : State) (link : Nat) (f : Flit) (k : State → State) : State :=
  if !s.linkUp link then s
  else
    let s : State := { s with fabric := { s.fabric with crcFails := alPut s.fabric.crcFails link 0 } }
    if f.dstdev.toNat ≠ s.devid then { s with fabric := { s.fabric with discarded := s.fabric.discarded + 1 } }
    else k { s with fabric := { s.fabric with credits := s.fabric.credits + 1 } }

/-- A flit answered with an error (R352, R397): it has no effect here; the answer is a load response with no valid byte, whose first
byte is the cause for a pinned entry and 0 for a denied access (log 146). -/
def State.flitError (s : State) (die : Nat) (f : Flit) (why : Byte) : State :=
  ({ s with fabric := { s.fabric with errors := s.fabric.errors + 1 } } : State).sendFlit
    (2000 + die) 3 f.srcdev.toNat 0 f.addr.toNat [why] 0 0

/-- The valid bytes of a flit as runs: offset and bytes. -/
def maskRuns (mask : BitVec 32) (data : List Byte) : List (Nat × List Byte) :=
  (List.range 32).foldl (fun rs i =>
    if !mask.getLsbD i then rs
    else
      let b := data.getD i 0#8
      match rs.getLast? with
      | some r => if r.1 + r.2.length = i then rs.dropLast ++ [(r.1, r.2 ++ [b])] else rs ++ [(i, [b])]
      | none => [(i, [b])]) []

/-- The pieces of a flit's valid bytes: physical address and bytes, each within a sector (log 23). -/
def flitParts (f : Flit) : List (Nat × List Byte) :=
  (maskRuns f.mask f.data).flatMap fun r =>
    let a := f.addr.toNat + r.1
    (cut a r.2.length).map fun c => (c.1, (r.2.drop (c.1 - a)).take c.2)

/-- Whether the fabric ports may access bytes of this device's memory. -/
def State.fabOk (s : State) (a n : Nat) (write : Bool) : Bool :=
  s.physOk a && s.physOk (a + n - 1) && s.mayHbm a fabMaster write false

/-- FLIT_STORE: a remote store applied (R110, R397); one that is denied, or would change a pinned entry, is an error. -/
def State.flitStore (s : State) (die : Nat) (f : Flit) : State :=
  let ps := flitParts f
  if ps.any fun p => !s.fabOk p.1 p.2.length true then s.flitError die f 0#8
  else if ps.any fun p => (s.pinHit p.1 p.2).isSome then s.flitError die f cPtPinned
  else
    ps.foldl (fun (s : State) p =>
      let s := s.note none false [sectorOf p.1]
      { s with store := s.store.put p.1 p.2 (Config.remoteTaint f.srcdev.toNat p.1) }) s

/-- The one ordered launch that is known to span a device (R114): where there are several the request does not say whose view it asks
for, and memory answers it (DESIGN CHOICE, log 165). -/
def State.peerLaunch (s : State) (dev : Nat) : Option Launch :=
  match s.launches.filter fun l =>
    decide (l.phase = .running) && !l.record.open_ && l.peers.any fun p => decide (p.dev = dev) with
  | [l] => some l
  | _ => none

/-- The lines of this device that a reaction of another device holds (R114, R323). -/
def Launch.guestHeld (l : Launch) (stamp : Nat) : List Range :=
  (l.guests.filter fun g => decide (g.stamp = stamp) && decide (g.hold = .holds)).map Guest.range

/-- The view by which a reaction of another device reads here: with the sets it holds here (R104, R114). -/
def Launch.guestView (l : Launch) (stamp : Nat) : Viewer :=
  ⟨some ⟨l.lid, stamp, 0⟩, true, false, l.cleared, l.guestHeld stamp, [], none, none⟩

/-- The key of a shared counter named by a flit's address, if it names one (log 23). -/
def ctrOfAddr (a : Nat) : Option Nat :=
  if 2 ^ 55 ≤ a ∧ (a - 2 ^ 55) % 8 = 0 ∧ (a - 2 ^ 55) / 8 < 8 * 16384 then some ((a - 2 ^ 55) / 8) else none

/-- FLIT_LOAD_REQUEST: the bytes, or the counter, read and answered (R111); a reader of an ordered launch that spans both
devices reads its view and leaves its lease here (R114), and a request that no reaction makes meets memory as it stands (R412; log
165). A denied read and one of a poisoned line are answered with an error, by which the reader's partition is reset (R394, R397,
R400). -/
def State.flitLoad (s : State) (die : Nat) (f : Flit) : State :=
  let a := f.addr.toNat
  let dev := f.srcdev.toNat
  let answer (s : State) (bs : List Byte) : State := s.sendFlit (2000 + die) 3 dev 0 a bs f.mask.toNat 0
  match ctrOfAddr a with
  | some k => answer s (leBytes 8 (s.ctrSeen k).toNat)
  | none =>
    let n := 32 - a % 32
    if !s.fabOk a n false || s.store.poison.contains (lineOf a) then s.flitError die f 0#8
    else
      match (if f.stamp.toNat = noView then none else s.peerLaunch dev) with
      | none => answer s (cellsRead s.store.mem a n)
      | some l =>
        let w := l.guestView f.stamp.toNat
        let v := s.store.view l.lid w.stamp (w.holds (sectorOf a)) (sectorOf a)
        answer { s with store := s.store.lease dev w ⟨a, n, a, .ver⟩ } (v.1.drop (a % 32))

/-- A context whose remote data is here goes on, and the freeze ends (R77, R111). -/
def State.arrived (s : State) (x : CtxRef) : State :=
  let go (s : State) (st : Status) : State :=
    let s := s.setStatus x st
    if (s.core x.core).running = some x.ctx then s.dropFreeze x.core else s
  match (s.ctx x).status with
  | .blocked (.remote _ _ _ _ _ _) => go s .ready
  | .stopped w (some (.remote _ _ _ _ _ _)) => go s (.stopped w none)
  | _ => s

/-- Whether a context waits for remote data of its own accesses. -/
def Status.onRemote : Status → Bool
  | .blocked (.remote _ _ _ _ _ _) => true
  | .stopped _ (some (.remote _ _ _ _ _ _)) => true
  | _ => false

/-- What is known of a counter of another device. -/
def State.learnCtr (s : State) (dev : Nat) (f : Flit) : State :=
  match ctrOfAddr f.addr.toNat with
  | some k =>
    { s with fabric := { s.fabric with
        remoteCtrs := alPut s.fabric.remoteCtrs (dev * 2 ^ 24 + k) (BitVec.ofNat 64 (leNat (f.data.take 8))) } }
  | none => s

/-- A request answered: a result of a load on its way gets its bytes; an agent of the device, or a wait on a counter, is done with it or
keeps the data; a walk made for another device is answered there in turn; and an answer that none waits for any more is let go. -/
def State.answered (s : State) (f : Flit) (q : RemoteReq) : State :=
  let a := f.addr.toNat
  let drop (s : State) : State := { s with fabric := { s.fabric with reqs := s.fabric.reqs.erase q } }
  let fill (s : State) : State :=
    { s with fabric := { s.fabric with
        reqs := s.fabric.reqs.map fun r => if r = q then { r with resp := some f.data } else r } }
  if q.x.core = 20000 then drop s
  else if q.load then (drop s).dataCome q.x.core fun p => p.take q.dev q.seq f.data
  else
  let s := s.learnCtr q.dev f
  if 4000 ≤ q.x.core ∧ q.x.core < 5000 then (drop s).sendFlit (2000 + dieOf q.x.core) 3 (q.x.ctx % 64) 0 a f.data 0x3FF 0
  else if 1000 ≤ q.x.core then (if 2 ^ 55 ≤ a then drop s else fill s)
  else if (s.ctx q.x).status.onRemote then (fill s).arrived q.x
  else drop s

/-- Whether a context still waits for the decision of a multicast. -/
def Status.onPtmc : Status → Bool
  | .blocked (.ptmc _ _ _) => true
  | .stopped _ (some (.ptmc _ _ _)) => true
  | _ => false

/-- A wait for a multicast's decision over. -/
def Ctx.ptmcDone (c : Ctx) : Ctx :=
  match c.status with
  | .blocked (.ptmc _ _ _) => { c with status := .ready }
  | .stopped w (some (.ptmc _ _ _)) => { c with status := .stopped w none }
  | _ => c

/-- A multicast of this device decided: the issuing context goes on (R353, R360). -/
def State.ptmcDecide (s : State) (p : Ptmc) (pinned : Bool) : State :=
  let open_ := (s.ctx p.x).status.onPtmc
  ({ s with ptmcs := s.ptmcs.map fun q =>
      if q.id = p.id then { q with decided := true, pinned := pinned, open_ := open_ } else q } : State).updCtx p.x Ctx.ptmcDone

/-- The core whose partition an agent's access belongs to: a context's, that of the core an engine serves, or the submitting core
of the launch that a dispatch engine asks for. -/
def State.agentCore (s : State) (x : CtxRef) : Option Nat :=
  if x.core < 529 then some x.core
  else if x.core = 20000 then some x.ctx
  else if 8000 ≤ x.core then some ((x.core - 8000) / 8)
  else if 1000 ≤ x.core ∧ x.core < 1008 then (s.launch? x.ctx).map Launch.core
  else none

/-- Whether a response answers a request: from its device, for its address, and not yet answered. -/
def RemoteReq.meets (q : RemoteReq) (f : Flit) : Bool :=
  decide (q.dev = f.srcdev.toNat) && decide (q.addr = f.addr.toNat) && q.resp.isNone

/-- A flit of this device answered with an error: a multicast refused as pinned is decided so; any other access, a multicast that the
access tables deny among them, resets its issuer's partition (R353, R394, R397). -/
def State.flitDenied (s : State) (f : Flit) : State :=
  let a := f.addr.toNat
  let mine (p : Ptmc) : Bool := p.asked && !p.decided && decide (p.addr = a)
  match s.ptmcs.find? mine with
  | some p =>
    if f.data.head? = some cPtPinned then s.ptmcDecide p true
    else ({ s with ptmcs := s.ptmcs.filter fun q => q.id != p.id } : State).resetSoon p.x.core
  | none =>
    let asked := (s.fabric.reqs.find? fun q => q.meets f).toList
    let sent := (s.fabric.flits.filter fun o => o.flit.dstdev == f.srcdev && decide (o.flit.addr.toNat = a)).map OutFlit.core
    let s : State := { s with fabric := { s.fabric with reqs := s.fabric.reqs.filter fun q => !asked.contains q } }
    ((asked.filterMap fun q => s.agentCore q.x) ++ sent).foldl State.resetSoon s

/-- FLIT_LOAD_RESPONSE: data, a counter's value, or the outcome of a walk continuation, given to the oldest request that it answers
(R111, R347); or an error. -/
def State.flitResponse (s : State) (f : Flit) : State :=
  if f.mask = 0#32 then s.flitDenied f
  else
    match s.fabric.reqs.find? fun q => q.meets f && q.walk.isSome == decide (f.mask = 0x3FF#32) with
    | some q => s.answered f q
    | none => s

/-- FLIT_COUNTER_ADD: an add of another device applied (R112). -/
def State.flitAdd (s : State) (die : Nat) (f : Flit) : State :=
  match ctrOfAddr f.addr.toNat with
  | some k => s.ctrAdd k (BitVec.ofNat 64 (leNat (f.data.take 8)))
  | none => s.flitError die f 0#8

/-! ### Multicasts (R353, R360) -/

/-- A table entry written on this device's replica, and the migration counters of every die raised where it leaves
migrating (R353). -/
def State.writeEntry (s : State) (a : Nat) (v : Word) : State :=
  let old := s.pte a
  let s := s.note none false [sectorOf a]
  let s : State := { s with store := s.store.put a (leBytes 8 v.toNat) false }
  if pteState old = 2 ∧ pteState v.toNat ≠ 2 then
    (List.range 8).foldl (fun (s : State) d => s.ctrAdd (ctrKey d (s.die d).migidx.toNat) 1#64) s
  else s

/-- The devices of PODMASK but this one, as a die holds it. -/
def State.podPeers (s : State) (die : Nat) : List Nat :=
  (List.range 64).filter fun d => (s.die die).podmask.getLsbD d && decide (d ≠ s.devid)

/-- The device at which the multicasts of the pod are ordered, as a die's PODMASK names it: the lowest-numbered one, or this
device where PODMASK names none (R353). -/
def State.orderDev (s : State) (die : Nat) : Nat :=
  ((List.range 64).find? fun d => (s.die die).podmask.getLsbD d).getD s.devid

/-- A multicast sent to the other devices of PODMASK, in the name of an agent (R353, R392). -/
def State.relay (s : State) (core die a : Nat) (v : Word) : State :=
  (s.podPeers die).foldl (fun s d => s.sendFlit core 5 d 0 a (leBytes 8 v.toNat) 0xFF 0) s

/-- PTMC_ORDERED: a multicast at its ordering point (R353, R360). Where that is this device it is refused if the entry is pinned
on a device of PODMASK, else written here, where this device is one, and sent to the others; else it is sent there once, and
what comes back decides it. -/
def State.ptmcOrdered (s : State) (id : Nat) : State :=
  match s.ptmcs.find? fun p => decide (p.id = id) && !p.decided with
  | none => s
  | some p =>
    let die := dieOf p.x.core
    let mine := (s.die die).podmask.getLsbD s.devid
    if mine && s.pinned.contains p.addr then s.ptmcDecide p true
    else if s.orderDev die ≠ s.devid then
      if p.asked then s
      else
        ({ s with ptmcs := s.ptmcs.map fun q => if q.id = id then { q with asked := true } else q } : State).sendFlit
          p.x.core 5 (s.orderDev die) 0 p.addr (leBytes 8 p.value.toNat) 0xFF 0
    else if !(s.podPeers die).isEmpty && Config.remotePinned id then s.ptmcDecide p true
    else ((if mine then s.writeEntry p.addr p.value else s).relay p.x.core die p.addr p.value).ptmcDecide p false

/-- FLIT_TABLE_MULTICAST (R350, R353, R397): an entry that the fabric ports may not write, or that is pinned here, is answered with
an error. The ordering point refuses an entry pinned on another device of PODMASK, else writes and relays; another device
writes its replica, and a multicast of its own is decided. -/
def State.flitTable (s : State) (die : Nat) (f : Flit) : State :=
  let a := f.addr.toNat
  let v := BitVec.ofNat 64 (leNat (f.data.take 8))
  if a % 8 ≠ 0 || !s.fabOk a 8 true then s.flitError die f 0#8
  else if s.pinned.contains a then s.flitError die f cPtPinned
  else if s.orderDev die = s.devid then
    let n := s.nextPtmc
    let s : State := { s with nextPtmc := n + 1 }
    if Config.remotePinned n then s.flitError die f cPtPinned else (s.writeEntry a v).relay (2000 + die) die a v
  else
    let s := s.writeEntry a v
    match s.ptmcs.find? fun p => p.asked && !p.decided && decide (p.addr = a) && decide (p.value = v) with
    | some p => s.ptmcDecide p false
    | none => s

/-- PTMC_COMPLETE: every replica has applied a multicast, and its completion add is made, a release (R353, R360). -/
def State.ptmcComplete (s : State) (id : Nat) : State :=
  match s.ptmcs.find? fun p => decide (p.id = id) && p.decided && !p.pinned && !p.open_ with
  | none => s
  | some p =>
    if (s.fabric.out ++ s.fabric.held).any fun o => o.flit.fk == 5#4 && decide (o.flit.addr.toNat = p.addr) then s
    else
      let s : State := { s with ptmcs := s.ptmcs.filter fun q => q.id != id }
      s.releaseAdd p.x p.sel 1#64 false

/-! ### Clearing, lease and version messages (R114) -/

/-- The running launch that a message names by its STATUS address. -/
def State.named (s : State) (status : Nat) : Option Launch :=
  s.launches.find? fun l => decide (l.record.status = status) && decide (l.phase = .running)

/-- The ordered launch that a message names by its STATUS address. -/
def State.byStatus (s : State) (status : Nat) : Option Launch :=
  s.launches.find? fun l => decide (l.record.status = status) && decide (l.phase = .running) && !l.record.open_

/-- What is known of a device's progress raised: the instants finished, found free of conflicts, and cleared there. -/
def peerPut (ps : List Peer) (dev fin chk clr : Nat) : List Peer :=
  match ps.find? fun p => decide (p.dev = dev) with
  | some p => ps.map fun q => if q.dev = dev then ⟨dev, max p.fin fin, max p.chk chk, max p.clr clr⟩ else q
  | none => ps ++ [⟨dev, fin, chk, clr⟩]

/-- A launch's knowledge of a device. -/
def State.peer (s : State) (lid dev fin chk clr : Nat) : State :=
  s.updLaunch lid fun l => { l with peers := peerPut l.peers dev fin chk clr }

/-- The pins held here for the lease walks of another device released (R347, R349; log 145). -/
def State.unpinFor (s : State) (dev : Nat) : State :=
  { s with pins := s.pins.filter fun p => p.1 != Config.pinSlots + dev }

/-- FLIT_CLEARING_MESSAGE: an instant finished, found free of conflicts, or cleared on another device, or the launch ended there (R114,
R319); counter values known of other devices before a clearing are forgotten. -/
def State.flitClearing (s : State) (m : ClearMsg) : State :=
  match m with
  | .finished dev status inst =>
    (match s.byStatus status with
    | some l => s.peer l.lid dev (inst + 1) 0 0
    | none => s)
  | .checked dev status inst =>
    (match s.byStatus status with
    | some l => s.peer l.lid dev (inst + 1) (inst + 1) 0
    | none => s)
  | .cleared dev status inst =>
    (match s.byStatus status with
    | some l => ({ s with fabric := s.fabric.forget } : State).peer l.lid dev (inst + 1) (inst + 1) (inst + 1)
    | none => s)
  | .ended dev status cause =>
    let s := s.unpinFor dev
    match s.byStatus status with
    | some l => s.endLaunch l.lid (if cause = 0#8 then none else some ⟨cause, 0, 0, 0, 0#64, 0, false⟩) 0
    | none => s

/-- A launch's knowledge of a device that sends it a message: an ordered launch then spans both (R114). -/
def State.meetsPeer (s : State) (l : Launch) (dev : Nat) : State := if l.record.open_ then s else s.peer l.lid dev 0 0 0

/-- The origin of what a message of another device brings about. -/
def msgOrigin (die stamp : Nat) : Origin := ⟨⟨2000 + die, 0⟩, 0, 0, stamp⟩

/-- A store of a reaction of another device put into its version or memory-side log here, with the wounds it makes: a set store where
the reaction holds the lines here (R104, R114, R352, R397). -/
def State.guestStore (s : State) (die : Nat) (f : Flit) (l : Launch) (stamp addr : Nat) (data : List Byte) (taint ms : Bool) : State :=
  if !s.fabOk addr data.length true then s.flitError die f 0#8
  else if (s.pinHit addr data).isSome then s.flitError die f cPtPinned
  else
    let held := l.guestHeld stamp
    let effs := (cut addr data.length).map fun c =>
      Eff.store c.1 ((data.drop (c.1 - addr)).take c.2) taint (held.any fun q => q.meets ⟨c.1, c.2⟩) ms 0
    let s : State := { s with store := s.store.log l.lid stamp effs }
    s.wound l.lid (msgOrigin die stamp)
      ((effs.filterMap Eff.line?).eraseDups.flatMap fun k => s.store.leaseJobs l.lid stamp k)

/-- A reaction of another device that touches lines homed here (R323): younger holders are wounded at once, and it waits until it may
hold them. -/
def State.guestTouch (s : State) (die dev : Nat) (l : Launch) (stamp : Nat) (q : Range) : State :=
  let s := s.wound l.lid (msgOrigin die stamp) (touchJobs l.record.open_ stamp [q] [q] l.reacts)
  let s := match s.launch? l.lid with
    | some l => s.tellGuests l stamp [q]
    | none => s
  s.updLaunch l.lid fun l =>
    { l with guests := (l.guests.filter fun g => !(decide (g.stamp = stamp) && decide (g.range = q))) ++ [⟨stamp, dev, q, .waits⟩] }

/-- A reaction of another device that has finished or trapped gives back the lines it holds here and is a past holder of them; the
version of one that trapped is gone, with the wounds that follow (R211, R323, R324). -/
def State.guestRelease (s : State) (die : Nat) (l : Launch) (stamp : Nat) (trapped : Bool) : State :=
  let s := s.updLaunch l.lid fun l =>
    { l with guests := (l.guests.filter fun g => g.stamp != stamp || g.hold != .waits).map fun g =>
        if g.stamp = stamp then { g with hold := .past } else g }
  if trapped && !l.record.open_ then
    let jobs := s.store.versionReaders l.lid stamp
    ({ s with store := s.store.dropVersion l.lid stamp } : State).wound l.lid (msgOrigin die stamp) jobs
  else s

/-- A reaction of another device thrown away: its version, its leases and what it held here are gone, with the wounds that follow (R46,
R114). -/
def State.guestDiscard (s : State) (die : Nat) (l : Launch) (stamp : Nat) : State :=
  let jobs := s.store.dependents l.lid stamp
  let s : State := { s with store := s.store.discard l.lid stamp [stamp] }
  let s := s.updLaunch l.lid fun l => { l with guests := l.guests.filter fun g => g.stamp != stamp }
  s.woundLoop l.lid (msgOrigin die stamp) (s.woundFuel + jobs.length) [stamp] jobs

/-- A reaction of this device wounded by what it meets on another (R102, R323, R325): by a touch only where it holds or has held a set
there, or has asked for its lines. -/
def State.woundedAway (s : State) (die : Nat) (l : Launch) (stamp by_ key kind : Nat) : State :=
  let set := (l.react? stamp).bind fun r => r.sets.findIdx? fun a => (a.held || a.past) && a.meets [⟨key / 128 * 128, 128⟩]
  let asked := l.away.any fun a => decide (a.stamp = stamp) && a.range.meetsLine ⟨key, 1⟩
  if kind = 1 ∧ set = none ∧ !asked then s
  else s.wound l.lid (msgOrigin die by_) [⟨stamp, by_, key, kind, set.getD 0, 8⟩]

/-- The launch that a message is about: an ordered one for what goes with versions, any for sets, which open launches have too. -/
def State.msgLaunch (s : State) (m : LeaseMsg) : Option Launch :=
  match m with
  | .store status _ _ _ _ _ | .lease status _ _ => s.byStatus status
  | .discard status _ | .wound status _ _ _ _ | .touch status _ _ _ | .hold status _ _ _ | .release status _ _ => s.named status

/-- FLIT_LEASE_VERSION_MESSAGE (R102, R114, R323, R325): what a reaction of another device does here, or what one of this device meets
there. -/
def State.flitLease (s : State) (die : Nat) (f : Flit) (m : LeaseMsg) : State :=
  let dev := f.srcdev.toNat
  match s.msgLaunch m with
  | none => s
  | some l =>
    let s := s.meetsPeer l dev
    match m with
    | .store _ stamp addr data taint ms => s.guestStore die f l stamp addr data taint ms
    | .lease _ stamp addr => { s with store := s.store.lease dev (l.guestView stamp) ⟨addr, 1, addr, .ver⟩ }
    | .wound _ stamp by_ addr kind => s.woundedAway die l stamp by_ (keyOf .remote dev addr) kind
    | .discard _ stamp => s.guestDiscard die l stamp
    | .touch _ stamp addr len => s.guestTouch die dev l stamp ⟨addr, len⟩
    | .hold _ stamp addr len => s.updLaunch l.lid fun l =>
        { l with away := l.away.map fun a => if a.stamp = stamp ∧ a.range = ⟨keyOf .remote dev addr, len⟩ then { a with held := true } else a }
    | .release _ stamp trapped => s.guestRelease die l stamp trapped

/-! ### Credits, routes and links (R392-R394) -/

/-- Held flits sent once nothing of their die for their device is left on another path (R393). -/
def Fabric.letGo (f : Fabric) : Fabric :=
  f.held.foldl (fun (f : Fabric) o =>
    let same (p : OutFlit) : Bool := decide (dieOf p.core = dieOf o.core) && p.flit.dstdev == o.flit.dstdev
    if f.out.any (fun p => same p && p.link != o.link) || f.held.any same then { f with held := f.held ++ [o] }
    else { f with out := f.out ++ [o] }) { f with held := [] }

/-- The oldest flit of a link taken out. -/
def ackFirst (link : Nat) : List OutFlit → List OutFlit
  | [] => []
  | o :: os => if o.link = link then os else o :: ackFirst link os

/-- FLIT_CREDIT: the oldest unacknowledged flit of the link is acknowledged, and held flits may go (R377, R392). -/
def State.flitCredit (s : State) (link : Nat) : State :=
  { s with fabric := ({ s.fabric with out := ackFirst link s.fabric.out } : Fabric).letGo }

/-- ROUTE_WRITE: a word of ROUTE replaced (R393). -/
def State.routeWrite (s : State) (die off : Nat) (v : Word) : State :=
  if 0x40 ≤ off ∧ off < 0x60 then
    s.updDie die fun d => { d with route := BitVec.ofNat 256 (putWord d.route.toNat v.toNat ((off - 0x40) / 8)) }
  else s

/-- The routes of a die that use a link made invalid. -/
def DieRegs.unroute (d : DieRegs) (link : Nat) : DieRegs :=
  let bad := ((List.range 64).filter fun e => decide (bitsOf d.route.toNat (4 * e) 4 = link)).map fun e => 2 ^ e
  { d with valid := d.valid &&& ~~~(BitVec.ofNat 64 bad.sum) }

/-- A link down (R394): partitions with flits outstanding on it are reset, its routes are invalid, and its flits are
gone. -/
def State.linkDown (s : State) (link : Nat) : State :=
  let lost := s.fabric.flits.filter fun o => decide (o.link = link)
  let parts := ((lost.map OutFlit.core).filterMap s.partOf).eraseDups
  let gone (q : RemoteReq) : Bool := decide (q.x.core = 20000) && lost.any fun o =>
    (o.flit.fk == 2#4 || o.flit.fk == 9#4) && decide (o.flit.dstdev.toNat = q.dev) && decide (o.flit.addr.toNat = q.addr)
  let s : State := { s with fabric := { s.fabric with
    down := numPut s.fabric.down link
    out := s.fabric.out.filter fun o => o.link != link
    held := s.fabric.held.filter fun o => o.link != link
    reqs := s.fabric.reqs.filter fun q => !gone q } }
  let s := (List.range 8).foldl (fun s d => s.updDie d fun r => r.unroute link) s
  parts.foldl State.resetPartition s

/-- FLIT_CRC_FAIL: the flit is replayed; the sixteenth failure in a row takes the link down (R392). -/
def State.crcFail (s : State) (link : Nat) : State :=
  if !s.linkUp link then s
  else
    let n := (alGet s.fabric.crcFails link).getD 0 + 1
    let s : State := { s with fabric := { s.fabric with crcFails := alPut s.fabric.crcFails link n } }
    if 16 ≤ n then s.linkDown link else s

/-- FLIT_UNKNOWN: a flit of no kind discarded and counted (R392). -/
def State.flitUnknown (s : State) (link : Nat) : State :=
  if !s.linkUp link then s
  else { s with fabric := { s.fabric with
    crcFails := alPut s.fabric.crcFails link 0, discarded := s.fabric.discarded + 1 } }

/-! ### Walk continuations (R347) -/

/-- The outcome of a continued walk answered. -/
def State.answerWalk (s : State) (die dev va e lvl cause : Nat) : State :=
  s.sendFlit (2000 + die) 3 dev 0 va (leBytes 8 e ++ [BitVec.ofNat 8 lvl, BitVec.ofNat 8 cause]) 0x3FF 0

/-- The entries read here by a continued walk pinned for the device that walks, if the walk is one of leases: no flit tells it, so
it is free (R347, R349; log 145). -/
def State.pinRead (s : State) (dev : Nat) (read : List Nat) : State :=
  let k := Config.pinSlots + dev
  let old := (s.pins.filter fun p => decide (p.1 = k)).flatMap Prod.snd
  let s : State := { s with freeCount := s.freeCount + 1 }
  if Config.leaseWalk (s.freeCount - 1) then { s with pins := (s.pins.filter fun p => p.1 != k) ++ [(k, (old ++ read).eraseDups)] }
  else s

/-- A walk continued from FRAME of an entry, one level down, for another device: answered, passed on, or waiting on this
die's migration counter (R345, R347); a poisoned line on it, or an entry that the fabric ports may not read, is answered with an error
(R397, R400). -/
def State.continueWalk (s : State) (die dev sid va e lvl : Nat) : State :=
  let x : CtxRef := ⟨3000 + die, dev + 64 * sid⟩
  let w := s.walkFrom va 5 (pteFrame e + 8 * bitsOf va (16 + 10 * (lvl - 1)) 10) (lvl - 1) []
  let s := if w.ending = .migrating then s else s.pinRead dev w.read
  if s.walkDenied fabMaster w || s.walkPoison w then (s.dropAsked x).sendFlit (2000 + die) 3 dev 0 va [] 0 0
  else
  match w.ending with
  | .leaf => (s.dropAsked x).answerWalk die dev va w.entry w.lvl 0
  | .node => (s.dropAsked x).answerWalk die dev va w.entry w.lvl 0xC4
  | .migrating =>
    if s.walks.any fun k => decide (k.x = x) && k.expired then (s.dropAsked x).answerWalk die dev va w.entry w.lvl 0xC4
    else
      let q : RemoteReq := ⟨x, s.devid, va, some (BitVec.ofNat 64 e, lvl), 0, none, false⟩
      let s := s.noteWalk x die
      if s.fabric.reqs.contains q then s else { s with fabric := { s.fabric with reqs := s.fabric.reqs ++ [q] } }
  | .remote =>
    (s.dropAsked x).ask (2000 + die) sid 0
      ⟨⟨4000 + die, dev + 64 * sid⟩, pteDev w.entry, va, some (BitVec.ofNat 64 w.entry, w.lvl), 0, none, false⟩
/-- FLIT_WALK_CONTINUATION: refused where FSID of the answering die names another space, else walked (R347). -/
def State.flitWalk (s : State) (die : Nat) (f : Flit) : State :=
  let e := leNat (f.data.take 8)
  let lvl := leNat ((f.data.drop 8).take 1)
  let fsid := (s.die die).fsid
  if fsid ≠ 0#16 ∧ fsid ≠ f.sid then s.answerWalk die f.srcdev.toNat f.addr.toNat e lvl 0xC5
  else s.continueWalk die f.srcdev.toNat f.sid.toNat f.addr.toNat e lvl

/-- Continued walks that waited on migration made again once they need not wait. -/
def State.retryWalks (s : State) : State :=
  (s.fabric.reqs.filter fun q => decide (3000 ≤ q.x.core ∧ q.x.core < 4000) &&
      !(s.walks.any fun w => decide (w.x = q.x) && !w.expired)).foldl (fun s q =>
    match q.walk with
    | some (e, lvl) => s.continueWalk (dieOf q.x.core) (q.x.ctx % 64) (q.x.ctx / 64) q.addr e.toNat lvl
    | none => s) s

end Sys2Proof.Machine
end

