-- ==== Sys2Proof/Machine/Mgmt.lean ====
section
/-!
DEFINITION. The management core: boot, identity, the management port's services and the security states (23_system R387,
R388, R396, R402-R406).
-/

namespace Sys2Proof.Machine

/-! ### Boot (R385, R387, R388, R402) -/

/-- The bytes of a firmware image that its signature covers. -/
def fwBytes (i : FwImage) : List Byte := leBytes 8 i.version ++ i.bytes

/-- Whether a firmware image verifies under the vendor root key (R402). -/
def fwOk (i : FwImage) : Bool := Config.pssVerifies (fwBytes i) i.sig

/-- The bytes of a bin record that its signature covers (R387). -/
def binBytes (b : BinRecord) : List Byte :=
  (b.dies.flatMap fun d =>
    leBytes 8 d.cores.toNat ++ leBytes 1 d.lanes0.toNat ++ leBytes 1 d.lanes1.toNat ++ leBytes 20 d.pch.toNat ++
      leBytes 8 d.usable.toNat) ++ b.keyDigest

/-- Whether a bin record is good for this device: its signature verifies, and its digest is that of the device key
(R387). -/
def binOk (b : BinRecord) : Bool := Config.pssVerifies (binBytes b) b.sig && decide (b.keyDigest = Config.deviceKeyDigest)

/-- The image that the boot ROM accepts: slot 0, else slot 1 (R402). -/
def Flash.accepted (f : Flash) : Option FwImage :=
  match f.slot0.filter fwOk with
  | some i => some i
  | none => f.slot1.filter fwOk

/-- The security state that a flash holds (R403). -/
def Flash.sec (f : Flash) : Sec :=
  if f.revoked then .revoked else if f.sealedKey.isSome then .provisioned else .unprovisioned

/-- The usable bytes of a stack: 209,715 chunks of 2 KiB for each present pseudo-channel (R386). -/
def usableOf (pch : BitVec 160) : Word := BitVec.ofNat 64 (bitCount 160 pch.toNat * 209715 * 2048)

/-- A die's registers as the accepted firmware fills them: the configuration table from the bin record and the identifier
setting, USABLE by R386; the core rail is at a free setpoint from 300 to 450 mV (R408; log 140); what it writes into blocks
0x06 and 0x07 is free (R402; log 25). -/
def bootDie (b : BinRecord) (devid : BitVec 6) (d : Nat) : DieRegs :=
  let cfg := b.dies.getD d DieRegs.reset.cfg
  { DieRegs.reset with
    cfg := { cfg with usable := usableOf cfg.pch }
    vcore := BitVec.ofNat 9 (300 + Config.railSetpoint d % 151)
    devid := devid
    access := ⟨⟨(List.range 57).map (Config.bootAccess d)⟩, by simp⟩
    corep := Config.bootCorep d
    supp := Config.bootSupp d
    slicep := Config.bootSlicep d
    pchp := Config.bootPchp d }

/-- Every die's registers after boot. -/
def bootDies (b : BinRecord) (devid : BitVec 6) : Vector DieRegs 8 := ⟨⟨(List.range 8).map (bootDie b devid)⟩, by simp⟩

/-- The state as a package reset leaves it before the boot ROM runs: the flash, the services' records and what stands
outside the package remain. -/
def State.afterReset (s : State) : State :=
  { State.reset with
    flash := s.flash, mgmt := { s.mgmt with fw := none }, sec := s.flash.sec, agenda := s.agenda, lateness := s.lateness
    freeCount := s.freeCount }

/-- PACKAGE_RESET (R387, R402): without an accepted image, or without a good bin record, only UpdateService is served;
else the tables are filled and every supervisor core is released. -/
def State.packageReset (s : State) : State :=
  let s := s.afterReset
  match s.flash.accepted, s.flash.bin.filter binOk with
  | some i, some b =>
    let s : State := { s with
      mgmt := { s.mgmt with fw := some i }, regs := bootDies b s.flash.devid, boot := .done }
    (List.range 16).foldl (fun s i => s.releaseSup (512 + i)) s
  | i, _ => { s with mgmt := { s.mgmt with fw := i }, boot := .updateOnly }

/-! ### Responses (R396) -/

/-- A response given. -/
def State.respond (s : State) (r : MgmtResp) : State := { s with mgmt := { s.mgmt with responses := s.mgmt.responses ++ [r] } }

/-- A Redfish response with a status; its body is free (log 13). -/
def State.redfish (s : State) (status : Nat) : State :=
  ({ s with freeCount := s.freeCount + 1 } : State).respond (.redfish status s.freeCount)

/-- A Redfish request refused: HTTP status 400, and the refusal recorded in the LogService (R405). -/
def State.refuse (s : State) : State :=
  ({ s with mgmt := { s.mgmt with refusals := s.mgmt.refusals + 1 } } : State).redfish 400

/-- An SPDM response with a code; its body is free (log 13). -/
def State.spdm (s : State) (code : Nat) : State :=
  ({ s with freeCount := s.freeCount + 1 } : State).respond (.spdm code s.freeCount)

/-- A service other than UpdateService, given only once the boot has released the supervisors (R387, R402). -/
def State.served (s : State) (k : State → State) : State := if s.boot = .done then k s else s

/-- REDFISH_GET (R396): before the boot has released the supervisors UpdateService alone is served (R387, R402). -/
def State.redfishGet (s : State) (res : RedfishRes) : State :=
  if res = .updateService ∧ s.boot = .updateOnly then s.redfish 200 else s.served fun s => s.redfish 200

/-- UPDATE_SERVICE (R387, R402): a firmware image put in its slot, or the bin record replaced by another record signed for
this device. -/
def State.updateService (s : State) (u : UpdateObj) : State :=
  match u with
  | .firmware k i =>
    let f := s.flash
    ({ s with flash := if k.val = 0 then { f with slot0 := some i } else { f with slot1 := some i } } : State).redfish 200
  | .bin b => if binOk b then ({ s with flash := { s.flash with bin := some b } } : State).redfish 200 else s.refuse

/-- DEVICE_ID_SETTING: kept in flash, effective at the next package reset (R388). -/
def State.deviceIdSetting (s : State) (v : Nat) : State :=
  s.served fun s => ({ s with flash := { s.flash with devid := BitVec.ofNat 6 v } } : State).redfish 200

/-! ### Signed objects (R403-R406) -/

/-- Whether a signed object is of a kind, verifies, and names this device (R404, R405): by the certificate serial, or, when no
key has been provisioned, by the digest of the device key. What marks a body as of a kind is free (log 141). -/
def State.objOk (s : State) (kind : Nat) (o : SignedObj) : Bool :=
  decide (Config.objKind o.body = kind) && Config.pssVerifies (o.names ++ o.body) o.sig &&
    decide (o.names = if s.sec = .unprovisioned then Config.deviceKeyDigest else Config.certSerial)

/-- PROVISION: an identity key is created, sealed and stored with the vendor's chain (R403, R405). -/
def State.provision (s : State) (o : SignedObj) : State :=
  s.served fun s =>
    if !s.objOk 0 o then s.refuse
    else
      let n := s.mgmt.provisions
      ({ s with
        flash := { s.flash with sealedKey := some (Config.sealedKey n), chain := some (Config.certChain n), revoked := false }
        sec := .provisioned, mgmt := { s.mgmt with provisions := n + 1 } } : State).redfish 200

/-- REVOKE: the sealed key erased and the revoked mark written; refused outside the locked debug state, since a revoked
device is never in another (R403, R405, R406). -/
def State.revoke (s : State) (o : SignedObj) : State :=
  s.served fun s =>
    if !s.objOk 1 o || decide (s.dbg ≠ .locked) then s.refuse
    else
      ({ s with flash := { s.flash with sealedKey := none, revoked := true }, sec := .revoked } : State).redfish 200

/-- DEBUG_UNLOCK: full debug state, never on a revoked device (R404-R406). -/
def State.debugUnlock (s : State) (o : SignedObj) : State :=
  s.served fun s =>
    if !s.objOk 2 o || decide (s.sec = .revoked) then s.refuse else ({ s with dbg := .full } : State).redfish 200

/-! ### SPDM (R396, R406) -/

/-- An SPDM request that is always served; the response codes are those of SPDM 1.3 (log 28). -/
def State.spdmServed (s : State) (code : Nat) : State := s.served fun s => s.spdm code

/-- CHALLENGE: served when provisioned, else ERROR (R406). -/
def State.challenge (s : State) : State :=
  s.served fun s => if s.sec = .provisioned then s.spdm 0x03 else s.respond .spdmError

/-- The configuration table of a die as its 64 bytes (R385). -/
def DieRegs.table (d : DieRegs) : Nat :=
  d.cfg.cores.toNat + d.cfg.lanes0.toNat * 2 ^ 64 + d.cfg.lanes1.toNat * 2 ^ 72 + d.devid.toNat * 2 ^ 80 +
    d.cfg.pch.toNat * 2 ^ 96 + d.cfg.usable.toNat * 2 ^ 256

/-- The number of a security state (R407). -/
def Sec.num : Sec → Nat
  | .unprovisioned => 0
  | .provisioned => 1
  | .revoked => 2

/-- The number of a debug state (R407). -/
def Dbg.num : Dbg → Nat
  | .locked => 0
  | .user => 1
  | .full => 2

/-- What a measurement shows (R396): 1 the firmware image's digest and version, 2 the digest of the eight configuration
tables, 3 the security and debug states. -/
def State.measure (s : State) (idx : Nat) : List Byte :=
  if idx = 1 then
    match s.mgmt.fw with
    | some i => Sha.sha512 i.bytes ++ leBytes 8 i.version
    | none => []
  else if idx = 2 then Sha.sha512 ((List.range 8).flatMap fun d => leBytes 64 (s.die d).table)
  else [BitVec.ofNat 8 s.sec.num, BitVec.ofNat 8 s.dbg.num]

/-- GET_MEASUREMENTS: served when provisioned, else ERROR (R406). -/
def State.getMeasurements (s : State) (idx : Nat) : State :=
  s.served fun s =>
    if s.sec = .provisioned then
      ({ s with freeCount := s.freeCount + 1 } : State).respond (.measurement idx (s.measure idx) s.freeCount)
    else s.respond .spdmError

/-- UNSUPPORTED_REQUEST: ERROR UnsupportedRequest (R396). -/
def State.spdmUnsupported (s : State) : State := s.served fun s => s.respond .spdmUnsupported

/-- MANAGEMENT_REQUEST_WAKE: a management request naming a partition clears its PARK bit (R406, R409), where requests are served
(R402). -/
def State.managementWake (s : State) (p : Nat) : State := s.served fun s => s.unpark p

end Sys2Proof.Machine
end

