-- ==== Sys2Proof/Machine/Regs.lean ====
section
/-!
DEFINITION. The register space of `sv.srd` and `sv.swr` (21_spaces R355, R356, 18_clearing R321, 22_observation R381-R383,
23_system R385, R389, R393, R395, R397, R399, R407), and the host port (R389-R391).
-/

namespace Sys2Proof.Machine

/-! ### Register addresses (R355) -/

/-- A register address: die, block and offset. -/
structure RegAddr where
  die : Nat
  blk : Nat
  off : Nat
  deriving DecidableEq, Repr

/-- Whether a block has a register at an offset; block 0x02 is on die 0 only (R381). -/
def assignedReg (die blk off : Nat) : Bool :=
  match blk with
  | 0 => decide (off < 64)
  | 1 => decide (off < 48)
  | 2 => decide (die = 0) && decide (off < 256)
  | 3 => decide (off ≤ 0x2060)
  | 4 => decide (off < 64)
  | 5 => decide (off < 0x100 + 32 * 520)
  | 6 => decide (off < 232)
  | 7 => decide (off < 0x98)
  | 8 => decide (off < 64)
  | _ => false

/-- A register address read, if it is one. -/
def regAddr (w : Word) : Option RegAddr :=
  let v := w.toNat
  let r : RegAddr := ⟨bitsOf v 24 3, bitsOf v 16 8, bitsOf v 0 16⟩
  if v < 2 ^ 27 ∧ r.off % 8 = 0 ∧ assignedReg r.die r.blk r.off then some r else none

/-- Word `i` of a number. -/
def wordAt (v i : Nat) : Word := BitVec.ofNat 64 (v / 2 ^ (64 * i) % 2 ^ 64)

/-! ### Reads -/

/-- The window registers as a number (R389). -/
def HostPort.num (h : HostPort) : Nat :=
  0xC7A4 + 0xA1 * 2 ^ 16 + h.h2dtail.toNat * 2 ^ 64 + h.h2dhead.toNat * 2 ^ 128 + h.d2htail.toNat * 2 ^ 192 +
    h.d2hhead.toNat * 2 ^ 256 + h.svhalt.toNat * 2 ^ 320 + h.preset.toNat * 2 ^ 336 + (if h.ready then 2 ^ 344 else 0)

/-- The translation block as a number (R356). -/
def DieRegs.transNum (d : DieRegs) : Nat :=
  d.sptbase.toNat * 2 ^ 19 + d.migidx.toNat * 2 ^ 64 + d.podmask.toNat * 2 ^ 128 + d.faultq.length * 2 ^ 192 +
    d.tfrec.toNat * 2 ^ 256

/-- The clearing engine block as a number (R321). -/
def DieRegs.clearNum (d : DieRegs) : Nat :=
  d.tlbase.toNat * 2 ^ 6 + d.tlord.toNat * 2 ^ 64 + d.tlhead.toNat * 2 ^ 128 + d.tltail.toNat * 2 ^ 192 +
    d.tllost.toNat * 2 ^ 256 + d.wounds.toNat * 2 ^ 320

/-- The observation block as a number (R381); the write-only fields read 0. -/
def State.obsNum (s : State) : Nat :=
  let o := s.obs
  s.timebase.toNat + o.dthr.toNat * 2 ^ 64 + o.kmask.toNat * 2 ^ 96 + o.tqns.toNat * 2 ^ 128 + o.tqlen.toNat * 2 ^ 160 +
    o.tqlba.toNat * 2 ^ 192 + o.seq.toNat * 2 ^ 256 + o.sent.toNat * 2 ^ 320 + o.overwr.toNat * 2 ^ 384 +
    (o.bp.toList.foldr (fun w n => n * 2 ^ 128 + w.toNat) 0) * 2 ^ 512 +
    (o.wp.toList.foldr (fun w n => n * 2 ^ 128 + w.toNat) 0) * 2 ^ 1536

/-- A word of the performance block: a counter sampled reads VALUE and OVF from before this cycle's events (R383). -/
def DieRegs.perfRead (d : DieRegs) (off : Nat) : Word :=
  match alGet d.perfCounted off with
  | some o => BitVec.ofNat 64 (o.1.toNat % 2 ^ 49 + bitsOf (d.perfWord off).toNat 49 15 * 2 ^ 49)
  | none => d.perfWord off

/-- The port registers of a die below the queue pairs as a number (R393). -/
def State.portNum (s : State) (die : Nat) : Nat :=
  let d := s.die die
  (if die = 0 then s.host.num + d.wbase.toNat * 2 ^ 977 else 0) + d.route.toNat * 2 ^ 512 + d.valid.toNat * 2 ^ 768 +
    d.fsid.toNat * 2 ^ 832 + (if die = 7 then d.stsid.toNat * 2 ^ 896 else 0)

/-- A queue pair as a number (R395). -/
def QPair.num (p : QPair) : Nat :=
  p.sqbase.toNat + p.cqbase.toNat * 2 ^ 64 + p.depth.toNat * 2 ^ 128 + p.conn.toNat * 2 ^ 138 + p.qid.toNat * 2 ^ 141 +
    p.csel.toNat * 2 ^ 160 + p.sqtail.toNat * 2 ^ 192 + p.cqhead.toNat * 2 ^ 208

/-- The access table as a number (R397). -/
def DieRegs.accessNum (d : DieRegs) : Nat := d.access.toList.foldr (fun e n => n * 2 ^ 32 + e.toNat) 0

/-- The partition and error block as a number (R399). -/
def DieRegs.partNum (d : DieRegs) : Nat :=
  d.corep.toNat + d.supp.toNat * 2 ^ 192 + d.slicep.toNat * 2 ^ 256 + d.pchp.toNat * 2 ^ 512 +
    (if d.perr then 2 ^ 1024 else 0) + d.cecnt.toNat * 2 ^ 1088 + d.uecnt.toNat * 2 ^ 1152

/-- The power and thermal block of a die as a number (R407). -/
def State.powerNum (s : State) (die : Nat) : Nat :=
  let d := s.die die
  d.temp.toNat + d.step.toNat * 2 ^ 8 + d.twarn.toNat * 2 ^ 16 + d.tcrit.toNat * 2 ^ 24 + d.thys.toNat * 2 ^ 32 +
    (if die = 0 then d.plimit.toNat * 2 ^ 36 + s.park.toNat * 2 ^ 64 + (if s.stby then 2 ^ 72 else 0) else 0) +
    d.vcore.toNat * 2 ^ 48 + s.sec.num * 2 ^ 57 + s.dbg.num * 2 ^ 59

/-- A register read (R359). -/
def State.regRead (s : State) (r : RegAddr) : Word :=
  let d := s.die r.die
  let i := r.off / 8
  match r.blk with
  | 0 => wordAt d.transNum i
  | 1 => wordAt d.clearNum i
  | 2 => wordAt s.obsNum i
  | 3 => d.perfRead r.off
  | 4 => wordAt d.table i
  | 5 =>
    if r.off < 0x100 then wordAt (s.portNum r.die) i
    else if r.die = 7 then wordAt (s.qpair ((r.off - 0x100) / 32)).num (r.off % 32 / 8)
    else 0#64
  | 6 => wordAt d.accessNum i
  | 7 => wordAt d.partNum i
  | 8 => wordAt (s.powerNum r.die) i
  | _ => 0#64

/-! ### The performance block (R382, R383) -/

/-- PERF_COUNTER_WRITE: VALUE and LOST set, OVF cleared where its bit is 1; events of the same cycle are dropped into LOST
(R382, R383). -/
def DieRegs.perfWrite (d : DieRegs) (off : Nat) (v : Word) : DieRegs :=
  let old := d.perfRead off
  let n := ((alGet d.perfCounted off).map Prod.snd).getD 0
  let ovf := bitsOf old.toNat 48 1 - bitsOf v.toNat 48 1
  let w := perfLost (BitVec.ofNat 64 (v.toNat % 2 ^ 48 + ovf * 2 ^ 48 + bitsOf v.toNat 49 15 * 2 ^ 49)) n
  { d with
    perf := alPut d.perf off w, perfCounted := d.perfCounted.filter fun p => p.1 != off, perfWritten := off :: d.perfWritten }

/-- PERF_CONFIG_WRITE: the new configuration stands from the next cycle; events of this one count under the old
(R383). -/
def DieRegs.perfConfig (d : DieRegs) (off : Nat) (v : Word) : DieRegs :=
  let old := (alGet d.perfOldCfg off).getD (d.perfWord off)
  { d with
    perf := alPut d.perf off (BitVec.ofNat 64 (v.toNat % 2 ^ 12)), perfOldCfg := alPut d.perfOldCfg off old }

/-- The counter row's write: an offset that holds a counter. -/
def State.perfCounterWrite (s : State) (die off : Nat) (v : Word) : State :=
  if off < 0x1000 ∧ off % 8 = 0 then s.updDie die fun d => d.perfWrite off v else s

/-- The configuration row's write: an offset that holds a configuration. -/
def State.perfConfigWrite (s : State) (die off : Nat) (v : Word) : State :=
  if 0x1000 ≤ off ∧ off < 0x2000 ∧ off % 8 = 0 then s.updDie die fun d => d.perfConfig off v else s

/-! ### Breakpoints and watchpoints (R381) -/

/-- A breakpoint or watchpoint word pair with one word replaced. -/
def putHalf (w : BpWord) (hi : Bool) (v : Word) : BpWord :=
  if hi then BitVec.ofNat 128 (w.toNat % 2 ^ 64 + v.toNat * 2 ^ 64) else BitVec.ofNat 128 (w.toNat / 2 ^ 64 * 2 ^ 64 + v.toNat)

/-- Whether a word of a breakpoint has a reserved bit set. -/
def bpReserved (hi : Bool) (v : Word) : Bool :=
  if hi then decide (2 ^ 16 ≤ v.toNat) else decide (bitsOf v.toNat 1 4 ≠ 0) || decide (2 ^ 56 ≤ v.toNat)

/-- Whether a watchpoint after a write breaks R381: a reserved bit, LOG2LEN above 16, or BASE misaligned. -/
def wpBad (w : BpWord) (hi : Bool) (v : Word) : Bool :=
  let n := (putHalf w hi v).toNat
  (if hi then decide (2 ^ 24 ≤ v.toNat) else decide (2 ^ 56 ≤ v.toNat)) || decide (16 < bitsOf n 80 5) ||
    decide (bitsOf n 0 56 % 2 ^ bitsOf n 80 5 ≠ 0)

/-- Whether a write of a register is refused with SV_FORM (R381). -/
def State.writeForm (s : State) (r : RegAddr) (v : Word) : Bool :=
  if r.blk ≠ 2 then false
  else
    let hi := decide (r.off % 16 = 8)
    if 0x40 ≤ r.off ∧ r.off < 0xC0 then bpReserved hi v
    else if 0xC0 ≤ r.off then wpBad s.obs.wp[Fin.ofNat 4 ((r.off - 0xC0) / 16)] hi v
    else false

/-- A breakpoint or watchpoint word written, where the debug state lets the writer (R378, R406); in user state it is
confined to the writer's partition. -/
def State.bpWrite (s : State) (x : CtxRef) (off : Nat) (v : Word) : State :=
  let hi := decide (off % 16 = 8)
  let o := s.obs
  let part := if s.dbg = .full then none else s.partOf x.core
  if s.debugParts x = [] then s
  else if off < 0xC0 then
    let i := Fin.ofNat 8 ((off - 0x40) / 16)
    { s with obs := { o with bp := o.bp.set i (putHalf o.bp[i] hi v), bpPart := o.bpPart.set i part } }
  else
    let i := Fin.ofNat 4 ((off - 0xC0) / 16)
    { s with obs := { o with wp := o.wp.set i (putHalf o.wp[i] hi v), wpPart := o.wpPart.set i part } }

/-- The command word of the observation block: FLUSH, HALTREQ, RESUME, then STEP with STEPCORE and STEPCTX (R379, R376,
R378). -/
def State.obsCommand (s : State) (x : CtxRef) (v : Word) : State :=
  let core := bitsOf v.toNat 4 10
  let k := bitsOf v.toNat 14 2
  let s := if v.getLsbD 0 then s.seal else s
  let s := if v.getLsbD 1 then s.haltreq x else s
  let s := if v.getLsbD 2 then s.resume x else s
  let s : State := { s with obs := { s.obs with stepcore := BitVec.ofNat 10 core, stepctx := BitVec.ofNat 2 k } }
  if v.getLsbD 3 then s.stepCtx x ⟨core, k⟩ else s

/-! ### The host port's registers written by a supervisor (R389-R391) -/

/-- Earlier accesses of a context performed before what follows is seen by the host (R391): its memory-side operations. -/
def State.performAll (s : State) (x : CtxRef) : State :=
  ((s.core x.core).msq.filter fun c => decide (c.ctx = x.ctx)).foldl (fun s c => s.msDone x.core c) s

/-- D2HTAIL_WRITE: discarded below the current value or more than 512 above D2HHEAD (R390, R391). -/
def State.d2htailWrite (s : State) (x : CtxRef) (v : Word) : State :=
  let h := s.host
  if v.toNat < h.d2htail.toNat ∨ h.d2hhead.toNat + 512 < v.toNat then s
  else
    let s := s.performAll x
    { s with host := { s.host with d2htail := v } }

/-- H2DHEAD_WRITE: discarded below the current value or above H2DTAIL (R390). -/
def State.h2dheadWrite (s : State) (v : Word) : State :=
  let h := s.host
  if v.toNat < h.h2dhead.toNat ∨ h.h2dtail.toNat < v.toNat then s else { s with host := { h with h2dhead := v } }

/-- A word of the window written by a supervisor: H2DHEAD, D2HTAIL, PRESET and READY (R389). -/
def State.windowWrite (s : State) (x : CtxRef) (i : Nat) (v : Word) : State :=
  match i with
  | 2 => s.h2dheadWrite v
  | 3 => s.d2htailWrite x v
  | 5 =>
    { s with host := { s.host with
        preset := s.host.preset &&& ~~~(BitVec.ofNat 8 (bitsOf v.toNat 16 8)), ready := v.getLsbD 24 } }
  | _ => s

/-! ### Fields with no behaviour of their own -/

/-- A word of the translation block written (R356). -/
def DieRegs.transWrite (d : DieRegs) (i : Nat) (v : Word) : DieRegs :=
  match i with
  | 0 => { d with sptbase := BitVec.ofNat 37 (bitsOf v.toNat 19 37) }
  | 1 => { d with migidx := BitVec.ofNat 14 v.toNat }
  | 2 => { d with podmask := v }
  | _ => d

/-- A word of the clearing engine block written; a TLORD that is neither 0 nor 4 to 20 is discarded (R321). -/
def DieRegs.clearWrite (d : DieRegs) (i : Nat) (v : Word) : DieRegs :=
  match i with
  | 0 => { d with tlbase := BitVec.ofNat 50 (bitsOf v.toNat 6 50) }
  | 1 =>
    let n := bitsOf v.toNat 0 5
    if n = 0 ∨ (4 ≤ n ∧ n ≤ 20) then { d with tlord := BitVec.ofNat 5 n } else d
  | 3 => { d with tltail := v }
  | 4 => { d with tllost := v }
  | _ => d

/-- A word of the observation block with no behaviour of its own written (R381). -/
def Obs.plainWrite (o : Obs) (i : Nat) (v : Word) : Obs :=
  match i with
  | 1 => { o with dthr := BitVec.ofNat 32 v.toNat, kmask := BitVec.ofNat 6 (bitsOf v.toNat 32 6) }
  | 2 => { o with tqns := BitVec.ofNat 32 v.toNat, tqlen := BitVec.ofNat 32 (bitsOf v.toNat 32 32) }
  | 3 => { o with tqlba := v }
  | _ => o

/-- A word of the port registers of a die with no behaviour of its own written (R393). -/
def DieRegs.portWrite (d : DieRegs) (die i : Nat) (v : Word) : DieRegs :=
  match i with
  | 12 => { d with valid := v }
  | 13 => { d with fsid := BitVec.ofNat 16 v.toNat }
  | 14 => if die = 7 then { d with stsid := BitVec.ofNat 16 v.toNat } else d
  | 15 => if die = 0 then { d with wbase := BitVec.ofNat 39 (bitsOf v.toNat 17 39) } else d
  | _ => d

/-- A word of a queue pair written; SQTAIL is the doorbell's (R395). -/
def QPair.write (p : QPair) (i : Nat) (v : Word) : QPair :=
  match i with
  | 0 => { p with sqbase := BitVec.ofNat 56 v.toNat }
  | 1 => { p with cqbase := BitVec.ofNat 56 v.toNat }
  | 2 =>
    { p with
      depth := BitVec.ofNat 10 v.toNat, conn := BitVec.ofNat 3 (bitsOf v.toNat 10 3), qid := BitVec.ofNat 7 (bitsOf v.toNat 13 7)
      csel := BitVec.ofNat 32 (bitsOf v.toNat 32 32) }
  | 3 => { p with cqhead := BitVec.ofNat 16 (bitsOf v.toNat 16 16) }
  | _ => p

/-- The plain fields of the power word of a die (R407): the thresholds by the management core alone, PLIMIT on die 0 up to
2,400. -/
def DieRegs.powerWrite (d : DieRegs) (die core : Nat) (v : Word) : DieRegs :=
  let n := v.toNat
  let d := if core = 528 then { d with twarn := BitVec.ofNat 8 (bitsOf n 16 8), tcrit := BitVec.ofNat 8 (bitsOf n 24 8) } else d
  let d := { d with thys := BitVec.ofNat 4 (bitsOf n 32 4) }
  if die = 0 ∧ bitsOf n 36 12 ≤ 2400 then { d with plimit := BitVec.ofNat 12 (bitsOf n 36 12) } else d

/-- ACCESS_TABLE_WRITE: two entries written by the management core; any other write is discarded (R397). -/
def State.accessWrite (s : State) (x : CtxRef) (die off : Nat) (v : Word) : State :=
  if x.core ≠ 528 then s
  else
    let i := off / 4
    s.updDie die fun d =>
      { d with access := ⟨⟨(List.range 57).map fun k =>
          if k = i then BitVec.ofNat 32 v.toNat
          else if k = i + 1 then BitVec.ofNat 32 (bitsOf v.toNat 32 32)
          else d.access.toList.getD k 0#32⟩, by simp⟩ }

/-- REGISTER_WRITE: the fields of a register word that have no behaviour of their own (R355, R359). -/
def State.plainWrite (s : State) (x : CtxRef) (r : RegAddr) (v : Word) : State :=
  let i := r.off / 8
  match r.blk with
  | 0 => s.updDie r.die fun d => d.transWrite i v
  | 1 => s.updDie r.die fun d => d.clearWrite i v
  | 2 => if 0x40 ≤ r.off then s.bpWrite x r.off v else { s with obs := s.obs.plainWrite i v }
  | 3 => if 0x2000 ≤ r.off then s.updDie r.die fun d => { d with perf := alPut d.perf r.off (BitVec.ofNat 64 (v.toNat % 2 ^ 16)) } else s
  | 5 =>
    if 0x100 ≤ r.off then
      if r.die = 7 then
        let q := (r.off - 0x100) / 32
        { s with storage := { s.storage with qpairs := alPut s.storage.qpairs q ((s.qpair q).write (r.off % 32 / 8) v) } }
      else s
    else if i = 5 ∧ r.die = 0 then s.windowWrite x i v
    else s.updDie r.die fun d => d.portWrite r.die i v
  | 7 => if r.off = 0x80 then s.assignWrite r.die r.off v else s
  | 8 => if i = 0 then s.updDie r.die fun d => d.powerWrite r.die x.core v else s
  | _ => s

/-- A register written (R359): its plain fields, and those that have a behaviour of their own. -/
def State.regWrite (s : State) (x : CtxRef) (r : RegAddr) (v : Word) : State :=
  let i := r.off / 8
  let s := s.plainWrite x r v
  match r.blk with
  | 2 => if i = 7 then s.obsCommand x v else s
  | 3 => (s.perfCounterWrite r.die r.off v).perfConfigWrite r.die r.off v
  | 5 =>
    if 0x100 ≤ r.off then
      if r.die = 7 ∧ r.off % 32 = 24 then s.sqDoorbell ((r.off - 0x100) / 32) (BitVec.ofNat 64 (v.toNat % 2 ^ 16)) else s
    else if r.die = 0 ∧ (i = 2 ∨ i = 3) then s.windowWrite x i v
    else s.routeWrite r.die r.off v
  | 6 => s.accessWrite x r.die r.off v
  | 7 => if r.off < 0x80 then s.assignWrite r.die r.off v else s
  | 8 => if i = 0 then s.dbgWrite v else if i = 1 ∧ r.die = 0 then s.parkWrite x v else s
  | _ => s

/-! ### The host port (R389-R391) -/

/-- The master number of the host port (R397). -/
def hostMaster : Nat := 8

/-- One byte of a host posted write (R389): a ring byte goes to stack 0 from WBASE, a byte of the MSI-X table to the
table, PRESET is cleared where its bit is 1; any other is discarded. -/
def State.hostByte (s : State) (off : Nat) (b : Byte) : State :=
  if 0x10000 ≤ off ∧ off < 0x30000 then
    let a := (s.die 0).wbase.toNat * 2 ^ 17 + (off - 0x10000)
    if a < 2 ^ 36 ∧ s.physOk a ∧ s.mayHbm a hostMaster true false ∧ (s.pinHit a [b]).isNone then
      let s := s.note none false [sectorOf a]
      { s with store := s.store.put a [b] false }
    else s
  else if 0x80000 ≤ off ∧ off < 0x88000 then
    { s with host := { s.host with msixTable := cellPut s.host.msixTable (off - 0x80000) b } }
  else if off = 0x2A then { s with host := { s.host with preset := s.host.preset &&& ~~~b } }
  else s

/-- Bytes of a host posted write in rising order. -/
def State.hostBytes (s : State) (off : Nat) : List Byte → State
  | [] => s
  | b :: bs => (s.hostByte off b).hostBytes (off + 1) bs

/-- The lines of the rings that a host write covers whole and may write lose their poison (R397, R400). -/
def State.hostUnpoison (s : State) (off n : Nat) : State :=
  let base := (s.die 0).wbase.toNat * 2 ^ 17
  let whole := (List.range (n / 128 + 1)).map (fun i => (off + 127) / 128 + i)
  let lines := (whole.filter fun k => decide (128 * k + 128 ≤ off + n) && decide (512 ≤ k ∧ k < 1536)).map fun k => base / 128 + (k - 512)
  let open_ := lines.filter fun l => decide (128 * l < 2 ^ 36) && s.physOk (128 * l) && s.mayHbm (128 * l) hostMaster true false
  { s with store := { s.store with poison := s.store.poison.filter fun l => !open_.contains l } }

/-- One byte of BAR0 as a host read sees it (R389): the window registers, the rings, the MSI-X table, and 0 elsewhere; the
pending-bit array reads 0 (log 9). No byte is a Completer Abort: the read is denied (R397) or its line poisoned (R400, log
147). -/
def State.hostPeek (s : State) (off : Nat) : Option Byte :=
  if off < 0x30 then some (BitVec.ofNat 8 (bitsOf s.host.num (8 * off) 8))
  else if 0x10000 ≤ off ∧ off < 0x30000 then
    let a := (s.die 0).wbase.toNat * 2 ^ 17 + (off - 0x10000)
    if a < 2 ^ 36 ∧ s.physOk a ∧ s.mayHbm a hostMaster false false ∧ !s.store.poison.contains (a / 128) then
      some (cellGet s.store.mem a)
    else none
  else if 0x80000 ≤ off ∧ off < 0x88000 then some (cellGet s.host.msixTable (off - 0x80000))
  else some 0#8

/-- A host read of `n` bytes of BAR0 from an offset; none is a Completer Abort (R389, R397). -/
def State.hostRead (s : State) (off n : Nat) : Option (List Byte) := (List.range n).mapM fun i => s.hostPeek (off + i)

/-- HOST_RING_WRITE: a host posted write at an offset of BAR0 (R389). -/
def State.hostWrite (s : State) (off : Nat) (bs : List Byte) : State := (s.hostBytes off bs).hostUnpoison off bs.length

/-- HOST_DOORBELL: a host write of H2DTAIL, discarded below the current value or more than 512 above H2DHEAD; else applied,
a wake event for die 0 where it changes, and the end of standby and parking (R389-R391, R409). -/
def State.hostDoorbell (s : State) (v : Word) : State :=
  let h := s.host
  if v.toNat < h.h2dtail.toNat ∨ h.h2dhead.toNat + 512 < v.toNat then s
  else
    let s : State := { s with host := { h with h2dtail := v } }
    (if v = h.h2dtail then s else s.wakeDie 0).wakeAll

/-- D2HHEAD_WRITE: a host write of D2HHEAD, discarded below the current value or above D2HTAIL (R390). -/
def State.d2hheadWrite (s : State) (v : Word) : State :=
  let h := s.host
  if v.toNat < h.d2hhead.toNat ∨ h.d2htail.toNat < v.toNat then s else { s with host := { h with d2hhead := v } }

end Sys2Proof.Machine
end

