-- ==== Sys2Proof/Machine/Sv.lean ====
section
/-!
DEFINITION. The supervisor unit `sv` (21_spaces R354-R363).
-/

namespace Sys2Proof.Machine

/-! ### Launches (R358) -/

/-- A counter selector that must name a shared counter, with the SY_FORM of a bad one (R358, R363). -/
def State.sharedSel (s : State) (w : Word) : Bool := (s.sel s.cur w).shared

/-- `sv.launch` (R358): the record read under the context's SID at the access point and handed to the dispatch engines; in
standby there are no launches (R406). -/
def launchOp (a : Opnds) (s : State) : MoveR :=
  let sid := a.o.word.toNat
  let va := a.t.word.toNat
  if sid = 0 ∨ 2 ^ 16 ≤ sid ∨ va % 64 ≠ 0 then fault5 cSvForm 0
  else if !s.sharedSel a.p.word then fault5 cSyForm 0
  else
    match s.vetFor s.cur .record [[⟨va, 512, false⟩]] with
    | .ok s [p] =>
      let r := s.readSpan s.cur p
      .ok (if s.stby then r.1 else r.1.submit (BitVec.ofNat 16 sid) a.p.word.toNat s.cur.core r.2.1)
    | r => r.failed

/-- `sv.abort` (R358). -/
def abortOp (a : Opnds) (s : State) : MoveR := .ok (s.abort a.t.word.toNat)

/-! ### Registers (R355, R359) -/

/-- A register address checked: its form, then the access table of its die as it stood before the group (R363, R397, R413). -/
def withReg (w : Word) (write : Bool) (s : State) (k : RegAddr → MoveR) : MoveR :=
  match regAddr w with
  | none => fault5 cSvForm 0
  | some r =>
    if s.judged.mayAccess r.die (48 + r.blk) (s.master s.cur.core) write then k r else fault5 cPtPerm w.toNat

/-- `sv.srd` (R359). -/
def srdOp (a : Opnds) (s : State) : MoveR :=
  withReg a.t.word false s fun r =>
    .ok (s.landVar (.port .svq) 4 (.scalar (s.regRead r) a.tag a.taint) 0#6 7 0)

/-- `sv.swr` (R359, R381). -/
def swrOp (a : Opnds) (s : State) : MoveR :=
  match regAddr a.t.word with
  | none => fault5 cSvForm 0
  | some r =>
    if s.writeForm r a.o.word then fault5 cSvForm 0
    else withReg a.t.word true s fun r => .ok (s.regWrite s.cur r a.o.word)

/-- `sv.space` (R359). -/
def spaceOp (a : Opnds) (s : State) : MoveR :=
  if 2 ^ 16 ≤ a.t.word.toNat then fault5 cSvForm 0
  else .ok (s.landAt (.space (BitVec.ofNat 16 a.t.word.toNat)) (.sc SVal.zero))

/-! ### Walks (R345, R359, R360) -/

/-- The result of `sv.walk` at a leaf: physical address, DEV, and whether it is remote. -/
def walkOk (devid phys dev : Nat) : Word :=
  BitVec.ofNat 64 (phys % 2 ^ 39 + dev * 2 ^ 56 + if dev = devid then 0 else 2 ^ 62)

/-- The result of a failed `sv.walk`: cause and level. -/
def walkFail (cause lvl : Nat) : Word := BitVec.ofNat 64 (cause + lvl * 2 ^ 8 + 2 ^ 63)

/-- A walk that a context makes for itself: a leaf with its level and the addresses of the entries read, a fault with its
cause and level, or what it waits for. -/
inductive SelfWalk where
  | leaf (entry lvl : Nat) (read : List Nat)
  | fault (cause lvl : Nat)
  | migrating (lvl : Nat)
  | wait (b : Block)
  /-- an entry that an access table denies, and its level -/
  | denied (lvl : Nat)
  /-- a device without a valid route (R394), or a poisoned line read (R400) -/
  | reset
  deriving DecidableEq, Repr

/-- A walk under a SID by a context, with the continuation at another device (R345, R347). -/
def State.selfWalk (s : State) (x : CtxRef) (sid va : Nat) : SelfWalk :=
  if 2 ^ 55 ≤ va then .fault 0xC4 4
  else
    let w := s.walk (dieOf x.core) sid va
    let m := s.master x.core
    if s.walkDenied m w then .denied (4 - w.read.findIdx fun a => !s.mayHbm a m false false)
    else if s.walkPoison w then .reset
    else
    match w.ending with
    | .leaf => .leaf w.entry w.lvl w.read
    | .node => .fault 0xC4 w.lvl
    | .migrating => .migrating w.lvl
    | .remote =>
      match s.walkResp x (pteDev w.entry) va w.entry w.lvl with
      | some d =>
        let cause := leNat ((d.drop 9).take 1)
        let lvl := leNat ((d.drop 8).take 1)
        if cause = 0 then .leaf (leNat (d.take 8)) lvl w.read else .fault cause lvl
      | none =>
        if s.routed (dieOf x.core) (pteDev w.entry) then
          .wait (.remote (pteDev w.entry) va (some (BitVec.ofNat 64 w.entry, w.lvl)) sid 7 va)
        else .reset
/-- `sv.walk` (R359): a walk that neither waits on migration nor faults; SID 0 is the physical space (R348). An entry that the access
tables deny fails it with the cause of R397 (log 164). -/
def walkOp (a : Opnds) (s : State) : MoveR :=
  let sid := a.o.word.toNat
  let va := a.t.word.toNat
  let out (w : Word) : MoveR := .ok (s.landVar (.port .svq) 32 (.scalar w a.tag a.taint) 0#6 7 0)
  if 2 ^ 16 ≤ sid then fault5 cSvForm 0
  else if sid = 0 then out (if s.physOk va then walkOk s.devid va s.devid else walkFail 0xC4 4)
  else
    match s.selfWalk s.cur sid va with
    | .leaf e lvl _ => out (walkOk s.devid (pteFrame e + va % pageSize lvl) (pteDev e))
    | .fault c lvl => out (walkFail c lvl)
    | .migrating lvl => out (walkFail 0xC4 lvl)
    | .wait b => .block b
    | .denied lvl => out (walkFail 0xC5 lvl)
    | .reset => .reset

/-- `sv.ptmc` (R353, R360): the context waits for the ordering point; a pinned entry traps; else the context goes on. Where this device
is one of PODMASK the write is the issuer's, and the access tables may deny it (R397). -/
def ptmcOp (a : Opnds) (s : State) : MoveR :=
  let x := s.cur
  let addr := a.o.word.toNat
  let sel := a.p.word.toNat
  if addr % 8 ≠ 0 ∨ !s.physOk addr then fault5 cSvForm 0
  else if decide (s.sel x a.p.word = .bad) then fault5 cSyForm 0
  else
    let mine (p : Ptmc) : Bool :=
      p.x == x && p.open_ && decide (p.addr = addr) && p.value == a.t.word && decide (p.sel = sel)
    match s.ptmcs.find? mine with
    | none =>
      if (s.die (dieOf x.core)).podmask.getLsbD s.devid && !s.judged.mayHbm addr (s.master x.core) true false then fault5 cPtPerm addr
      else .block (.ptmc addr a.t.word sel)
    | some p =>
      if !p.decided then .block (.ptmc addr a.t.word sel)
      else if p.pinned then fault5 cPtPinned addr
      else .ok { s with ptmcs := s.ptmcs.map fun q => if q.id = p.id then { q with open_ := false } else q }

/-- `sv.tinv` (R359): the context waits until no translation of the space is cached. -/
def tinvOp (a : Opnds) (s : State) : MoveR :=
  let sid := a.t.word.toNat
  if 2 ^ 16 ≤ sid then fault5 cSvForm 0
  else .ok ({ s with tinv := numPut s.tinv sid } |>.setStatus s.cur (.blocked (.tinv sid)))

/-! ### Pins (R349, R360) -/

/-- The walks of some pages for `sv.pin`: the entries read, or what ends them. -/
def State.pinWalk (s : State) (x : CtxRef) (sid : Nat) : List Nat → Except MoveR (List Nat)
  | [] => .ok []
  | va :: rest =>
    match s.selfWalk x sid va with
    | .leaf _ _ rd => (s.pinWalk x sid rest).map fun l => rd ++ l
    | .fault _ _ => .error (fault5 cTranslationNode va)
    | .migrating _ =>
      .error (if (s.ctx x).walkExpired then fault5 cTranslationNode va else .block (.walk (dieOf x.core)))
    | .wait b => .error (.block b)
    | .denied _ => .error (fault5 cPtPerm va)
    | .reset => .error .reset

/-- The lowest free pin slot of the device (R360). -/
def State.freePin (s : State) : Option Nat :=
  (List.range Config.pinSlots).find? fun k => !s.pins.any fun p => decide (p.1 = k)

/-- `sv.pin` (R360). -/
def pinOp (a : Opnds) (s : State) : MoveR :=
  let base := a.o.word.toNat
  let len := a.t.word.toNat
  let sid := s.sidOf s.cur
  if len = 0 ∨ base = 0 ∨ base % 65536 ≠ 0 ∨ len % 65536 ≠ 0 ∨ 2 ^ 55 < base + len ∨ sid = 0 then fault5 cSvForm 0
  else
    match s.pinWalk s.cur sid ((List.range (len / 65536)).map fun i => base + 65536 * i) with
    | .error r => r
    | .ok es =>
      let out (s : State) (w : Word) : MoveR := .ok (s.landVar (.port .svq) 32 (.scalar w a.tag a.taint) 0#6 7 0)
      match s.freePin with
      | some k => out { s with pins := s.pins ++ [(k, es.eraseDups)] } (BitVec.ofNat 64 k)
      | none => out s (BitVec.allOnes 64)

/-- `sv.unpin` (R360): a number that is not a pin slot's has no effect. -/
def unpinOp (a : Opnds) (s : State) : MoveR :=
  if Config.pinSlots ≤ a.t.word.toNat then .ok s else .ok { s with pins := s.pins.filter fun p => p.1 != a.t.word.toNat }

/-! ### Faults and events (R361, R362) -/

/-- `sv.tfq` (R361). -/
def tfqOp (a : Opnds) (s : State) : MoveR :=
  let d := dieOf s.cur.core
  let n := (s.die d).faultq.length
  .ok ((s.popFault d).landVar (.port .svq) 4 (.scalar (BitVec.ofNat 64 n) a.tag a.taint) 0#6 7 0)

/-- `sv.tres` (R361). -/
def tresOp (a : Opnds) (s : State) : MoveR :=
  let tag := a.o.word.toNat
  if 1 < a.t.word.toNat then fault5 cSvForm 0
  else if 2 ^ 16 ≤ tag then .ok s
  else .ok (s.resolveFault (dieOf s.cur.core) (BitVec.ofNat 16 tag) (decide (a.t.word = 1#64)))

/-- `sv.tent` (R362). -/
def tentOp (a : Opnds) (s : State) : MoveR :=
  if a.t.word.toNat % 32 ≠ 0 then fault5 cSvForm 0 else .ok (s.landAt (.tent a.t.word) (.sc SVal.zero))

/-- `sv.eret` (R362): the handler ends with its group. -/
def eretOp (_ : Opnds) (s : State) : MoveR :=
  if !s.me.emu then fault5 cSvForm 0 else .ok (s.updCtx s.cur fun c => { c with eret := true })

/-- `sv.hirq` (R362, R391), through the host port of die 0 where the access table lets it (R397; log 114). -/
def hirqOp (a : Opnds) (s : State) : MoveR :=
  let n := a.t.word.toNat
  if 2047 < n then fault5 cSvForm 0
  else if !s.judged.mayAccess 0 44 (s.master s.cur.core) true then fault5 cPtPerm n
  else
    let s := s.performAll s.cur
    .ok { s with host := { s.host with msixSent := s.host.msixSent ++ [n] } }

/-- `sv.idle` (R362). -/
def idleOp (_ : Opnds) (s : State) : MoveR := .ok (s.setStatus s.cur (.blocked .idle))

/-! ### The trigger ports -/

/-- SV_LAUNCH (R358). -/
def execSvLaunch (a : Src) (g : Guard) (s : State) : Out := trigger .sv 0x2C2 .opt launchOp a g s

/-- SV_ABORT (R358). -/
def execSvAbort (a : Src) (g : Guard) (s : State) : Out := trigger .sv 0x2C3 .t abortOp a g s

/-- SV_SRD (R359). -/
def execSvSrd (a : Src) (g : Guard) (s : State) : Out := trigger .sv 0x2C4 .t srdOp a g s

/-- SV_SWR (R359). -/
def execSvSwr (a : Src) (g : Guard) (s : State) : Out := trigger .sv 0x2C5 .ot swrOp a g s

/-- SV_SPACE (R359). -/
def execSvSpace (a : Src) (g : Guard) (s : State) : Out := trigger .sv 0x2C6 .t spaceOp a g s

/-- SV_WALK (R359). -/
def execSvWalk (a : Src) (g : Guard) (s : State) : Out := trigger .sv 0x2C7 .ot walkOp a g s

/-- SV_PTMC (R360). -/
def execSvPtmc (a : Src) (g : Guard) (s : State) : Out := trigger .sv 0x2C8 .opt ptmcOp a g s

/-- SV_TINV (R359). -/
def execSvTinv (a : Src) (g : Guard) (s : State) : Out := trigger .sv 0x2C9 .t tinvOp a g s

/-- SV_PIN (R360). -/
def execSvPin (a : Src) (g : Guard) (s : State) : Out := trigger .sv 0x2CA .ot pinOp a g s

/-- SV_UNPIN (R360). -/
def execSvUnpin (a : Src) (g : Guard) (s : State) : Out := trigger .sv 0x2CB .t unpinOp a g s

/-- SV_TFQ (R361). -/
def execSvTfq (a : Src) (g : Guard) (s : State) : Out := trigger .sv 0x2CC .none_ tfqOp a g s

/-- SV_TRES (R361). -/
def execSvTres (a : Src) (g : Guard) (s : State) : Out := trigger .sv 0x2CD .ot tresOp a g s

/-- SV_TENT (R362). -/
def execSvTent (a : Src) (g : Guard) (s : State) : Out := trigger .sv 0x2CE .t tentOp a g s

/-- SV_ERET (R362). -/
def execSvEret (a : Src) (g : Guard) (s : State) : Out := trigger .sv 0x2CF .none_ eretOp a g s

/-- SV_HIRQ (R362). -/
def execSvHirq (a : Src) (g : Guard) (s : State) : Out := trigger .sv 0x2D0 .t hirqOp a g s

/-- SV_IDLE (R362). -/
def execSvIdle (a : Src) (g : Guard) (s : State) : Out := trigger .sv 0x2D1 .none_ idleOp a g s

end Sys2Proof.Machine
end

