-- ==== Sys2Proof/Machine/Events.lean ====
section
/-!
DEFINITION. The machine's own steps and the port events of 95_what_each_step_holds, one meaning for each row. An event
whose condition does not hold changes nothing (log 1); data outside the bounds of Instr.wf is a fault. What an event does
stands beside what it belongs to, in the files of its family; here are the ends of blocks (09_seq_control R205), the
landing of results (R77, R203), the core cycle (22_observation R370, R383, R384) and the arms' meanings.
-/

namespace Sys2Proof.Machine

/-! ### Results (R74, R77, R203) -/

/-- RESULT_LAND: the results of a context that are due land together (R74-R76, R135, R163); while one of them is late the core
freezes, and none lands before all are here (R77, R203). -/
def State.resultLand (s : State) (x : CtxRef) : State :=
  s.updCtx x fun c => if c.lateNow = [] then c.landDue else c

/-- Whether the data of a result come with an event of their own: another device's answer (R111), or the fill of a load-block that still
lacks a line (R89). -/
def State.awaitsMore (s : State) (core : Nat) (p : Pend) : Bool :=
  p.await.isSome || p.fill.any fun f => (s.ctx ⟨core, f.1⟩).blocks.any fun b => decide (b.base = f.2) && !b.filled

/-- What is late comes, but for what has an event of its own. -/
def State.arrive (s : State) (core : Nat) (p : Pend) : Pend :=
  if s.awaitsMore core p then p else { p with late := false, fill := none }

/-- LATE_RESULT_ARRIVE: the late data of a frozen core's running context comes, and its freeze line drops once all of it is here
(R77, R203, R372). -/
def State.lateArrive (s : State) (core : Nat) : State :=
  match s.frozenLate core with
  | none => s
  | some _ => s.dataCome core fun p => if p.left = 0 then s.arrive core p else p

/-! ### Blocks that end (R205) -/

/-- A context whose block has ended is ready. -/
def State.wakeIf (s : State) (x : CtxRef) (p : Block → Bool) : State :=
  match (s.ctx x).status with
  | .blocked b => if p b then s.setStatus x .ready else s
  | _ => s

/-- Whether a core frozen, gated or in reset holds its contexts (R203, R400, R409). -/
def State.standing (s : State) (n : Nat) : Bool :=
  (s.core n).freeze.isSome || (s.core n).gated || ((s.partOf n).any fun p => s.resetting.contains p)

/-- Whether a context has issued so many groups in a row that it yields to a ready sibling (R206). -/
def State.mustYield (s : State) (x : CtxRef) : Bool :=
  decide (Config.yieldGroups ≤ (s.ctx x).run) && decide ((s.ctx x).status = .ready) &&
    decide ((s.core x.core).running = some x.ctx) && !s.standing x.core

/-- IMPLICIT_YIELD: as if `sy.yield` had issued (R206). -/
def State.implicitYield (s : State) (x : CtxRef) : State := if s.mustYield x then s.yieldTo x else s

/-- ENGINE_QUEUE_SPACE (R78). -/
def State.queueSpace (s : State) (x : CtxRef) : State :=
  s.wakeIf x fun b =>
    match b with
    | .queue u => !queueFull ((s.core x.core).queue u)
    | _ => false

/-- Whether a hold on some ranges read and written stands (R98). -/
def State.holdStands (s : State) (core : Nat) (rd wr : List Range) : Bool :=
  (s.core core).held.any fun c =>
    (rd ++ wr).any (fun r => piecesMeet c.writes [r]) || wr.any fun r => piecesMeet c.reads [r]

/-- RANGE_HOLD_RELEASE (R98). -/
def State.holdRelease (s : State) (x : CtxRef) : State :=
  s.wakeIf x fun b =>
    match b with
    | .hold rd wr => !s.holdStands x.core rd wr
    | _ => false

/-- WAIT_SATISFIED: the counter has reached the threshold; or it never can, and the group issues to trap (R195, R196). -/
def State.waitSatisfied (s : State) (x : CtxRef) : State :=
  s.wakeIf x fun b =>
    match b with
    | .wait w n => decide (s.waitR x (s.sel x w) n ≠ .blocked)
    | _ => false

/-- FENCE_COMPLETE (R119). -/
def State.fenceComplete (s : State) (x : CtxRef) : State :=
  s.wakeIf x fun b =>
    match b with
    | .fence scope => s.fenceDone x scope
    | _ => false

/-- A sibling that has stopped being ready is no longer waited for (R199). -/
def State.stillReady (s : State) (core : Nat) (l : List Nat) : List Nat :=
  l.filter fun k => decide ((s.ctx ⟨core, k⟩).status = .ready)

/-- YIELD_RELEASE: every sibling waited for has issued, or has stopped being ready (R199). -/
def State.yieldRelease (s : State) (x : CtxRef) : State :=
  s.wakeIf x fun b =>
    match b with
    | .yield l => decide (s.stillReady x.core l = [])
    | _ => false

/-- FE_WAIT_SERVED: the line is in the state waited for and the context's turn has come (R99, R121, R173). -/
def State.feServed (s : State) (x : CtxRef) : State :=
  s.wakeIf x fun b =>
    match b with
    | .fe line full => s.feTurn x line full
    | _ => false

/-- VERSION_SLOT_FREE: the stalled group is issued again, and stalls again where there is still no room (R90, R318). -/
def State.versionFree (s : State) (x : CtxRef) : State := s.wakeIf x fun b => decide (b = .version)

/-- Whether at most `n` batches of a context are outstanding: `cp.waitb` has closed the open one (R300). -/
def State.batchesDone (s : State) (x : CtxRef) (n : Nat) : Bool := decide (markers (s.core x.core).cpq x.ctx ≤ n)

/-- CP_WAITB_SATISFIED (R300). -/
def State.waitbDone (s : State) (x : CtxRef) : State :=
  s.wakeIf x fun b =>
    match b with
    | .waitb n => s.batchesDone x n
    | _ => false

/-- MX_DRAIN_COMPLETE (R290). -/
def State.drainDone (s : State) (x : CtxRef) : State :=
  s.wakeIf x fun b => decide (b = .mxDrain) && !(s.core x.core).mxq.any fun c => decide (c.ctx = x.ctx)

/-- MS_FENCE_COMPLETE (R333). -/
def State.msFenceDone (s : State) (x : CtxRef) : State :=
  s.wakeIf x fun b => decide (b = .msFence) && s.msSettled x

/-- TINV_COMPLETE: no translation of the space is cached any more (R359). -/
def State.tinvDone (s : State) (x : CtxRef) : State :=
  match (s.ctx x).status with
  | .blocked (.tinv sid) => ({ s with tinv := s.tinv.filter fun k => k != sid } : State).setStatus x .ready
  | _ => s

/-- IDLE_WAKE: a wake event of the die has come since the context's previous `sv.idle` (R362). -/
def State.idleWake (s : State) (x : CtxRef) : State :=
  match (s.ctx x).status with
  | .blocked .idle => if (s.ctx x).wake then s.updCtx x fun c => { c with status := .ready, wake := false } else s
  | _ => s

/-! ### Walks that wait on migration (R345) -/

/-- A context's wait on a walk over, whether or not its bound has passed. -/
def Ctx.walkDone (expired : Bool) (c : Ctx) : Ctx :=
  let c := { c with walkExpired := expired }
  match c.status with
  | .blocked (.walk _) => { c with status := .ready }
  | .stopped w (some (.walk _)) => { c with status := .stopped w none }
  | _ => c

/-- A waiting walk taken from the list: a context goes on, and an engine or a port finds it gone. -/
def State.walkOver (s : State) (w : WalkWait) (expired : Bool) : State :=
  let gone : State := { s with walks := s.walks.filter fun v => v.id != w.id }
  if w.x.core < 529 then gone.updCtx w.x (Ctx.walkDone expired)
  else if expired then { s with walks := s.walks.map fun v => if v.id = w.id then { v with expired := true } else v }
  else gone

/-- WALK_RESTART: the migration counter has passed the value sampled, and the walk is made again (R345). -/
def State.walkRestart (s : State) (id : Nat) : State :=
  match s.walks.find? fun w => decide (w.id = id) with
  | none => s
  | some w => if w.sample.toNat + 1 ≤ (s.migCounter w.die).toNat then s.walkOver w false else s

/-- WALK_MIGRATION_TIMEOUT: the bound of R345 has passed, and the walk meets the entry as one that is not there. -/
def State.walkTimeout (s : State) (id : Nat) : State :=
  match s.walks.find? fun w => decide (w.id = id) && !w.expired with
  | none => s
  | some w => if w.since + Config.migrationBound ≤ s.timebase.toNat then s.walkOver w true else s

/-! ### The core cycle (R370, R382-R384) -/

/-- STATW of a core's die divided among its resident contexts, the remainder to the lowest-numbered (R384). -/
def State.staticEnergy (s : State) (n : Nat) : State :=
  let w := ((s.die (dieOf n)).perfWord 0x2060).toNat % 2 ^ 16
  let res := (List.range 4).filter fun k => (s.ctx ⟨n, k⟩).react.isSome
  match res with
  | [] => s
  | low :: _ =>
    let share := w / res.length
    let rest := w % res.length
    res.foldl (fun (s : State) k => s.updCtx ⟨n, k⟩ fun c =>
      { c with nrg := nrgAdd c.nrg (share + if k = low then rest else 0) }) s

/-- Whether a status is a block that counts as a blocked cycle: waits that freeze the core do not (R205, R382). -/
def Status.countsBlocked : Status → Bool
  | .blocked (.tiles _ _ _) => false
  | .blocked (.remote _ _ _ _ _ _) => false
  | .blocked _ => true
  | _ => false

/-- The cycle events of a core: one in which its running context is frozen, and one for each blocked context (R382). -/
def State.cycleEvents (s : State) (n : Nat) : State :=
  let s := match (s.core n).freeze, (s.core n).running with
    | some _, some k => s.event ⟨n, k⟩ 0x03 1
    | _, _ => s
  (List.range 4).foldl (fun (s : State) k =>
    if (s.ctx ⟨n, k⟩).status.countsBlocked then s.event ⟨n, k⟩ 0x04 1 else s) s


/-- What the performance counters of a die keep about one core cycle, done with (R383). -/
def DieRegs.newCycle (d : DieRegs) : DieRegs := { d with perfCounted := [], perfWritten := [], perfOldCfg := [] }

/-- The agents that act in the core cycle that begins, in their order (log 1): each core makes ready and puts its contexts' turns behind
those of the cores and of the choices that a core cycle in 4,096 brings, so that a choice finds what the cycle began with (R239); then
what retires, the checks of launches and the instants enqueued, the engines of the dies, the actions at group boundaries, and the
package. -/
def State.agents (s : State) : List Nat :=
  let choices := if s.launches = [] ∨ (s.timebase + 1#64).toNat % 4096 ≠ 0 then [] else [1200]
  s.cores.map Prod.fst ++ choices ++
    (if s.launches = [] then [4000] else 4000 :: 1100 :: ((List.range 8).map fun d => 1000 + d) ++ [1900]) ++ [2000]

/-- CORE_CYCLE: cycle events and static energy of every core outside a halt, then the timebase moves on, and what was kept about
the cycle is done with (R16, R235, R238, R370, R384, R407). -/
def State.coreCycle (s : State) : State :=
  let run := (s.cores.map Prod.fst).filter fun n => !s.coreHalted n
  let s := run.foldl (fun (s : State) n => (s.cycleEvents n).staticEnergy n) s
  { s with
    regs := ⟨⟨(List.range 8).map fun d => (s.die d).newCycle⟩, by simp⟩
    timebase := s.timebase + 1#64
    ctrOld := [], clearedNow := [], took := [], chose := [], stepped := []
    turn := s.agents }

/-! ### The meanings -/

/-- RESULT_LAND (R74). -/
def execResultLand (x : CtxRef) (s : State) : Out := event x.wf (s.resultLand x)

/-- LATE_RESULT_ARRIVE (R203). -/
def execLateResultArrive (core : Nat) (s : State) : Out := event (decide (core < 529)) (s.lateArrive core)

/-- IMPLICIT_YIELD (R206). -/
def execImplicitYield (x : CtxRef) (s : State) : Out := event x.wf (s.implicitYield x)

/-- ENGINE_QUEUE_SPACE (R78). -/
def execEngineQueueSpace (x : CtxRef) (s : State) : Out := event x.wf (s.queueSpace x)

/-- RANGE_HOLD_RELEASE (R98). -/
def execRangeHoldRelease (x : CtxRef) (s : State) : Out := event x.wf (s.holdRelease x)

/-- WAIT_SATISFIED (R195). -/
def execWaitSatisfied (x : CtxRef) (s : State) : Out := event x.wf (s.waitSatisfied x)

/-- FENCE_COMPLETE (R119). -/
def execFenceComplete (x : CtxRef) (s : State) : Out := event x.wf (s.fenceComplete x)

/-- YIELD_RELEASE (R199). -/
def execYieldRelease (x : CtxRef) (s : State) : Out := event x.wf (s.yieldRelease x)

/-- FE_WAIT_SERVED (R99). -/
def execFeWaitServed (x : CtxRef) (s : State) : Out := event x.wf (s.feServed x)

/-- VERSION_SLOT_FREE (R90). -/
def execVersionSlotFree (x : CtxRef) (s : State) : Out := event x.wf (s.versionFree x)

/-- CP_WAITB_SATISFIED (R300). -/
def execCpWaitbSatisfied (x : CtxRef) (s : State) : Out := event x.wf (s.waitbDone x)

/-- MX_DRAIN_COMPLETE (R290). -/
def execMxDrainComplete (x : CtxRef) (s : State) : Out := event x.wf (s.drainDone x)

/-- MS_FENCE_COMPLETE (R333). -/
def execMsFenceComplete (x : CtxRef) (s : State) : Out := event x.wf (s.msFenceDone x)

/-- COUNTER_ADD_APPLY (R116). -/
def execCounterAddApply (x : CtxRef) (s : State) : Out := event x.wf (s.applyHeld x ((s.core x.core).adds.length + 1))

/-- TEND_RETIRE (R198). -/
def execTendRetire (x : CtxRef) (s : State) : Out := event x.wf (s.tendRetire x)

/-- LOAD_BLOCK_FILLED (R174). -/
def execLoadBlockFilled (x : CtxRef) (base : Nat) (s : State) : Out := event x.wf (s.blockFilled x base)

/-- MX_COMMAND_START (R278). -/
def execMxCommandStart (core : Nat) (s : State) : Out := event (decide (core < 529)) (s.mxStart core)

/-- MX_COMMAND_COMPLETE (R279). -/
def execMxCommandComplete (core : Nat) (array : Bool) (s : State) : Out :=
  event (decide (core < 529)) (s.mxComplete core array)

/-- CP_COMMAND_START (R296). -/
def execCpCommandStart (core : Nat) (s : State) : Out := event (decide (core < 529)) (s.cpStart core)

/-- CP_COMMAND_COMPLETE (R298). -/
def execCpCommandComplete (core k : Nat) (s : State) : Out := event (decide (core < 529)) (s.cpComplete core k)

/-- CLOSE_MARKER_RETIRE (R299). -/
def execCloseMarkerRetire (core k : Nat) (s : State) : Out := event (decide (core < 529)) (s.markerRetire core k)

/-- MS_OP_ARRIVE (R329). -/
def execMsOpArrive (core k : Nat) (s : State) : Out :=
  event (decide (core < 529)) (s.msArrive core k [0x2A2, 0x2A3, 0x2A4, 0x2A5, 0x2A6])

/-- MS_RED_COMPLETE (R332). -/
def execMsRedComplete (core k : Nat) (s : State) : Out := event (decide (core < 529)) (s.msArrive core k [0x2A9])

/-- MS_MARK_FIRE (R333). -/
def execMsMarkFire (core k : Nat) (s : State) : Out := event (decide (core < 529)) (s.msArrive core k [0x2AB])

/-- LAUNCH_CHECK (R230). -/
def execLaunchCheck (lid : Nat) (s : State) : Out := event true (s.launchCheck lid)

/-- INSTANT_ENQUEUE (R233). -/
def execInstantEnqueue (lid : Nat) (s : State) : Out := event true (s.instantEnqueue lid)

/-- TICKET_TAKE (R235). -/
def execTicketTake (core : Nat) (s : State) : Out := event (decide (core < 529)) (s.ticketTake core)

/-- TOKEN_GAIN (R234). -/
def execTokenGain (r : ReactId) (s : State) : Out := event r.wf (s.tokenGain r)

/-- PREEMPT_CHOICE (R238). -/
def execPreemptChoice (die : Nat) (s : State) : Out := event (decide (die < 8)) (s.preemptChoice die)

/-- KILL (R240). -/
def execKill (r : ReactId) (s : State) : Out := event r.wf (s.kill r)

/-- CHECKPOINT (R240). -/
def execCheckpoint (r : ReactId) (s : State) : Out := event r.wf (s.checkpoint r)

/-- CLEAR_INSTANT (R319). -/
def execClearInstant (lid : Nat) (s : State) : Out := event true (s.clearInstant lid)

/-- VERSION_MERGE (R315). -/
def execVersionMerge (line lid inst : Nat) (s : State) : Out := event true (s.versionMerge line lid inst)

/-- SET_ACQUIRE (R323). -/
def execSetAcquire (x : CtxRef) (s : State) : Out := event x.wf (s.setAcquire x)

/-- WALK_RESTART (R345). -/
def execWalkRestart (w : Nat) (s : State) : Out := event true (s.walkRestart w)

/-- WALK_MIGRATION_TIMEOUT (R345). -/
def execWalkMigrationTimeout (w : Nat) (s : State) : Out := event true (s.walkTimeout w)

/-- PTMC_ORDERED (R353). -/
def execPtmcOrdered (id : Nat) (s : State) : Out := event true (s.ptmcOrdered id)

/-- PTMC_COMPLETE (R353). -/
def execPtmcComplete (id : Nat) (s : State) : Out := event true (s.ptmcComplete id)

/-- TINV_COMPLETE (R359). -/
def execTinvComplete (x : CtxRef) (s : State) : Out := event x.wf (s.tinvDone x)

/-- IDLE_WAKE (R362). -/
def execIdleWake (x : CtxRef) (s : State) : Out := event x.wf (s.idleWake x)

/-- FLUSH (R379). -/
def execFlush (x : CtxRef) (s : State) : Out := event x.wf (s.seal)

/-- HALTREQ (R376). -/
def execHaltreq (x : CtxRef) (s : State) : Out := event x.wf (s.haltreq x)

/-- RESUME (R376). -/
def execResume (x : CtxRef) (s : State) : Out := event x.wf (s.resume x)

/-- STEP (R376). -/
def execStep (x y : CtxRef) (s : State) : Out := event (x.wf && y.wf) (s.stepCtx x y)

/-- SEGMENT_SEAL_TIMER (R379). -/
def execSegmentSealTimer (s : State) : Out := event true (s.sealTimer)

/-- SEGMENT_WRITE (R380). -/
def execSegmentWrite (s : State) : Out := event true (s.segmentWrite)

/-- PERF_COUNTER_WRITE (R383). -/
def execPerfCounterWrite (x : CtxRef) (die off : Nat) (v : Word) (s : State) : Out :=
  event (x.wf && decide (die < 8)) (s.perfCounterWrite die off v)

/-- PERF_CONFIG_WRITE (R383). -/
def execPerfConfigWrite (x : CtxRef) (die off : Nat) (v : Word) (s : State) : Out :=
  event (x.wf && decide (die < 8)) (s.perfConfigWrite die off v)

/-- REGISTER_WRITE (R355). -/
def execRegisterWrite (x : CtxRef) (addr v : Word) (s : State) : Out :=
  event x.wf ((match regAddr addr with
    | some r => s.plainWrite x r v
    | none => s))

/-- HOST_RING_WRITE (R389). -/
def execHostRingWrite (off : Nat) (data : List Byte) (s : State) : Out :=
  event (decide (off + data.length ≤ 0x100000)) (s.hostWrite off data)

/-- HOST_DOORBELL (R391). -/
def execHostDoorbell (v : Word) (s : State) : Out := event true (s.hostDoorbell v)

/-- D2HHEAD_WRITE (R390). -/
def execD2hheadWrite (v : Word) (s : State) : Out := event true (s.d2hheadWrite v)

/-- D2HTAIL_WRITE (R391). -/
def execD2htailWrite (x : CtxRef) (v : Word) (s : State) : Out := event x.wf (s.d2htailWrite x v)

/-- H2DHEAD_WRITE (R390). -/
def execH2dheadWrite (x : CtxRef) (v : Word) (s : State) : Out := event x.wf (s.h2dheadWrite v)

/-- ROUTE_WRITE (R393). -/
def execRouteWrite (x : CtxRef) (die off : Nat) (v : Word) (s : State) : Out :=
  event (x.wf && decide (die < 8)) (s.routeWrite die off v)

/-- FLIT_STORE (R110). -/
def execFlitStore (link : Nat) (f : Flit) (s : State) : Out :=
  event (f.wf link fun k => k == 0x1#4) (s.accept link f fun s => s.flitStore (linkDie link) f)

/-- FLIT_LOAD_REQUEST (R111). -/
def execFlitLoadRequest (link : Nat) (f : Flit) (s : State) : Out :=
  event (f.wf link fun k => k == 0x2#4) (s.accept link f fun s => s.flitLoad (linkDie link) f)

/-- FLIT_LOAD_RESPONSE (R111). -/
def execFlitLoadResponse (link : Nat) (f : Flit) (s : State) : Out :=
  event (f.wf link fun k => k == 0x3#4) (s.accept link f fun s => s.flitResponse f)

/-- FLIT_COUNTER_ADD (R112). -/
def execFlitCounterAdd (link : Nat) (f : Flit) (s : State) : Out :=
  event (f.wf link fun k => k == 0x4#4) (s.accept link f fun s => s.flitAdd (linkDie link) f)

/-- FLIT_TABLE_MULTICAST (R353). -/
def execFlitTableMulticast (link : Nat) (f : Flit) (s : State) : Out :=
  event (f.wf link fun k => k == 0x5#4) (s.accept link f fun s => s.flitTable (linkDie link) f)

/-- FLIT_CLEARING_MESSAGE (R114). -/
def execFlitClearingMessage (link : Nat) (f : Flit) (m : ClearMsg) (s : State) : Out :=
  event (f.wf link fun k => k == 0x6#4) (s.accept link f fun s => s.flitClearing m)

/-- FLIT_LEASE_VERSION_MESSAGE (R114). -/
def execFlitLeaseVersionMessage (link : Nat) (f : Flit) (m : LeaseMsg) (s : State) : Out :=
  event (f.wf link fun k => k == 0x7#4) (s.accept link f fun s => s.flitLease (linkDie link) f m)

/-- FLIT_CREDIT (R392). -/
def execFlitCredit (link : Nat) (f : Flit) (s : State) : Out :=
  event (f.wf link fun k => k == 0x8#4) (s.accept link f fun s => s.flitCredit link)

/-- FLIT_WALK_CONTINUATION (R347). -/
def execFlitWalkContinuation (link : Nat) (f : Flit) (s : State) : Out :=
  event (f.wf link fun k => k == 0x9#4) (s.accept link f fun s => s.flitWalk (linkDie link) f)

/-- FLIT_UNKNOWN (R392). -/
def execFlitUnknown (link : Nat) (f : Flit) (s : State) : Out :=
  event (f.wf link fun k => k == 0#4 || decide (9 < k.toNat)) (s.flitUnknown link)

/-- FLIT_CRC_FAIL (R392). -/
def execFlitCrcFail (link : Nat) (s : State) : Out := event (decide (link < 16)) (s.crcFail link)

/-- STORAGE_SQ_DOORBELL (R395). -/
def execStorageSqDoorbell (x : CtxRef) (q : Nat) (tail : Word) (s : State) : Out :=
  event (x.wf && decide (q < 520)) (s.sqDoorbell q tail)

/-- FABRICS_CONNECT (R395). -/
def execFabricsConnect (q : Nat) (s : State) : Out := event (decide (q < 520)) (s.awake fun s => s.sendOut q .connect)

/-- PROPERTY_GET (R395). -/
def execPropertyGet (q : Nat) (s : State) : Out := event (decide (q < 520)) (s.awake fun s => s.sendPlain q .propGet)

/-- PROPERTY_SET (R395). -/
def execPropertySet (q : Nat) (s : State) : Out := event (decide (q < 520)) (s.awake fun s => s.sendPlain q .propSet)

/-- IDENTIFY (R395). -/
def execIdentify (q : Nat) (s : State) : Out := event (decide (q < 520)) (s.awake fun s => s.sendIn q .identify)

/-- GET_LOG_PAGE (R395). -/
def execGetLogPage (q : Nat) (s : State) : Out := event (decide (q < 520)) (s.awake fun s => s.sendIn q .getLog)

/-- KEEP_ALIVE (R395). -/
def execKeepAlive (q : Nat) (s : State) : Out := event (decide (q < 520)) (s.awake fun s => s.sendPlain q .keepAlive)

/-- NVME_READ (R395). -/
def execNvmeRead (q : Nat) (data : List Byte) (s : State) : Out := event (decide (q < 520)) (s.awake fun s => s.nvmeRead q data)

/-- NVME_WRITE (R395). -/
def execNvmeWrite (q : Nat) (s : State) : Out := event (decide (q < 520)) (s.awake fun s => s.sendOut q .write)

/-- NVME_FLUSH (R395). -/
def execNvmeFlush (q : Nat) (s : State) : Out := event (decide (q < 520)) (s.awake fun s => s.sendPlain q .flush)

/-- INVALID_COMMAND_OPCODE (R395). -/
def execInvalidCommandOpcode (q : Nat) (s : State) : Out := event (decide (q < 520)) (s.awake fun s => s.invalidOpcode q)

/-- NVME_COMPLETION (R395). -/
def execNvmeCompletion (q : Nat) (entry : List Byte) (s : State) : Out :=
  event (decide (q < 520) && decide (entry.length = 16)) (s.awake fun s => s.nvmeComplete q entry)

/-- KEEP_ALIVE_TIMER (R377). -/
def execKeepAliveTimer (conn : Nat) (s : State) : Out := event (decide (conn < 8)) (s.awake fun s => s.keepAliveTimer conn)

/-- ROCE_PACKET (R377). -/
def execRocePacket (q : Nat) (psn : BitVec 24) (good : Bool) (s : State) : Out :=
  event (decide (q < 521)) (s.awake fun s => s.rocePacket q psn good)

/-- PFC_PAUSE (R377). -/
def execPfcPause (conn : Nat) (pause : Bool) (s : State) : Out := event (decide (conn < 8)) (s.awake fun s => s.pfcPause conn pause)

/-- REDFISH_GET (R396). -/
def execRedfishGet (res : RedfishRes) (s : State) : Out := event true (s.redfishGet res)

/-- UPDATE_SERVICE (R387). -/
def execUpdateService (img : UpdateObj) (s : State) : Out := event true (s.updateService img)

/-- DEVICE_ID_SETTING (R388). -/
def execDeviceIdSetting (v : Nat) (s : State) : Out := event (decide (v < 64)) (s.deviceIdSetting v)

/-- PROVISION (R405). -/
def execProvision (o : SignedObj) (s : State) : Out := event true (s.provision o)

/-- REVOKE (R405). -/
def execRevoke (o : SignedObj) (s : State) : Out := event true (s.revoke o)

/-- DEBUG_UNLOCK (R405). -/
def execDebugUnlock (o : SignedObj) (s : State) : Out := event true (s.debugUnlock o)

/-- GET_VERSION (R396). -/
def execGetVersion (s : State) : Out := event true (s.spdmServed 0x04)

/-- GET_CAPABILITIES (R396). -/
def execGetCapabilities (s : State) : Out := event true (s.spdmServed 0x61)

/-- NEGOTIATE_ALGORITHMS (R396). -/
def execNegotiateAlgorithms (s : State) : Out := event true (s.spdmServed 0x63)

/-- GET_DIGESTS (R396). -/
def execGetDigests (s : State) : Out := event true (s.spdmServed 0x01)

/-- GET_CERTIFICATE (R396). -/
def execGetCertificate (s : State) : Out := event true (s.spdmServed 0x02)

/-- CHALLENGE (R406). -/
def execChallenge (_nonce : List Byte) (s : State) : Out := event true (s.challenge)

/-- GET_MEASUREMENTS (R406). -/
def execGetMeasurements (idx : Nat) (_nonce : List Byte) (s : State) : Out :=
  event (decide (1 ≤ idx ∧ idx ≤ 3)) (s.getMeasurements idx)

/-- UNSUPPORTED_REQUEST (R396). -/
def execUnsupportedRequest (_code : Byte) (s : State) : Out := event true (s.spdmUnsupported)

/-- PACKAGE_RESET (R402). -/
def execPackageReset (s : State) : Out := event true (s.packageReset)

/-- SRAM_SINGLE_BIT_ERROR (R401). -/
def execSramSingleBitError (die : Nat) (s : State) : Out := event (decide (die < 8)) (s.sramSingle die)

/-- SRAM_DOUBLE_BIT_ERROR (R401). -/
def execSramDoubleBitError (die : Nat) (p : SramPlace) (s : State) : Out :=
  event (decide (die < 8) && p.wf) (s.sramDouble die p)

/-- HBM_UNCORRECTABLE_ERROR (R400). -/
def execHbmUncorrectableError (stack off : Nat) (s : State) : Out := event (decide (stack < 8)) (s.hbmError stack off)

/-- SCRUB_READ (R401). -/
def execScrubRead (s : State) : Out := event true (s.scrubRead)

/-- THROTTLE_STEP_UPDATE (R407). -/
def execThrottleStepUpdate (die : Nat) (temp : Byte) (power : Nat) (s : State) : Out :=
  event (decide (die < 8)) (s.throttle die temp power)

/-- THERMAL_CRITICAL (R407). -/
def execThermalCritical (die : Nat) (temp : Byte) (s : State) : Out := event (decide (die < 8)) (s.thermal die temp)

/-- DBG_WRITE (R404). -/
def execDbgWrite (x : CtxRef) (die : Nat) (v : Word) (s : State) : Out :=
  event (x.wf && decide (die < 8)) (s.dbgWrite v)

/-- PARTITION_ASSIGN_WRITE (R399). -/
def execPartitionAssignWrite (x : CtxRef) (die off : Nat) (v : Word) (s : State) : Out :=
  event (x.wf && decide (die < 8)) (s.assignWrite die off v)

/-- ACCESS_TABLE_WRITE (R397). -/
def execAccessTableWrite (x : CtxRef) (die off : Nat) (v : Word) (s : State) : Out :=
  event (x.wf && decide (die < 8)) (s.accessWrite x die off v)

/-- PARTITION_PARK (R409). -/
def execPartitionPark (x : CtxRef) (p : Nat) (s : State) : Out := event (x.wf && decide (p < 8)) (s.parkPartition x p)

/-- PARTITION_UNPARK (R409). -/
def execPartitionUnpark (x : CtxRef) (p : Nat) (s : State) : Out :=
  event (x.wf && decide (p < 8)) (s.unparkPartition x p)

/-- STANDBY_ENTER (R409). -/
def execStandbyEnter (x : CtxRef) (s : State) : Out := event x.wf (s.standbyEnter x)

/-- STANDBY_EXIT (R409). -/
def execStandbyExit (x : CtxRef) (s : State) : Out := event x.wf (s.standbyExit x)

/-- PARK_GATE (R409). -/
def execParkGate (core : Nat) (s : State) : Out := event (decide (core < 529)) (s.parkGate core)

/-- RETURN_TO_ACTIVE (R409). -/
def execReturnToActive (s : State) : Out := event true (s.returnToActive)

/-- CORE_CYCLE (R384). -/
def execCoreCycle (s : State) : Out := event true (s.coreCycle)

/-- MANAGEMENT_REQUEST_WAKE (R409). -/
def execManagementRequestWake (p : Nat) (s : State) : Out := event (decide (p < 8)) (s.managementWake p)

/-- PARTITION_RESET_COMPLETE (R400). -/
def execPartitionResetComplete (p : Nat) (s : State) : Out := event (decide (p < 8)) (s.resetComplete p)

end Sys2Proof.Machine
end

