-- ==== Sys2Proof/Machine/Move.lean ====
section
/-!
DEFINITION. The plain move (03_bundles R67, R70, R71, R183): value, tag and taint copied to a register, a latch or, in
supervisor mode, a clock register.
-/

namespace Sys2Proof.Machine

/-- A value as a vector register holds it: a scalar fills every lane with its bits 31:0 (R71). -/
def Value.toVVal (v : Value) : VVal := ⟨v.lanes, v.tag, v.taint⟩

/-- A value as a general register holds it; a vector is turned away before (R71). -/
def Value.toSVal (v : Value) : SVal := ⟨v.word, v.tag, v.taint⟩

/-- A destination written (R67): `g0`, `k0` and `k15` discard. -/
def Ctx.moveTo (c : Ctx) (d : Dst) (v : Value) : Ctx :=
  match d with
  | .g n => if n = 0 then c else { c with g := c.g.set n v.toSVal }
  | .v n => { c with v := c.v.set n v.toVVal }
  | .k n => c.defClock n.val (v.word.getLsbD 0)
  | .o u => { c with lo := c.lo.set (unitIdx u) v }
  | .p u => { c with lp := c.lp.set (unitIdx u) v }

/-- MOVE (R71): no clock or presence check; the class 1 checks of R67, R69 and R71 whatever the guard. -/
def execMove (a : Src) (d : Dst) (g : Guard) (s : State) : Out :=
  let c := s.me
  let v := c.src s.issue.limm a
  let m := slotOf a d.code g
  match modeCheck s.sup a d.code v with
  | some cause => finish s m (.trap cause 1 0)
  | none => finish s m (.ok (if c.guard g then s.updCtx s.cur fun c => c.moveTo d v else s))

end Sys2Proof.Machine
end

