-- ==== Sys2Proof/Machine/Dispatch.lean ====
section
/-!
DEFINITION. The dispatch of every instruction to its meaning: one arm per constructor of Instr, one direct call each.
-/

namespace Sys2Proof.Machine

def exec (i : Instr) (s : State) : Host.Outcome State Fault Refusal :=
  match i with
  | .move a d g => Sys2Proof.Machine.execMove a d g s
  | .x0Add a g => Sys2Proof.Machine.execX0Add a g s
  | .x0Sub a g => Sys2Proof.Machine.execX0Sub a g s
  | .x0And a g => Sys2Proof.Machine.execX0And a g s
  | .x0Or a g => Sys2Proof.Machine.execX0Or a g s
  | .x0Xor a g => Sys2Proof.Machine.execX0Xor a g s
  | .x0Shl a g => Sys2Proof.Machine.execX0Shl a g s
  | .x0Shr a g => Sys2Proof.Machine.execX0Shr a g s
  | .x0Sar a g => Sys2Proof.Machine.execX0Sar a g s
  | .x0Ror a g => Sys2Proof.Machine.execX0Ror a g s
  | .x0Ceq a g => Sys2Proof.Machine.execX0Ceq a g s
  | .x0CltS64 a g => Sys2Proof.Machine.execX0CltS64 a g s
  | .x0CltN64 a g => Sys2Proof.Machine.execX0CltN64 a g s
  | .x0Sel a g => Sys2Proof.Machine.execX0Sel a g s
  | .x0MinS64 a g => Sys2Proof.Machine.execX0MinS64 a g s
  | .x0MaxS64 a g => Sys2Proof.Machine.execX0MaxS64 a g s
  | .x0Clz a g => Sys2Proof.Machine.execX0Clz a g s
  | .x0Popc a g => Sys2Proof.Machine.execX0Popc a g s
  | .x0Bfx a g => Sys2Proof.Machine.execX0Bfx a g s
  | .x0Sxt a g => Sys2Proof.Machine.execX0Sxt a g s
  | .x0Mul a g => Sys2Proof.Machine.execX0Mul a g s
  | .x0MulhS64 a g => Sys2Proof.Machine.execX0MulhS64 a g s
  | .x0MulhN64 a g => Sys2Proof.Machine.execX0MulhN64 a g s
  | .x0DivS64 a g => Sys2Proof.Machine.execX0DivS64 a g s
  | .x0DivN64 a g => Sys2Proof.Machine.execX0DivN64 a g s
  | .x0RemS64 a g => Sys2Proof.Machine.execX0RemS64 a g s
  | .x0RemN64 a g => Sys2Proof.Machine.execX0RemN64 a g s
  | .x0AddF32 a g => Sys2Proof.Machine.execX0AddF32 a g s
  | .x0MulF32 a g => Sys2Proof.Machine.execX0MulF32 a g s
  | .x0FmaF32 a g => Sys2Proof.Machine.execX0FmaF32 a g s
  | .x0CltF32 a g => Sys2Proof.Machine.execX0CltF32 a g s
  | .x0ItofS64 a g => Sys2Proof.Machine.execX0ItofS64 a g s
  | .x0FtoiS64 a g => Sys2Proof.Machine.execX0FtoiS64 a g s
  | .x0Crd a g => Sys2Proof.Machine.execX0Crd a g s
  | .x0Cwr a g => Sys2Proof.Machine.execX0Cwr a g s
  | .x1Add a g => Sys2Proof.Machine.execX1Add a g s
  | .x1Sub a g => Sys2Proof.Machine.execX1Sub a g s
  | .x1And a g => Sys2Proof.Machine.execX1And a g s
  | .x1Or a g => Sys2Proof.Machine.execX1Or a g s
  | .x1Xor a g => Sys2Proof.Machine.execX1Xor a g s
  | .x1Shl a g => Sys2Proof.Machine.execX1Shl a g s
  | .x1Shr a g => Sys2Proof.Machine.execX1Shr a g s
  | .x1Sar a g => Sys2Proof.Machine.execX1Sar a g s
  | .x1Ror a g => Sys2Proof.Machine.execX1Ror a g s
  | .x1Ceq a g => Sys2Proof.Machine.execX1Ceq a g s
  | .x1CltS64 a g => Sys2Proof.Machine.execX1CltS64 a g s
  | .x1CltN64 a g => Sys2Proof.Machine.execX1CltN64 a g s
  | .x1Sel a g => Sys2Proof.Machine.execX1Sel a g s
  | .x1MinS64 a g => Sys2Proof.Machine.execX1MinS64 a g s
  | .x1MaxS64 a g => Sys2Proof.Machine.execX1MaxS64 a g s
  | .x1Clz a g => Sys2Proof.Machine.execX1Clz a g s
  | .x1Popc a g => Sys2Proof.Machine.execX1Popc a g s
  | .x1Bfx a g => Sys2Proof.Machine.execX1Bfx a g s
  | .x1Sxt a g => Sys2Proof.Machine.execX1Sxt a g s
  | .x1Mul a g => Sys2Proof.Machine.execX1Mul a g s
  | .x1MulhS64 a g => Sys2Proof.Machine.execX1MulhS64 a g s
  | .x1MulhN64 a g => Sys2Proof.Machine.execX1MulhN64 a g s
  | .x1DivS64 a g => Sys2Proof.Machine.execX1DivS64 a g s
  | .x1DivN64 a g => Sys2Proof.Machine.execX1DivN64 a g s
  | .x1RemS64 a g => Sys2Proof.Machine.execX1RemS64 a g s
  | .x1RemN64 a g => Sys2Proof.Machine.execX1RemN64 a g s
  | .x1AddF32 a g => Sys2Proof.Machine.execX1AddF32 a g s
  | .x1MulF32 a g => Sys2Proof.Machine.execX1MulF32 a g s
  | .x1FmaF32 a g => Sys2Proof.Machine.execX1FmaF32 a g s
  | .x1CltF32 a g => Sys2Proof.Machine.execX1CltF32 a g s
  | .x1ItofS64 a g => Sys2Proof.Machine.execX1ItofS64 a g s
  | .x1FtoiS64 a g => Sys2Proof.Machine.execX1FtoiS64 a g s
  | .x1Crd a g => Sys2Proof.Machine.execX1Crd a g s
  | .x1Cwr a g => Sys2Proof.Machine.execX1Cwr a g s
  | .lsLdS8 a g => Sys2Proof.Machine.execLsLdS8 a g s
  | .lsLdN8 a g => Sys2Proof.Machine.execLsLdN8 a g s
  | .lsLdS16 a g => Sys2Proof.Machine.execLsLdS16 a g s
  | .lsLdN16 a g => Sys2Proof.Machine.execLsLdN16 a g s
  | .lsLdS32 a g => Sys2Proof.Machine.execLsLdS32 a g s
  | .lsLdN32 a g => Sys2Proof.Machine.execLsLdN32 a g s
  | .lsLdN64 a g => Sys2Proof.Machine.execLsLdN64 a g s
  | .lsStN8 a g => Sys2Proof.Machine.execLsStN8 a g s
  | .lsStN16 a g => Sys2Proof.Machine.execLsStN16 a g s
  | .lsStN32 a g => Sys2Proof.Machine.execLsStN32 a g s
  | .lsStN64 a g => Sys2Proof.Machine.execLsStN64 a g s
  | .lsSt2B64 a g => Sys2Proof.Machine.execLsSt2B64 a g s
  | .lsLdFe a g => Sys2Proof.Machine.execLsLdFe a g s
  | .lsStFe a g => Sys2Proof.Machine.execLsStFe a g s
  | .lsBlk a g => Sys2Proof.Machine.execLsBlk a g s
  | .lsInv a g => Sys2Proof.Machine.execLsInv a g s
  | .brJmp a g => Sys2Proof.Machine.execBrJmp a g s
  | .brJz a g => Sys2Proof.Machine.execBrJz a g s
  | .brJnz a g => Sys2Proof.Machine.execBrJnz a g s
  | .brJr a g => Sys2Proof.Machine.execBrJr a g s
  | .brCall a g => Sys2Proof.Machine.execBrCall a g s
  | .brLp0 a g => Sys2Proof.Machine.execBrLp0 a g s
  | .brLp1 a g => Sys2Proof.Machine.execBrLp1 a g s
  | .brLpend a g => Sys2Proof.Machine.execBrLpend a g s
  | .brLcrd a g => Sys2Proof.Machine.execBrLcrd a g s
  | .brMark a g => Sys2Proof.Machine.execBrMark a g s
  | .ckDef a g => Sys2Proof.Machine.execCkDef a g s
  | .ckSub a g => Sys2Proof.Machine.execCkSub a g s
  | .ckWhen a g => Sys2Proof.Machine.execCkWhen a g s
  | .ckMerge a g => Sys2Proof.Machine.execCkMerge a g s
  | .ckMergep a g => Sys2Proof.Machine.execCkMergep a g s
  | .ckUnion a g => Sys2Proof.Machine.execCkUnion a g s
  | .ckFby a g => Sys2Proof.Machine.execCkFby a g s
  | .ckHold a g => Sys2Proof.Machine.execCkHold a g s
  | .ckIsp a g => Sys2Proof.Machine.execCkIsp a g s
  | .ckNot a g => Sys2Proof.Machine.execCkNot a g s
  | .ckPre a g => Sys2Proof.Machine.execCkPre a g s
  | .syAdd a g => Sys2Proof.Machine.execSyAdd a g s
  | .syWait a g => Sys2Proof.Machine.execSyWait a g s
  | .syPeek a g => Sys2Proof.Machine.execSyPeek a g s
  | .syFence a g => Sys2Proof.Machine.execSyFence a g s
  | .syAsdecl a g => Sys2Proof.Machine.execSyAsdecl a g s
  | .syTend a g => Sys2Proof.Machine.execSyTend a g s
  | .syYield a g => Sys2Proof.Machine.execSyYield a g s
  | .syStamp a g => Sys2Proof.Machine.execSyStamp a g s
  | .syTaint a g => Sys2Proof.Machine.execSyTaint a g s
  | .veAddF32 a g => Sys2Proof.Machine.execVeAddF32 a g s
  | .veSubF32 a g => Sys2Proof.Machine.execVeSubF32 a g s
  | .veMulF32 a g => Sys2Proof.Machine.execVeMulF32 a g s
  | .veFmaF32 a g => Sys2Proof.Machine.execVeFmaF32 a g s
  | .veMinF32 a g => Sys2Proof.Machine.execVeMinF32 a g s
  | .veMaxF32 a g => Sys2Proof.Machine.execVeMaxF32 a g s
  | .veCeqF32 a g => Sys2Proof.Machine.execVeCeqF32 a g s
  | .veCltF32 a g => Sys2Proof.Machine.execVeCltF32 a g s
  | .veDivF32 a g => Sys2Proof.Machine.execVeDivF32 a g s
  | .veSqrtF32 a g => Sys2Proof.Machine.execVeSqrtF32 a g s
  | .veRsqrtF32 a g => Sys2Proof.Machine.execVeRsqrtF32 a g s
  | .veExp2F32 a g => Sys2Proof.Machine.execVeExp2F32 a g s
  | .veLog2F32 a g => Sys2Proof.Machine.execVeLog2F32 a g s
  | .veFtoiS32 a g => Sys2Proof.Machine.execVeFtoiS32 a g s
  | .veItofS32 a g => Sys2Proof.Machine.execVeItofS32 a g s
  | .veCvtBf16 a g => Sys2Proof.Machine.execVeCvtBf16 a g s
  | .veCvtF16 a g => Sys2Proof.Machine.execVeCvtF16 a g s
  | .veWidBf16 a g => Sys2Proof.Machine.execVeWidBf16 a g s
  | .veWidF16 a g => Sys2Proof.Machine.execVeWidF16 a g s
  | .veBxenc a g => Sys2Proof.Machine.execVeBxenc a g s
  | .veBxdec a g => Sys2Proof.Machine.execVeBxdec a g s
  | .veAddS32 a g => Sys2Proof.Machine.execVeAddS32 a g s
  | .veSubS32 a g => Sys2Proof.Machine.execVeSubS32 a g s
  | .veMulS32 a g => Sys2Proof.Machine.execVeMulS32 a g s
  | .veAndB32 a g => Sys2Proof.Machine.execVeAndB32 a g s
  | .veOrB32 a g => Sys2Proof.Machine.execVeOrB32 a g s
  | .veXorB32 a g => Sys2Proof.Machine.execVeXorB32 a g s
  | .veShlB32 a g => Sys2Proof.Machine.execVeShlB32 a g s
  | .veShrB32 a g => Sys2Proof.Machine.execVeShrB32 a g s
  | .veSarB32 a g => Sys2Proof.Machine.execVeSarB32 a g s
  | .veMinS32 a g => Sys2Proof.Machine.execVeMinS32 a g s
  | .veMaxS32 a g => Sys2Proof.Machine.execVeMaxS32 a g s
  | .veCeqB32 a g => Sys2Proof.Machine.execVeCeqB32 a g s
  | .veCltS32 a g => Sys2Proof.Machine.execVeCltS32 a g s
  | .veSelB32 a g => Sys2Proof.Machine.execVeSelB32 a g s
  | .veLid a g => Sys2Proof.Machine.execVeLid a g s
  | .veBeqN8 a g => Sys2Proof.Machine.execVeBeqN8 a g s
  | .veBfindN8 a g => Sys2Proof.Machine.execVeBfindN8 a g s
  | .veBcmpN8 a g => Sys2Proof.Machine.execVeBcmpN8 a g s
  | .veCrc32cN8 a g => Sys2Proof.Machine.execVeCrc32cN8 a g s
  | .veCrc32cB32 a g => Sys2Proof.Machine.execVeCrc32cB32 a g s
  | .veBurl a g => Sys2Proof.Machine.execVeBurl a g s
  | .veBurlf a g => Sys2Proof.Machine.execVeBurlf a g s
  | .veRsumF32 a g => Sys2Proof.Machine.execVeRsumF32 a g s
  | .veRmaxF32 a g => Sys2Proof.Machine.execVeRmaxF32 a g s
  | .veRminF32 a g => Sys2Proof.Machine.execVeRminF32 a g s
  | .vePerm a g => Sys2Proof.Machine.execVePerm a g s
  | .veLrot a g => Sys2Proof.Machine.execVeLrot a g s
  | .veLext a g => Sys2Proof.Machine.execVeLext a g s
  | .veLins a g => Sys2Proof.Machine.execVeLins a g s
  | .veFfs a g => Sys2Proof.Machine.execVeFfs a g s
  | .veLdB32 a g => Sys2Proof.Machine.execVeLdB32 a g s
  | .veStB32 a g => Sys2Proof.Machine.execVeStB32 a g s
  | .veLdlB32 a g => Sys2Proof.Machine.execVeLdlB32 a g s
  | .veStlB32 a g => Sys2Proof.Machine.execVeStlB32 a g s
  | .veGathB32 a g => Sys2Proof.Machine.execVeGathB32 a g s
  | .veScatB32 a g => Sys2Proof.Machine.execVeScatB32 a g s
  | .veLd16B64 a g => Sys2Proof.Machine.execVeLd16B64 a g s
  | .mxTld a g => Sys2Proof.Machine.execMxTld a g s
  | .mxCld a g => Sys2Proof.Machine.execMxCld a g s
  | .mxCst a g => Sys2Proof.Machine.execMxCst a g s
  | .mxZero a g => Sys2Proof.Machine.execMxZero a g s
  | .mxStep a g => Sys2Proof.Machine.execMxStep a g s
  | .mxLoop a g => Sys2Proof.Machine.execMxLoop a g s
  | .mxOff a g => Sys2Proof.Machine.execMxOff a g s
  | .mxBusy a g => Sys2Proof.Machine.execMxBusy a g s
  | .mxXa a g => Sys2Proof.Machine.execMxXa a g s
  | .mxScl a g => Sys2Proof.Machine.execMxScl a g s
  | .mxDrain a g => Sys2Proof.Machine.execMxDrain a g s
  | .cpLin a g => Sys2Proof.Machine.execCpLin a g s
  | .cpStr2 a g => Sys2Proof.Machine.execCpStr2 a g s
  | .cpStr3 a g => Sys2Proof.Machine.execCpStr3 a g s
  | .cpGath a g => Sys2Proof.Machine.execCpGath a g s
  | .cpFill a g => Sys2Proof.Machine.execCpFill a g s
  | .cpCvt a g => Sys2Proof.Machine.execCpCvt a g s
  | .cpCanopy a g => Sys2Proof.Machine.execCpCanopy a g s
  | .cpStbl a g => Sys2Proof.Machine.execCpStbl a g s
  | .cpRestrict a g => Sys2Proof.Machine.execCpRestrict a g s
  | .cpProlong a g => Sys2Proof.Machine.execCpProlong a g s
  | .cpClose a g => Sys2Proof.Machine.execCpClose a g s
  | .cpWaitb a g => Sys2Proof.Machine.execCpWaitb a g s
  | .cpCnt a g => Sys2Proof.Machine.execCpCnt a g s
  | .msAddF32 a g => Sys2Proof.Machine.execMsAddF32 a g s
  | .msAddS64 a g => Sys2Proof.Machine.execMsAddS64 a g s
  | .msMaxS64 a g => Sys2Proof.Machine.execMsMaxS64 a g s
  | .msMinS64 a g => Sys2Proof.Machine.execMsMinS64 a g s
  | .msOrB64 a g => Sys2Proof.Machine.execMsOrB64 a g s
  | .msSwapB64 a g => Sys2Proof.Machine.execMsSwapB64 a g s
  | .msCasB64 a g => Sys2Proof.Machine.execMsCasB64 a g s
  | .msRed a g => Sys2Proof.Machine.execMsRed a g s
  | .msFence a g => Sys2Proof.Machine.execMsFence a g s
  | .msMark a g => Sys2Proof.Machine.execMsMark a g s
  | .svLaunch a g => Sys2Proof.Machine.execSvLaunch a g s
  | .svAbort a g => Sys2Proof.Machine.execSvAbort a g s
  | .svSrd a g => Sys2Proof.Machine.execSvSrd a g s
  | .svSwr a g => Sys2Proof.Machine.execSvSwr a g s
  | .svSpace a g => Sys2Proof.Machine.execSvSpace a g s
  | .svWalk a g => Sys2Proof.Machine.execSvWalk a g s
  | .svPtmc a g => Sys2Proof.Machine.execSvPtmc a g s
  | .svTinv a g => Sys2Proof.Machine.execSvTinv a g s
  | .svPin a g => Sys2Proof.Machine.execSvPin a g s
  | .svUnpin a g => Sys2Proof.Machine.execSvUnpin a g s
  | .svTfq a g => Sys2Proof.Machine.execSvTfq a g s
  | .svTres a g => Sys2Proof.Machine.execSvTres a g s
  | .svTent a g => Sys2Proof.Machine.execSvTent a g s
  | .svEret a g => Sys2Proof.Machine.execSvEret a g s
  | .svHirq a g => Sys2Proof.Machine.execSvHirq a g s
  | .svIdle a g => Sys2Proof.Machine.execSvIdle a g s
  | .resultLand x => Sys2Proof.Machine.execResultLand x s
  | .lateResultArrive core => Sys2Proof.Machine.execLateResultArrive core s
  | .implicitYield x => Sys2Proof.Machine.execImplicitYield x s
  | .engineQueueSpace x => Sys2Proof.Machine.execEngineQueueSpace x s
  | .rangeHoldRelease x => Sys2Proof.Machine.execRangeHoldRelease x s
  | .waitSatisfied x => Sys2Proof.Machine.execWaitSatisfied x s
  | .fenceComplete x => Sys2Proof.Machine.execFenceComplete x s
  | .yieldRelease x => Sys2Proof.Machine.execYieldRelease x s
  | .feWaitServed x => Sys2Proof.Machine.execFeWaitServed x s
  | .versionSlotFree x => Sys2Proof.Machine.execVersionSlotFree x s
  | .cpWaitbSatisfied x => Sys2Proof.Machine.execCpWaitbSatisfied x s
  | .mxDrainComplete x => Sys2Proof.Machine.execMxDrainComplete x s
  | .msFenceComplete x => Sys2Proof.Machine.execMsFenceComplete x s
  | .counterAddApply x => Sys2Proof.Machine.execCounterAddApply x s
  | .tendRetire x => Sys2Proof.Machine.execTendRetire x s
  | .loadBlockFilled x base => Sys2Proof.Machine.execLoadBlockFilled x base s
  | .mxCommandStart core => Sys2Proof.Machine.execMxCommandStart core s
  | .mxCommandComplete core array => Sys2Proof.Machine.execMxCommandComplete core array s
  | .cpCommandStart core => Sys2Proof.Machine.execCpCommandStart core s
  | .cpCommandComplete core k => Sys2Proof.Machine.execCpCommandComplete core k s
  | .closeMarkerRetire core k => Sys2Proof.Machine.execCloseMarkerRetire core k s
  | .msOpArrive core k => Sys2Proof.Machine.execMsOpArrive core k s
  | .msRedComplete core k => Sys2Proof.Machine.execMsRedComplete core k s
  | .msMarkFire core k => Sys2Proof.Machine.execMsMarkFire core k s
  | .launchCheck lid => Sys2Proof.Machine.execLaunchCheck lid s
  | .instantEnqueue lid => Sys2Proof.Machine.execInstantEnqueue lid s
  | .ticketTake core => Sys2Proof.Machine.execTicketTake core s
  | .tokenGain r => Sys2Proof.Machine.execTokenGain r s
  | .preemptChoice die => Sys2Proof.Machine.execPreemptChoice die s
  | .kill r => Sys2Proof.Machine.execKill r s
  | .checkpoint r => Sys2Proof.Machine.execCheckpoint r s
  | .clearInstant lid => Sys2Proof.Machine.execClearInstant lid s
  | .versionMerge line lid inst => Sys2Proof.Machine.execVersionMerge line lid inst s
  | .setAcquire x => Sys2Proof.Machine.execSetAcquire x s
  | .walkRestart w => Sys2Proof.Machine.execWalkRestart w s
  | .walkMigrationTimeout w => Sys2Proof.Machine.execWalkMigrationTimeout w s
  | .ptmcOrdered id => Sys2Proof.Machine.execPtmcOrdered id s
  | .ptmcComplete id => Sys2Proof.Machine.execPtmcComplete id s
  | .tinvComplete x => Sys2Proof.Machine.execTinvComplete x s
  | .idleWake x => Sys2Proof.Machine.execIdleWake x s
  | .flush x => Sys2Proof.Machine.execFlush x s
  | .haltreq x => Sys2Proof.Machine.execHaltreq x s
  | .resume x => Sys2Proof.Machine.execResume x s
  | .step x y => Sys2Proof.Machine.execStep x y s
  | .segmentSealTimer => Sys2Proof.Machine.execSegmentSealTimer s
  | .segmentWrite => Sys2Proof.Machine.execSegmentWrite s
  | .perfCounterWrite x die off v => Sys2Proof.Machine.execPerfCounterWrite x die off v s
  | .perfConfigWrite x die off v => Sys2Proof.Machine.execPerfConfigWrite x die off v s
  | .registerWrite x addr v => Sys2Proof.Machine.execRegisterWrite x addr v s
  | .hostRingWrite off data => Sys2Proof.Machine.execHostRingWrite off data s
  | .hostDoorbell v => Sys2Proof.Machine.execHostDoorbell v s
  | .d2hheadWrite v => Sys2Proof.Machine.execD2hheadWrite v s
  | .d2htailWrite x v => Sys2Proof.Machine.execD2htailWrite x v s
  | .h2dheadWrite x v => Sys2Proof.Machine.execH2dheadWrite x v s
  | .routeWrite x die off v => Sys2Proof.Machine.execRouteWrite x die off v s
  | .flitStore link f => Sys2Proof.Machine.execFlitStore link f s
  | .flitLoadRequest link f => Sys2Proof.Machine.execFlitLoadRequest link f s
  | .flitLoadResponse link f => Sys2Proof.Machine.execFlitLoadResponse link f s
  | .flitCounterAdd link f => Sys2Proof.Machine.execFlitCounterAdd link f s
  | .flitTableMulticast link f => Sys2Proof.Machine.execFlitTableMulticast link f s
  | .flitClearingMessage link f m => Sys2Proof.Machine.execFlitClearingMessage link f m s
  | .flitLeaseVersionMessage link f m => Sys2Proof.Machine.execFlitLeaseVersionMessage link f m s
  | .flitCredit link f => Sys2Proof.Machine.execFlitCredit link f s
  | .flitWalkContinuation link f => Sys2Proof.Machine.execFlitWalkContinuation link f s
  | .flitUnknown link f => Sys2Proof.Machine.execFlitUnknown link f s
  | .flitCrcFail link => Sys2Proof.Machine.execFlitCrcFail link s
  | .storageSqDoorbell x q tail => Sys2Proof.Machine.execStorageSqDoorbell x q tail s
  | .fabricsConnect q => Sys2Proof.Machine.execFabricsConnect q s
  | .propertyGet q => Sys2Proof.Machine.execPropertyGet q s
  | .propertySet q => Sys2Proof.Machine.execPropertySet q s
  | .identify q => Sys2Proof.Machine.execIdentify q s
  | .getLogPage q => Sys2Proof.Machine.execGetLogPage q s
  | .keepAlive q => Sys2Proof.Machine.execKeepAlive q s
  | .nvmeRead q data => Sys2Proof.Machine.execNvmeRead q data s
  | .nvmeWrite q => Sys2Proof.Machine.execNvmeWrite q s
  | .nvmeFlush q => Sys2Proof.Machine.execNvmeFlush q s
  | .invalidCommandOpcode q => Sys2Proof.Machine.execInvalidCommandOpcode q s
  | .nvmeCompletion q entry => Sys2Proof.Machine.execNvmeCompletion q entry s
  | .keepAliveTimer conn => Sys2Proof.Machine.execKeepAliveTimer conn s
  | .rocePacket q psn good => Sys2Proof.Machine.execRocePacket q psn good s
  | .pfcPause conn pause => Sys2Proof.Machine.execPfcPause conn pause s
  | .redfishGet res => Sys2Proof.Machine.execRedfishGet res s
  | .updateService img => Sys2Proof.Machine.execUpdateService img s
  | .deviceIdSetting v => Sys2Proof.Machine.execDeviceIdSetting v s
  | .provision o => Sys2Proof.Machine.execProvision o s
  | .revoke o => Sys2Proof.Machine.execRevoke o s
  | .debugUnlock o => Sys2Proof.Machine.execDebugUnlock o s
  | .getVersion => Sys2Proof.Machine.execGetVersion s
  | .getCapabilities => Sys2Proof.Machine.execGetCapabilities s
  | .negotiateAlgorithms => Sys2Proof.Machine.execNegotiateAlgorithms s
  | .getDigests => Sys2Proof.Machine.execGetDigests s
  | .getCertificate => Sys2Proof.Machine.execGetCertificate s
  | .challenge nonce => Sys2Proof.Machine.execChallenge nonce s
  | .getMeasurements idx nonce => Sys2Proof.Machine.execGetMeasurements idx nonce s
  | .unsupportedRequest code => Sys2Proof.Machine.execUnsupportedRequest code s
  | .packageReset => Sys2Proof.Machine.execPackageReset s
  | .sramSingleBitError die => Sys2Proof.Machine.execSramSingleBitError die s
  | .sramDoubleBitError die p => Sys2Proof.Machine.execSramDoubleBitError die p s
  | .hbmUncorrectableError stack off => Sys2Proof.Machine.execHbmUncorrectableError stack off s
  | .scrubRead => Sys2Proof.Machine.execScrubRead s
  | .throttleStepUpdate die temp power => Sys2Proof.Machine.execThrottleStepUpdate die temp power s
  | .thermalCritical die temp => Sys2Proof.Machine.execThermalCritical die temp s
  | .dbgWrite x die v => Sys2Proof.Machine.execDbgWrite x die v s
  | .partitionAssignWrite x die off v => Sys2Proof.Machine.execPartitionAssignWrite x die off v s
  | .accessTableWrite x die off v => Sys2Proof.Machine.execAccessTableWrite x die off v s
  | .partitionPark x p => Sys2Proof.Machine.execPartitionPark x p s
  | .partitionUnpark x p => Sys2Proof.Machine.execPartitionUnpark x p s
  | .standbyEnter x => Sys2Proof.Machine.execStandbyEnter x s
  | .standbyExit x => Sys2Proof.Machine.execStandbyExit x s
  | .parkGate core => Sys2Proof.Machine.execParkGate core s
  | .returnToActive => Sys2Proof.Machine.execReturnToActive s
  | .coreCycle => Sys2Proof.Machine.execCoreCycle s
  | .managementRequestWake p => Sys2Proof.Machine.execManagementRequestWake p s
  | .partitionResetComplete p => Sys2Proof.Machine.execPartitionResetComplete p s

end Sys2Proof.Machine
end

