-- ==== Sys2Proof/Machine/Sched.lean ====
section
/-!
DEFINITION. Who acts next (log 1): the contexts of a core (09_seq_control R199, R205, R206, R218), the engines of a core,
the dispatch and clearing engines of a die, and what the package does of itself. A core cycle gives each agent one turn.
-/

namespace Sys2Proof.Machine

/-! ### The engines of a core (R278, R296, R329, R174, R116) -/

/-- A walk over the elements of a list that changes the state. -/
def State.each {α : Type} (s : State) (l : List α) (f : State → α → State) : State := l.foldl f s

/-- The load-blocks of a core that have been filled. -/
def State.fillBlocksOf (s : State) (n : Nat) : State :=
  s.each (List.range 4) fun s k =>
    s.each ((s.ctx ⟨n, k⟩).blocks.filter fun b => !b.filled) fun s b => s.blockFilled ⟨n, k⟩ b.base

/-- The memory-side operations of a core that have arrived. -/
def State.msArrivals (s : State) (n : Nat) : State :=
  s.each (s.core n).msq fun s c => s.msArrive n c.id [0x2A2, 0x2A3, 0x2A4, 0x2A5, 0x2A6, 0x2A9, 0x2AB]

/-- One core cycle of a core's engines: commands that run complete, markers retire, fills and arrivals are done, held adds
are released, and each engine takes a command. -/
def State.enginesAct (s : State) (n : Nat) : State :=
  let s := (s.mxComplete n false).mxComplete n true
  let s := s.each ((s.core n).cpq.filter Cmd.started) fun s c => s.cpComplete n c.id
  let s := s.each ((s.core n).cpq.filter fun c => decide (c.port = 0x26C)) fun s c => s.markerRetire n c.id
  let s := (s.fillBlocksOf n).msArrivals n
  let s := s.each (List.range 4) fun s k => s.applyHeld ⟨n, k⟩ ((s.core n).adds.length + 1)
  (s.mxStart n).cpStart n

/-! ### The contexts of a core (R199, R205, R206, R218) -/

/-- The counter of another device that a context waits on, asked for (R111, R195). -/
def State.askWait (s : State) (x : CtxRef) : State :=
  match (s.ctx x).status with
  | .blocked (.wait w _) =>
    match s.sel x w with
    | .remote v d i => s.ask x.core 0 (s.ctx x).stamp.toNat ⟨x, v, ctrAddr (ctrKey d i), none, 0, none, false⟩
    | _ => s
  | _ => s

/-- The multicast a context waits for, decided (R360). -/
def State.ptmcOf (s : State) (x : CtxRef) : Option Nat := (s.ptmcs.find? fun p => decide (p.x = x) && !p.decided).map Ptmc.id

/-- The walk a context waits for. -/
def State.walkOf (s : State) (x : CtxRef) : Option Nat := (s.walks.find? fun w => decide (w.x = x)).map WalkWait.id

/-- The pending results of a context and of the program that its handler has put by, once what they wait for without an event of its own
has come. -/
def State.settleLate (s : State) (x : CtxRef) : State := s.updCtx x fun c => c.mapPend (s.arrive x.core)

/-- Whether some pending result of a context, or of the program put by, is still late. -/
def Ctx.stillLate (c : Ctx) : Bool := (c.pend ++ (c.bank.map Bank.pend).getD []).any Pend.late

/-- A handler's first group may issue once the commands that the program had started are complete and its data is here (R214, R219). -/
def State.handlerReady (s : State) (x : CtxRef) : State :=
  let s := s.settleLate x
  s.wakeIf x fun b => decide (b = .drain) && s.drained x && !(s.ctx x).stillLate

/-- A reaction's place left. -/
def Reaction.leave (r : Reaction) (x : CtxRef) : Reaction := { r with places := r.places.filter fun p => p.1 != x }

/-- The end of a context whose reaction has trapped in an open launch (R212, R214): once what it has started is complete, its load-blocks
are filled, its data is here and its held adds are made, it is free, and the launch may end. -/
def State.endingDone (s : State) (x : CtxRef) : State :=
  let s := s.settleLate x
  let c := s.ctx x
  if !s.drained x || !c.blocks.all LoadBlock.filled || c.stillLate || (s.core x.core).adds.any (fun a => decide (a.ctx = x.ctx)) then s
  else
    match c.react with
    | none => s.releaseCtx x false
    | some r => ((s.releaseCtx x false).updReact r.id fun q => q.leave x).checkEnd r.lid
/-- The end of a context's block, if it has come: the event of the block's kind (R205). A set and the end of a reaction have
turns of their own. -/
def State.pollBlock (s : State) (x : CtxRef) (b : Block) : State :=
  match b with
  | .queue _ => s.queueSpace x
  | .hold _ _ => s.holdRelease x
  | .wait _ _ => (s.waitSatisfied x).askWait x
  | .fence _ => s.fenceComplete x
  | .yield _ => s.yieldRelease x
  | .fe _ _ => s.feServed x
  | .version => s.versionFree x
  | .set _ => s
  | .waitb _ => s.waitbDone x
  | .mxDrain => s.drainDone x
  | .tiles _ _ _ => s.tilesFree x.core
  | .msFence => s.msFenceDone x
  | .tend => s
  | .drain => s.handlerReady x
  | .ending => s.endingDone x
  | .ptmc _ _ _ =>
    match s.ptmcOf x with
    | some id => s.ptmcOrdered id
    | none => s
  | .tinv _ => s.tinvDone x
  | .idle => s.idleWake x
  | .walk _ =>
    match s.walkOf x with
    | some id => (s.walkRestart id).walkTimeout id
    | none => s
  | .remote _ _ _ _ _ _ => s

/-- A context's block looked at before its core issues (R205). -/
def State.poll (s : State) (x : CtxRef) : State :=
  match (s.ctx x).status with
  | .blocked b => s.pollBlock x b
  | _ => s

/-- Whether a core's running context is ready and has not finished, so that it keeps issuing (R205). -/
def State.runsOn (s : State) (n : Nat) : Bool :=
  (s.core n).running.any fun k => !(s.core n).ended && decide ((s.ctx ⟨n, k⟩).status = .ready)

/-- The context of a core that issues next: the running one while it has not blocked, else the next ready one in round-robin
order after it (R205); one that a stop is asked of issues no more (R204, R214). -/
def State.pick (s : State) (n : Nat) (on : Bool) : Option Nat :=
  let may (k : Nat) : Bool := decide ((s.ctx ⟨n, k⟩).status = .ready) && !s.stopping ⟨n, k⟩
  match (s.core n).running with
  | some k => if on && may k then some k else ([1, 2, 3, 4].map fun i => (k + i) % 4).find? may
  | none => (List.range 4).find? may

/-- The context that issues made the running one: at a switch, and after a block, its count of groups in a row begins
again; a switch is an event of the context that comes (R205, R206, R382). -/
def State.switchTo (s : State) (n k : Nat) (on : Bool) : State :=
  let t := if on && decide ((s.core n).running = some k) then s else s.updCtx ⟨n, k⟩ fun c => { c with run := 0 }
  let t := t.updCore n fun c => { c with running := some k, ended := false }
  if (s.core n).running = some k then t else t.event ⟨n, k⟩ 0x05 1

/-- The running context's implicit yield, if it is due (R206). -/
def State.yieldIfDue (s : State) (n : Nat) : State :=
  match (s.core n).running with
  | some k => s.implicitYield ⟨n, k⟩
  | none => s

/-- Whether the die's throttle step lets groups issue in this core cycle (R407). -/
def State.mayIssue (s : State) (n : Nat) : Bool := decide ((s.die (dieOf n)).step.toNat ≤ s.timebase.toNat % 8)

/-! ### A core's turn (R50, R60, R323) -/

/-- The age of the work whose turn it is: contexts that hold no reaction first. -/
def State.turnAge (s : State) (a : Nat) : Nat :=
  let x : CtxRef := ⟨a % 10000 / 4, a % 4⟩
  (s.ctx x).react.elim 0 fun r => r.stamp + 1

/-- A context's turn put behind the cores of this core cycle and the choices of the dies, the older before the younger: of two reactions that touch one set
in one core cycle the older acquires it, and a wound comes before what its victim would do (R50, R323). -/
def State.putTurn (s : State) (a : Nat) : List Nat → List Nat
  | [] => [a]
  | b :: bs =>
    if b < 1000 ∨ b = 1200 ∨ (10000 ≤ b ∧ s.turnAge b ≤ s.turnAge a) then b :: s.putTurn a bs else a :: b :: bs

/-- The turn of a context of a core that issues. -/
def issueTurn (n k : Nat) : Nat := 10000 + 4 * n + k

/-- The turn of a context of a core that waits for a set. -/
def setTurn (n k : Nat) : Nat := 20000 + 4 * n + k

/-- A turn given in this core cycle. -/
def State.giveTurn (s : State) (a : Nat) : State := { s with turn := s.putTurn a s.turn }

/-- Whether a context waits for a set. -/
def Status.onSet : Status → Bool
  | .blocked (.set _) => true
  | _ => false

/-- Turns given to the contexts of a core that wait for a set (R323). -/
def State.giveSets (s : State) (n : Nat) : State :=
  s.each ((List.range 4).filter fun k => (s.ctx ⟨n, k⟩).status.onSet) fun s k => s.giveTurn (setTurn n k)

/-- What comes before a core issues in a core cycle: its engines' part, late data, an implicit yield, and its contexts looked at;
then the context that is to issue is made the running one and given its turn. -/
def State.coreAct (s : State) (n : Nat) : State :=
  let s := (s.enginesAct n).lateArrive n
  if s.standing n then s
  else
    let s := s.yieldIfDue n
    let on := s.runsOn n
    let s := (s.each (List.range 4) fun s k => s.poll ⟨n, k⟩).giveSets n
    if !s.mayIssue n || s.standing n then s
    else
      match s.pick n (on && s.runsOn n) with
      | none => s
      | some k => (s.switchTo n k (on && s.runsOn n)).giveTurn (issueTurn n k)

/-- A context's turn to issue: at most one group of its core in a core cycle (R60); nothing where it has been wounded or stopped
since. -/
def State.issueAct (ex : Exec) (s : State) (x : CtxRef) : Out :=
  if (s.core x.core).running = some x.ctx ∧ (s.ctx x).status = .ready ∧ !s.standing x.core then s.issue1 ex x else .next s

/-- The trap of an engine's store to a pinned entry (R352): the reaction ends with LEASE_EXIT, recorded with the group that issued the
command, where it still runs: what older work of the cycle has wounded has no trap (R50, R373). -/
def State.takeEngTrap (s : State) (t : EngTrap) : State :=
  let runs := (s.ctx t.x).react = some t.react && (s.react? t.react.id).any fun r => decide (r.st = .running)
  if !runs then s
  else
    let s := if s.obs.kmask.getLsbD 3 then
        s.record (traceNat s t.x cLeaseExit.toNat false t.group.1 t.group.2 t.react.stamp t.va)
      else s
    s.failReact t.x cLeaseExit (BitVec.ofNat 64 t.va)

/-- What retires in a core cycle: the traps of engines, then every `sy.tend` that has nothing left to report (R198, R352). -/
def State.retireAct (s : State) : State :=
  let s := ({ s with engTraps := [] } : State).each s.engTraps State.takeEngTrap
  s.each (s.allCtxs.filter fun x => decide ((s.ctx x).status = .blocked .tend)) State.tendRetire

/-- The kills and checkpoints chosen, taken at their victims' group boundaries (R214, R240). -/
def State.boundaryAct (s : State) : State :=
  let due (a : Action) : List ReactId :=
    s.launches.flatMap fun l => (l.reacts.filter fun r => decide (r.action = some a)).map fun r => ⟨l.lid, r.stamp⟩
  s.each (due .checkpoint) State.checkpoint |>.each (due .kill) State.kill

/-! ### The engines of a die (R230, R233, R235, R238, R319) -/

/-- The launches that the engines of a die check and clear (R358). -/
def State.launchesOf (s : State) (d : Nat) : List Nat :=
  (s.launches.filter fun l => decide (l.checkDie = d) && decide (l.phase ≠ .ended)).map Launch.lid

/-- Counters of other devices that the heads of a die's tickets have for thresholds, asked for (R32, R111). -/
def State.askThresholds (s : State) (d : Nat) : State :=
  s.each (s.heads d) fun s h =>
    s.each ((h.2.members.filterMap fun e => h.1.entries[e]?).flatMap fun e => e.thr.take e.nthr) fun s t =>
      match resolveSel s.devid d (BitVec.ofNat 64 t.csel) with
      | .remote v e i =>
        if s.known (.remote v e i) then s
        else s.ask (s.dieCore h.1 d) 0 noView ⟨⟨1000 + d, 0⟩, v, ctrAddr (ctrKey e i), none, 0, none, false⟩
      | _ => s

/-- What the slots of checkpointed heads of a die's tickets wait for, asked for (R244, R347). -/
def State.askResumes (s : State) (d : Nat) : State :=
  s.each ((s.heads d).filter fun h => decide (h.2.slots ≠ [])) fun s h =>
    let need := s.resumeNeed h.1 h.2
    if need.any then s.askNeed h.1 need else s

/-- The launches checked and their instants enqueued by the dispatch engines of every die, before any core takes a ticket in the core
cycle (R235). Up to 4 instants of a launch may be uncleared (R42), so the instants allowed are enqueued at once. -/
def State.enqueueAct (s : State) : State :=
  s.each (List.range 8) fun s d =>
    let s := s.each (s.launchesOf d) fun s l => (s.launchCheck l).finishLaunch l
    s.each ((s.launchesOf d).flatMap fun l => [l, l, l, l]) State.instantEnqueue

/-- One core cycle of a die's dispatch and clearing engines: tickets are taken, instants cleared, and versions merged. -/
def State.dieAct (s : State) (d : Nat) : State :=
  let s := (s.askThresholds d).askResumes d
  let s := s.each ((List.range 64).map fun k => 64 * d + k) fun s n =>
    if s.tickets.all (fun t => decide (t.2.2 = [])) then s else s.ticketTake n
  let s := s.each (s.launchesOf d) State.clearInstant
  s.each (s.store.unmerged.filter fun u => decide (homeDie (u.1 * 128) = d)) fun s u => s.versionMerge u.1 u.2.1 u.2.2

/-! ### The package -/

/-- The partition resets that came due in a core cycle (R394, R400). -/
def State.takeResets (s : State) : State := ({ s with resetDue := [] } : State).each s.resetDue State.resetPartition

/-- What the package does of itself in a core cycle: parking, throttle steps, partition resets, walks and requests that wait,
multicasts, trace segments and the scrubber (R345, R353, R357, R379, R380, R400, R401, R407, R409); in standby neither the
storage port nor the fabric (R406). -/
def State.packageAct (s : State) : State :=
  let s := s.each (s.cores.map Prod.fst) State.parkGate
  let s := s.returnToActive.each (List.range 8) State.moveStep
  let s := s.each s.resetting State.resetComplete
  let s := s.takeResets
  let s := s.each ((s.walks.filter fun w => decide (529 ≤ w.x.core)).map WalkWait.id) fun s id => (s.walkRestart id).walkTimeout id
  let s := s.each (s.ptmcs.map Ptmc.id) fun s id => (s.ptmcOrdered id).ptmcComplete id
  let s := s.settleGuests.awake fun s => s.retryWaiting.retryWalks.sealTimer.segmentWrite
  if s.timebase.toNat % 65536 = 0 then s.scrubRead else s

/-! ### The step and the fetch word -/

/-- An agent's turn: a core, the engines of a die from 1,000 on, the enqueueing of instants, the choices of pre-emption, the actions at
group boundaries, the package, what retires, a context that issues, or one that waits for a set. -/
def State.act (ex : Exec) (s : State) (a : Nat) : Out :=
  let x : CtxRef := ⟨a % 10000 / 4, a % 4⟩
  if a < 1000 then .next (s.coreAct a)
  else if a < 1008 then .next (s.dieAct (a - 1000))
  else if a = 1100 then .next s.enqueueAct
  else if a = 1200 then .next (s.each (List.range 8) State.preemptChoice)
  else if a < 2000 then .next s.boundaryAct
  else if a < 4000 then .next s.packageAct
  else if a < 10000 then .next s.retireAct
  else if a < 20000 then s.issueAct ex x
  else .next (s.setAcquire x)

/-- One step with the meaning of instructions as an argument: the first event of the agenda; else the boot while it is
pending; else the next agent's turn in this core cycle; else the core cycle ends (log 1). -/
def State.stepWith (ex : Exec) (s : State) : Out :=
  match s.agenda with
  | i :: rest => ex i { s with agenda := rest }
  | [] =>
    if s.boot = .pending then .next s.packageReset
    else
      match s.turn with
      | a :: rest => ({ s with turn := rest } : State).act ex a
      | [] => .next s.coreCycle

end Sys2Proof.Machine
end

