-- ==== Sys2Proof/Machine/Step.lean ====
section
/-!
DEFINITION. One step of the machine, and the instruction placed where the next step fetches it.
-/

namespace Sys2Proof.Machine

/-- One step (log 1): State.stepWith with the meanings of Dispatch.lean. -/
def step (s : State) : Host.Outcome State Fault Refusal := s.stepWith exec

/-- The state with the instruction of bits `w` placed where the next step fetches it (03_bundles R52): a slot of three
bytes, the bits above `nbits` zero. -/
def State.withFetchWord (s : State) (nbits w : Nat) : State := s.placeWord (BitVec.ofNat 24 (w % 2 ^ nbits))

end Sys2Proof.Machine
end

