-- ==== Sys2Proof/Safety.lean ====
section
/-!
DEFINITION. The terms in which claims are made: when a move's operation is carried out (03_bundles R57, R63, R69, R73),
what it leaves alone, which bytes of memory an access may change, and what counts as a sound store.
-/

namespace Sys2Proof.Machine

/-! ### When a move is carried out -/

/-- Whether the class 1 checks of a move pass: its source and destination exist in the mode it runs in, and a vector
goes to no scalar destination (R69, R71). -/
def formed (d : Nat) (a : Src) (s : State) : Bool := (modeCheck s.sup a d (s.me.src s.issue.limm a)).isNone

/-- The operands of a trigger of a unit that uses `us`, with source `a` (R72, R73). -/
def State.operands (s : State) (u : Unit11) (us : Uses) (a : Src) : Opnds := s.me.opnds u us (s.me.src s.issue.limm a)

/-- Whether the tags of the operands used agree and their clock is present (R73). -/
def clocked (u : Unit11) (us : Uses) (a : Src) (s : State) : Bool :=
  (tagCheck s.me ((us.vals (s.me.latchO u) (s.me.latchP u) (s.me.src s.issue.limm a)).map Value.tag)).isNone

/-- Whether a core has a unit: supervisor and management cores have no vector, matrix or copy engine (R69). -/
def State.hasUnit (s : State) (u : Unit11) : Bool := !(s.sup && (decide (u = .ve) || decide (u = .mx) || decide (u = .cp)))

/-- A trigger whose operation is carried out: it is well formed, its guard holds, its unit exists and its operands pass
the check of R73. -/
def fires (u : Unit11) (d : Nat) (us : Uses) (a : Src) (g : Guard) (s : State) : Bool :=
  formed d a s && s.me.guard g && s.hasUnit u && clocked u us a s

/-- The state after a move that has completed. -/
def State.retired (s : State) : State := { s with last := .done }

/-- The state in which an operation's accesses have passed their checks, the sets it touches acquired and the wounds
that this brings made (R218, R322-R325), with the pieces it accesses. -/
def State.passes (s : State) (l : List Span) (t : State) (ps : List SpanP) : Prop := s.vet s.cur l = .ok t ps

/-- The spans of one access passed: the watchpoints hold its bytes together (R218, R375). -/
def State.passesOne (s : State) (l : List Span) (t : State) (ps : List SpanP) : Prop := s.vetFor s.cur .plain [l] = .ok t ps

/-- A command's or vector access's checks passed, order by order, with no memory-side page among the bytes (R267, R291,
R311); `r` has the suppressed watches of the group used up (R375). -/
def State.passesAll (s : State) (what : AccFor) (l : List Span) (t : State) (ps : List SpanP) : Prop :=
  ∃ r qs, s.watchSpans s.cur l = (r, none) ∧ r.resolveSpans r.cur l = .ok qs ∧ firstMs qs = none ∧
    r.admitFor r.cur what qs = .ok t ps

/-- A memory-side operation's checks passed: no watchpoint over what it reads and writes, every byte in a memory-side page, room
in the log, no poison (R334, R375). -/
def State.passesMs (s : State) (watched : List Watched) (l : List Span) (t : State) (ps : List SpanP) : Prop :=
  ∃ r, s.watchOne s.cur watched = (r, none) ∧ r.resolveSpans r.cur l = .ok ps ∧ firstPlain ps = none ∧
    r.roomFor r.cur (r.viewer r.cur) ((ps.filter fun a => a.span.write).flatMap SpanP.ps) = some t ∧
    t.poisoned (ps.flatMap SpanP.ps) = false

/-- The bytes that some pieces cover. -/
def inPieces (ps : List Piece) (a : Nat) : Bool := ps.any fun p => decide (p.key ≤ a ∧ a < p.key + p.n)

/-! ### What a move leaves alone -/

/-- A move that did nothing, or only added results still on their way to those of the context that executes: registers,
latches, ports, clocks, loops, flags, counters, memory, every other context and every engine are as before. -/
def onlyPends (s t : State) : Prop :=
  t = s.retired ∨ ∃ ps, t = (s.updCtx s.cur fun c => { c with pend := c.pend ++ ps }).retired

/-- The same, with what each result added must satisfy. -/
def pendsOnly (s t : State) (D : Pend → Prop) : Prop :=
  t = s.retired ∨
    ∃ ps, (∀ p ∈ ps, D p) ∧ t = (s.updCtx s.cur fun c => { c with pend := c.pend ++ ps }).retired

/-- A context after `n` schedule cycles in which its groups do nothing but let results land (R60, R74). -/
def Ctx.cycles : Nat → Ctx → Ctx
  | 0, c => c
  | n + 1, c => cycles n c.landDue.tick

/-- The moves of a group run in order from state `s` to state `t`: each slot is empty, or decodes to an instruction that
`exec` completes and is no transfer in the end bundle of an armed loop (R181). -/
def runsAll (x : CtxRef) (c0 : Ctx) (pre : Before) : List GSlot → State → State → Prop
  | [], s, t => s = t
  | e :: es, s, t =>
    (rawMove e.raw = false ∧ runsAll x c0 pre es s t) ∨
      e.idleTransfer c0 = false ∧ ∃ i u, decodeSlot e.raw = .ok i ∧ exec i (s.atSlot e pre) = .next u ∧ u.last = .done ∧
        sameRun c0 (u.ctx x) = true ∧ runsAll x c0 pre es u t

/-- What a program sees of a context apart from results still on their way: general, vector and clock registers, latches,
result ports, flags, rounding mode, drop count, stamp, trap registers, loops, matrix loop state, tiles and live
counters. -/
def Ctx.sameRegs (c d : Ctx) : Prop :=
  c.g = d.g ∧ c.v = d.v ∧ c.kdef = d.kdef ∧ c.kpres = d.kpres ∧ c.lo = d.lo ∧ c.lp = d.lp ∧ c.q = d.q ∧ c.ff = d.ff ∧
    c.fpm = d.fpm ∧ c.drop = d.drop ∧ c.stamp = d.stamp ∧ c.tr = d.tr ∧ c.loop0 = d.loop0 ∧ c.loop1 = d.loop1 ∧
    c.mxl = d.mxl ∧ c.at8 = d.at8 ∧ c.ct4 = d.ct4 ∧ c.lctr = d.lctr

/-! ### The shapes of claims about a trigger -/

/-- Whenever a trigger is carried out with operands and a state that satisfy `P`, it completes and leaves `k` of them. -/
def completesIf (u : Unit11) (d : Nat) (us : Uses) (i : Src → Guard → Instr) (P : Opnds → State → Prop)
    (k : Opnds → State → State) : Prop :=
  ∀ a g s, fires u d us a g s = true → P (s.operands u us a) s →
    exec (i a g) s = .next (k (s.operands u us a) s).retired

/-- Whenever a trigger is carried out, it completes and leaves `k` of its operands and the state. -/
def completes (u : Unit11) (d : Nat) (us : Uses) (i : Src → Guard → Instr) (k : Opnds → State → State) : Prop :=
  completesIf u d us i (fun _ _ => True) k

/-- Whenever a trigger is carried out with operands and a state that satisfy `P`, it traps in class 5 with a cause and an
INFO (R63). -/
def trapsIf (u : Unit11) (d : Nat) (us : Uses) (i : Src → Guard → Instr) (P : Opnds → State → Prop) (cause : Byte)
    (info : Opnds → Nat) : Prop :=
  ∀ a g s, fires u d us a g s = true → P (s.operands u us a) s →
    exec (i a g) s = finish s (slotOf a d g) (.trap cause 5 (info (s.operands u us a)))

/-- A scalar result with the common tag and the gathered taint of the operands (R73), landing at a port after `lat`
cycles, with flags. -/
def Opnds.put (x : Opnds) (q : Port) (lat : Nat) (w : Word) (f : Num.Flags) (s : State) : State :=
  s.land q lat (.scalar w x.tag x.taint) f

/-- A vector result, likewise. -/
def Opnds.putV (x : Opnds) (lat : Nat) (r : Lanes) (f : Num.Flags) (s : State) : State :=
  s.land .veq lat (.ve ⟨r, x.tag, x.taint⟩) f

/-- An operation of both scalar units, `x1` having the port of its `x0` twin plus 0x40 (R164), whose result is a function
of its three operands and sets no flag. -/
def bothUnits (d : Nat) (us : Uses) (i0 i1 : Src → Guard → Instr) (lat : Nat) (f : Word → Word → Word → Word) : Prop :=
  completes .x0 d us i0 (fun x s => x.put .x0q lat (f x.o.word x.p.word x.t.word) 0#6 s) ∧
    completes .x1 (d + 0x40) us i1 (fun x s => x.put .x1q lat (f x.o.word x.p.word x.t.word) 0#6 s)

/-- A floating-point operation of both scalar units under the rounding mode in force at the trigger, its flags landing
with the result (R131, R135). -/
def bothUnitsF (d : Nat) (us : Uses) (i0 i1 : Src → Guard → Instr) (lat : Nat)
    (f : Num.Mode → Word → Word → Word → Word × Num.Flags) : Prop :=
  completes .x0 d us i0 (fun x s =>
      let r := f s.me.mode x.o.word x.p.word x.t.word; x.put .x0q lat r.1 r.2 s) ∧
    completes .x1 (d + 0x40) us i1 (fun x s =>
      let r := f s.me.mode x.o.word x.p.word x.t.word; x.put .x1q lat r.1 r.2 s)

/-- A vector operation without flags: whenever it is carried out it completes, lane `j` of its result being `f` of the
lanes `j` of its operands (R247, R248). -/
def lanewise (d : Nat) (us : Uses) (i : Src → Guard → Instr) (lat : Nat) (f : Lane → Lane → Lane → Lane) : Prop :=
  ∀ a g s, fires .ve d us a g s = true → ∃ r : Lanes,
    (∀ j : Fin 64, r[j] = f (s.operands .ve us a).o.lanes[j] (s.operands .ve us a).p.lanes[j]
      (s.operands .ve us a).t.lanes[j]) ∧
    exec (i a g) s = .next ((s.operands .ve us a).putV lat r 0#6 s).retired

/-- A vector floating-point operation under the rounding mode in force at the trigger: its flags are those that any of
its 64 lanes raises (R131, R247, R248). -/
def lanewiseF (d : Nat) (us : Uses) (i : Src → Guard → Instr) (lat : Nat)
    (f : Num.Mode → Lane → Lane → Lane → Lane × Num.Flags) : Prop :=
  ∀ a g s, fires .ve d us a g s = true → ∃ (r : Lanes) (fl : Num.Flags),
    (∀ j : Fin 64, r[j] = (f s.me.mode (s.operands .ve us a).o.lanes[j] (s.operands .ve us a).p.lanes[j]
      (s.operands .ve us a).t.lanes[j]).1) ∧
    (∀ b, fl.getLsbD b = true ↔ ∃ j : Fin 64, (f s.me.mode (s.operands .ve us a).o.lanes[j]
      (s.operands .ve us a).p.lanes[j] (s.operands .ve us a).t.lanes[j]).2.getLsbD b = true) ∧
    exec (i a g) s = .next ((s.operands .ve us a).putV lat r fl s).retired

/-- A vector compare: bit `j` of the mask it lands in `ve.q2` is `c` of the lanes `j`, and its flags are those that any
lane raises (R247, R248). -/
def lanemask (d : Nat) (us : Uses) (i : Src → Guard → Instr) (lat : Nat) (c : Lane → Lane → Bool)
    (f : Lane → Lane → Num.Flags) : Prop :=
  ∀ a g s, fires .ve d us a g s = true → ∃ (m : Word) (fl : Num.Flags),
    (∀ j : Fin 64, m.getLsbD j = c (s.operands .ve us a).o.lanes[j] (s.operands .ve us a).t.lanes[j]) ∧
    (∀ b, fl.getLsbD b = true ↔ ∃ j : Fin 64,
      (f (s.operands .ve us a).o.lanes[j] (s.operands .ve us a).t.lanes[j]).getLsbD b = true) ∧
    exec (i a g) s = .next ((s.operands .ve us a).put .veq2 lat m fl s).retired

/-- A format record, descriptor, table or index list of `n` bytes read at a trigger: its bytes as they stand before the
group, with their taint, once the read has passed its checks (R280, R297, R413). -/
def State.recordRead (s : State) (va n : Nat) (t : State) (bs : List Byte) (taint : Bool) : Prop :=
  ∃ u p, s.passesAll .record [⟨va, n, false⟩] u [p] ∧
    t = (u.readBefore p).1.recordLate va ∧ bs = (u.readBefore p).2.1 ∧ taint = (u.readBefore p).2.2

/-- The data accesses of a command passed (R291, R311): the pieces it reads and those it writes, in element order. -/
def State.dataPass (s : State) (l : List Span) (t : State) (rd wr : List Piece) : Prop :=
  ∃ ps, s.passesAll .command l t ps ∧ rd = (ps.filter fun a => !a.span.write).flatMap SpanP.ps ∧
    wr = (ps.filter fun a => a.span.write).flatMap SpanP.ps

/-- State `t` is `v` with a command at the end of an engine queue of the core that executes: memory, counters and what a
program sees of every context are as before (R78, R214). -/
def State.joined (v t : State) (u : Unit11) (c : Cmd) : Prop :=
  (t.core v.cur.core).queue u = (v.core v.cur.core).queue u ++ [c] ∧ t.store.mem = v.store.mem ∧
    t.counters = v.counters ∧ ∀ x, (t.ctx x).sameRegs (v.ctx x)

/-- What a command captures at its trigger (R214, R280, R297): its port, its operands with their common tag, the record
bytes, and the pieces it reads and writes. -/
def Cmd.carries (c : Cmd) (port : Nat) (x : Opnds) (recs : List (List Byte)) (rd wr : List Piece) : Prop :=
  c.port = port ∧ c.o = x.o ∧ c.p = x.p ∧ c.t = x.t ∧ c.tag = x.tag ∧ c.recs = recs ∧ c.reads = rd ∧ c.writes = wr ∧
    c.started = false

/-- An instruction completes from a state in which its checks left `v`, having put a command into a queue; the count of a copy
command but `stbl` is then the context's latest (R301). -/
def queues (i : Instr) (s v : State) (u : Unit11) (port : Nat) (x : Opnds) (recs : List (List Byte))
    (rd wr : List Piece) (D : Cmd → Prop) : Prop :=
  ∃ t c, exec i s = .next t ∧ t.last = .done ∧ v.joined t u c ∧ c.carries port x recs rd wr ∧ c.ctx = v.cur.ctx ∧
    (u = .cp → (t.ctx v.cur).lastCnt = if port = 0x269 then v.me.lastCnt else c.count) ∧ D c

/-! ### A sound store -/

/-- The invariant of the store that every step keeps: memory is in its canonical form. -/
def State.sound (s : State) : Prop := Memory.wf s.store.mem

end Sys2Proof.Machine
end

