-- ==== Sys2Proof/Certificates/Slice0/Obligations.lean ====
section
/-!
DEFINITION. The statements for the provers: each formalises rules R<n> of spec/ or, where it says so, a choice of this
model that a log entry names.
-/

open Sys2Proof Sys2Proof.Machine

/-- Words written out from the spec's encoding decode to the instructions they stand for. A slot is SRC in bits 23:14,
DST in bits 13:4, GUARD in bits 3:0. For each unit block one word is given: x0.add from g6 (DST 0x082), x1.cwr from
the short immediate 1 (0x0E3), ls.st.n64 from x0.q, br.jmp from imm, ck.merge from k3, sy.tend, ve.bxenc from imm,
mx.cst from the short immediate 0 under p3, cp.lin from imm, ms.add.f32 from g21, sv.srd from imm, and plain moves g5
to x0.o, x0.q to g7 and -1 to v31 under k7. (03_bundles R56, 03_bundles R57, 03_bundles R67, 03_bundles R68,
03_bundles R70) -/
def Obligations.DecodedWords : Prop :=
  decodeSlot 0x018820#24 = .ok (.x0Add (.g 6) .always) ∧
  decodeSlot 0x404E30#24 = .ok (.x1Cwr (.short 1) .always) ∧
  decodeSlot 0x2010C0#24 = .ok (.lsStN64 (.port .x0q) .always) ∧
  decodeSlot 0x1C1420#24 = .ok (.brJmp .imm .always) ∧
  decodeSlot 0x18D650#24 = .ok (.ckMerge (.k 3) .always) ∧
  decodeSlot 0x401870#24 = .ok (.syTend (.short 0) .always) ∧
  decodeSlot 0x1C1B50#24 = .ok (.veBxenc .imm .always) ∧
  decodeSlot 0x40224B#24 = .ok (.mxCst (.short 0) (.pred 3)) ∧
  decodeSlot 0x1C2620#24 = .ok (.cpLin .imm .always) ∧
  decodeSlot 0x056A20#24 = .ok (.msAddF32 (.g 21) .always) ∧
  decodeSlot 0x1C2C40#24 = .ok (.svSrd .imm .always) ∧
  decodeSlot 0x014800#24 = .ok (.move (.g 5) (.o .x0) .always) ∧
  decodeSlot 0x200070#24 = .ok (.move (.port .x0q) (.g 7) .always) ∧
  decodeSlot 0x7FC5F7#24 = .ok (.move (.short 0xFF) (.v 31) (.clk 6))

/-- Decoding the word of any move gives that move back. For every well-formed instruction that has an encoding (every
move: the plain move and all 222 trigger ports), with every source, destination and guard, decoding its word gives the
instruction. (03_bundles R56, 03_bundles R57, 03_bundles R67, 03_bundles R68, 03_bundles R70) -/
def Obligations.EncodedInstructionDecodes : Prop :=
  ∀ i w, i.wf = true → encode i = some w → decodeSlot w = .ok i

/-- A word that decodes is the word of the instruction it decodes to, which is well formed. No two words decode to one
instruction, and no bit of a word that decodes is ignored: the instruction decoded encodes to exactly that word.
(03_bundles R56, 03_bundles R57, 03_bundles R67, 03_bundles R68, 03_bundles R70) -/
def Obligations.DecodedWordEncodesBack : Prop :=
  ∀ w i, decodeSlot w = .ok i → encode i = some w ∧ i.wf = true

/-- Every reserved or undefined field of a slot is refused by name. The guards 0xC-0xE, an empty slot with SRC or DST
nonzero, the sources 0x072-0x07F, 0x08C-0x0FF and 0x200-0x3FF, and the destinations 0x070-0x07F and 0x300-0x3FF are
refused whatever the other fields are (a reserved guard first, then the source, then the destination), and an empty
slot of zeros holds no move. (03_bundles R57, 03_bundles R58, 03_bundles R67, 03_bundles R70, 03_bundles R79) -/
def Obligations.ReservedEncodingsRefused : Prop :=
  (∀ w, 12 ≤ bitsOf w.toNat 0 4 → bitsOf w.toNat 0 4 < 15 → decodeSlot w = .error .reservedGuard) ∧
  (∀ w, bitsOf w.toNat 0 4 = 15 → w ≠ 0xF#24 → decodeSlot w = .error .emptyNonzero) ∧
  decodeSlot 0xF#24 = .error .emptySlot ∧
  (∀ w, bitsOf w.toNat 0 4 < 12 →
    (0x072 ≤ bitsOf w.toNat 14 10 ∧ bitsOf w.toNat 14 10 ≤ 0x07F ∨
      0x08C ≤ bitsOf w.toNat 14 10 ∧ bitsOf w.toNat 14 10 ≤ 0x0FF ∨ 0x200 ≤ bitsOf w.toNat 14 10) →
    decodeSlot w = .error .undefSource) ∧
  ∀ w, bitsOf w.toNat 0 4 < 12 → Src.ofCode (bitsOf w.toNat 14 10) ≠ none →
    (0x070 ≤ bitsOf w.toNat 4 10 ∧ bitsOf w.toNat 4 10 ≤ 0x07F ∨ 0x300 ≤ bitsOf w.toNat 4 10) →
    decodeSlot w = .error .undefDestination

/-- A step runs the move decoded at the program counter, and an event of the agenda. In the turn in which a ready
context of a core that stands in no freeze issues, with nothing late due and no breakpoint that matches, the group
fetched at the context's pc is executed. If it is one slot that passes the checks of classes 1 and 2, is no transfer
in the end bundle of an armed loop, and decodes to i, the step is exec of i at that state (with results due landed and
the slot's address, LIMM and number set down for it): a completed move is followed by what ends every group
(State.commitGroup), a trapped one by the trap taken before the group, a blocked one by the block, where no command of
its own group still has its effects to make (log 131). An event at the head of the agenda is exec of that event (log
1). (03_bundles R59, 03_bundles R60, 03_bundles R63, 10_seq_traps R205) -/
def Obligations.StepRunsTheDecodedInstruction : Prop :=
  (∀ (s : State) i rest, s.agenda = i :: rest → step s = exec i { s with agenda := rest }) ∧
  ∀ (s q t : State) n k rest b e i,
    s.agenda = [] → s.boot ≠ .pending → n < 529 → k < 4 → s.turn = issueTurn n k :: rest →
    (s.core n).running = some k → (s.ctx ⟨n, k⟩).status = .ready → s.standing n = false →
    (s.ctx ⟨n, k⟩).lateNow = [] →
    q = ({ s with turn := rest, cur := ⟨n, k⟩ } : State).updCtx ⟨n, k⟩ Ctx.landDue →
    q.breakHit ⟨n, k⟩ = false → q.fetch ⟨n, k⟩ (q.ctx ⟨n, k⟩).pc = .ok b →
    q.form ⟨n, k⟩ b = ⟨[e], false, none⟩ → Group.check ⟨[e], false, none⟩ (isSup n) (q.ctx ⟨n, k⟩) = none →
    e.idleTransfer (q.ctx ⟨n, k⟩) = false → (q.ctx ⟨n, k⟩).emuDone = [] → decodeSlot e.raw = .ok i →
    exec i (q.atSlot e (q.before n)) = .next t →
    (t.last = .done → sameRun (q.ctx ⟨n, k⟩) (t.ctx ⟨n, k⟩) = true →
      step s = .next ((t.afterGroup.commitGroup ⟨n, k⟩ [e]).rehalt ⟨n, k⟩)) ∧
    (∀ bl, t.last = .blocked bl → (q.atSlot e (q.before n)).ownCmds n = [] → step s = .next ((q.enterBlock ⟨n, k⟩ bl).rehalt ⟨n, k⟩)) ∧
    ∀ tr, t.last = .trapped tr → step s = .next ((q.trapWith ⟨n, k⟩ e.limm tr).rehalt ⟨n, k⟩)

/-- A group whose moves all complete takes effect whole. Whatever the number of its moves, a group that passes the
checks of classes 1 and 2 and whose moves exec completes one after the other (moves to clock registers last, every
check against the context as it stood before the group) ends in the state they leave, followed by what ends every
group. By induction over the slots. (03_bundles R59, 03_bundles R60, 03_bundles R63, 03_bundles R64) -/
def Obligations.GroupRunsItsMovesTogether : Prop :=
  ∀ (s t : State) x gr,
    gr.check (isSup x.core) (s.ctx x) = none → gr.fail = none → (s.ctx x).emuDone = [] →
    runsAll x (s.ctx x) (s.before x.core) (execOrder gr.slots) s t →
    s.issueGroup exec x gr = .next (t.afterGroup.commitGroup x gr.slots)

/-- The one-cycle integer operations of both scalar units give the results of R165. Every trigger of add, sub, and,
or, xor, shl, shr, sar, ror, ceq, clt.s64, clt.n64, sel, min.s64, max.s64, clz, popc, bfx and sxt that is carried out
(well formed, guard true, operands used agreeing in tag and present) completes in both units, and its result lands
after one cycle with no flag: shifts by bits 5:0 of t alone, clz the number of leading zero bits (64 for 0), bfx the
bits from pos = t[5:0], wid = t[12:6] of them, sxt with the sign bit t[5:0]. (R165) -/
def Obligations.IntegerOperations : Prop :=
  bothUnits 0x082 .ot .x0Add .x1Add 1 (fun o _ t => o + t) ∧
  bothUnits 0x083 .ot .x0Sub .x1Sub 1 (fun o _ t => o - t) ∧
  bothUnits 0x084 .ot .x0And .x1And 1 (fun o _ t => o &&& t) ∧
  bothUnits 0x085 .ot .x0Or .x1Or 1 (fun o _ t => o ||| t) ∧
  bothUnits 0x086 .ot .x0Xor .x1Xor 1 (fun o _ t => o ^^^ t) ∧
  bothUnits 0x087 .ot .x0Shl .x1Shl 1 (fun o _ t => o <<< (t.toNat % 64)) ∧
  bothUnits 0x088 .ot .x0Shr .x1Shr 1 (fun o _ t => o >>> (t.toNat % 64)) ∧
  bothUnits 0x089 .ot .x0Sar .x1Sar 1 (fun o _ t => o.sshiftRight (t.toNat % 64)) ∧
  bothUnits 0x08A .ot .x0Ror .x1Ror 1 (fun o _ t => o.rotateRight (t.toNat % 64)) ∧
  bothUnits 0x08B .ot .x0Ceq .x1Ceq 1 (fun o _ t => if o = t then 1 else 0) ∧
  bothUnits 0x08C .ot .x0CltS64 .x1CltS64 1 (fun o _ t => if o.toInt < t.toInt then 1 else 0) ∧
  bothUnits 0x08D .ot .x0CltN64 .x1CltN64 1 (fun o _ t => if o.toNat < t.toNat then 1 else 0) ∧
  bothUnits 0x08E .opt .x0Sel .x1Sel 1 (fun o p t => if t ≠ 0 then o else p) ∧
  bothUnits 0x08F .ot .x0MinS64 .x1MinS64 1 (fun o _ t => if o.toInt ≤ t.toInt then o else t) ∧
  bothUnits 0x090 .ot .x0MaxS64 .x1MaxS64 1 (fun o _ t => if t.toInt ≤ o.toInt then o else t) ∧
  bothUnits 0x091 .t .x0Clz .x1Clz 1
    (fun _ _ t => BitVec.ofNat 64 ((List.range 64).takeWhile fun i => !t.getLsbD (63 - i)).length) ∧
  bothUnits 0x092 .t .x0Popc .x1Popc 1
    (fun _ _ t => BitVec.ofNat 64 ((List.range 64).countP fun i => t.getLsbD i)) ∧
  bothUnits 0x093 .ot .x0Bfx .x1Bfx 1 (fun o _ t =>
    let wid := t.toNat / 64 % 128
    if wid = 0 ∨ 64 < wid then 0 else BitVec.ofNat 64 ((o >>> (t.toNat % 64)).toNat % 2 ^ wid)) ∧
  bothUnits 0x094 .ot .x0Sxt .x1Sxt 1 (fun o _ t => (o.setWidth (t.toNat % 64 + 1)).signExtend 64)

/-- Multiplies and divides of both scalar units give the results of R166 after 3 and 18 cycles. mul is the low half
and mulh the bits 127:64 of the exact product, signed and unsigned; div rounds toward zero and rem takes the sign of
the dividend; a division by zero gives all ones and the dividend as remainder; -2^63 by -1 gives -2^63 with remainder
0. None sets a flag. (R166) -/
def Obligations.MultiplyAndDivide : Prop :=
  bothUnits 0x095 .ot .x0Mul .x1Mul 3 (fun o _ t => BitVec.ofNat 64 (o.toNat * t.toNat)) ∧
  bothUnits 0x096 .ot .x0MulhS64 .x1MulhS64 3 (fun o _ t => BitVec.ofInt 64 (o.toInt * t.toInt / 2 ^ 64)) ∧
  bothUnits 0x097 .ot .x0MulhN64 .x1MulhN64 3 (fun o _ t => BitVec.ofNat 64 (o.toNat * t.toNat / 2 ^ 64)) ∧
  bothUnits 0x098 .ot .x0DivS64 .x1DivS64 18 (fun o _ t =>
    if t = 0 then 0xFFFFFFFFFFFFFFFF
    else if o = 0x8000000000000000 ∧ t.toInt = -1 then 0x8000000000000000
    else BitVec.ofInt 64 (o.toInt.tdiv t.toInt)) ∧
  bothUnits 0x099 .ot .x0DivN64 .x1DivN64 18 (fun o _ t =>
    if t = 0 then 0xFFFFFFFFFFFFFFFF else BitVec.ofNat 64 (o.toNat / t.toNat)) ∧
  bothUnits 0x09A .ot .x0RemS64 .x1RemS64 18 (fun o _ t =>
    if t = 0 then o
    else if o = 0x8000000000000000 ∧ t.toInt = -1 then 0
    else BitVec.ofInt 64 (o.toInt.tmod t.toInt)) ∧
  bothUnits 0x09B .ot .x0RemN64 .x1RemN64 18 (fun o _ t => if t = 0 then o else BitVec.ofNat 64 (o.toNat % t.toNat))

/-- The two halves of a product, and quotient with remainder, determine the operands' exact product and dividend. Bits
127:64 and the low word put together are the exact product, signed and unsigned; divisor times quotient plus remainder
is the dividend, for every divisor, zero included, modulo 2^64; the unsigned remainder is below a divisor that is not
0. (08_seq_scalar R166) -/
def Obligations.ProductsAndQuotientsAreExact : Prop :=
  (∀ o t : Word, (mulhS64 o t).toInt * 2 ^ 64 + (mulW o t).toNat = o.toInt * t.toInt) ∧
  (∀ o t : Word, (mulhN64 o t).toNat * 2 ^ 64 + (mulW o t).toNat = o.toNat * t.toNat) ∧
  (∀ o t : Word, divS64 o t * t + remS64 o t = o) ∧
  (∀ o t : Word, divN64 o t * t + remN64 o t = o) ∧
  (∀ o t : Word, t ≠ 0 → (remN64 o t).toNat < t.toNat) ∧
  ∀ o t : Word, t ≠ 0 → (remS64 o t).toInt.natAbs < t.toInt.natAbs

/-- The FP32 operations of both scalar units complete with one rounding under the mode in force. add, mul and fma of
the FP32 values in bits 31:0 round once under ctx.fpm as it stands at the trigger and put the FP32 result in bits
31:0, bits 63:32 zero, after 3 cycles; clt is signalling, and takes 1; itof rounds a signed 64-bit integer; ftoi
converts under R126. Their flags land with the result. NaNs are canonical, inf - inf and 0 * inf are NaN with NV, also
in an fma with a NaN addend, exact zero sums have the sign of R167, and ftoi saturates with NV. (Num.addV, mulV, fmaV,
ltV, ofInt and toInt are the model's exact arithmetic on FP32 values.) (08_seq_scalar R164, 08_seq_scalar R167,
06_numbers R124, 06_numbers R126, 06_numbers R131, 06_numbers R135) -/
def Obligations.ScalarFloatOperations : Prop :=
  bothUnitsF 0x09C .ot .x0AddF32 .x1AddF32 3 (fun md o _ t =>
    let r := Num.addV Num.fp32 md (f32w o) (f32w t); (BitVec.ofNat 64 (r.1 % 2 ^ 32), r.2)) ∧
  bothUnitsF 0x09D .ot .x0MulF32 .x1MulF32 3 (fun md o _ t =>
    let r := Num.mulV Num.fp32 md (f32w o) (f32w t); (BitVec.ofNat 64 (r.1 % 2 ^ 32), r.2)) ∧
  bothUnitsF 0x09E .opt .x0FmaF32 .x1FmaF32 3 (fun md o p t =>
    let r := Num.fmaV Num.fp32 md (f32w o) (f32w p) (f32w t); (BitVec.ofNat 64 (r.1 % 2 ^ 32), r.2)) ∧
  bothUnitsF 0x09F .ot .x0CltF32 .x1CltF32 1 (fun _ o _ t =>
    (if Num.ltV (f32w o) (f32w t) then 1 else 0, if (f32w o).isNan || (f32w t).isNan then Num.NV else 0)) ∧
  bothUnitsF 0x0A0 .t .x0ItofS64 .x1ItofS64 3 (fun md _ _ t =>
    let r := Num.ofInt Num.fp32 md t.toInt; (BitVec.ofNat 64 (r.1 % 2 ^ 32), r.2)) ∧
  bothUnitsF 0x0A1 .t .x0FtoiS64 .x1FtoiS64 3 (fun md _ _ t =>
    let r := Num.toInt md 64 (f32w t); (BitVec.ofInt 64 r.1, r.2)) ∧
  (∀ md (a b : Num.FVal), a.isNan = true ∨ b.isNan = true →
    Num.addV Num.fp32 md a b = (0x7FC00000, if a.isSnan || b.isSnan then Num.NV else 0) ∧
    Num.mulV Num.fp32 md a b = (0x7FC00000, if a.isSnan || b.isSnan then Num.NV else 0)) ∧
  (∀ md n (z : Num.FVal), z.isNan = false →
    Num.addV Num.fp32 md (.inf n) (.inf (!n)) = (0x7FC00000, Num.NV) ∧
    (z ≠ .inf (!n) → Num.addV Num.fp32 md (.inf n) z = (Num.infOf Num.fp32 n, 0)) ∧
    (z.isZero = true → Num.mulV Num.fp32 md (.inf n) z = (0x7FC00000, Num.NV) ∧
      Num.mulV Num.fp32 md z (.inf n) = (0x7FC00000, Num.NV) ∧
      ∀ c : Num.FVal, Num.fmaV Num.fp32 md (.inf n) z c = (0x7FC00000, Num.NV) ∧
        Num.fmaV Num.fp32 md z (.inf n) c = (0x7FC00000, Num.NV))) ∧
  (∀ md n p i j k l, (Num.Dy.add (Num.FVal.fin n i k).dy (Num.FVal.fin p j l).dy).m = 0 →
    Num.addV Num.fp32 md (.fin n i k) (.fin p j l) =
      (Num.zeroOf Num.fp32 (if i = 0 ∧ j = 0 ∧ n = p then n else decide (md = .rdn)), 0)) ∧
  (∀ md s n, Num.toInt md 64 (.nan s) = (0, Num.NV) ∧
    Num.toInt md 64 (.inf n) = (if n then -2 ^ 63 else 2 ^ 63 - 1, Num.NV)) ∧
  ∀ md a, -2 ^ 63 ≤ (Num.toInt md 64 a).1 ∧ (Num.toInt md 64 a).1 ≤ 2 ^ 63 - 1

/-- crd reads and cwr writes the ctx registers, or trap CTX_REG and PRIV. In both units: a number 0x00-0x07 is read in
any mode, with the operand's taint, and taint set for ctx.id and ctx.nrg; the trap registers 0x10-0x18 are read in
supervisor or emulation mode (ctx.tret, write-only, reads 0); a cwr of any of them but ctx.tret, which ends a handler,
lands its value at trigger + 1. A reserved number, or bits 63:8 nonzero, is CTX_REG in every mode, and a trap register
outside supervisor and emulation mode PRIV. (08_seq_scalar R161, 08_seq_scalar R162, 08_seq_scalar R163, 08_seq_scalar
R168) -/
def Obligations.ContextRegisterAccess : Prop :=
  let may (x : Opnds) (s : State) : Prop :=
    x.t.word.toNat < 8 ∨ 0x10 ≤ x.t.word.toNat ∧ x.t.word.toNat < 0x19 ∧ (s.sup = true ∨ s.me.emu = true)
  let read (q : Port) (x : Opnds) (s : State) : State :=
    s.land q 1 (.scalar (s.readReg x.t.word.toNat).1 x.tag
      (x.taint || decide (x.t.word.toNat = 4 ∨ x.t.word.toNat = 7))) 0#6
  let write (x : Opnds) (s : State) : State :=
    s.landAt (.ctxReg x.t.word.toNat) (.scalar x.o.word x.tag x.taint)
  let reserved (x : Opnds) (_ : State) : Prop := 8 ≤ x.t.word.toNat ∧ x.t.word.toNat < 0x10 ∨ 0x19 ≤ x.t.word.toNat
  let locked (x : Opnds) (s : State) : Prop :=
    0x10 ≤ x.t.word.toNat ∧ x.t.word.toNat < 0x19 ∧ s.sup = false ∧ s.me.emu = false
  completesIf .x0 0x0A2 .t .x0Crd may (read .x0q) ∧ completesIf .x1 0x0E2 .t .x1Crd may (read .x1q) ∧
  completesIf .x0 0x0A3 .ot .x0Cwr (fun x s => may x s ∧ x.t.word ≠ 0x18) write ∧
  completesIf .x1 0x0E3 .ot .x1Cwr (fun x s => may x s ∧ x.t.word ≠ 0x18) write ∧
  trapsIf .x0 0x0A2 .t .x0Crd reserved 0x09 (fun _ => 0) ∧ trapsIf .x1 0x0E2 .t .x1Crd reserved 0x09 (fun _ => 0) ∧
  trapsIf .x0 0x0A3 .ot .x0Cwr reserved 0x09 (fun _ => 0) ∧ trapsIf .x1 0x0E3 .ot .x1Cwr reserved 0x09 (fun _ => 0) ∧
  trapsIf .x0 0x0A2 .t .x0Crd locked 0x05 (fun _ => 0) ∧ trapsIf .x1 0x0E2 .t .x1Crd locked 0x05 (fun _ => 0) ∧
  trapsIf .x0 0x0A3 .ot .x0Cwr locked 0x05 (fun _ => 0) ∧ trapsIf .x1 0x0E3 .ot .x1Cwr locked 0x05 (fun _ => 0)

/-- A completed operation of x0 or x1 changes nothing but a result on its way to its own port. For every operation of
x0 and x1: registers, latches, ports, clocks, flags, counters, memory and every other context are as before, but for
one result on its way; it goes to the unit's own result port, with no flag for the 26 integer operations and crd; cwr
writes the ctx register it names instead, and in emulation mode a cwr of ctx.tret notes the end of the handler.
(08_seq_scalar R163, 08_seq_scalar R164, 08_seq_scalar R168, 10_seq_traps R221) -/
def Obligations.ScalarFrame : Prop :=
  (∀ f ∈ x0Ops.take 26 ++ [Instr.x0Crd], ∀ a g s t, exec (f a g) s = .next t → t.last = .done →
    pendsOnly s t fun p => p.dest = .port .x0q ∧ p.flags = 0#6) ∧
  (∀ f ∈ x1Ops.take 26 ++ [Instr.x1Crd], ∀ a g s t, exec (f a g) s = .next t → t.last = .done →
    pendsOnly s t fun p => p.dest = .port .x1q ∧ p.flags = 0#6) ∧
  (∀ f ∈ (x0Ops.drop 26).take 6, ∀ a g s t, exec (f a g) s = .next t → t.last = .done →
    pendsOnly s t fun p => p.dest = .port .x0q) ∧
  (∀ f ∈ (x1Ops.drop 26).take 6, ∀ a g s t, exec (f a g) s = .next t → t.last = .done →
    pendsOnly s t fun p => p.dest = .port .x1q) ∧
  ∀ f ∈ [Instr.x0Cwr, Instr.x1Cwr], ∀ a g s t, exec (f a g) s = .next t → t.last = .done →
    (pendsOnly s t fun p => p.flags = 0#6 ∧ ∃ n, n ≠ 0x18 ∧ p.dest = .ctxReg n) ∨
    s.me.emu = true ∧ ∃ w, t = (s.updCtx s.cur fun c => { c with tret := some w }).retired

/-- A result triggered with latency L is in its port at cycle t + L and not before. A context that schedules a result
of latency L at a port lets that port read the old value in every schedule cycle before t + L and the new one at t + L
(with control taint added), whatever else lands, as long as no other result for the port is on its way. Where a card
names a register or anything else instead of a port, with nothing else on its way, it changes at t + L and the context
is as before until then. (R74) -/
def Obligations.ResultLandsAfterItsLatency : Prop :=
  (∀ (c : Ctx) q lat v f, 1 ≤ lat → (∀ p ∈ c.pend, p.dest ≠ .port q) →
    let d := (c.schedule (.port q) lat v f).tick
    ((d.cycles (lat - 1)).landDue.port q = v.orTaint c.ctaint) ∧
    ∀ k, k < lat - 1 → (d.cycles k).landDue.port q = c.port q) ∧
  ∀ (c : Ctx) dest lat v, 1 ≤ lat → c.pend = [] → c.ffPre = none →
    let d := (c.schedule dest lat v 0#6).tick
    (d.cycles (lat - 1)).landDue = c.landOne ⟨0, dest, v, 0#6, false, [], 0#64, none, none⟩ ∧
    ∀ k, k < lat - 1 → (d.cycles k).landDue = { c with pend := [⟨lat - 1 - k, dest, v, 0#6, false, [], 0#64, none, none⟩] }

/-- A plain move copies value, tag and taint to its destination and checks no clock. A plain move whose guard holds
completes, whatever the tag of its value and whether or not that clock is present. A general register, a vector
register and an operand latch take value, tag and taint unchanged; a scalar moved to a vector register fills every
lane with its bits 31:0; a write to g0 is discarded; a write to k1-k14 (which only supervisor mode allows) sets that
clock's presence to bit 0 of the value, without a trap where the clock is defined already (the model's reading, log
111), and one to k0 or k15 is discarded; nothing else of the context changes. A vector moved to any scalar
destination, by a plain move or a trigger, traps with UNDEF_MOVE. (03_bundles R67, 03_bundles R71, 09_seq_control
R183) -/
def Obligations.MoveCopiesValueTagAndTaint : Prop :=
  (∀ a d g s, formed d.code a s = true → s.me.guard g = true →
    exec (.move a d g) s = .next (s.updCtx s.cur fun c => c.moveTo d (s.me.src s.issue.limm a)).retired) ∧
  (∀ (c : Ctx) v, c.moveTo (.g 0) v = c ∧ c.moveTo (.k 0) v = c ∧ c.moveTo (.k 15) v = c) ∧
  (∀ (c : Ctx) n w, n ≠ 0 → c.moveTo (.g n) (.sc w) = { c with g := c.g.set n w }) ∧
  (∀ (c : Ctx) n w, c.moveTo (.v n) (.ve w) = { c with v := c.v.set n w }) ∧
  (∀ (c : Ctx) n w, ∃ r : VVal, c.moveTo (.v n) (.sc w) = { c with v := c.v.set n r } ∧ r.tag = w.tag ∧
    r.taint = w.taint ∧ ∀ i : Fin 64, r.lanes[i] = w.w.setWidth 32) ∧
  (∀ (c : Ctx) u v, c.moveTo (.o u) v = { c with lo := c.lo.set (unitIdx u) v } ∧
    c.moveTo (.p u) v = { c with lp := c.lp.set (unitIdx u) v }) ∧
  (∀ (c : Ctx) (n : Fin 16) v, n ≠ 0 → n ≠ 15 → ∃ kd kp, c.moveTo (.k n) v = { c with kdef := kd, kpres := kp } ∧
    ∀ i < 16, kp.getLsbD i = if i = n.val then v.word.getLsbD 0 else c.kpres.getLsbD i) ∧
  ∀ i a d g s, i.parts = some (a, d, g) → (s.me.src s.issue.limm a).isVec = true → ¬(0x40 ≤ d ∧ d < 0x60) →
    (s.sup = false → ¬(0x1A0 ≤ d ∧ d < 0x220) ∧ d < 0x2C0 ∧ a ≠ .port .svq) →
    exec i s = finish s (slotOf a d g) (.trap 0x01 1 0)

/-- A move whose guard is false does nothing, and the guard is that of the table. Guard 0 always holds, 0x1-0x7 hold
when k1-k7 are present, 0x8-0xB when p0-p3 are 1. For every move, plain or trigger, that passes the checks of class 1
and whose guard is false, the next state differs in nothing: no destination written, no operation triggered.
(03_bundles R57, 03_bundles R63) -/
def Obligations.FalseGuardDoesNothing : Prop :=
  (∀ c : Ctx, c.guard .always = true) ∧
  (∀ (c : Ctx) n, c.guard (.clk n) = c.kpres.getLsbD (n.val + 1)) ∧
  (∀ (c : Ctx) n, c.guard (.pred n) = c.mxl.getLsbD n.val) ∧
  ∀ i a d g s, i.parts = some (a, d, g) → formed d a s = true → s.me.guard g = false →
    exec i s = .next s.retired

/-- Moves to the sv block and reads of sv.q are privileged, and supervisor cores have no vector, matrix or copy
engine. On a compute core every move to the sv block, operand port or trigger port, and every read of sv.q traps with
PRIV. On a supervisor or management core a move that names a vector register traps with UNDEF_MOVE; a trigger of ve,
mx or cp whose guard holds traps with UNDEF_OP in class 3; the operand latches of those units and their result ports,
which are scalar there, are written and read by ordinary moves. (03_bundles R63, 03_bundles R69) -/
def Obligations.PrivilegeAndMissingUnits : Prop :=
  (∀ i a d g s, i.parts = some (a, d, g) → s.sup = false → (0x2C0 ≤ d ∧ d < 0x300 ∨ a = .port .svq) →
    exec i s = finish s (slotOf a d g) (.trap 0x05 1 0)) ∧
  (∀ i a d g s, i.parts = some (a, d, g) → s.sup = true → ((∃ n, a = .v n) ∨ 0x40 ≤ d ∧ d < 0x60) →
    exec i s = finish s (slotOf a d g) (.trap 0x01 1 0)) ∧
  (∀ i a d g s, i.parts = some (a, d, g) → s.sup = true → s.me.guard g = true →
    (0x1A2 ≤ d ∧ d < 0x220 ∨ 0x222 ≤ d ∧ d < 0x260 ∨ 0x262 ≤ d ∧ d < 0x2A0) →
    (∀ n, a ≠ .v n) → (s.me.src s.issue.limm a).isVec = false →
    exec i s = finish s (slotOf a d g) (.trap 0x02 3 0)) ∧
  ∀ a u g s w, s.sup = true → u = .ve ∨ u = .mx ∨ u = .cp → s.me.guard g = true → (∀ n, a ≠ .v n) →
    s.me.src s.issue.limm a = .sc w →
    exec (.move a (.o u) g) s =
      .next (s.updCtx s.cur fun c => { c with lo := c.lo.set (unitIdx u) (.sc w) }).retired ∧
    exec (.move a (.p u) g) s =
      .next (s.updCtx s.cur fun c => { c with lp := c.lp.set (unitIdx u) (.sc w) }).retired

/-- A trigger compares the tags of the operands it uses, then asks for their clock. For every unit, port, use of
operands and operation: if two used operands carry different tags other than 0xF the trigger traps with
CLOCK_MISMATCH; otherwise, if a used operand's tag names a clock that is absent, ABSENT_READ; otherwise the operation
starts, with the common tag of its operands, or 0xF if all are 0xF, and the OR of their taint. An operand not used is
not looked at. Shown at the ports for a binary operation (x0.add) and, with stale latches, a unary one (x0.clz). (R73)
-/
def Obligations.OperandTagsAreChecked : Prop :=
  (∀ u d us body a g s,
    let tags := (us.vals (s.me.latchO u) (s.me.latchP u) (s.me.src s.issue.limm a)).map Value.tag
    formed d a s = true → s.me.guard g = true → s.hasUnit u = true →
    ((∃ x ∈ tags, ∃ y ∈ tags, x ≠ 0xF#4 ∧ y ≠ 0xF#4 ∧ x ≠ y) →
      trigger u d us body a g s = finish s (slotOf a d g) (.trap 0x20 4 0)) ∧
    ((∀ x ∈ tags, ∀ y ∈ tags, x ≠ 0xF#4 → y ≠ 0xF#4 → x = y) →
      ((∃ x ∈ tags, x ≠ 0xF#4 ∧ s.me.pres x.toNat = false) →
        trigger u d us body a g s = finish s (slotOf a d g) (.trap 0x21 4 0)) ∧
      ((∀ x ∈ tags, x ≠ 0xF#4 → s.me.pres x.toNat = true) →
        trigger u d us body a g s = finish s (slotOf a d g) (body (s.operands u us a) s) ∧
        (∀ x ∈ tags, x ≠ 0xF#4 → (s.operands u us a).tag = x) ∧
        ((∀ x ∈ tags, x = 0xF#4) → (s.operands u us a).tag = 0xF#4) ∧
        (s.operands u us a).taint =
          (us.vals (s.me.latchO u) (s.me.latchP u) (s.me.src s.issue.limm a)).any Value.taint))) ∧
  (∀ c : Ctx, c.pres 0 = true) ∧
  (∀ a g s v, formed 0x082 a s = true → s.me.guard g = true → s.me.src s.issue.limm a = .sc v →
    v.tag ≠ 0xF#4 → (s.me.latchO .x0).tag ≠ 0xF#4 → (s.me.latchO .x0).tag ≠ v.tag →
    exec (.x0Add a g) s = finish s (slotOf a 0x082 g) (.trap 0x20 4 0)) ∧
  ∀ a g s v, formed 0x091 a s = true → s.me.guard g = true → s.me.src s.issue.limm a = .sc v → v.tag = 0xF#4 →
    ∃ t, exec (.x0Clz a g) s = .next t ∧ t.last = .done

/-- A trap writes the trap registers before its handler runs. A trap outside emulation mode that enters a handler
(UNDEF_OP anywhere, any trap of a supervisor or management context, with a handler address that is not 0) leaves in
the trap registers: CAUSE, SLOT, NEXTB and CLASS of the offending move and EMASK; FIRST and bits 55:5 of the address
of the bundle in which the group begins; INFO; the move as encoded with the tags, taints and vector flags of its
unit's latches and of the value moved, and their scalar values, a vector reading 0; ctx.tres is left. (10_seq_traps
R208, 10_seq_traps R210, 10_seq_traps R211, 10_seq_traps R219, 21_spaces R362) -/
def Obligations.TrapRegistersRecordTheTrap : Prop :=
  ∀ (s : State) x (t : Trap) u,
    t.cause ≠ 0xE0 → t.cause ≠ 0xE1 → t.cause ≠ 0xC6 → (s.ctx x).emu = false → (t.cause = 0x02 ∨ isSup x.core = true) →
    s.handlerOf x ≠ 0 → t.slot < 8 → t.cls ≤ 5 → moveUnit t.move = some u →
    ∀ v, Src.ofCode (bitsOf t.move.toNat 14 10) = some v →
    let c := s.ctx x
    let r := ((s.takeTrap x t).ctx x).tr
    let vs := [c.latchO u, c.latchP u, c.src s.issue.limm v]
    bitsOf r.tcause.toNat 0 8 = t.cause.toNat ∧ bitsOf r.tcause.toNat 8 3 = t.slot ∧
    r.tcause.getLsbD 11 = t.nextb ∧ bitsOf r.tcause.toNat 12 3 = t.cls ∧
    bitsOf r.tcause.toNat 15 8 = c.emask % 256 ∧
    bitsOf r.tgrp.toNat 0 3 = c.first % 8 ∧ bitsOf r.tgrp.toNat 5 51 = bitsOf c.pc.toNat 5 51 ∧
    r.tinfo = t.info ∧ bitsOf r.tmove.toNat 0 24 = t.move.toNat ∧
    bitsOf r.tmove.toNat 24 4 = (c.latchO u).tag.toNat ∧ bitsOf r.tmove.toNat 28 4 = (c.latchP u).tag.toNat ∧
    bitsOf r.tmove.toNat 32 4 = (c.src s.issue.limm v).tag.toNat ∧
    (∀ i : Fin 3, r.tmove.getLsbD (36 + i) = vs[i].taint ∧ r.tmove.getLsbD (39 + i) = vs[i].isVec) ∧
    r.topo = (c.latchO u).word ∧ r.topp = (c.latchP u).word ∧ r.topt = (c.src s.issue.limm v).word ∧
    r.tres = c.tr.tres

/-- Taking UNDEF_OP, or any trap in supervisor mode, enters the handler with a bank of zeros. Outside emulation mode
UNDEF_OP on a compute core goes on at EMUH of the launch record, and any trap of a supervisor or management context at
the entry set by sv.tent: EMU is set, the first bundle of the handler is fetched from its first slot, g48-g63, every
operand latch, and both loops are zero (ve.q a vector of zeros on a compute core), nothing is on its way, g0-g47, the
vector registers, the clocks and memory are as before, and the program's own are put aside whole, with the results on
their way. With an entry of 0 a supervisor context halts, reported in SVHALT, and a reaction ends with UNDEF_OP.
(10_seq_traps R213, 10_seq_traps R219, 10_seq_traps R220, 21_spaces R362) -/
def Obligations.HandlerEntry : Prop :=
  ∀ (s : State) x (t : Trap),
    t.cause ≠ 0xE0 → t.cause ≠ 0xE1 → t.cause ≠ 0xC6 → (s.ctx x).emu = false → (t.cause = 0x02 ∨ isSup x.core = true) →
    let c := s.ctx x
    let d := (s.takeTrap x t).ctx x
    s.handlerOf x = (if isSup x.core = true then c.tent else
      match s.launchOf x with
      | some l => BitVec.ofNat 64 l.record.emuh
      | none => 0) ∧
    (s.handlerOf x ≠ 0 →
      d.emu = true ∧ d.pc = s.handlerOf x ∧ d.first = 0 ∧ d.delay = none ∧ d.pend = [] ∧
      d.loop0 = Loop.zero ∧ d.loop1 = Loop.zero ∧
      (∀ i : Fin 64, d.g[i] = if i.val < 48 then c.g[i] else SVal.zero) ∧
      (∀ u, d.latchO u = .sc SVal.zero ∧ d.latchP u = .sc SVal.zero) ∧
      (∀ q, (d.port q).word = 0 ∧ (d.port q).isVec = (!isSup x.core && decide (q = .veq))) ∧
      d.v = c.v ∧ d.kdef = c.kdef ∧ d.kpres = c.kpres ∧ d.mxl = c.mxl ∧ d.ff = c.ff ∧ d.fpm = c.fpm ∧ d.cyc = c.cyc ∧
      (∃ mxq cpq msq, d.bank = some ⟨c.g, c.lo, c.lp, c.q, c.loop0, c.loop1, c.pend,
        c.ffPre, c.pc, c.first, c.delay, mxq, cpq, msq, c.batch, (s.core x.core).seq⟩) ∧
      (s.takeTrap x t).store = s.store) ∧
    (s.handlerOf x = 0 → isSup x.core = true → d.status = .stopped .trapEntry0 none ∧
      (512 ≤ x.core → x.core < 528 → (s.takeTrap x t).host.svhalt.getLsbD (x.core - 512) = true)) ∧
    (s.handlerOf x = 0 → isSup x.core = false →
      s.takeTrap x t = (s.recordTrap x s.issue.limm t).failReact x 0x02 0)

/-- Leaving a handler restores the program's bank, and a trap inside one is a double fault. A handler left (by
sv.eret, or by a write of ctx.tret with FAIL 0) clears EMU and restores g48-g63, latches, ports, loops, results on
their way and the fetch position of the trapped group, keeping g0-g47 as the handler left them; captured commands
stand in their queues behind those that run and before those that wait, in the order of their issue and with numbers
from one on that puts them there (log 152), those of the batch open then in the batch open now; memory is as before.
After a tret with NORES 0 the emulated slot is noted with its captured tags and a result of latency LAT at its unit's
port: ctx.tres as a scalar, and at ve.q of a compute core its low half in every lane (log 150). In emulation mode
every trap but a stop raises EMU_DOUBLE with the inner cause as INFO; that a supervisor or management context then
halts as at trap entry 0 is the model's reading (log 46). (10_seq_traps R217, 10_seq_traps R220, 10_seq_traps R221,
10_seq_traps R222, 21_spaces R362) -/
def Obligations.HandlerReturn : Prop :=
  (∀ (s : State) x b, (s.ctx x).bank = some b →
    let d := (s.leaveHandler x).ctx x
    d.emu = false ∧ d.bank = none ∧ d.pc = b.pc ∧ d.first = b.first ∧ d.delay = b.delay ∧ d.pend = b.pend ∧
    d.lo = b.lo ∧ d.lp = b.lp ∧ d.q = b.q ∧ d.loop0 = b.loop0 ∧ d.loop1 = b.loop1 ∧
    (∀ i : Fin 64, d.g[i] = if i.val < 48 then (s.ctx x).g[i] else b.g[i]) ∧
    (s.leaveHandler x).store.mem = s.store.mem ∧
    ∃ head, let cmds := b.cmds.zipIdx.map fun m =>
        { m.1 with id := head + m.2, batch := if m.1.batch = b.batch then (s.ctx x).batch else m.1.batch }
      let put (u : Unit11) (q : List Cmd) : List Cmd :=
        q.filter Cmd.started ++ (cmds.filter fun m => decide ((unitAt m.port).1 = u)) ++ q.filter fun m => !m.started
      ((s.leaveHandler x).core x.core).mxq = put .mx (s.core x.core).mxq ∧
      ((s.leaveHandler x).core x.core).cpq = put .cp (s.core x.core).cpq ∧
      ((s.leaveHandler x).core x.core).msq = put .ms (s.core x.core).msq ∧
      ∀ m ∈ (s.core x.core).mxq ++ (s.core x.core).cpq ++ (s.core x.core).msq,
        b.cmds.length ≤ m.id → head + b.cmds.length ≤ m.id) ∧
  (∀ (s : State) x w b, w.getLsbD 0 = false → (s.ctx x).bank = some b →
    let c := s.ctx x
    let d := (s.emuReturn x w).ctx x
    d.emu = false ∧ d.pc = b.pc ∧
    ∃ e : EmuSlot, d.emuDone = c.emuDone ++ [e] ∧ e.slot = bitsOf c.tr.tcause.toNat 8 3 ∧
      e.tags.map BitVec.toNat =
        [bitsOf c.tr.tmove.toNat 24 4, bitsOf c.tr.tmove.toNat 28 4, bitsOf c.tr.tmove.toNat 32 4] ∧
      (w.getLsbD 7 = true → e.result = none) ∧
      (w.getLsbD 7 = false → ∀ u, moveUnit (BitVec.ofNat 24 c.tr.tmove.toNat) = some u →
        ∃ p, e.result = some p ∧ p.left = bitsOf w.toNat 1 6 ∧ p.dest = .port (unitPort u) ∧
          (isSup x.core = true ∨ u ≠ .ve → p.val.word = c.tr.tres) ∧
          (isSup x.core = false → u = .ve → ∃ v, p.val = .ve v ∧ ∀ j : Fin 64, v.lanes[j] = c.tr.tres.setWidth 32))) ∧
  ∀ (s : State) x (t : Trap), t.cause ≠ 0xE0 → t.cause ≠ 0xE1 → t.cause ≠ 0x07 → (s.ctx x).emu = true →
    s.takeTrap x t =
      let inner : Word := BitVec.ofNat 64 t.cause.toNat
      let u := s.recordTrap x s.issue.limm { t with cause := 0x07, info := inner }
      if isSup x.core then u.haltAtEntry0 x else u.failReact x 0x07 inner

/-- The seven plain loads complete with the bytes at their address, sign- or zero-extended. A load of w bytes at a = t
whose access passes its checks (watchpoints, leases and permissions, sets, holds, remote data, poison) reads those
bytes for the reaction and lands them, the lowest address in the lowest byte, sign-extended or zero-extended, after 3
cycles in the lane-slice and core-scratchpad views and 5 elsewhere, with the tag of its address and the OR of the
taint of the address and of every sector read. The result put on its way holds that value; it is never late from the
views of the core. (08_seq_scalar R169, 08_seq_scalar R170, 08_seq_scalar R171, 03_bundles R76) -/
def Obligations.ScalarLoads : Prop :=
  let load (d w : Nat) (sx : Bool) (i : Src → Guard → Instr) : Prop :=
    ∀ a g s t p, fires .ls d .t a g s = true →
      s.passes [⟨(s.operands .ls .t a).t.word.toNat, w, false⟩] t [p] →
      let x := s.operands .ls .t a
      let r := t.readSpan t.cur p
      exec (i a g) s = .next (r.1.landLoad .lsq (latencyOf x.t.word.toNat) (.scalar w sx) r.2.1 x.tag (x.taint || r.2.2)
        (loadCauses p.ps) p.ps).retired
  load 0x102 1 true .lsLdS8 ∧ load 0x103 1 false .lsLdN8 ∧ load 0x104 2 true .lsLdS16 ∧ load 0x105 2 false .lsLdN16 ∧
  load 0x106 4 true .lsLdS32 ∧ load 0x107 4 false .lsLdN32 ∧ load 0x108 8 false .lsLdN64 ∧
  (∀ va, latencyOf va = match winOf va with
    | .lane | .cspAlloc | .cspChan => 3
    | _ => 5) ∧
  (∀ w sx bs tag taint, (Conv.scalar w sx).value bs tag taint =
    .scalar (if sx then (BitVec.ofNat (8 * w) (leNat (bs.take w))).signExtend 64 else BitVec.ofNat 64 (leNat (bs.take w)))
      tag taint) ∧
  ∀ (s : State) q lat cv bs tag taint cs ps, ∃ p : Pend,
    (s.landLoad q lat cv bs tag taint cs ps).me.pend = s.me.pend ++ [p] ∧ p.left = lat ∧ p.dest = .port q ∧
      p.val = cv.value bs tag taint ∧ p.flags = 0#6 ∧ ((∀ a ∈ ps, (winOf a.va).isCore = true) → p.late = false)

/-- The five plain stores complete by writing the low bytes of their data, low byte first. A store whose access passes
its checks and would change no pinned page-table entry writes bits 8w-1:0 of t to the w bytes at o, lowest byte first
(st2.b64 writes t, then p above it), with the data taint of R170: the OR of the taints of its operands and of control
taint. One that would change a pinned entry traps with LEASE_EXIT on a compute core and PT_PINNED on a supervisor
core. (08_seq_scalar R170, 08_seq_scalar R172, 18_clearing R327, 21_spaces R352) -/
def Obligations.ScalarStores : Prop :=
  let store (d : Nat) (us : Uses) (i : Src → Guard → Instr) (bytes : Opnds → List Byte) : Prop :=
    ∀ a g s t p, fires .ls d us a g s = true →
      let x := s.operands .ls us a
      s.passes [⟨x.o.word.toNat, (bytes x).length, true⟩] t [p] →
      let u := t.storeIrrev p
      (u.pinSpan p.ps (bytes x) = none →
        exec (i a g) s =
          .next ((u.writePieces t.cur (u.viewer t.cur) p.ps (bytes x) (x.taint || t.me.ctaint)).unpoison
            (u.viewer t.cur) p.ps).retired) ∧
      ∀ e va, u.pinSpan p.ps (bytes x) = some (e, va) →
        exec (i a g) s = finish s (slotOf a d g) (if isSup t.cur.core = true then .trap 0xC6 5 e else .trap 0xC0 5 va)
  store 0x109 .ot .lsStN8 (fun x => leBytes 1 x.t.word.toNat) ∧
  store 0x10A .ot .lsStN16 (fun x => leBytes 2 x.t.word.toNat) ∧
  store 0x10B .ot .lsStN32 (fun x => leBytes 4 x.t.word.toNat) ∧
  store 0x10C .ot .lsStN64 (fun x => leBytes 8 x.t.word.toNat) ∧
  store 0x10D .opt .lsSt2B64 (fun x => leBytes 8 x.t.word.toNat ++ leBytes 8 x.p.word.toNat)

/-- Memory holds what was stored, a version is read by its own reaction, and clearing commits it in stamp order. For
pieces that lie within their 32-byte sectors, on this device and outside versioned memory: reading gives the bytes of
memory; writing as many bytes to pieces that do not overlap gives memory in which they hold those bytes, in order, and
every other address reads as before. A reaction of an ordered launch that stores to a versioned piece of this device,
on whose line no younger reaction holds a lease, leaves memory as it is and reads back what it stored. Logs stay in
stamp order as they grow, and State.commitInstant of a launch without a STATUS page leaves the memory that the logs'
effects make, applied in the order of the logs, each log's memory-side effects last. The number that n bytes hold is
the one written, modulo 2^(8n), the lowest address holding the lowest byte. (00_scope R2, 02_instants R36, 04_memory
R94, 05_ordering R106, 08_seq_scalar R170, 08_seq_scalar R172, 18_clearing R316, 18_clearing R319) -/
def Obligations.MemoryHoldsWhatWasStored : Prop :=
  let plain (v : Viewer) (p : Piece) : Prop :=
    p.key % 32 + p.n ≤ 32 ∧ v.versioned p.page = false ∧ (∀ d r m, p.page ≠ .remote d r m)
  let before (a b : RLog) : Prop := a.lid < b.lid ∨ a.lid = b.lid ∧ a.stamp < b.stamp
  (∀ (s : State) x v ps, (∀ p ∈ ps, plain v p) →
    (s.readPieces x v ps).1 = ps.flatMap fun p => cellsRead s.store.mem p.key p.n) ∧
  (∀ (s : State) x v ps bytes taint, (∀ p ∈ ps, plain v p) → ∀ a, inPieces ps a = false →
    cellGet (s.writePieces x v ps bytes taint).store.mem a = cellGet s.store.mem a) ∧
  (∀ (s : State) x v (ps : List Piece) (bytes : List Byte) taint, s.sound → (∀ p ∈ ps, plain v p) → bytes.length = (ps.map Piece.n).sum →
    ps.Pairwise (fun p q => p.key + p.n ≤ q.key ∨ q.key + q.n ≤ p.key) →
    (ps.flatMap fun p => cellsRead (s.writePieces x v ps bytes taint).store.mem p.key p.n) = bytes) ∧
  (∀ (s : State) x v p (bytes : List Byte) taint, p.key % 32 + p.n ≤ 32 → v.versioned p.page = true → (∀ d r m, p.page ≠ .remote d r m) →
    bytes.length = p.n → s.store.leaseJobs v.lid v.stamp (lineOf p.key) = [] → s.store.logs.Pairwise before →
    let t := s.writePiece x v p bytes taint
    t.store.mem = s.store.mem ∧ (t.readPiece x v p).1 = bytes) ∧
  (∀ lid stamp es logs, List.Pairwise before logs → List.Pairwise before (logPush lid stamp es logs)) ∧
  (∀ (st : Store) lid i, st.logs.Pairwise before → (st.instLogs lid i).Pairwise fun a b => a.stamp < b.stamp) ∧
  (∀ (s : State) l gs, s.launch? l.lid = some l → 2 ^ 55 ≤ l.record.status →
    (s.commitInstant l gs).store.mem = ((gs.flatMap RLog.ordered).foldl Store.commit s.store).mem) ∧
  (∀ (st : Store) key bytes taint b c who, (st.commit (.store key bytes taint b c who)).mem =
    if homed key then cellsWrite st.mem key bytes else st.mem) ∧
  (∀ g : RLog, g.ordered = (g.effs.filter fun e => !e.isMs) ++ g.effs.filter Eff.isMs) ∧
  (∀ n v, leNat (leBytes n v) = v % 2 ^ (8 * n)) ∧
  ∀ bs : List Byte, leBytes bs.length (leNat bs) = bs

/-- The checks of an access outside versions, memory-side pages and atomic sets leave the state as it is. An access
that passes its checks in a context that suppresses no watchpoint, none of whose bytes lie in versioned memory, in a
memory-side page or in a declared set that its reaction does not hold, has changed nothing by being checked: what its
instruction leaves is told against the state before it. (04_memory R98, 05_ordering R117, 08_seq_scalar R175,
18_clearing R315, 18_clearing R322) -/
def Obligations.ChecksOfPlainAccessesChangeNothing : Prop :=
  ∀ (s u : State) x l ps, s.vet x l = .ok u ps → (s.ctx x).skipWatch = [] →
    (∀ p ∈ ps.flatMap SpanP.ps, p.page ≠ .ms ∧ (s.viewer x).versioned p.page = false) →
    (∀ r, s.reactOf x = some r →
      r.unheld (rangesOfPieces ((ps.flatMap SpanP.ps).filter fun p => decide (p.page ≠ .local_))) = []) →
    u = s

/-- A completed plain store changes memory at its own bytes alone. For every plain store that completes: the guard was
false and nothing has changed, or its accesses passed, at the address the store computes (its o operand) and for its
width in bytes. If its bytes lie outside versioned memory on this device, then every address outside the pieces of
that access reads as in the state in which the access passed, and the registers, latches, ports, clocks, loops and
flags of every context are as in that state. (02_instants R36, 08_seq_scalar R170, 08_seq_scalar R172) -/
def Obligations.StoresChangeOnlyTheirBytes : Prop :=
  ∀ i d us n, (i, d, us, n) ∈ [(Instr.lsStN8, 0x109, Uses.ot, 1), (Instr.lsStN16, 0x10A, .ot, 2),
      (Instr.lsStN32, 0x10B, .ot, 4), (Instr.lsStN64, 0x10C, .ot, 8), (Instr.lsSt2B64, 0x10D, .opt, 16)] →
  ∀ a g s t, exec (i a g) s = .next t → t.last = .done →
    s.me.guard g = false ∧ t = s.retired ∨
    ∃ u ps, s.passes [⟨(s.operands .ls us a).o.word.toNat, n, true⟩] u ps ∧
      ∀ p, ps = [p] →
        (∀ q ∈ p.ps, q.key % 32 + q.n ≤ 32 ∧ ((u.storeIrrev p).viewer u.cur).versioned q.page = false ∧
          ∀ e r m, q.page ≠ .remote e r m) →
        (∀ k, inPieces p.ps k = false → cellGet t.store.mem k = cellGet u.store.mem k) ∧
        (∀ x, (t.ctx x).sameRegs (u.ctx x)) ∧ t.counters = u.counters ∧ t.regs = u.regs

/-- ls.ld.fe empties a full line into a data line, and ls.st.fe fills an empty line from one. With a channel line F
and a data line D that are lines, different, and at their levels, whose accesses pass: ld.fe, when F is full, it is
the context's turn, and the producer is not later in an ordered launch, copies F's 128 bytes to D, leaves F empty and
changes no other byte; a later producer is CHANNEL_FUTURE. st.fe, when F is empty, copies D to F, leaves F full with
the producer's stamp, and changes no other byte. A context whose line is not in the state waits. (02_instants R45,
05_ordering R121, 08_seq_scalar R173, 08_seq_scalar R175) -/
def Obligations.FullEmptyTransfers : Prop :=
  (∀ a g s u pf pd lf ld rf rd, fires .ls 0x10E .ot a g s = true →
    let x := s.operands .ls .ot a
    feFault x.t.word.toNat x.o.word.toNat = none → u.sound →
    s.passesOne [⟨x.t.word.toNat, 128, false⟩, ⟨x.o.word.toNat, 128, true⟩] u [⟨rf, pf :: lf⟩, ⟨rd, pd :: ld⟩] →
    (u.feTurn u.cur (lineOf pf.key) true = true → ∀ r, u.store.full? (lineOf pf.key) = some r →
      ((u.me.ord = false ∨ r.stamp ≤ u.me.stamp.toNat) →
        ∃ t, exec (.lsLdFe a g) s = .next t ∧ t.last = .done ∧ t.store.full? (lineOf pf.key) = none ∧
          (∀ k, k < 128 → cellGet t.store.mem (lineOf pd.key * 128 + k) = cellGet u.store.mem (lineOf pf.key * 128 + k)) ∧
          ∀ k, lineOf k ≠ lineOf pd.key → cellGet t.store.mem k = cellGet u.store.mem k) ∧
      (u.me.ord = true → u.me.stamp.toNat < r.stamp →
        exec (.lsLdFe a g) s = finish s (slotOf a 0x10E g) (.trap 0x24 5 0))) ∧
    (u.feTurn u.cur (lineOf pf.key) true = false →
      exec (.lsLdFe a g) s = finish s (slotOf a 0x10E g) (.block (.fe (lineOf pf.key) true)))) ∧
  ∀ a g s u pf pd lf ld rf rd, fires .ls 0x10F .ot a g s = true →
    let x := s.operands .ls .ot a
    feFault x.o.word.toNat x.t.word.toNat = none → u.sound →
    s.passesOne [⟨x.o.word.toNat, 128, true⟩, ⟨x.t.word.toNat, 128, false⟩] u [⟨rf, pf :: lf⟩, ⟨rd, pd :: ld⟩] →
    (u.feTurn u.cur (lineOf pf.key) false = true →
      ∃ t r, exec (.lsStFe a g) s = .next t ∧ t.last = .done ∧ t.store.full? (lineOf pf.key) = some r ∧
        r.stamp = u.me.stamp.toNat ∧
        (∀ k, k < 128 → cellGet t.store.mem (lineOf pf.key * 128 + k) = cellGet u.store.mem (lineOf pd.key * 128 + k)) ∧
        ∀ k, lineOf k ≠ lineOf pf.key → cellGet t.store.mem k = cellGet u.store.mem k) ∧
    (u.feTurn u.cur (lineOf pf.key) false = false →
      exec (.lsStFe a g) s = finish s (slotOf a 0x10F g) (.block (.fe (lineOf pf.key) false)))

/-- ls.blk makes a load-block and ls.inv evicts one, and neither changes memory or a register. A block of N = t lines
at A = o with a good counter selector p, wholly in die scratchpad or translated space outside memory-side pages and
within the leases, joins the context's blocks last; of the blocks before it every one that shares a line with it is
evicted or gone, and no more than 256 lines are left in use with it, where a block evicted before it has filled counts
no more (the model's choice, log 134), and no block is there that was not; misplaced ones are LS_FORM, and a bad
selector SY_FORM. ls.inv evicts the live block based at t, if there is one. (04_memory R88, 04_memory R89,
08_seq_scalar R174, 08_seq_scalar R175, 18_clearing R327) -/
def Obligations.LoadBlocks : Prop :=
  let plainShared (s : State) (base n : Nat) (ms : Except Block Bool) : Prop :=
    sharedRange base (128 * n) = true ∧ s.anyMs s.cur (pagesOf base (128 * n)) = ms
  (∀ a g s ps, fires .ls 0x110 .opt a g s = true →
    let x := s.operands .ls .opt a
    let base := x.o.word.toNat
    let n := x.t.word.toNat
    base % 128 = 0 → 0 < n → n ≤ 64 → plainShared s base n (.ok false) → s.selFault s.cur x.p.word = none →
    s.resolve s.cur .r base (128 * n) = .ok ps →
    ∃ t old, exec (.lsBlk a g) s = .next t ∧ t.last = .done ∧ t.store = s.store ∧ t.counters = s.counters ∧
      t.me.blocks = old ++ [⟨base, n, rangesOfPieces ps, false, false, x.p.word.toNat, s.me.ctaint⟩] ∧
      t.me.sameRegs s.me ∧
      (s.me.blocks.length ≤ 256 → liveLines old + n ≤ 256) ∧
      (∀ b ∈ old, (b.ranges.any fun r => (rangesOfPieces ps).any fun q => r.meetsLine q) = true → b.evict = true) ∧
      ∀ b ∈ old, b ∈ s.me.blocks ∨ b.evict = true ∧ { b with evict := false } ∈ s.me.blocks) ∧
  trapsIf .ls 0x110 .opt .lsBlk (fun x s => x.o.word.toNat % 128 ≠ 0 ∨ x.t.word.toNat = 0 ∨ 64 < x.t.word.toNat ∨
    sharedRange x.o.word.toNat (128 * x.t.word.toNat) = false ∨
      plainShared s x.o.word.toNat x.t.word.toNat (.ok true)) 0x0A (fun _ => 0) ∧
  trapsIf .ls 0x110 .opt .lsBlk (fun x s => x.o.word.toNat % 128 = 0 ∧ 0 < x.t.word.toNat ∧ x.t.word.toNat ≤ 64 ∧
    plainShared s x.o.word.toNat x.t.word.toNat (.ok false) ∧ s.sel s.cur x.p.word = .bad) 0x25 (fun _ => 0) ∧
  completes .ls 0x111 .t .lsInv (fun x s => s.updCtx s.cur fun c =>
    { c with blocks := (c.blocks.filter fun b =>
        !(decide (b.base = x.t.word.toNat) && !b.evict && b.filled)).map fun b =>
          if b.base = x.t.word.toNat ∧ b.evict = false then { b with evict := true } else b })

/-- Jumps set the target that fetch reaches after two delay bundles. Outside the end bundle of an armed loop and with
a target that is a multiple of 32, jmp, jr and call always, jz when all 64 bits of o are 0 and jnz when they are not,
set the target B + t (jr: t); call lands B + 96 in br.q; a tainted condition of jz or jnz, or target of jr, sets
control taint. In the end bundle of an armed loop each traps with LOOP_FORM, before BR_TARGET for a misaligned target,
taken or not. At slot 7 of B + 64 fetch goes on at the target; without armed loops it runs on in address order
elsewhere. (03_bundles R64, 09_seq_control R176, 09_seq_control R178, 09_seq_control R181) -/
def Obligations.ControlTransfers : Prop :=
  let off (s : State) : Prop := s.me.armedEnd 0 s.issue.bundle = false ∧ s.me.armedEnd 1 s.issue.bundle = false
  let goes (d : Word) (s : State) : State :=
    s.updCtx s.cur fun c => { c with delay := some ⟨s.issue.bundle, some d⟩ }
  let taints (b : Bool) (s : State) : State := s.updCtx s.cur fun c => { c with ctaint := c.ctaint || b }
  let rel (x : Opnds) (s : State) : Word := s.issue.bundle + x.t.word
  let jump (d : Nat) (us : Uses) (i : Src → Guard → Instr) (dest : Opnds → State → Word)
      (k : Opnds → State → State) : Prop :=
    completesIf .br d us i (fun x s => off s ∧ (dest x s).toNat % 32 = 0) k ∧
    trapsIf .br d us i (fun _ s => ¬off s) 0x0B (fun _ => 0) ∧
    trapsIf .br d us i (fun x s => off s ∧ (dest x s).toNat % 32 ≠ 0) 0x0C (fun _ => 0)
  jump 0x142 .t .brJmp rel (fun x s => goes (rel x s) s) ∧
  jump 0x143 .ot .brJz rel (fun x s => taints x.o.taint (if x.o.word = 0 then goes (rel x s) s else s)) ∧
  jump 0x144 .ot .brJnz rel (fun x s => taints x.o.taint (if x.o.word ≠ 0 then goes (rel x s) s else s)) ∧
  jump 0x145 .t .brJr (fun x _ => x.t.word) (fun x s => taints x.t.taint (goes x.t.word s)) ∧
  jump 0x146 .t .brCall rel (fun x s => x.put .brq 1 (s.issue.bundle + 96) 0#6 (goes (rel x s) s)) ∧
  (∀ (c : Ctx) b d, c.delay = some ⟨b, some d⟩ →
    (c.advance (b + 64#64) 7).pc = d ∧ (c.advance (b + 64#64) 7).first = 0 ∧ (c.advance (b + 64#64) 7).delay = none) ∧
  (∀ (c : Ctx) a i, i < 7 → (c.advance a i).pc = a ∧ (c.advance a i).first = i + 1) ∧
  ∀ (c : Ctx) b d, c.delay = some ⟨b, d⟩ → c.armedEnd 0 (b + 32#64) = false → c.armedEnd 1 (b + 32#64) = false →
    (c.advance (b + 32#64) 7).pc = b + 64#64 ∧ (c.advance (b + 32#64) 7).delay = some ⟨b, d⟩

/-- Hardware loops are armed, ended, read and tested at their back-edge, and br.mark writes a trace record. lp0 and
lp1 with a count that is not 0, a displacement of at least 32 that is a multiple of 32, and an end bundle that the
other armed loop does not have, arm the loop at the next cycle with first bundle B + 32; otherwise LOOP_FORM. lpend
makes the iteration of an armed loop its last; lcrd reads the count; both trap on a loop number above 1. At the end
bundle of an armed loop a count above 1 falls by 1 and fetch goes to the first bundle; otherwise the count becomes 0
and fetch falls through. br.mark writes a record of kind 1 with bits 31:0 and the taint of t where KMASK bit 0 is set,
and changes nothing else. (09_seq_control R176, 09_seq_control R180, 09_seq_control R181, 09_seq_control R182,
22_observation R373) -/
def Obligations.LoopsAndMarks : Prop :=
  let arms (n : Nat) (x : Opnds) (s : State) : State :=
    (s.landAt (.loopArm n x.o.word (s.issue.bundle + 32) (s.issue.bundle + x.t.word)) (.sc SVal.zero)).updCtx s.cur
      fun c => { c with ctaint := c.ctaint || x.o.taint }
  let good (n : Nat) (x : Opnds) (s : State) : Prop :=
    x.o.word ≠ 0 ∧ 32 ≤ x.t.word.toInt ∧ x.t.word.toNat % 32 = 0 ∧
      s.me.armedEnd (1 - n) (s.issue.bundle + x.t.word) = false
  completesIf .br 0x147 .ot .brLp0 (good 0) (arms 0) ∧ completesIf .br 0x148 .ot .brLp1 (good 1) (arms 1) ∧
  trapsIf .br 0x147 .ot .brLp0 (fun x s => ¬good 0 x s) 0x0B (fun _ => 0) ∧
  trapsIf .br 0x148 .ot .brLp1 (fun x s => ¬good 1 x s) 0x0B (fun _ => 0) ∧
  completesIf .br 0x149 .t .brLpend (fun x _ => x.t.word.toNat ≤ 1)
    (fun x s => s.landAt (.lpend x.t.word.toNat) (.sc SVal.zero)) ∧
  trapsIf .br 0x149 .t .brLpend (fun x _ => 1 < x.t.word.toNat) 0x0B (fun _ => 0) ∧
  completesIf .br 0x14A .t .brLcrd (fun x _ => x.t.word.toNat ≤ 1)
    (fun x s => x.put .brq 1 (if x.t.word = 0 then s.me.loop0 else s.me.loop1).lc 0#6 s) ∧
  trapsIf .br 0x14A .t .brLcrd (fun x _ => 1 < x.t.word.toNat) 0x0B (fun _ => 0) ∧
  completesIf .br 0x14B .t .brMark (fun _ s => s.obs.kmask.getLsbD 0 = false) (fun _ s => s) ∧
  completesIf .br 0x14B .t .brMark (fun _ s => s.obs.kmask.getLsbD 0 = true) (fun x s => s.record
    (traceNat s s.cur 0x100 x.t.taint s.me.pc.toNat s.me.cyc.toNat s.me.stamp.toNat (x.t.word.toNat % 2 ^ 32))) ∧
  (∀ s x k b pc cyc st n, n < 2 ^ 32 → x.core < 2 ^ 10 → x.ctx < 4 → s.devid < 2 ^ 6 → k < 2 ^ 9 →
    let r := traceNat s x k b pc cyc st n
    r / 2 ^ 256 = n ∧ r % 2 ^ 9 = k ∧ r / 2 ^ 9 % 2 ^ 10 = x.core ∧ r / 2 ^ 19 % 4 = x.ctx ∧ r.testBit 27 = b ∧
      r / 2 ^ 64 % 2 ^ 56 = pc % 2 ^ 56 ∧ r / 2 ^ 128 % 2 ^ 48 = cyc % 2 ^ 48 ∧ r / 2 ^ 192 % 2 ^ 64 = st % 2 ^ 64) ∧
  (∀ (c : Ctx) p, p.dest = .lpend 0 → (c.landOne p).loop0.lc = (if c.loop0.lc = 0 then 0 else 1)) ∧
  (∀ (c : Ctx) p, p.dest = .lpend 1 → (c.landOne p).loop1.lc = (if c.loop1.lc = 0 then 0 else 1)) ∧
  (∀ (c : Ctx) p lc f e, p.dest = .loopArm 0 lc f e → (c.landOne p).loop0 = ⟨lc, f, e⟩ ∧ (c.landOne p).loop1 = c.loop1) ∧
  (∀ (c : Ctx) p lc f e, p.dest = .loopArm 1 lc f e → (c.landOne p).loop1 = ⟨lc, f, e⟩ ∧ (c.landOne p).loop0 = c.loop0) ∧
  (∀ c : Ctx, c.delay = none → c.loop0.lc ≠ 0 →
    (1 < c.loop0.lc.toNat → (c.advance c.loop0.e 7).pc = c.loop0.f ∧ (c.advance c.loop0.e 7).first = 0 ∧
      (c.advance c.loop0.e 7).loop0 = { c.loop0 with lc := c.loop0.lc - 1 }) ∧
    (c.loop0.lc = 1 → (c.advance c.loop0.e 7).pc = c.loop0.e + 32 ∧ (c.advance c.loop0.e 7).loop0.lc = 0)) ∧
  ∀ c : Ctx, c.delay = none → c.loop1.lc ≠ 0 → c.armedEnd 0 c.loop1.e = false →
    (1 < c.loop1.lc.toNat → (c.advance c.loop1.e 7).pc = c.loop1.f ∧ (c.advance c.loop1.e 7).first = 0 ∧
      (c.advance c.loop1.e 7).loop1 = { c.loop1 with lc := c.loop1.lc - 1 }) ∧
    (c.loop1.lc = 1 → (c.advance c.loop1.e 7).pc = c.loop1.e + 32 ∧ (c.advance c.loop1.e 7).loop1.lc = 0)

/-- ck.def, ck.sub, ck.union and ck.not define a clock register once, from the next cycle on. With a target of 1 to 14
not yet defined: def makes it present when the instant is p modulo n, for 1 <= n <= 4096 and p < n; sub when its
Boolean is not 0, with control taint from a tainted one; union and not from the presence of two clocks, an undefined
one being absent (k0 and k15 are always present): a landed definition sets the defined and the presence bit of its
clock, and no clock has its presence bit without being defined. The presence lands in ck.q with tag 0 when the
definition does. Bad fields are CK_FORM (nonzero fields a and b of def and sub among them), a second definition
CLOCK_REDEF. (09_seq_control R183, 09_seq_control R184, 09_seq_control R186, 09_seq_control R190) -/
def Obligations.ClockDefinitions : Prop :=
  let defines (k : Nat) (p : Bool) (x : Opnds) (s : State) : State :=
    (s.landAt (.clock k p) (.sc SVal.zero)).land .ckq 1 (.scalar (if p then 1 else 0) 0#4 x.taint) 0#6
  let free (k : Nat) (s : State) : Prop := 1 ≤ k ∧ k ≤ 14 ∧ s.me.kdef.getLsbD k = false
  let fields (x : Opnds) (k a b : Nat) : Prop := k < 16 ∧ a < 16 ∧ b < 16 ∧ x.t.word.toNat = k + 16 * a + 256 * b
  let period (x : Opnds) : Prop := ∃ n p, x.o.word.toNat = n + 2 ^ 16 * p ∧ 1 ≤ n ∧ n ≤ 4096 ∧ p < n
  (∀ k n p, 1 ≤ n → n ≤ 4096 → p < n →
    completesIf .ck 0x162 .ot .ckDef (fun x s => free k s ∧ fields x k 0 0 ∧ x.o.word.toNat = n + 2 ^ 16 * p)
      (fun x s => defines k (decide (s.me.stamp.toNat / 2 ^ 16 % n = p)) x s)) ∧
  (∀ k, completesIf .ck 0x163 .ot .ckSub (fun x s => free k s ∧ fields x k 0 0)
    (fun x s => (defines k (decide (x.o.word ≠ 0)) x s).updCtx s.cur
      fun c => { c with ctaint := c.ctaint || x.o.taint })) ∧
  (∀ k a b, completesIf .ck 0x167 .t .ckUnion (fun x s => free k s ∧ fields x k a b)
    (fun x s => defines k (s.me.pres a || s.me.pres b) x s)) ∧
  (∀ k a b, completesIf .ck 0x16B .t .ckNot (fun x s => free k s ∧ fields x k a b)
    (fun x s => defines k (s.me.pres a && !s.me.pres b) x s)) ∧
  (∀ (c : Ctx) n, 1 ≤ n → n ≤ 14 → c.pres n = c.kpres.getLsbD n) ∧ (∀ c : Ctx, c.pres 0 = true ∧ c.pres 15 = true) ∧
  trapsIf .ck 0x162 .ot .ckDef (fun x _ => ¬(period x ∧ ∃ k, 1 ≤ k ∧ k ≤ 14 ∧ fields x k 0 0)) 0x27 (fun _ => 0) ∧
  trapsIf .ck 0x163 .ot .ckSub (fun x _ => ¬∃ k, 1 ≤ k ∧ k ≤ 14 ∧ fields x k 0 0) 0x27 (fun _ => 0) ∧
  trapsIf .ck 0x167 .t .ckUnion (fun x _ => ¬∃ k a b, 1 ≤ k ∧ k ≤ 14 ∧ fields x k a b) 0x27 (fun _ => 0) ∧
  trapsIf .ck 0x16B .t .ckNot (fun x _ => ¬∃ k a b, 1 ≤ k ∧ k ≤ 14 ∧ fields x k a b) 0x27 (fun _ => 0) ∧
  (let known (k : Nat) (s : State) : Prop := 1 ≤ k ∧ k ≤ 14 ∧ s.me.kdef.getLsbD k = true
  ∀ k, trapsIf .ck 0x162 .ot .ckDef (fun x s => known k s ∧ fields x k 0 0 ∧ period x) 0x28 (fun _ => 0) ∧
    trapsIf .ck 0x163 .ot .ckSub (fun x s => known k s ∧ fields x k 0 0) 0x28 (fun _ => 0) ∧
    ∀ a b, trapsIf .ck 0x167 .t .ckUnion (fun x s => known k s ∧ fields x k a b) 0x28 (fun _ => 0) ∧
      trapsIf .ck 0x16B .t .ckNot (fun x s => known k s ∧ fields x k a b) 0x28 (fun _ => 0)) ∧
  (let absent (c : Ctx) : Prop := ∀ n, 1 ≤ n → n ≤ 14 → c.kdef.getLsbD n = false → c.pres n = false
  absent State.reset.me ∧ ∀ (c : Ctx) p k b, p.dest = .clock k b → 1 ≤ k → k ≤ 14 →
    (c.landOne p).kdef.getLsbD k = true ∧ (c.landOne p).pres k = b ∧ (absent c → absent (c.landOne p)) ∧
      ∀ n, n ≠ k → 1 ≤ n → n ≤ 14 → (c.landOne p).kdef.getLsbD n = c.kdef.getLsbD n ∧ (c.landOne p).pres n = c.pres n)

/-- ck.when, ck.isp, ck.merge and ck.mergep follow their rows. when puts o on the target clock with no trap; isp tests
the clock that t's tag names, tag 0xF giving 1, without taint. merge and mergep decide by the presence of o's, p's and
the target's clock in the order of the table's rows: MERGE_BOTH or, with priority, o and one drop more; the one
present input; CLOCK_MISMATCH; ABSENT_READ; or the absent value 0 (that a merge's CLOCK_MISMATCH and ABSENT_READ are
of class 5 is the model's reading, log 47). The result takes the target's tag and the taint of the input taken. The
drop count saturates, and a write of ctx.drop in the same cycle takes effect first. A target with bits 63:4 nonzero is
CK_FORM. (09_seq_control R184, 09_seq_control R187, 09_seq_control R188, 09_seq_control R190) -/
def Obligations.SamplingAndMerging : Prop :=
  let on (c : Ctx) (t : Tag) : Prop := t = 0xF#4 ∨ c.pres t.toNat = true
  let target (x : Opnds) (k : Nat) : Prop := k < 16 ∧ x.t.word.toNat = k
  let lands (k : Nat) (w : Word) (taint : Bool) (s : State) : State :=
    s.land .ckq 1 (.scalar w (BitVec.ofNat 4 k) taint) 0#6
  (∀ k, completesIf .ck 0x164 .ot .ckWhen (fun x _ => target x k) (fun x s => lands k x.o.word x.taint s)) ∧
  completesIf .ck 0x16A .none_ .ckIsp (fun x s => on s.me x.t.tag) (fun _ s => lands 0 1 false s) ∧
  completesIf .ck 0x16A .none_ .ckIsp (fun x s => ¬on s.me x.t.tag) (fun _ s => lands 0 0 false s) ∧
  (∀ k d i, (d, i) ∈ [(0x165, Instr.ckMerge), (0x166, Instr.ckMergep)] →
    completesIf .ck d .t i (fun x s => target x k ∧ on s.me x.o.tag ∧ ¬on s.me x.p.tag ∧ s.me.pres k = true)
      (fun x s => lands k x.o.word (x.taint || x.o.taint) s) ∧
    completesIf .ck d .t i (fun x s => target x k ∧ ¬on s.me x.o.tag ∧ on s.me x.p.tag ∧ s.me.pres k = true)
      (fun x s => lands k x.p.word (x.taint || x.p.taint) s) ∧
    trapsIf .ck d .t i (fun x s => target x k ∧ ¬(on s.me x.o.tag ↔ on s.me x.p.tag) ∧ s.me.pres k = false) 0x20
      (fun _ => 0) ∧
    trapsIf .ck d .t i (fun x s => target x k ∧ ¬on s.me x.o.tag ∧ ¬on s.me x.p.tag ∧ s.me.pres k = true) 0x21
      (fun _ => 0) ∧
    completesIf .ck d .t i (fun x s => target x k ∧ ¬on s.me x.o.tag ∧ ¬on s.me x.p.tag ∧ s.me.pres k = false)
      (fun x s => lands k 0 x.taint s)) ∧
  (∀ k, trapsIf .ck 0x165 .t .ckMerge (fun x s => target x k ∧ on s.me x.o.tag ∧ on s.me x.p.tag) 0x22 (fun _ => 0)) ∧
  (∀ k, completesIf .ck 0x166 .t .ckMergep (fun x s => target x k ∧ on s.me x.o.tag ∧ on s.me x.p.tag)
    (fun x s => lands k x.o.word (x.taint || x.o.taint) (s.landAt .dropAdd (.sc SVal.zero)))) ∧
  (∀ (c : Ctx) p, p.dest = .dropAdd →
    c.landOne p = { c with drop := if c.drop = 0xFFFFFFFF#32 then 0xFFFFFFFF#32 else c.drop + 1 }) ∧
  (∀ (c : Ctx) v w, c.pend = [⟨0, .dropAdd, v, 0#6, false, [], 0#64, none, none⟩,
      ⟨0, .ctxReg 3, w, 0#6, false, [], 0#64, none, none⟩] →
    c.landDue.drop = BitVec.ofNat 32 w.word.toNat + (if w.word.toNat % 2 ^ 32 = 2 ^ 32 - 1 then 0 else 1)) ∧
  ∀ d i, (d, i) ∈ [(0x165, Instr.ckMerge), (0x166, Instr.ckMergep)] →
    trapsIf .ck d .t i (fun x _ => 16 ≤ x.t.word.toNat) 0x27 (fun _ => 0)

/-- ck.fby, ck.pre and ck.hold carry a value across instants in a delay cell. A well-placed cell is read, then written
with the new value, VALID and zeros: fby lands the cell's value if VALID is set and o otherwise, pre 0 otherwise, with
the tag of t; hold writes o and lands it on the target clock while o's clock is present, and otherwise lands the
cell's value, or 0, without writing. What is on its way is the value with VAL's taint where VALID is set and the
other's where not, and is never late where the data of a local cell meets no wait. A cell misaligned or at another
level is CK_FORM. The bytes a delay writes are the value, then 1, then zeros. (09_seq_control R189) -/
def Obligations.DelayCells : Prop :=
  let placed (s : State) (va : Nat) : Prop :=
    va % 32 = 0 ∧ sharedRange va 32 = true ∧ s.anyMs s.cur (pagesOf va 32) = .ok false
  let misplaced (s : State) (va : Nat) : Prop :=
    va % 32 ≠ 0 ∨ sharedRange va 32 = false ∨ s.anyMs s.cur (pagesOf va 32) = .ok true
  let delay (d : Nat) (us : Uses) (i : Src → Guard → Instr) (cell : Opnds → Nat) (init : Opnds → Value) : Prop :=
    (∀ a g s u p w, fires .ck d us a g s = true →
      let x := s.operands .ck us a
      placed s (cell x) → s.passesOne [⟨cell x, 32, false⟩, ⟨cell x, 32, true⟩] u [p, w] →
      let r := u.readSpan u.cur p
      let v := r.1.landCell p r.2.1 r.2.2 (init x).word (init x).taint x.t.tag x.taint
      v.pinSpan w.ps (cellBytes x.t.word) = none →
      exec (i a g) s = .next
        ((v.writePieces u.cur (v.viewer u.cur) w.ps (cellBytes x.t.word) (x.taint || u.me.ctaint)).unpoison
          (v.viewer u.cur) w.ps).retired) ∧
    trapsIf .ck d us i (fun x s => misplaced s (cell x)) 0x27 (fun _ => 0)
  delay 0x168 .opt .ckFby (fun x => x.p.word.toNat) (fun x => x.o) ∧
  delay 0x16C .ot .ckPre (fun x => x.o.word.toNat) (fun _ => .sc SVal.zero) ∧
  (∀ a g s u w k, fires .ck 0x169 .pt a g s = true →
    let x := s.operands .ck .pt a
    x.t.word.toNat = k → k < 16 → placed s x.p.word.toNat → (x.o.tag = 0xF#4 ∨ s.me.pres x.o.tag.toNat = true) →
    s.passes [⟨x.p.word.toNat, 32, true⟩] u [w] → u.pinSpan w.ps (cellBytes x.o.word) = none →
    exec (.ckHold a g) s = .next
      (((u.writePieces u.cur (u.viewer u.cur) w.ps (cellBytes x.o.word) (x.taint || x.o.taint || u.me.ctaint)).unpoison
        (u.viewer u.cur) w.ps).land .ckq 1 (.scalar x.o.word (BitVec.ofNat 4 k) (x.taint || x.o.taint)) 0#6).retired) ∧
  (∀ a g s u p k, fires .ck 0x169 .pt a g s = true →
    let x := s.operands .ck .pt a
    x.t.word.toNat = k → k < 16 → placed s x.p.word.toNat → x.o.tag ≠ 0xF#4 → s.me.pres x.o.tag.toNat = false →
    s.passes [⟨x.p.word.toNat, 32, false⟩] u [p] →
    let r := u.readSpan u.cur p
    exec (.ckHold a g) s = .next (r.1.landCell p r.2.1 r.2.2 0 false (BitVec.ofNat 4 k) x.taint).retired) ∧
  (∀ (s : State) p bs st alt at_ tag taint, ∃ q : Pend,
    (s.landCell p bs st alt at_ tag taint).me.pend = s.me.pend ++ [q] ∧ q.left = 1 ∧ q.dest = .port .ckq ∧
      q.val = (if (leNat bs).testBit 64 then .scalar (BitVec.ofNat 64 (leNat bs)) tag (taint || st)
        else .scalar alt tag (taint || at_)) ∧ q.flags = 0#6 ∧
      (s.lateness = [] → (∀ a ∈ p.ps, a.isRemote = false) → q.late = false)) ∧
  ∀ v : Word, (cellBytes v).length = 32 ∧ leNat (cellBytes v) = v.toNat + 2 ^ 64

/-- sy.add, sy.wait, sy.peek and sy.fence. An add saturates at 2^64 - 1. With no handler running and no earlier work
of the context pending, an add to a context-local counter is applied at once; in an ordered launch one to a shared
counter is held in the reaction's version. A wait goes on when its threshold is met, traps with COUNTER_UNREACHABLE
when it never can be, and blocks otherwise: on a live local counter it is met by the value and out of reach when
nothing of the context that was in flight before the group names the counter, and none has added to it in this core
cycle (logs 127, 131); on a shared one of an ordered launch it is met by the cleared value with the reaction's own
held adds, and out of reach once the clearing seen has come to its instant at every device; no other wait is ever out
of reach. A peek of a counter of the context, the gang or the own die lands its live value, tainted, after one cycle.
A fence of scope 0-5 goes on once the context's earlier memory-side operations, its stores and loads at other devices
and, from scope 2 on, its cp and mx commands are performed, and blocks until then; another scope, and a bad selector,
are SY_FORM, and an ungranted shared counter LEASE_EXIT. (09_seq_control R191, 09_seq_control R192, 09_seq_control
R193, 09_seq_control R195, 09_seq_control R196, 05_ordering R116, 05_ordering R119) -/
def Obligations.CountersAndWaits : Prop :=
  (∀ a n : Word, (satAdd a n).toNat = min (a.toNat + n.toNat) (2 ^ 64 - 1)) ∧
  (∀ a g s i, fires .sy 0x182 .ot a g s = true → s.selFault s.cur (s.operands .sy .ot a).o.word = none →
    s.sel s.cur (s.operands .sy .ot a).o.word = .loc i →
    (∀ h ∈ (s.core s.cur.core).adds, h.ctx ≠ s.cur.ctx) → s.ctxFlits s.cur = false → s.me.loadsOut = false → s.me.bank = none →
    (∀ c ∈ (s.core s.cur.core).mxq ++ (s.core s.cur.core).cpq ++ (s.core s.cur.core).msq, c.ctx ≠ s.cur.ctx) →
    ∃ t, exec (.syAdd a g) s = .next t ∧ t.last = .done ∧
      t.me.lctr = s.me.lctr.set (Fin.ofNat 16 i) (satAdd s.me.lctr[Fin.ofNat 16 i] (s.operands .sy .ot a).t.word)) ∧
  (∀ a g s r l d i, fires .sy 0x182 .ot a g s = true → s.selFault s.cur (s.operands .sy .ot a).o.word = none →
    s.sel s.cur (s.operands .sy .ot a).o.word = .die d i → s.me.react = some r → s.me.ord = true →
    s.launch? r.lid = some l → l.record.open_ = false →
    let held := s.store.log r.lid r.stamp [.add (ctrKey d i) (s.operands .sy .ot a).t.word s.me.ctaint]
    exec (.syAdd a g) s = .next ({ s with store := held } : State).retired) ∧
  completesIf .sy 0x183 .ot .syWait (fun x s => s.selFault s.cur x.o.word = none ∧
    s.waitR s.cur (s.sel s.cur x.o.word) x.t.word = .met) (fun _ s => s) ∧
  trapsIf .sy 0x183 .ot .syWait (fun x s => s.selFault s.cur x.o.word = none ∧
    s.waitR s.cur (s.sel s.cur x.o.word) x.t.word = .unreachable) 0x23 (fun _ => 0) ∧
  (∀ a g s, fires .sy 0x183 .ot a g s = true → let x := s.operands .sy .ot a
    s.selFault s.cur x.o.word = none → s.waitR s.cur (s.sel s.cur x.o.word) x.t.word = .blocked →
    exec (.syWait a g) s = finish s (slotOf a 0x183 g) (.block (.wait x.o.word x.t.word))) ∧
  completesIf .sy 0x184 .t .syPeek (fun x s => s.selFault s.cur x.t.word = none ∧
      ((∃ i, s.sel s.cur x.t.word = .loc i ∨ s.sel s.cur x.t.word = .gang i) ∨
        ∃ i, s.sel s.cur x.t.word = .die (dieOf s.cur.core) i))
    (fun x s => s.land .syq 1 (.scalar (s.ctrVal s.cur (s.sel s.cur x.t.word)) x.tag true) 0#6) ∧
  completesIf .sy 0x185 .t .syFence (fun x s => x.t.word.toNat ≤ 5 ∧ s.fenceDone s.cur x.t.word.toNat = true)
    (fun _ s => s) ∧
  (∀ a g s, fires .sy 0x185 .t a g s = true → let x := s.operands .sy .t a
    x.t.word.toNat ≤ 5 → s.fenceDone s.cur x.t.word.toNat = false →
    exec (.syFence a g) s = finish s (slotOf a 0x185 g) (.block (.fence x.t.word.toNat))) ∧
  trapsIf .sy 0x185 .t .syFence (fun x _ => 5 < x.t.word.toNat) 0x25 (fun _ => 0) ∧
  trapsIf .sy 0x182 .ot .syAdd (fun x s => s.sel s.cur x.o.word = .bad) 0x25 (fun _ => 0) ∧
  trapsIf .sy 0x183 .ot .syWait (fun x s => s.sel s.cur x.o.word = .bad) 0x25 (fun _ => 0) ∧
  trapsIf .sy 0x184 .t .syPeek (fun x s => s.sel s.cur x.t.word ≠ .bad ∧ s.granted s.cur (s.sel s.cur x.t.word) = false)
    0xC0 (fun _ => 0) ∧
  (∀ (s : State) x i n, (s.waitR x (.loc i) n = .met ↔ n.toNat ≤ (s.ctrVal x (.loc i)).toNat) ∧
    (s.waitR x (.loc i) n = .unreachable ↔ (s.ctrVal x (.loc i)).toNat < n.toNat ∧ s.addedNow x (.loc i) = false ∧
      let k := (s.pre x.core).core
      let names (w : Nat) : Prop := s.sel x (BitVec.ofNat 64 w) = .loc i
      (∀ m ∈ k.mxq ++ k.cpq ++ k.msq, m.ctx = x.ctx → ∀ w, m.sel = some w → ¬names w) ∧
        (∀ b ∈ (k.ctx x.ctx).blocks, b.filled = false → ¬names b.sel) ∧
        ∀ a ∈ k.adds, a.ctx = x.ctx → ¬names a.ctr)) ∧
  (∀ (s : State) x c n r l, (s.ctx x).react = some r → s.launchOf x = some l → l.record.open_ = false → c.shared = true →
    s.known c = true → s.waitR x c n = (if n.toNat ≤ (s.ownAdds r c (s.ctrVal x c)).toNat then .met
      else if s.reached l (instOf r.stamp) = true then .unreachable else .blocked)) ∧
  (∀ (s : State) (l : Launch) i, s.reached l i = true ↔
    l.cleared = i ∧ (∀ p ∈ l.peers, i ≤ p.clr) ∧ l.lid ∉ s.clearedNow) ∧
  (∀ (s : State) r c v, (∀ k n b, Eff.add k n b ∈ s.store.effs r.lid r.stamp → k ≠ c.addKey) → s.ownAdds r c v = v) ∧
  (∀ (s : State) r c v n b, s.store.effs r.lid r.stamp = [.add c.addKey n b] → s.ownAdds r c v = satAdd v n) ∧
  (∀ (s : State) x c n, s.waitR x c n = .unreachable → (∃ i, c = .loc i) ∨
    c.shared = true ∧ ∃ r l, (s.ctx x).react = some r ∧ s.launchOf x = some l ∧ l.record.open_ = false) ∧
  ∀ (s : State) x n, s.fenceDone x n = true ↔
    (∀ c ∈ (s.core x.core).msq, c.ctx = x.ctx → (s.pre x.core).core.seq ≤ c.id) ∧
    (∀ o ∈ (s.pre x.core).flits, o.ofCtx x = true → o.cmd = none → o.flit.fk ≠ 1 ∧ o.flit.fk ≠ 7) ∧
    ((s.pre x.core).core.ctx x.ctx).loadsOut = false ∧
    (2 ≤ n → ∀ c ∈ (s.core x.core).mxq ++ (s.core x.core).cpq, c.ctx = x.ctx → (s.pre x.core).core.seq ≤ c.id)

/-- sy.asdecl, sy.tend, sy.yield, sy.stamp and sy.taint. asdecl of a range of whole lines wholly in shared plain
memory, within the leases and sharing no line with the reaction's sets, adds a set not yet held and lands its number;
a bad base, length or level, or a shared line, is SY_FORM, and a seventeenth set ASET_LIMIT. tend blocks its context
for good, and in a handler is EMU_DOUBLE, with INFO 0 (the model's choice, log 149). yield blocks until the ready
siblings have issued, if there are any. stamp lands the stamp, its instant, its age, the wound count (tainted) or
control taint; another item is SY_FORM. taint lands t with its tag and taint set. (09_seq_control R197, 09_seq_control
R198, 09_seq_control R199, 09_seq_control R200, 10_seq_traps R222) -/
def Obligations.SetsEndsAndStamps : Prop :=
  (∀ a g s r ref ps, fires .sy 0x186 .ot a g s = true → let x := s.operands .sy .ot a
    let base := x.o.word.toNat
    let len := x.t.word.toNat
    base % 128 = 0 → len ≠ 0 → len % 128 = 0 → sharedRange base len = true → s.anyMs s.cur (pagesOf base len) = .ok false →
    s.me.react = some ref → s.reactOf s.cur = some r → (∀ q ∈ r.sets, q.meets (s.rangesOf s.cur base len) = false) →
    s.resolve s.cur .r base len = .ok ps → r.sets.length < 16 →
    exec (.syAsdecl a g) s = .next (x.put .syq 1 (BitVec.ofNat 64 r.sets.length) 0#6 (s.updReact ref.id fun r =>
      { r with sets := r.sets ++ [⟨base, len, s.rangesOf s.cur base len, false, false, false⟩] })).retired) ∧
  trapsIf .sy 0x186 .ot .syAsdecl (fun x s => x.o.word.toNat % 128 ≠ 0 ∨ x.t.word.toNat = 0 ∨ x.t.word.toNat % 128 ≠ 0 ∨
    sharedRange x.o.word.toNat x.t.word.toNat = false ∨
      s.anyMs s.cur (pagesOf x.o.word.toNat x.t.word.toNat) = .ok true) 0x25 (fun _ => 0) ∧
  (∀ a g s r ref ps, fires .sy 0x186 .ot a g s = true → let x := s.operands .sy .ot a
    let base := x.o.word.toNat
    let len := x.t.word.toNat
    base % 128 = 0 → len ≠ 0 → len % 128 = 0 → sharedRange base len = true → s.anyMs s.cur (pagesOf base len) = .ok false →
    s.me.react = some ref → s.reactOf s.cur = some r → (∀ q ∈ r.sets, q.meets (s.rangesOf s.cur base len) = false) →
    s.resolve s.cur .r base len = .ok ps → 16 ≤ r.sets.length →
    exec (.syAsdecl a g) s = finish s (slotOf a 0x186 g) (.trap 0x26 5 0)) ∧
  trapsIf .sy 0x186 .ot .syAsdecl (fun x s => let base := x.o.word.toNat
    let len := x.t.word.toNat
    base % 128 = 0 ∧ len ≠ 0 ∧ len % 128 = 0 ∧ sharedRange base len = true ∧ s.anyMs s.cur (pagesOf base len) = .ok false ∧
      ∃ r q, s.reactOf s.cur = some r ∧ q ∈ r.sets ∧ q.meets (s.rangesOf s.cur base len) = true) 0x25 (fun _ => 0) ∧
  completesIf .sy 0x187 .none_ .syTend (fun _ s => s.me.emu = false) (fun _ s => s.setStatus s.cur (.blocked .tend)) ∧
  trapsIf .sy 0x187 .none_ .syTend (fun _ s => s.me.emu = true) 0x07 (fun _ => 0) ∧
  completesIf .sy 0x188 .none_ .syYield (fun _ s => s.readySiblings s.cur = []) (fun _ s => s) ∧
  completesIf .sy 0x188 .none_ .syYield (fun _ s => s.readySiblings s.cur ≠ [])
    (fun _ s => s.setStatus s.cur (.blocked (.yield (s.readySiblings s.cur)))) ∧
  completesIf .sy 0x189 .t .syStamp (fun x _ => x.t.word = 0) (fun x s => x.put .syq 1 s.me.stamp 0#6 s) ∧
  completesIf .sy 0x189 .t .syStamp (fun x _ => x.t.word = 1) (fun x s => x.put .syq 1 (s.me.stamp >>> 16) 0#6 s) ∧
  completesIf .sy 0x189 .t .syStamp (fun x _ => x.t.word = 2) (fun x s => x.put .syq 1 (s.me.stamp &&& 0xFFFF) 0#6 s) ∧
  completesIf .sy 0x189 .t .syStamp (fun x _ => x.t.word = 3) (fun x s =>
    s.land .syq 1 (.scalar (BitVec.ofNat 64 (((s.reactOf s.cur).map Reaction.wounds).getD 0)) x.tag true) 0#6) ∧
  completesIf .sy 0x189 .t .syStamp (fun x _ => x.t.word = 4)
    (fun x s => x.put .syq 1 (if s.me.ctaint then 1 else 0) 0#6 s) ∧
  trapsIf .sy 0x189 .t .syStamp (fun x _ => 4 < x.t.word.toNat) 0x25 (fun _ => 0) ∧
  completes .sy 0x18A .t .syTaint (fun x s => s.land .syq 1 (.scalar x.t.word x.t.tag true) 0#6)

/-- Vector floating-point operations work lane by lane, with one rounding and the flags of all lanes. In each lane,
add, sub, mul, fma, div, sqrt, rsqrt, exp2, log2, itof, ftoi and the BF16 and FP16 conversions round once under
ctx.fpm as it stands at the trigger; min, max and widening are exact. A scalar operand serves every lane. The result
lands in ve.q after 4 cycles (8 for div, sqrt, rsqrt, exp2, log2) with exactly the flags that some lane raises; ceq
(quiet) and clt (signalling) land a mask in ve.q2. The special cases of R252 hold, and exp2 of an integer and log2 of
a power of two are exact. (Num.* is the model's exact arithmetic; its fixed-point exp2 and log2 are log entry 14.)
(12_vector R247, 12_vector R248, 12_vector R250, 12_vector R251, 12_vector R252, 12_vector R253) -/
def Obligations.VectorFloatOperations : Prop :=
  let op (lat : Nat) (d : Nat) (us : Uses) (i : Src → Guard → Instr)
      (f : Num.Mode → Num.FVal → Num.FVal → Num.FVal → Nat × Num.Flags) : Prop :=
    lanewiseF d us i lat fun md o p t =>
      let r := f md (Num.f32 o) (Num.f32 p) (Num.f32 t); (BitVec.ofNat 32 r.1, r.2)
  op 4 0x1A2 .ot .veAddF32 (fun md o _ t => Num.addV Num.fp32 md o t) ∧
  op 4 0x1A3 .ot .veSubF32 (fun md o _ t => Num.addV Num.fp32 md o t.negate) ∧
  op 4 0x1A4 .ot .veMulF32 (fun md o _ t => Num.mulV Num.fp32 md o t) ∧
  op 4 0x1A5 .opt .veFmaF32 (fun md o p t => Num.fmaV Num.fp32 md o p t) ∧
  op 8 0x1AA .ot .veDivF32 (fun md o _ t => Num.divV Num.fp32 md o t) ∧
  op 8 0x1AB .t .veSqrtF32 (fun md _ _ t => Num.sqrtV Num.fp32 md t) ∧
  op 8 0x1AC .t .veRsqrtF32 (fun md _ _ t => Num.rsqrtV Num.fp32 md t) ∧
  op 8 0x1AD .t .veExp2F32 (fun md _ _ t => Num.exp2V Num.fp32 md t) ∧
  op 8 0x1AE .t .veLog2F32 (fun md _ _ t => Num.log2V Num.fp32 md t) ∧
  op 4 0x1B1 .t .veCvtBf16 (fun md _ _ t => Num.cvt Num.bf16 md t) ∧
  op 4 0x1B2 .t .veCvtF16 (fun md _ _ t => Num.cvt Num.fp16 md t) ∧
  lanewiseF 0x1A6 .ot .veMinF32 4 (fun _ o _ t =>
    if (Num.f32 o).isNan || (Num.f32 t).isNan then (0x7FC00000#32, Num.snanFlag [Num.f32 o, Num.f32 t])
    else (BitVec.ofNat 32 (Num.minmaxV Num.fp32 false (Num.f32 o) (Num.f32 t) o.toNat t.toNat).1, 0#6)) ∧
  lanewiseF 0x1A7 .ot .veMaxF32 4 (fun _ o _ t =>
    if (Num.f32 o).isNan || (Num.f32 t).isNan then (0x7FC00000#32, Num.snanFlag [Num.f32 o, Num.f32 t])
    else (BitVec.ofNat 32 (Num.minmaxV Num.fp32 true (Num.f32 o) (Num.f32 t) o.toNat t.toNat).1, 0#6)) ∧
  lanewiseF 0x1AF .t .veFtoiS32 4 (fun md _ _ t =>
    let r := Num.toInt md 32 (Num.f32 t); (BitVec.ofInt 32 r.1, r.2)) ∧
  lanewiseF 0x1B0 .t .veItofS32 4 (fun md _ _ t =>
    let r := Num.ofInt Num.fp32 md t.toInt; (BitVec.ofNat 32 r.1, r.2)) ∧
  lanewiseF 0x1B3 .t .veWidBf16 4 (fun _ _ _ t =>
    let r := Num.cvt Num.fp32 .rne (Num.ofBits Num.bf16 (t.toNat % 2 ^ 16)); (BitVec.ofNat 32 r.1, r.2)) ∧
  lanewiseF 0x1B4 .t .veWidF16 4 (fun _ _ _ t =>
    let r := Num.cvt Num.fp32 .rne (Num.ofBits Num.fp16 (t.toNat % 2 ^ 16)); (BitVec.ofNat 32 r.1, r.2)) ∧
  lanemask 0x1A8 .ot .veCeqF32 4 (fun o t => Num.eqV (Num.f32 o) (Num.f32 t))
    (fun o t => Num.snanFlag [Num.f32 o, Num.f32 t]) ∧
  lanemask 0x1A9 .ot .veCltF32 4 (fun o t => Num.ltV (Num.f32 o) (Num.f32 t))
    (fun o t => Num.flagIf ((Num.f32 o).isNan || (Num.f32 t).isNan) Num.NV) ∧
  (∀ md n p i j k l,
    (i ≠ 0 → Num.divV Num.fp32 md (.fin n i k) (.fin p 0 l) = (Num.infOf Num.fp32 (n != p), Num.DZ)) ∧
    Num.divV Num.fp32 md (.fin n 0 k) (.fin p 0 l) = (0x7FC00000, Num.NV) ∧
    Num.divV Num.fp32 md (.inf n) (.inf p) = (0x7FC00000, Num.NV) ∧
    Num.divV Num.fp32 md (.fin n i k) (.inf p) = (Num.zeroOf Num.fp32 (n != p), 0) ∧
    Num.divV Num.fp32 md (.inf n) (.fin p j l) = (Num.infOf Num.fp32 (n != p), 0) ∧
    (j ≠ 0 → Num.divV Num.fp32 md (.fin n 0 k) (.fin p j l) = (Num.zeroOf Num.fp32 (n != p), 0))) ∧
  (∀ md n i k, Num.sqrtV Num.fp32 md (.fin n 0 k) = (Num.zeroOf Num.fp32 n, 0) ∧
    Num.rsqrtV Num.fp32 md (.fin n 0 k) = (Num.infOf Num.fp32 n, Num.DZ) ∧
    Num.log2V Num.fp32 md (.fin n 0 k) = (Num.infOf Num.fp32 true, Num.DZ) ∧
    Num.exp2V Num.fp32 md (.fin n 0 k) = (0x3F800000, 0) ∧
    (i ≠ 0 → Num.sqrtV Num.fp32 md (.fin true i k) = (0x7FC00000, Num.NV) ∧
      Num.rsqrtV Num.fp32 md (.fin true i k) = (0x7FC00000, Num.NV) ∧
      Num.log2V Num.fp32 md (.fin true i k) = (0x7FC00000, Num.NV))) ∧
  (∀ md s, (∀ f ∈ [Num.sqrtV, Num.rsqrtV, Num.exp2V, Num.log2V],
      f Num.fp32 md (.nan s) = (0x7FC00000, if s then Num.NV else 0)) ∧
    (∀ f ∈ [Num.sqrtV, Num.rsqrtV, Num.log2V], f Num.fp32 md (.inf true) = (0x7FC00000, Num.NV)) ∧
    (∀ f ∈ [Num.sqrtV, Num.exp2V, Num.log2V], f Num.fp32 md (.inf false) = (0x7F800000, 0)) ∧
    Num.rsqrtV Num.fp32 md (.inf false) = (0, 0) ∧ Num.exp2V Num.fp32 md (.inf true) = (0, 0)) ∧
  (∀ md n (m k : Nat) (e : Int), (m : ℚ) * 2 ^ e = k → k ≤ 126 →
    Num.exp2V Num.fp32 md (.fin n m e) = ((if n then 127 - k else 127 + k) * 2 ^ 23, 0)) ∧
  ∀ md (j : Nat) (e : Int), Num.log2V Num.fp32 md (.fin false (2 ^ j) e) = Num.ofInt Num.fp32 md (e + j)

/-- The lane-wise integer and logic operations give the results of R256 after 2 cycles without flags. In each of the
64 lanes: sums, differences and products modulo 2^32, bitwise logic, shifts by bits 4:0 of t alone, signed minimum and
maximum, all in ve.q at trigger + 2; equality and signed less-than land a mask of the lanes in ve.q2 at trigger + 2.
None sets a flag. (R256) -/
def Obligations.VectorIntegerOperations : Prop :=
  lanewise 0x1B7 .ot .veAddS32 2 (fun o _ t => BitVec.ofInt 32 (o.toInt + t.toInt)) ∧
  lanewise 0x1B8 .ot .veSubS32 2 (fun o _ t => BitVec.ofInt 32 (o.toInt - t.toInt)) ∧
  lanewise 0x1B9 .ot .veMulS32 2 (fun o _ t => BitVec.ofInt 32 (o.toInt * t.toInt)) ∧
  lanewise 0x1BA .ot .veAndB32 2 (fun o _ t => o &&& t) ∧
  lanewise 0x1BB .ot .veOrB32 2 (fun o _ t => o ||| t) ∧
  lanewise 0x1BC .ot .veXorB32 2 (fun o _ t => o ^^^ t) ∧
  lanewise 0x1BD .ot .veShlB32 2 (fun o _ t => BitVec.ofNat 32 (o.toNat * 2 ^ (t.toNat % 32))) ∧
  lanewise 0x1BE .ot .veShrB32 2 (fun o _ t => BitVec.ofNat 32 (o.toNat / 2 ^ (t.toNat % 32))) ∧
  lanewise 0x1BF .ot .veSarB32 2 (fun o _ t => BitVec.ofInt 32 (o.toInt / 2 ^ (t.toNat % 32))) ∧
  lanewise 0x1C0 .ot .veMinS32 2 (fun o _ t => if o.toInt ≤ t.toInt then o else t) ∧
  lanewise 0x1C1 .ot .veMaxS32 2 (fun o _ t => if t.toInt ≤ o.toInt then o else t) ∧
  lanemask 0x1C2 .ot .veCeqB32 2 (fun o t => decide (o = t)) (fun _ _ => 0#6) ∧
  lanemask 0x1C3 .ot .veCltS32 2 (fun o t => decide (o.toInt < t.toInt)) (fun _ _ => 0#6)

/-- Byte compares, CRC-32C and the burl hash give the results of R258 to R260 in each lane after 2 cycles. beq
collects the bytes that agree, bfind is the first byte of o equal to byte 0 of t or 4, bcmp is 0 or plus or minus one
more than the position of the first byte that differs; crc32c.n8 and b32 advance a reflected CRC-32C state by one and
by four bytes, lowest first; burl and burlf mix and finish a hash modulo 2^32. The CRC of the nine bytes 123456789
comes out as in R259, and burl(0, 1) as in R260. (12_vector R258, 12_vector R259, 12_vector R260) -/
def Obligations.VectorBytesChecksumsAndHash : Prop :=
  let byte (x : Lane) (j : Nat) : Nat := x.toNat / 2 ^ (8 * j) % 256
  let bit (c : Lane) : Lane := if c.toNat % 2 = 1 then (c >>> 1) ^^^ 0x82F63B78#32 else c >>> 1
  let crc (c : Lane) (b : Nat) : Lane := bit (bit (bit (bit (bit (bit (bit (bit (c ^^^ BitVec.ofNat 32 b))))))))
  let rotl (x : Lane) (n : Nat) : Lane := (x <<< n) ||| (x >>> (32 - n))
  (∃ f : Lane → Lane → Lane, lanewise 0x1C6 .ot .veBeqN8 2 (fun o _ t => f o t) ∧
    ∀ o t j, j < 4 → ((f o t).getLsbD j = decide (byte o j = byte t j)) ∧ (f o t).toNat < 16) ∧
  (∃ f : Lane → Lane → Lane, lanewise 0x1C7 .ot .veBfindN8 2 (fun o _ t => f o t) ∧
    ∀ o t, (∀ j, j < (f o t).toNat → byte o j ≠ byte t 0) ∧
      ((f o t).toNat = 4 ∨ (f o t).toNat < 4 ∧ byte o (f o t).toNat = byte t 0)) ∧
  (∃ f : Lane → Lane → Lane, lanewise 0x1C8 .ot .veBcmpN8 2 (fun o _ t => f o t) ∧
    ∀ o t, (o = t → f o t = 0) ∧
      ∀ j, j < 4 → (∀ k, k < j → byte o k = byte t k) →
        (byte o j < byte t j → (f o t).toInt = -(j + 1)) ∧ (byte t j < byte o j → (f o t).toInt = j + 1)) ∧
  lanewise 0x1C9 .ot .veCrc32cN8 2 (fun o _ t => crc o (byte t 0)) ∧
  lanewise 0x1CA .ot .veCrc32cB32 2 (fun o _ t => crc (crc (crc (crc o (byte t 0)) (byte t 1)) (byte t 2)) (byte t 3)) ∧
  lanewise 0x1CB .ot .veBurl 2 (fun o _ t => rotl (o ^^^ rotl (t * 0x7A3D91C5) 11) 19 * 5 + 0x2C6B8E13) ∧
  lanewise 0x1CC .t .veBurlf 2 (fun _ _ t =>
    let h := (t ^^^ (t >>> 15)) * 0x6C8E9CF5
    let h := (h ^^^ (h >>> 13)) * 0x3A1B5D27
    h ^^^ (h >>> 16)) ∧
  vCrc8 (vCrc32 (vCrc32 0xFFFFFFFF 0x34333231) 0x38373635) 0x39 = 0x1CF96D7C ∧ vBurl 0 1 = 0x05388448

/-- Selection, lane numbers, masked reductions and lane movement, and the faults of their scalar operands. With scalar
masks, amounts and lane numbers: sel chooses lanes by the bits of t, lid counts up from t[31:0], perm takes lane t mod
64, lrot moves lanes up, lext and lins read and replace one lane, ffs is the first bit set or 64; rsum, rmax and rmin
reduce the selected lanes over the tree of R137, unselected lanes being -0 and the infinities, and an empty mask gives
+0. A vector in a scalar operand, or a lane number above 63, is VE_FORM. (12_vector R257, 12_vector R261, 12_vector
R262, 12_vector R267, 06_numbers R137, 06_numbers R140) -/
def Obligations.MasksReductionsAndLaneMovement : Prop :=
  let vec (lat d : Nat) (us : Uses) (i : Src → Guard → Instr) (P : Opnds → Prop) (f : Opnds → Fin 64 → Lane) : Prop :=
    ∀ a g s, fires .ve d us a g s = true → P (s.operands .ve us a) →
      ∃ r : Lanes, (∀ j : Fin 64, r[j] = f (s.operands .ve us a) j) ∧
        exec (i a g) s = .next ((s.operands .ve us a).putV lat r 0#6 s).retired
  let one (x : Opnds) (_ : State) : Prop := x.t.isVec = false
  let leaves (pad : Nat) (x : Opnds) : List Nat :=
    (List.finRange 64).map fun (j : Fin 64) => if x.t.word.getLsbD j = true then x.o.lanes[j].toNat else pad
  let red (d : Nat) (i : Src → Guard → Instr) (pad : Nat) (node : Num.Mode → Nat → Nat → Nat × Num.Flags) : Prop :=
    completesIf .ve d .ot i one (fun x s =>
      if x.t.word = 0 then x.put .veq2 6 0 0#6 s
      else
        let r := Num.tree64 (node s.me.mode) (leaves pad x)
        x.put .veq2 6 (BitVec.ofNat 64 r.1) r.2 s)
  vec 2 0x1C4 .opt .veSelB32 (fun x => x.t.isVec = false)
    (fun x j => if x.t.word.getLsbD j = true then x.o.lanes[j] else x.p.lanes[j]) ∧
  vec 2 0x1C5 .t .veLid (fun x => x.t.isVec = false) (fun x j => BitVec.ofNat 32 (x.t.word.toNat + j)) ∧
  vec 6 0x1D0 .ot .vePerm (fun _ => True) (fun x j => x.o.lanes[x.t.lanes[j].toNat % 64]'(by omega)) ∧
  vec 6 0x1D1 .ot .veLrot (fun x => x.t.isVec = false)
    (fun x j => x.o.lanes[(j.val + (64 - x.t.word.toNat % 64)) % 64]'(by omega)) ∧
  vec 6 0x1D3 .opt .veLins (fun x => x.t.isVec = false ∧ x.p.isVec = false ∧ x.t.word.toNat < 64)
    (fun x j => if j.val = x.t.word.toNat then x.p.word.setWidth 32 else x.o.lanes[j]) ∧
  (∀ a g s, fires .ve 0x1D2 .ot a g s = true → let x := s.operands .ve .ot a
    x.t.isVec = false → ∀ h : x.t.word.toNat < 64,
    exec (.veLext a g) s = .next (x.put .veq2 6 (x.o.lanes[x.t.word.toNat].setWidth 64) 0#6 s).retired) ∧
  completesIf .ve 0x1D4 .t .veFfs one (fun x s => x.put .veq2 6
    (BitVec.ofNat 64 ((List.range 64).takeWhile fun i => !x.t.word.getLsbD i).length) 0#6 s) ∧
  red 0x1CD .veRsumF32 0x80000000 (Num.sumNode Num.fp32) ∧
  red 0x1CE .veRmaxF32 0xFF800000 (fun _ => Num.maxminNode Num.fp32 true) ∧
  red 0x1CF .veRminF32 0x7F800000 (fun _ => Num.maxminNode Num.fp32 false) ∧
  trapsIf .ve 0x1C4 .opt .veSelB32 (fun x _ => x.t.isVec = true) 0x40 (fun _ => 0) ∧
  trapsIf .ve 0x1C5 .t .veLid (fun x _ => x.t.isVec = true) 0x40 (fun _ => 0) ∧
  trapsIf .ve 0x1D1 .ot .veLrot (fun x _ => x.t.isVec = true) 0x40 (fun _ => 0) ∧
  trapsIf .ve 0x1D4 .t .veFfs (fun x _ => x.t.isVec = true) 0x40 (fun _ => 0) ∧
  (∀ e ∈ [(0x1CD, Instr.veRsumF32), (0x1CE, .veRmaxF32), (0x1CF, .veRminF32)],
    trapsIf .ve e.1 .ot e.2 (fun x _ => x.t.isVec = true) 0x40 (fun _ => 0)) ∧
  trapsIf .ve 0x1D2 .ot .veLext (fun x _ => x.t.isVec = true ∨ 64 ≤ x.t.word.toNat) 0x40 (fun _ => 0) ∧
  trapsIf .ve 0x1D3 .opt .veLins (fun x _ => x.t.isVec = true ∨ x.p.isVec = true ∨ 64 ≤ x.t.word.toNat) 0x40
    (fun _ => 0)

/-- bxenc encodes two blocks and their exponents, bxdec decodes them, and a bad control word is VE_FORM. bxenc with a
scalar t naming BX8, BX6 or BX4, with a lawful CLAMP and no reserved bit, packs the two encoded blocks from byte 0 of
ve.q up and puts their exponents in bits 31:0 of ve.q2, both after 4 cycles with the flags of R254; bxdec lands the 64
element values without flags; any other control word, or a vector, is VE_FORM. (Num.bxEncode, bxPack, bxValue are the
model's encoder and decoder of R128 and R129.) (12_vector R254, 12_vector R255, 06_numbers R128, 06_numbers R129,
12_vector R267) -/
def Obligations.BlockFloatOperations : Prop :=
  let fmt (n : Nat) (b : Num.BxFmt) : Prop := n = 3 ∧ b = Num.bx8 ∨ n = 4 ∧ b = Num.bx6 ∨ n = 5 ∧ b = Num.bx4
  let good (x : Opnds) (b : Num.BxFmt) : Prop :=
    x.t.isVec = false ∧ fmt (x.t.word.toNat % 8) b ∧ x.t.word.toNat / 8 % 32 = 0 ∧ x.t.word.toNat / 2 ^ 12 % 2 ^ 20 = 0 ∧
      (x.t.word.toNat / 2 ^ 32 = 0 ∨ Num.bxOnGrid b (BitVec.ofNat 32 (x.t.word.toNat / 2 ^ 32)) = true)
  let inexact (b : Num.BxFmt) (e : Nat × Nat × List Nat × Bool) (l : List Lane) : Bool :=
    (List.zipWith (fun el v => !(Num.f32 v).isNan && !Num.eqV (Num.f32 v) (Num.bxValue b e.1 e.2.1 el)) e.2.2.1 l).any id
  (∀ a g s b, fires .ve 0x1B5 .ot a g s = true →
    let x := s.operands .ve .ot a
    good x b →
    let enc (l : List Lane) := Num.bxEncode b (x.t.word.toNat / 256 % 16) (BitVec.ofNat 32 (x.t.word.toNat / 2 ^ 32))
      (l.map Num.f32)
    let e0 := enc (x.o.lanes.toList.take 32)
    let e1 := enc (x.o.lanes.toList.drop 32)
    let n := Num.bxPack b e0.2.2.1 + Num.bxPack b e1.2.2.1 * 2 ^ (32 * b.w)
    ∃ (r : Lanes) (fl : Num.Flags), (∀ j : Fin 64, r[j] = BitVec.ofNat 32 (n / 2 ^ (32 * j.val))) ∧
      (fl.getLsbD 5 = (e0.2.2.2 || e1.2.2.2)) ∧
      (fl.getLsbD 4 = (inexact b e0 (x.o.lanes.toList.take 32) || inexact b e1 (x.o.lanes.toList.drop 32))) ∧
      (fl.getLsbD 0 = x.o.lanes.toList.any fun l => (Num.f32 l).isSnan) ∧ fl &&& 0x0E#6 = 0#6 ∧
      exec (.veBxenc a g) s = .next (x.put .veq2 4
        (BitVec.ofNat 64 (e0.1 + e0.2.1 * 2 ^ 8 + (e1.1 + e1.2.1 * 2 ^ 8) * 2 ^ 16)) fl (x.putV 4 r fl s)).retired) ∧
  (∀ a g s b, fires .ve 0x1B6 .ot a g s = true →
    let x := s.operands .ve .ot a
    x.t.isVec = false → fmt (x.t.word.toNat / 2 ^ 32) b →
    ∃ r : Lanes, (∀ j : Fin 64, r[j] =
        let e := x.t.word.toNat / 2 ^ (16 * (j.val / 32))
        BitVec.ofNat 32 (Num.cvt Num.fp32 .rne (Num.bxValue b (e % 256) (e / 256 % 256)
          (Num.bxElem b (lanesNat x.o.lanes / 2 ^ (32 * b.w * (j.val / 32)) % 2 ^ (32 * b.w)) (j.val % 32)))).1) ∧
      exec (.veBxdec a g) s = .next (x.putV 4 r 0#6 s).retired) ∧
  trapsIf .ve 0x1B5 .ot .veBxenc (fun x _ => ∀ b, ¬ good x b) 0x40 (fun _ => 0) ∧
  trapsIf .ve 0x1B6 .ot .veBxdec (fun x _ => x.t.isVec = true ∨ ∀ b, ¬ fmt (x.t.word.toNat / 2 ^ 32) b) 0x40 (fun _ => 0)

/-- Vector loads and stores complete once aligned and admitted, lane by lane, inactive lanes reaching nothing. A load
or store of 256 contiguous bytes, a 16-byte load, a lane-slice access, and a gather or scatter over the lanes whose
offset is not 0xFFFFFFFF, complete when every address is aligned and the accesses pass: lane i holds its four bytes,
lowest first (16-byte loads and inactive lanes leave 0), with the taints of operands and sectors; stores write lane
i's four bytes, in rising lane order. A vector in the address operand of the five others is VE_FORM; a misaligned
address or slice offset is VE_ALIGN; of aligned slice offsets the lowest that ends past the slice is LEASE_EXIT with
its view address, once no watchpoint matches a lane whose offset is within the lane's 4 KiB (of the others none is
asked, the model's choice, log 157). (12_vector R263, 12_vector R264, 12_vector R265, 12_vector R266, 12_vector R267)
-/
def Obligations.VectorMemory : Prop :=
  let gathered (x : Opnds) (r : State × List (List Byte) × Bool) (v : Lanes) : Value := .ve ⟨v, x.tag, x.taint || r.2.2⟩
  let lands (act : List Nat) (lat : Nat) (x : Opnds) (r : State × List (List Byte) × Bool) (ps : List Piece) : State :=
    r.1.landLoad .veq lat (.lanes act) r.2.1.flatten x.tag (x.taint || r.2.2) (loadCauses ps) ps
  let word4 (b : List Byte) : Lane := BitVec.ofNat 32 (leNat b)
  let contig (d n al : Nat) (i : Src → Guard → Instr) : Prop :=
    ∀ a g s t p, fires .ve d .t a g s = true →
      let x := s.operands .ve .t a
      let va := x.t.word.toNat
      x.t.isVec = false → va % al = 0 → s.passesAll .plain [⟨va, n, false⟩] t [p] →
      let r := t.readSpans [p]
      exec (i a g) s = .next (lands (List.range 64) (latencyOf va) x r p.ps).retired
  let slice (offs : Lanes) (w : Bool) : List Span := (List.finRange 64).map fun j =>
    ⟨0xFF000000000000 + j.val * 4096 + offs[j].toNat, 4, w⟩
  let near (offs : Lanes) (w : Bool) : List Span := ((List.finRange 64).filter fun j => offs[j].toNat + 4 ≤ 4096).map fun j =>
    ⟨0xFF000000000000 + j.val * 4096 + offs[j].toNat, 4, w⟩
  let inSlice (s : State) (offs : Lanes) (w : Bool) : Prop :=
    (∀ j : Fin 64, offs[j].toNat % 4 = 0 ∧ offs[j].toNat + 4 ≤ s.me.alloc.lsb ∧ offs[j].toNat + 4 ≤ 4096) ∧
      (s.watchSpans s.cur (slice offs w)).2 = none
  let acts (x : Opnds) : List (Nat × Nat) := activeLanes x.o.word x.t.lanes
  let aligned (x : Opnds) : Prop := ∀ l ∈ acts x, l.2 % 4 = 0
  contig 0x1D5 256 4 .veLdB32 ∧ contig 0x1DB 16 16 .veLd16B64 ∧
  (∀ a g s t p u, fires .ve 0x1D6 .ot a g s = true →
    let x := s.operands .ve .ot a
    x.o.isVec = false → x.o.word.toNat % 4 = 0 → s.passesAll .plain [⟨x.o.word.toNat, 256, true⟩] t [p] →
    t.writeSpan t.cur p (x.t.lanes.toList.flatMap fun l => leBytes 4 l.toNat) (x.taint || t.me.ctaint) = .ok u →
    exec (.veStB32 a g) s = .next u.retired) ∧
  (∀ a g s t ps, fires .ve 0x1D7 .t a g s = true →
    let x := s.operands .ve .t a
    inSlice s x.t.lanes false →
    (∃ qs, s.resolveSpans s.cur (slice x.t.lanes false) = .ok qs ∧ firstMs qs = none ∧
      s.admitFor s.cur .plain qs = .ok t ps) →
    let r := t.readSpans ps
    ∃ v : Lanes, (∀ j : Fin 64, v[j] = ((r.2.1[j.val]?).map word4).getD 0) ∧
      exec (.veLdlB32 a g) s = .next (r.1.land .veq 3 (gathered x r v) 0#6).retired) ∧
  (∀ a g s t ps u, fires .ve 0x1D8 .ot a g s = true →
    let x := s.operands .ve .ot a
    inSlice s x.o.lanes true →
    (∃ qs, s.resolveSpans s.cur (slice x.o.lanes true) = .ok qs ∧ firstMs qs = none ∧
      s.admitFor s.cur .plain qs = .ok t ps) →
    t.writeSpans (x.taint || t.me.ctaint) (ps.zip (x.t.lanes.toList.map fun l => leBytes 4 l.toNat)) = .ok u →
    exec (.veStlB32 a g) s = .next u.retired) ∧
  (∀ a g s t ps, fires .ve 0x1D9 .ot a g s = true →
    let x := s.operands .ve .ot a
    x.o.isVec = false → aligned x → s.passesAll .plain ((acts x).map fun l => ⟨l.2, 4, false⟩) t ps →
    exec (.veGathB32 a g) s = .next (lands ((acts x).map Prod.fst)
      (if (acts x).all (fun l => (winOf l.2).isCore) = true then 3 else 5) x (t.readSpans ps) (ps.flatMap SpanP.ps)).retired) ∧
  (∀ act bs tag taint, ∃ v : Lanes, (Conv.lanes act).value bs tag taint = .ve ⟨v, tag, taint⟩ ∧ ∀ j : Fin 64,
    v[j] = if j.val ∈ act then word4 ((bs.drop (4 * act.findIdx fun i => i = j.val)).take 4) else 0) ∧
  (∀ a g s t ps u, fires .ve 0x1DA .opt a g s = true →
    let x := s.operands .ve .opt a
    x.o.isVec = false → aligned x → s.passesAll .plain ((acts x).map fun l => ⟨l.2, 4, true⟩) t ps →
    t.writeSpans (x.taint || t.me.ctaint)
      (ps.zip ((acts x).map fun l => leBytes 4 (x.p.lanes.toList.getD l.1 0).toNat)) = .ok u →
    exec (.veScatB32 a g) s = .next u.retired) ∧
  (∀ b offs, activeLanes b offs = ((List.finRange 64).filter fun j => offs[j] != 0xFFFFFFFF).map fun j =>
    (j.val, (b + offs[j].setWidth 64).toNat)) ∧
  trapsIf .ve 0x1D5 .t .veLdB32 (fun x _ => x.t.isVec = false ∧ x.t.word.toNat % 4 ≠ 0) 0x41 (fun x => x.t.word.toNat) ∧
  trapsIf .ve 0x1DB .t .veLd16B64 (fun x _ => x.t.isVec = false ∧ x.t.word.toNat % 16 ≠ 0) 0x41 (fun x => x.t.word.toNat) ∧
  trapsIf .ve 0x1D6 .ot .veStB32 (fun x _ => x.o.isVec = false ∧ x.o.word.toNat % 4 ≠ 0) 0x41 (fun x => x.o.word.toNat) ∧
  trapsIf .ve 0x1D5 .t .veLdB32 (fun x _ => x.t.isVec = true) 0x40 (fun _ => 0) ∧
  trapsIf .ve 0x1DB .t .veLd16B64 (fun x _ => x.t.isVec = true) 0x40 (fun _ => 0) ∧
  trapsIf .ve 0x1D6 .ot .veStB32 (fun x _ => x.o.isVec = true) 0x40 (fun _ => 0) ∧
  (∀ e ∈ [(0x1D7, Uses.t, Instr.veLdlB32, false), (0x1D8, .ot, .veStlB32, true)],
    let offs (x : Opnds) : Lanes := if e.2.2.2 = true then x.o.lanes else x.t.lanes
    ∀ j : Fin 64,
      trapsIf .ve e.1 e.2.1 e.2.2.1 (fun x _ => (List.finRange 64).find? (fun i => (offs x)[i].toNat % 4 ≠ 0) = some j) 0x41
        (fun x => 0xFF000000000000 + j.val * 4096 + (offs x)[j].toNat) ∧
      trapsIf .ve e.1 e.2.1 e.2.2.1 (fun x s => (∀ i : Fin 64, (offs x)[i].toNat % 4 = 0) ∧
        (s.watchSpans s.cur (near (offs x) e.2.2.2)).2 = none ∧
        (List.finRange 64).find? (fun i => s.me.alloc.lsb < (offs x)[i].toNat + 4) = some j) 0xC0
        (fun x => 0xFF000000000000 + j.val * 4096 + (offs x)[j].toNat)) ∧
  (∀ e ∈ [(0x1D9, Uses.ot, Instr.veGathB32), (0x1DA, .opt, .veScatB32)],
    trapsIf .ve e.1 e.2.1 e.2.2 (fun x _ => x.o.isVec = true) 0x40 (fun _ => 0) ∧
    ∀ l, trapsIf .ve e.1 e.2.1 e.2.2 (fun x _ => x.o.isVec = false ∧
      (acts x).find? (fun l => decide (l.2 % 4 ≠ 0)) = some l) 0x41 (fun _ => l.2))

/-- A completed vector operation other than an access changes nothing but results on their way to ve.q or ve.q2. For
the 51 vector operations that reach no memory: registers, latches, ports, clocks, flags, counters, memory, every other
context and every engine are as before, but for results on their way to the one port that R249 gives the operation (to
both for bxenc); an integer, byte, hash, selection or lane-movement operation, and bxdec, adds no flag. (12_vector
R246, 12_vector R248, 12_vector R249) -/
def Obligations.VectorFrame : Prop :=
  (∀ f ∈ veOps.take 51, ∀ a g s t, exec (f a g) s = .next t → t.last = .done →
    pendsOnly s t fun p => p.dest = .port .veq ∨ p.dest = .port .veq2) ∧
  (∀ f ∈ (veOps.drop 20).take 23 ++ (veOps.drop 46).take 5, ∀ a g s t, exec (f a g) s = .next t → t.last = .done →
    pendsOnly s t fun p => p.flags = 0#6) ∧
  (∀ f ∈ veOps.take 6 ++ (veOps.drop 8).take 11 ++ (veOps.drop 20).take 12 ++ (veOps.drop 34).take 9 ++
      [.vePerm, .veLrot, .veLins], ∀ a g s t, exec (f a g) s = .next t → t.last = .done →
    pendsOnly s t fun p => p.dest = .port .veq) ∧
  ∀ f ∈ (veOps.drop 6).take 2 ++ (veOps.drop 32).take 2 ++ (veOps.drop 43).take 3 ++ [.veLext, .veFfs],
    ∀ a g s t, exec (f a g) s = .next t → t.last = .done → pendsOnly s t fun p => p.dest = .port .veq2

/-- Loop, offset, null step, busy and drain: the matrix loop state and the scoreboard. loop and off write their fields
at trigger + 1 and leave the others; a step with REM = 0 only rotates the predicates; the rotation gives (REM > 0, old
p0, old p1, edge); item 0 of busy reads the scoreboard tainted, item 1 the loop state; drain completes once no command
of the context is left and blocks otherwise. A bad operand word is MX_FORM. (14_matrix R276, 14_matrix R277, 14_matrix
R287, 14_matrix R288, 14_matrix R289, 14_matrix R290) -/
def Obligations.MatrixLoopState : Prop :=
  let sps (fmt : Nat) : Nat := if fmt = 1 ∨ fmt = 2 then 2 else 1
  let kp (x : Opnds) : Nat := x.o.word.toNat % 2 ^ 12
  let goodLoop (x : Opnds) (_ : State) : Prop :=
    x.o.word.toNat / 2 ^ 12 % 16 = 0 ∧ x.o.word.toNat < 2 ^ 40 ∧ 1 ≤ x.t.word.toNat ∧ x.t.word.toNat ≤ 5 ∧ 0 < kp x ∧
      kp x ≤ 2048 ∧ kp x * sps x.t.word.toNat ≤ 2048
  let lands (w m : Word) (s : State) : State := s.landAt (.mxLoop w m) (.sc SVal.zero)
  completesIf .mx 0x227 .ot .mxLoop goodLoop (fun x s =>
    let n := x.o.word.toNat / 2 ^ 16
    lands (mxWord (if 0 < n then 1 else 0) x.t.word.toNat 0 0 (kp x * sps x.t.word.toNat - 1) n)
      (mxWord 0xF 7 0 0x7FF 0x7FF 0xFFFFFF) s) ∧
  trapsIf .mx 0x227 .ot .mxLoop (fun x s => ¬ goodLoop x s) 0x61 (fun _ => 0) ∧
  completesIf .mx 0x228 .t .mxOff (fun x _ => x.t.word.toNat < 2048) (fun x s =>
    lands (mxWord 0 0 x.t.word.toNat 0 0 0) (mxWord 0 0 0x7FF 0x7FF 0 0) s) ∧
  trapsIf .mx 0x228 .t .mxOff (fun x _ => 2048 ≤ x.t.word.toNat) 0x61 (fun _ => 0) ∧
  (∀ a g s, fires .mx 0x226 .none_ a g s = true → clocked .mx .t a s = true → mxRem s.me.mxl = 0 →
    let t := (s.operands .mx .t a).t.word.toNat
    (t < 64 → t / 8 % 2 = 0 → exec (.mxStep a g) s = .next (lands (mxStepWord s.me.mxl) 0xF s).retired) ∧
    (64 ≤ t ∨ t / 8 % 2 = 1 → exec (.mxStep a g) s = finish s (slotOf a 0x226 g) (.trap 0x61 5 0))) ∧
  (∀ (c : Ctx) (w m : Word) v, (c.landOne ⟨0, .mxLoop w m, v, 0#6, false, [], 0#64, none, none⟩).mxl =
    (c.mxl &&& ~~~m) ||| (w &&& m)) ∧
  (∀ p f b c n r, p < 16 → f < 8 → b < 2048 → c < 2048 → n < 2048 → r < 2 ^ 24 →
    let w := mxWord p f b c n r
    w.toNat % 16 = p ∧ mxFmt w = f ∧ mxBase w = b ∧ mxCur w = c ∧ mxPlen w = n ∧ mxRem w = r) ∧
  (∀ w, mxCur w + sps (mxFmt w) ≤ mxPlen w + 1 →
    let n := mxStepWord w
    let edge := decide (0 < mxRem w ∧ mxCur w + sps (mxFmt w) = mxPlen w + 1)
    mxRem n = mxRem w - 1 ∧ n.getLsbD 0 = decide (1 < mxRem w) ∧ n.getLsbD 1 = w.getLsbD 0 ∧ n.getLsbD 2 = w.getLsbD 1 ∧
      n.getLsbD 3 = edge ∧
      mxCur n = if mxRem w = 0 then mxCur w else if edge then 0 else mxCur w + sps (mxFmt w)) ∧
  completesIf .mx 0x229 .t .mxBusy (fun x _ => x.t.word.toNat < 2) (fun x s =>
    s.land .mxq 1 (if x.t.word = 0 then .scalar (busyWord (s.core s.cur.core).mxq s.cur.ctx) x.tag true
      else .scalar s.me.mxl x.tag x.taint) 0#6) ∧
  trapsIf .mx 0x229 .t .mxBusy (fun x _ => 2 ≤ x.t.word.toNat) 0x61 (fun _ => 0) ∧
  (∀ q k, (busyWord q k).toNat / 2 ^ 12 % 2 ^ 52 = q.length % 2 ^ 52 ∧ ∀ b, b < 12 →
    ((busyWord q k).getLsbD b = true ↔ ∃ c ∈ q, c.ctx = k ∧
      ((cmdTiles c.port c.t.word).1.testBit b = true ∨ (cmdTiles c.port c.t.word).2.1.testBit b = true))) ∧
  completesIf .mx 0x22C .none_ .mxDrain (fun _ s => ∀ c ∈ (s.core s.cur.core).mxq, c.ctx ≠ s.cur.ctx) (fun _ s => s) ∧
  ∀ a g s, fires .mx 0x22C .none_ a g s = true → (∃ c ∈ (s.core s.cur.core).mxq, c.ctx = s.cur.ctx) →
    exec (.mxDrain a g) s = finish s (slotOf a 0x22C g) (.block .mxDrain)

/-- A matrix command whose operands, record and data pass joins the matrix queue last with what it captured. tld, xa,
cld, cst, scl, zero and a real step complete when their operand words are in form, the record is valid and of a format
the card allows, the data accesses pass, no tile they need is busy (a step chains behind steps) and the queue has
room: the command stands last in the queue with its operands, record bytes and the pieces it reads and writes; nothing
else of a program's state changes, but that a step's loop state lands at trigger + 1. An out-of-form word is MX_FORM,
a bad record TILE_FORMAT, a slot beyond the canopy MX_CANOPY. (14_matrix R278, 14_matrix R279, 14_matrix R280,
14_matrix R281, 14_matrix R283, 14_matrix R285, 14_matrix R287, 14_matrix R291) -/
def Obligations.MatrixCommandsJoinTheQueue : Prop :=
  let room (v : State) (port : Nat) (t : Word) : Prop :=
    let m := cmdTiles port t
    tilesBusy (v.core v.cur.core).mxq v.cur.ctx m.1 m.2.1 m.2.2 = false ∧ queueFull (v.core v.cur.core).mxq = false
  let any (_ : Cmd) : Prop := True
  let load (d rows : Nat) (i : Src → Guard → Instr) (fmtOk : FmtRec → Bool) (spans : FmtRec → Word → List Span) : Prop :=
    (∀ a g s u v bs taint rd wr, fires .mx d .opt a g s = true →
      let x := s.operands .mx .opt a
      x.t.word.toNat < rows → x.o.word.toNat % 32 = 0 → s.recordRead x.o.word.toNat 32 u bs taint →
      ((fmtRec bs).valid = true → fmtOk (fmtRec bs) = true → u.dataPass (spans (fmtRec bs) x.p.word) v rd wr →
        room v d x.t.word → queues (i a g) s v .mx d x [bs] rd wr any) ∧
      ((fmtRec bs).valid = false ∨ fmtOk (fmtRec bs) = false →
        exec (i a g) s = finish s (slotOf a d g) (.trap 0x60 5 x.o.word.toNat))) ∧
    trapsIf .mx d .opt i (fun x _ => rows ≤ x.t.word.toNat ∨ x.o.word.toNat % 32 ≠ 0) 0x61 (fun _ => 0)
  let tileTag (s : State) (n : Nat) : Tag := s.tileTag s.cur (2 ^ (8 + n % 4)) (s.me.cTile n).tag
  let withTile (us : Uses) (a : Src) (s : State) (l : List Tag) : Opnds :=
    let x := s.operands .mx us a
    { x with tag := commonTag ((us.vals x.o x.p x.t).map Value.tag ++ l) }
  let agree (us : Uses) (a : Src) (s : State) (l : List Tag) : Prop :=
    let x := s.operands .mx us a
    tagCheck s.me ((us.vals x.o x.p x.t).map Value.tag ++ l) = none
  load 0x222 8 .mxTld (fun r => decide (r.fmt = 1 ∨ r.fmt = 2 ∨ r.fmt = 3 ∨ r.fmt = 4 ∨ r.fmt = 5)) (fun r p =>
    (List.range 64).flatMap fun i => match bxOf r.fmt with
      | some b => [⟨r.baddr b.w (p.toNat % 2 ^ 32 + i) (p.toNat / 2 ^ 32), 4 * b.w, false⟩,
          ⟨r.xaddr (p.toNat % 2 ^ 32 + i) (p.toNat / 2 ^ 32), 2, false⟩]
      | none => [⟨r.eaddr (p.toNat % 2 ^ 32 + i) (32 * (p.toNat / 2 ^ 32)), 64, false⟩]) ∧
  load 0x22A 8 .mxXa (fun r => decide (r.fmt = 1 ∨ r.fmt = 2)) (fun r p =>
    (List.range 64).flatMap fun i => (List.range 32).map fun k =>
      ⟨r.eaddr (p.toNat % 2 ^ 32 + k) (p.toNat / 2 ^ 32 + i), 2, false⟩) ∧
  load 0x223 4 .mxCld (fun r => decide (r.fmt = 0)) (fun r p =>
    (List.range 64).map fun i => ⟨r.eaddr (p.toNat % 2 ^ 32 + i) (p.toNat / 2 ^ 32), 256, false⟩) ∧
  (∀ a g s u v bs taint rd wr, fires .mx 0x224 .none_ a g s = true →
    let n := (s.operands .mx .opt a).t.word.toNat
    let tags := [tileTag s (n % 4)]
    let x := withTile .opt a s tags
    let r := fmtRec bs
    agree .opt a s tags → n < 4 → x.o.word.toNat % 32 = 0 → s.recordRead x.o.word.toNat 32 u bs taint →
    ((bxOf r.fmt = none ∨ x.p.word.toNat / 2 ^ 32 % 32 = 0) → r.valid = true →
      u.dataPass (cstSpans r (x.p.word.toNat % 2 ^ 32) (x.p.word.toNat / 2 ^ 32)) v rd wr → room v 0x224 x.t.word →
      queues (.mxCst a g) s v .mx 0x224 x [bs, (v.me.cTile (n % 4)).bytes] rd wr any) ∧
    ((∃ b, bxOf r.fmt = some b) → x.p.word.toNat / 2 ^ 32 % 32 ≠ 0 →
      exec (.mxCst a g) s = finish s (slotOf a 0x224 g) (faultRead 0x61 0))) ∧
  (∀ a g s v rd wr, fires .mx 0x22B .none_ a g s = true →
    let n := (s.operands .mx .ot a).t.word.toNat
    let tags := [tileTag s (n % 4)]
    let x := withTile .ot a s tags
    agree .ot a s tags → n < 4 → x.o.word.toNat % 4 = 0 → s.dataPass [⟨x.o.word.toNat, 256, false⟩] v rd wr →
    room v 0x22B x.t.word → queues (.mxScl a g) s v .mx 0x22B x [] rd wr any) ∧
  (∀ a g s, fires .mx 0x225 .t a g s = true → let x := s.operands .mx .t a
    x.t.word.toNat < 4 → room s 0x225 x.t.word → queues (.mxZero a g) s s .mx 0x225 x [] [] [] any) ∧
  trapsIf .mx 0x225 .t .mxZero (fun x _ => 4 ≤ x.t.word.toNat) 0x61 (fun _ => 0) ∧
  ∀ a g s, fires .mx 0x226 .none_ a g s = true →
    let n := (s.operands .mx .t a).t.word.toNat
    let w := s.me.mxl
    let slot := mxBase w + mxCur w
    let sps := if mxFmt w = 1 ∨ mxFmt w = 2 then 2 else 1
    let tags := [s.tileTag s.cur (2 ^ (n % 8)) (s.me.aTile (n % 8)).tag, tileTag s (n / 16 % 4)]
    let x := withTile .t a s tags
    agree .t a s tags → n < 64 → n / 8 % 2 = 0 → 0 < mxRem w →
    (slot + sps ≤ s.me.alloc.cnb / 32 → room s 0x226 x.t.word →
      ∃ t c, exec (.mxStep a g) s = .next t ∧ t.last = .done ∧ s.joined t .mx c ∧ c.slot = slot ∧ c.sfmt = mxFmt w ∧
        c.port = 0x226 ∧ c.t = x.t ∧ c.tag = x.tag ∧
        ∃ p ∈ t.me.pend, p.dest = .mxLoop (mxStepWord w) (mxWord 0xF 0 0 0x7FF 0 0xFFFFFF) ∧ p.left = 1) ∧
    (s.me.alloc.cnb / 32 < slot + sps → exec (.mxStep a g) s = finish s (slotOf a 0x226 g) (.trap 0x62 5 slot))

/-- A copy command whose operands, descriptor, records and data pass joins the copy queue last. lin, fill, str2, str3,
gath, canopy, cvt, stbl, restrict and prolong complete when their words and descriptors are in form, the completion
selector is good, the records valid, the data accesses pass and the queue has room: the command stands last in the
queue with its operands, the bytes it read, its pieces, its completion selector and its count, which every command but
stbl makes the context's latest. LEN 0 and misaligned descriptors are CP_FORM. (16_copy R296, 16_copy R297, 16_copy
R298, 16_copy R302, 16_copy R303, 16_copy R304, 16_copy R305, 16_copy R307, 16_copy R308, 16_copy R311) -/
def Obligations.CopyCommandsJoinTheQueue : Prop :=
  let room (v : State) : Prop := queueFull (v.core v.cur.core).cpq = false
  let csel (w : Nat) : Option Nat := if w = 0xFFFFFFFF then none else some w
  let selOk (s : State) (w : Nat) : Prop := w = 0xFFFFFFFF ∨ s.selFault s.cur (BitVec.ofNat 64 w) = none
  let with_ (v : State) (sel : Option Nat) (n : Nat) (c : Cmd) : Prop :=
    c.sel = (sel.map fun w => (v.sel v.cur (BitVec.ofNat 64 w)).word) ∧ c.count = BitVec.ofNat 64 n
  let len (x : Opnds) : Nat := x.t.word.toNat % 2 ^ 32
  let sel (x : Opnds) : Nat := x.t.word.toNat / 2 ^ 32
  let linear (d : Nat) (i : Src → Guard → Instr) (spans : Opnds → List Span) : Prop :=
    (∀ a g s v rd wr, fires .cp d .opt a g s = true →
      let x := s.operands .cp .opt a
      0 < len x → selOk s (sel x) → s.dataPass (spans x) v rd wr → room v →
      queues (i a g) s v .cp d x [] rd wr (with_ v (csel (sel x)) (len x))) ∧
    trapsIf .cp d .opt i (fun x _ => len x = 0) 0x81 (fun _ => 0)
  let strides (d dims : Nat) (i : Src → Guard → Instr) : Prop :=
    (∀ a g s u v bs taint rd wr, fires .cp d .t a g s = true →
      let x := s.operands .cp .t a
      let k := strided bs
      x.t.word.toNat % 64 = 0 → s.recordRead x.t.word.toNat 64 u bs taint →
      (k.bad dims = false → selOk u k.csel → u.dataPass (pairSpans (2 ^ k.esz) k.pairs) v rd wr → room v →
        queues (i a g) s v .cp d x [bs] rd wr (with_ v (csel k.csel) (k.n0 * k.n1 * max 1 k.n2 * 2 ^ k.esz))) ∧
      (k.bad dims = true → exec (i a g) s = finish s (slotOf a d g) (faultRead 0x81 x.t.word.toNat))) ∧
    trapsIf .cp d .t i (fun x _ => x.t.word.toNat % 64 ≠ 0) 0x81 (fun _ => 0)
  let level (d : Nat) (i : Src → Guard → Instr) : Prop :=
    ∀ a g s u1 u2 u3 u4 v b1 b2 b3 b4 t1 t2 t3 t4 rd wr, fires .cp d .ot a g s = true →
      let x := s.operands .cp .ot a
      let k := gridDesc b1
      let t := stencil b2
      let src := fmtRec b3
      let dst := fmtRec b4
      let out := dst.gridSpans (k.ny * k.nz) k.nx
      x.t.word.toNat % 64 = 0 → x.o.word.toNat % 128 = 0 → s.recordRead x.t.word.toNat 64 u1 b1 t1 → k.srec % 32 = 0 →
      u1.recordRead x.o.word.toNat 128 u2 b2 t2 → t.drec % 32 = 0 → u2.recordRead k.srec 32 u3 b3 t3 →
      u3.recordRead t.drec 32 u4 b4 t4 → levelFault k t x.t.word.toNat x.o.word.toNat = none → selOk u4 k.csel →
      src.valid = true → dst.valid = true → (dst.bx.isSome = true → k.nx % 32 = 0) →
      u4.dataPass (src.gridSpans (k.my * k.mz) k.mx false ++ (if t.lvl = 1 then out false else []) ++ out true) v rd wr →
      room v → queues (i a g) s v .cp d x [b1, b2, b3, b4] rd wr (with_ v (csel k.csel) (k.count dst))
  linear 0x262 .cpLin (fun x => [⟨x.o.word.toNat, len x, false⟩, ⟨x.p.word.toNat, len x, true⟩]) ∧
  linear 0x266 .cpFill (fun x => [⟨x.p.word.toNat, len x, true⟩]) ∧
  strides 0x263 2 .cpStr2 ∧ strides 0x264 3 .cpStr3 ∧ level 0x26A .cpRestrict ∧ level 0x26B .cpProlong ∧
  (∀ a g s u w v bs ix t1 t2 rd wr, fires .cp 0x265 .t a g s = true →
    let x := s.operands .cp .t a
    let k := strided bs
    let offs := gatherOffsets ix k.n0
    x.t.word.toNat % 64 = 0 → s.recordRead x.t.word.toNat 64 u bs t1 → u.recordRead k.idx (4 * k.n0) w ix t2 →
    k.bad 0 = false → (∀ e, e < k.n0 → offs.getD e 0 = 0xFFFFFFFF ∨ offs.getD e 0 % 2 ^ k.esz = 0) → selOk w k.csel →
    w.dataPass (pairSpans (2 ^ k.esz) (k.gathered offs)) v rd wr → room v →
    queues (.cpGath a g) s v .cp 0x265 x [bs, ix] rd wr (with_ v (csel k.csel) (k.n0 * 2 ^ k.esz))) ∧
  (∀ a g s u v bs taint rd wr, fires .cp 0x268 .opt a g s = true →
    let x := s.operands .cp .opt a
    let slot := x.t.word.toNat % 2 ^ 12
    let nb := x.t.word.toNat / 2 ^ 12 % 2 ^ 12
    let r := fmtRec bs
    let n := nb * if r.fmt = 1 ∨ r.fmt = 2 then 2 else 1
    slot < 2048 → 0 < nb → nb ≤ 2048 → x.t.word.toNat < 2 ^ 48 → x.o.word.toNat % 32 = 0 →
    s.recordRead x.o.word.toNat 32 u bs taint → selOk u x.p.word.toNat → r.valid = true → 1 ≤ r.fmt → r.fmt ≤ 5 →
    slot + n ≤ u.me.alloc.cnb / 32 → u.dataPass (canopySpans r nb (x.t.word.toNat / 2 ^ 24)) v rd wr → room v →
    queues (.cpCanopy a g) s v .cp 0x268 x [bs] rd [canopyPiece v.cur slot n]
      (with_ v (csel x.p.word.toNat) (64 * nb * r.fillBytes))) ∧
  (∀ a g s u1 u2 u3 v b1 b3 b4 t1 t3 t4 rd wr, fires .cp 0x267 .t a g s = true →
    let x := s.operands .cp .t a
    let k := gridDesc b1
    let src := fmtRec b3
    let dst := fmtRec b4
    x.t.word.toNat % 64 = 0 → s.recordRead x.t.word.toNat 64 u1 b1 t1 → k.srec % 32 = 0 → k.drec % 32 = 0 →
    u1.recordRead k.srec 32 u2 b3 t3 → u2.recordRead k.drec 32 u3 b4 t4 → k.bad = false → k.mx = k.nx → k.my = k.ny →
    k.mz = k.nz → selOk u3 k.csel → src.valid = true → dst.valid = true → (dst.bx.isSome = true → k.nx % 32 = 0) →
    u3.dataPass (src.gridSpans (k.my * k.mz) k.mx false ++ [] ++ dst.gridSpans (k.ny * k.nz) k.nx true) v rd wr → room v →
    queues (.cpCvt a g) s v .cp 0x267 x [b1, [], b3, b4] rd wr (with_ v (csel k.csel) (k.count dst))) ∧
  (∀ a g s u bs taint, fires .cp 0x269 .t a g s = true →
    let x := s.operands .cp .t a
    x.t.word.toNat % 128 = 0 → s.recordRead x.t.word.toNat 128 u bs taint → (stencil bs).drec % 32 = 0 →
    (stencil bs).bad = false → room u → queues (.cpStbl a g) s u .cp 0x269 x [bs] [] [] (with_ u none 0)) ∧
  trapsIf .cp 0x269 .t .cpStbl (fun x _ => x.t.word.toNat % 128 ≠ 0) 0x81 (fun _ => 0)

/-- Closing, waiting for and counting batches of copy commands. close places a marker behind the open batch's
commands, or does nothing if none is queued or running; waitb completes once at most t batches of the groups before it
are outstanding, the open one closed, and blocks otherwise, closing the open batch as it does; cnt lands the
outstanding batches, the entries of the context (both tainted), or the latest completion count. t above 255 and a bad
item are CP_FORM. (That a waitb does not wait for its own group's commands is the model's choice, log 131.) (16_copy
R299, 16_copy R300, 16_copy R301) -/
def Obligations.CopyBatches : Prop :=
  let q (s : State) : List Cmd := (s.core s.cur.core).cpq
  let mine (s : State) (c : Cmd) : Bool := decide (c.ctx = s.cur.ctx)
  let closedOf (s : State) (l : List Cmd) : Nat := (l.filter fun c => mine s c && decide (c.port = 0x26C)).length
  let openIn (s : State) (l : List Cmd) : Prop := ∃ c ∈ l, c.ctx = s.cur.ctx ∧ c.port ≠ 0x26C ∧ c.batch = s.me.batch
  let closed (s : State) : Nat := closedOf s (q s)
  let isOpen (s : State) : Prop := openIn s (q s)
  let seen (s : State) : List Cmd :=
    (q s).filter fun c => decide (c.id < (s.pre s.cur.core).core.seq)
  let marks (i : Instr) (s : State) : Prop :=
    ∃ t c, exec i s = .next t ∧ t.last = .done ∧ s.joined t .cp c ∧ c.port = 0x26C ∧ c.ctx = s.cur.ctx ∧
      t.me.batch = s.me.batch + 1
  let put (x : Opnds) (w : Nat) (taint : Bool) (s : State) : State :=
    s.land .cpq 1 (.scalar (BitVec.ofNat 64 w) x.tag taint) 0#6
  (∀ a g s, fires .cp 0x26C .none_ a g s = true →
    (isOpen s → queueFull (q s) = false → marks (.cpClose a g) s) ∧
    (isOpen s → queueFull (q s) = true → exec (.cpClose a g) s = finish s (slotOf a 0x26C g) (.block (.queue .cp))) ∧
    (¬ isOpen s → exec (.cpClose a g) s = .next s.retired)) ∧
  (∀ a g s, fires .cp 0x26D .t a g s = true →
    let n := (s.operands .cp .t a).t.word.toNat
    n ≤ 255 →
    (¬ isOpen s → closedOf s (seen s) ≤ n → exec (.cpWaitb a g) s = .next s.retired) ∧
    (isOpen s → closedOf s (seen s) + 1 ≤ n → queueFull (q s) = false → marks (.cpWaitb a g) s) ∧
    (queueFull (q s) = false → (n < closedOf s (seen s) ∨ openIn s (seen s) ∧ n < closedOf s (seen s) + 1) →
      exec (.cpWaitb a g) s = finish s (slotOf a 0x26D g) (.block (.waitb n)) ∧
      (s.enterBlock s.cur (.waitb n)).core s.cur.core =
        ((s.setStatus s.cur (.blocked (.waitb n))).core s.cur.core).closeBatch s.cur.ctx)) ∧
  trapsIf .cp 0x26D .t .cpWaitb (fun x _ => 255 < x.t.word.toNat) 0x81 (fun _ => 0) ∧
  completesIf .cp 0x26E .t .cpCnt (fun x _ => x.t.word = 0) (fun x s => put x (closed s) true s) ∧
  completesIf .cp 0x26E .t .cpCnt (fun x _ => x.t.word = 1) (fun x s => put x ((q s).filter (mine s)).length true s) ∧
  completesIf .cp 0x26E .t .cpCnt (fun x _ => x.t.word = 2) (fun x s => put x s.me.lastCnt.toNat x.taint s) ∧
  trapsIf .cp 0x26E .t .cpCnt (fun x _ => 2 < x.t.word.toNat) 0x81 (fun _ => 0)

/-- Memory-side updates, reductions, fences and marks complete, and each update gives the value of R331. An aligned
update, swap, compare-and-swap, reduction or mark whose accesses pass completes: in an open launch the queued ones
stand last in the memory-side queue with their operands, and swap and cas, after the context's earlier operations to
that stack, write the new value of R331 and land the old one after 32 cycles, where they would change no pinned page-
table entry, which is LEASE_EXIT or PT_PINNED; in an ordered launch they complete too. The fence completes once no
operation of the context is queued and no store of the context from before the group still waits for another device
(that all its stores there count, and not only those to memory-side pages, is the model's choice, log 131), and blocks
otherwise. A misaligned address is MS_FORM with the address. (18_clearing R329, 18_clearing R330, 18_clearing R331,
18_clearing R332, 18_clearing R333, 18_clearing R334) -/
def Obligations.MemorySideOperations : Prop :=
  let room (v : State) : Prop := queueFull (v.core v.cur.core).msq = false
  let any (_ : Cmd) : Prop := True
  let upd (d w : Nat) (i : Src → Guard → Instr) : Prop :=
    (∀ a g s v ps, fires .ms d .ot a g s = true →
      let x := s.operands .ms .ot a
      x.o.word.toNat % w = 0 → s.passesMs [⟨x.o.word.toNat, w, true, true⟩] [⟨x.o.word.toNat, w, true⟩] v ps → room v →
      ((v.viewer v.cur).ordered = false → queues (i a g) s v .ms d x [] [] (ps.flatMap SpanP.ps) any) ∧
      ∃ t, exec (i a g) s = .next t ∧ t.last = .done) ∧
    trapsIf .ms d .ot i (fun x _ => x.o.word.toNat % w ≠ 0) 0xA1 (fun x => x.o.word.toNat)
  let swap (d : Nat) (us : Uses) (i : Src → Guard → Instr) (new : Nat → Opnds → Nat) : Prop :=
    (∀ a g s v ps, fires .ms d us a g s = true →
      let x := s.operands .ms us a
      let pcs := ps.flatMap SpanP.ps
      x.o.word.toNat % 8 = 0 → s.passesMs [⟨x.o.word.toNat, 8, true, true⟩] [⟨x.o.word.toNat, 8, true⟩] v ps →
      let dr := v.msDrain v.cur (stackOf pcs)
      let pin := dr.msPinned dr.cur (v.viewer v.cur) (msUpdOf d) pcs x.t.word x.p.word
      (pin = none → ∃ t, exec (i a g) s = .next t ∧ t.last = .done) ∧
      (∀ e va, pin = some (e, va) → exec (i a g) s =
        finish s (slotOf a d g) (if isSup dr.cur.core = true then .trap 0xC6 5 e else .trap 0xC0 5 va)) ∧
      ((v.viewer v.cur).ordered = false → pin = none → dr = v →
        let old := v.readPieces v.cur (v.viewer v.cur) pcs
        let taint := x.taint || v.me.ctaint || (v.viewer v.cur).open_
        let w := v.writePieces v.cur (v.viewer v.cur) pcs (leBytes 8 (new (leNat old.1) x)) taint
        exec (i a g) s = .next ((((w.event w.cur 0x0A 1).irrev w.cur).landVar (.port .msq) 32
          (.scalar (BitVec.ofNat 64 (leNat old.1)) x.tag (taint || old.2)) 0#6 6 x.o.word.toNat).retired))) ∧
    trapsIf .ms d us i (fun x _ => x.o.word.toNat % 8 ≠ 0) 0xA1 (fun x => x.o.word.toNat)
  upd 0x2A2 4 .msAddF32 ∧ upd 0x2A3 8 .msAddS64 ∧ upd 0x2A4 8 .msMaxS64 ∧ upd 0x2A5 8 .msMinS64 ∧ upd 0x2A6 8 .msOrB64 ∧
  swap 0x2A7 .ot .msSwapB64 (fun _ x => x.t.word.toNat) ∧
  swap 0x2A8 .opt .msCasB64 (fun v x => if v = x.p.word.toNat then x.t.word.toNat else v) ∧
  (∀ v t : Word, MsUpd.apply .addS64 v.toNat t.toNat 0 = (v + t).toNat ∧ MsUpd.apply .orB64 v.toNat t.toNat 0 = (v ||| t).toNat ∧
    MsUpd.apply .maxS64 v.toNat t.toNat 0 = (if v.toInt ≤ t.toInt then t else v).toNat ∧
    MsUpd.apply .minS64 v.toNat t.toNat 0 = (if t.toInt ≤ v.toInt then t else v).toNat) ∧
  (∀ v t : BitVec 32, MsUpd.apply .addF32 v.toNat t.toNat 0 = (Num.addV Num.fp32 .rne (Num.f32 v) (Num.f32 t)).1) ∧
  (∀ a g s r u v bp ps qs, fires .ms 0x2A9 .t a g s = true →
    let x := s.operands .ms .t a
    let w := (r.readBefore bp).1.recordLate x.t.word.toNat
    let bs := (r.readBefore bp).2.1
    let b := redBlock bs
    x.t.word.toNat % 64 = 0 → s.watchSpans s.cur [⟨x.t.word.toNat, 64, false⟩] = (r, none) →
    r.resolveSpans r.cur [⟨x.t.word.toNat, 64, false⟩] = .ok [bp] → r.missingRemote r.cur [bp] = none → b.bad = false →
    w.redStacks w.cur b = false → (b.csel = 0xFFFFFFFF ∨ w.selFault w.cur (BitVec.ofNat 64 b.csel) = none) →
    w.passesMs (b.spans.map Span.watched) b.spans u ps → u.admitSpans u.cur [bp] = .ok v qs → room v →
    ((v.viewer v.cur).ordered = false → queues (.msRed a g) s v .ms 0x2A9 x [bs]
      ((ps.filter fun p => !p.span.write).flatMap SpanP.ps) ((ps.filter fun p => p.span.write).flatMap SpanP.ps)
      (fun c => c.count = b.inc)) ∧
    ∃ t, exec (.msRed a g) s = .next t ∧ t.last = .done) ∧
  trapsIf .ms 0x2A9 .t .msRed (fun x _ => x.t.word.toNat % 64 ≠ 0) 0xA1 (fun x => x.t.word.toNat) ∧
  completesIf .ms 0x2AA .none_ .msFence (fun _ s => (∀ c ∈ (s.core s.cur.core).msq, c.ctx ≠ s.cur.ctx) ∧
    ∀ o ∈ (s.pre s.cur.core).flits, o.ofAccess s.cur = false) (fun _ s => s) ∧
  (∀ a g s, fires .ms 0x2AA .none_ a g s = true → ((∃ c ∈ (s.core s.cur.core).msq, c.ctx = s.cur.ctx) ∨
      ∃ o ∈ (s.pre s.cur.core).flits, o.ofAccess s.cur = true) →
    exec (.msFence a g) s = finish s (slotOf a 0x2AA g) (.block .msFence)) ∧
  (∀ a g s r ps, fires .ms 0x2AB .opt a g s = true →
    let x := s.operands .ms .opt a
    s.watchSpans s.cur [⟨x.t.word.toNat, 1, false⟩] = (r, none) →
    r.resolveSpans r.cur [⟨x.t.word.toNat, 1, false⟩] = .ok ps → r.selFault r.cur x.o.word = none →
    firstPlain ps = none → room r →
    queues (.msMark a g) s r .ms 0x2AB x [] [] [] (fun c => c.sel = some (r.sel r.cur x.o.word).word ∧ c.count = x.p.word)) ∧
  ∀ (o : OutFlit) x, o.ofAccess x = true ↔ o.core = x.core ∧ o.ctx = x.ctx ∧ o.cmd = none ∧ (o.flit.fk = 1 ∨ o.flit.fk = 7)

/-- The supervisor operations complete with the effects of R358 to R362, or trap with the causes of R363. launch hands
a new launch to the dispatch engines, but in standby (log 153); abort, srd, swr, space, walk, pin, unpin, tfq, tres,
tent, eret, hirq complete in the forms their cards allow; hirq's vector is noted as sent (log 9). A walk at or above
2^55, or of SID 0 where no stack is, fails as at level 4 (log 97), and one that an access table denies with R397's
cause (log 164); ptmc, whose bad address is SV_FORM (log 155), waits for its ordering point where the access tables
let it write, then goes on or is PT_PINNED; tinv and idle block the context. A bad form, or a value swr's register
does not take, is SV_FORM, a selector that names no shared counter SY_FORM, a register the access table refuses
PT_PERM with its address, a vector whose host port it refuses PT_PERM with the vector (log 114). (21_spaces R355,
21_spaces R358, 21_spaces R359, 21_spaces R360, 21_spaces R361, 21_spaces R362, 21_spaces R363) -/
def Obligations.SupervisorOperations : Prop :=
  let sc (x : Opnds) (w : Word) : Value := .scalar w x.tag x.taint
  let may (s : State) (r : RegAddr) (w : Bool) : Prop := s.judged.mayAccess r.die (48 + r.blk) (s.master s.cur.core) w = true
  (∀ a g s u p, fires .sv 0x2C2 .opt a g s = true →
    let x := s.operands .sv .opt a
    let l := (u.readSpan u.cur p)
    0 < x.o.word.toNat → x.o.word.toNat < 2 ^ 16 → x.t.word.toNat % 64 = 0 → (s.sel s.cur x.p.word).shared = true →
    s.vetFor s.cur .record [[⟨x.t.word.toNat, 512, false⟩]] = .ok u [p] →
    (u.stby = true → exec (.svLaunch a g) s = .next l.1.retired) ∧
    (u.stby = false → ∃ t, exec (.svLaunch a g) s = .next t ∧ t.last = .done ∧ ∃ n, t.launches = l.1.launches ++ [n] ∧
      n.lid = l.1.nextLid ∧ n.sid = BitVec.ofNat 16 x.o.word.toNat ∧ n.raw = l.2.1 ∧ n.phase = .submitted ∧
      n.done = x.p.word.toNat ∧ n.reacts = [] ∧ t.store = l.1.store ∧ t.cores = l.1.cores)) ∧
  trapsIf .sv 0x2C2 .opt .svLaunch (fun x _ => x.o.word.toNat = 0 ∨ 2 ^ 16 ≤ x.o.word.toNat ∨ x.t.word.toNat % 64 ≠ 0)
    0xC3 (fun _ => 0) ∧
  trapsIf .sv 0x2C2 .opt .svLaunch (fun x s => 0 < x.o.word.toNat ∧ x.o.word.toNat < 2 ^ 16 ∧ x.t.word.toNat % 64 = 0 ∧
    (s.sel s.cur x.p.word).shared = false) 0x25 (fun _ => 0) ∧
  completes .sv 0x2C3 .t .svAbort (fun x s => s.abort x.t.word.toNat) ∧
  (∀ (s : State) n, (∀ l ∈ s.launches, l.record.status = n → l.phase = .ended) → s.abort n = s) ∧
  (∀ r, completesIf .sv 0x2C4 .t .svSrd (fun x s => regAddr x.t.word = some r ∧ may s r false) (fun x s =>
    s.landVar (.port .svq) 4 (sc x (s.regRead r)) 0#6 7 0)) ∧
  trapsIf .sv 0x2C4 .t .svSrd (fun x _ => regAddr x.t.word = none) 0xC3 (fun _ => 0) ∧
  (∀ r, trapsIf .sv 0x2C4 .t .svSrd (fun x s => regAddr x.t.word = some r ∧ ¬ may s r false) 0xC5
    (fun x => x.t.word.toNat)) ∧
  (∀ r, completesIf .sv 0x2C5 .ot .svSwr (fun x s => regAddr x.t.word = some r ∧ s.writeForm r x.o.word = false ∧
    may s r true) (fun x s => s.regWrite s.cur r x.o.word)) ∧
  trapsIf .sv 0x2C5 .ot .svSwr (fun x _ => regAddr x.t.word = none) 0xC3 (fun _ => 0) ∧
  (∀ r, trapsIf .sv 0x2C5 .ot .svSwr (fun x s => regAddr x.t.word = some r ∧ s.writeForm r x.o.word = true) 0xC3
    (fun _ => 0)) ∧
  (∀ r, trapsIf .sv 0x2C5 .ot .svSwr (fun x s => regAddr x.t.word = some r ∧ s.writeForm r x.o.word = false ∧ ¬may s r true)
    0xC5 (fun x => x.t.word.toNat)) ∧
  (∀ (s : State) r v, r.blk ≠ 2 → s.writeForm r v = false) ∧
  completesIf .sv 0x2C6 .t .svSpace (fun x _ => x.t.word.toNat < 2 ^ 16) (fun x s =>
    s.landAt (.space (BitVec.ofNat 16 x.t.word.toNat)) (.sc SVal.zero)) ∧
  trapsIf .sv 0x2C6 .t .svSpace (fun x _ => 2 ^ 16 ≤ x.t.word.toNat) 0xC3 (fun _ => 0) ∧
  (∀ r : Word, completesIf .sv 0x2C7 .ot .svWalk (fun x s =>
      let w := s.walk (dieOf s.cur.core) x.o.word.toNat x.t.word.toNat
      x.o.word.toNat = 0 ∧ r = (if s.physOk x.t.word.toNat = true then
        BitVec.ofNat 64 (x.t.word.toNat % 2 ^ 39 + s.devid * 2 ^ 56) else 0x80000000000004C4) ∨
      0 < x.o.word.toNat ∧ x.o.word.toNat < 2 ^ 16 ∧
      (2 ^ 55 ≤ x.t.word.toNat ∧ r = 0x80000000000004C4 ∨
        x.t.word.toNat < 2 ^ 55 ∧ s.walkDenied (s.master s.cur.core) w = true ∧ r = BitVec.ofNat 64 (0xC5 + 2 ^ 63 +
          (4 - w.read.findIdx fun e => !s.mayHbm e (s.master s.cur.core) false false) * 2 ^ 8) ∨
        x.t.word.toNat < 2 ^ 55 ∧ s.walkDenied (s.master s.cur.core) w = false ∧ s.walkPoison w = false ∧
        (w.ending = .leaf ∧ r = BitVec.ofNat 64 ((pteFrame w.entry + x.t.word.toNat % pageSize w.lvl) % 2 ^ 39 +
            pteDev w.entry * 2 ^ 56 + if pteDev w.entry = s.devid then 0 else 2 ^ 62) ∨
          (w.ending = .node ∨ w.ending = .migrating) ∧ r = BitVec.ofNat 64 (0xC4 + w.lvl * 2 ^ 8 + 2 ^ 63))))
    (fun x s => s.landVar (.port .svq) 32 (sc x r) 0#6 7 0)) ∧
  trapsIf .sv 0x2C7 .ot .svWalk (fun x _ => 2 ^ 16 ≤ x.o.word.toNat) 0xC3 (fun _ => 0) ∧
  (∀ a g s, fires .sv 0x2C8 .opt a g s = true →
    let x := s.operands .sv .opt a
    let mine (p : Ptmc) : Bool := p.x == s.cur && p.open_ && decide (p.addr = x.o.word.toNat) && p.value == x.t.word &&
      decide (p.sel = x.p.word.toNat)
    (x.o.word.toNat % 8 ≠ 0 ∨ s.physOk x.o.word.toNat = false →
      exec (.svPtmc a g) s = finish s (slotOf a 0x2C8 g) (.trap 0xC3 5 0)) ∧
    (x.o.word.toNat % 8 = 0 → s.physOk x.o.word.toNat = true → s.sel s.cur x.p.word ≠ .bad →
      (s.ptmcs.find? mine = none →
        let denied := (s.die (dieOf s.cur.core)).podmask.getLsbD s.devid &&
          !s.judged.mayHbm x.o.word.toNat (s.master s.cur.core) true false
        (denied = true → exec (.svPtmc a g) s = finish s (slotOf a 0x2C8 g) (.trap 0xC5 5 x.o.word.toNat)) ∧
        (denied = false →
          exec (.svPtmc a g) s = finish s (slotOf a 0x2C8 g) (.block (.ptmc x.o.word.toNat x.t.word x.p.word.toNat)))) ∧
      ∀ p, s.ptmcs.find? mine = some p → p.decided = true →
        (p.pinned = true → exec (.svPtmc a g) s = finish s (slotOf a 0x2C8 g) (.trap 0xC6 5 x.o.word.toNat)) ∧
        (p.pinned = false → ∃ t, exec (.svPtmc a g) s = .next t ∧ t.last = .done ∧ t.store = s.store ∧ t.cores = s.cores ∧
          t.ptmcs = s.ptmcs.map fun q => if q.id = p.id then { q with open_ := false } else q))) ∧
  completesIf .sv 0x2C9 .t .svTinv (fun x _ => x.t.word.toNat < 2 ^ 16) (fun x s =>
    ({ s with tinv := numPut s.tinv x.t.word.toNat } : State).setStatus s.cur (.blocked (.tinv x.t.word.toNat))) ∧
  (∀ a g s es, fires .sv 0x2CA .ot a g s = true →
    let x := s.operands .sv .ot a
    let base := x.o.word.toNat
    let len := x.t.word.toNat
    0 < len → 0 < base → base % 65536 = 0 → len % 65536 = 0 → base + len ≤ 2 ^ 55 → s.sidOf s.cur ≠ 0 →
    s.pinWalk s.cur (s.sidOf s.cur) ((List.range (len / 65536)).map fun i => base + 65536 * i) = .ok es →
    (∀ k, s.freePin = some k →
      let u : State := { s with pins := s.pins ++ [(k, es.eraseDups)] }
      exec (.svPin a g) s = .next (u.landVar (.port .svq) 32 (sc x (BitVec.ofNat 64 k)) 0#6 7 0).retired) ∧
    (s.freePin = none →
      exec (.svPin a g) s = .next (s.landVar (.port .svq) 32 (sc x (BitVec.allOnes 64)) 0#6 7 0).retired)) ∧
  trapsIf .sv 0x2CA .ot .svPin (fun x s => x.o.word.toNat = 0 ∨ x.t.word.toNat = 0 ∨ x.o.word.toNat % 65536 ≠ 0 ∨
    x.t.word.toNat % 65536 ≠ 0 ∨ 2 ^ 55 < x.o.word.toNat + x.t.word.toNat ∨ s.sidOf s.cur = 0) 0xC3 (fun _ => 0) ∧
  completesIf .sv 0x2CB .t .svUnpin (fun x _ => x.t.word.toNat < 64) (fun x s =>
    { s with pins := s.pins.filter fun p => p.1 != x.t.word.toNat }) ∧
  completesIf .sv 0x2CB .t .svUnpin (fun x _ => 64 ≤ x.t.word.toNat) (fun _ s => s) ∧
  completes .sv 0x2CC .none_ .svTfq (fun x s => (s.popFault (dieOf s.cur.core)).landVar (.port .svq) 4
    (sc x (BitVec.ofNat 64 (s.die (dieOf s.cur.core)).faultq.length)) 0#6 7 0) ∧
  completesIf .sv 0x2CD .ot .svTres (fun x _ => x.t.word.toNat ≤ 1 ∧ x.o.word.toNat < 2 ^ 16) (fun x s =>
    s.resolveFault (dieOf s.cur.core) (BitVec.ofNat 16 x.o.word.toNat) (decide (x.t.word = 1))) ∧
  trapsIf .sv 0x2CD .ot .svTres (fun x _ => 1 < x.t.word.toNat) 0xC3 (fun _ => 0) ∧
  completesIf .sv 0x2CE .t .svTent (fun x _ => x.t.word.toNat % 32 = 0) (fun x s =>
    s.landAt (.tent x.t.word) (.sc SVal.zero)) ∧
  trapsIf .sv 0x2CE .t .svTent (fun x _ => x.t.word.toNat % 32 ≠ 0) 0xC3 (fun _ => 0) ∧
  completesIf .sv 0x2CF .none_ .svEret (fun _ s => s.me.emu = true) (fun _ s => s.updCtx s.cur fun c =>
    { c with eret := true }) ∧
  trapsIf .sv 0x2CF .none_ .svEret (fun _ s => s.me.emu = false) 0xC3 (fun _ => 0) ∧
  completesIf .sv 0x2D0 .t .svHirq (fun x s => x.t.word.toNat ≤ 2047 ∧ s.judged.mayAccess 0 44 (s.master s.cur.core) true = true) (fun x s =>
    let u := s.performAll s.cur
    { u with host := { u.host with msixSent := u.host.msixSent ++ [x.t.word.toNat] } }) ∧
  trapsIf .sv 0x2D0 .t .svHirq (fun x _ => 2047 < x.t.word.toNat) 0xC3 (fun _ => 0) ∧
  trapsIf .sv 0x2D0 .t .svHirq (fun x s => x.t.word.toNat ≤ 2047 ∧ s.judged.mayAccess 0 44 (s.master s.cur.core) true = false) 0xC5
    (fun x => x.t.word.toNat) ∧
  completes .sv 0x2D1 .none_ .svIdle (fun _ s => s.setStatus s.cur (.blocked .idle))

/-- A blocked context becomes ready when, and only when, the condition it waits for holds. Queue space, the release of
a range hold, a satisfied wait, a complete fence, a yield whose siblings have issued or stopped, a served full/empty
turn, a free version slot, enough closed batches, drained matrix and memory-side queues, a finished invalidation and a
wake event each make the context that is blocked on them ready and change nothing else (idle also clears the wake
mark, tinv forgets the space); while the condition does not hold, or for a context that is not so blocked, the event
changes nothing (the model's choice, log 42). What waitR and fenceDone decide is in CountersAndWaits. The model's
choices among the conditions: an engine queue has room while fewer than 16 of its commands wait unstarted (log 31); a
group that waits for a version slot is tried again at every such event, and waits again where there is none (log 100);
an ms.fence waits for all the context's stores at other devices (log 131). (10_seq_traps R205, 03_bundles R78,
04_memory R98, 05_ordering R119, 09_seq_control R195, 09_seq_control R199, 16_copy R300, 14_matrix R290, 18_clearing
R333, 21_spaces R359, 21_spaces R362) -/
def Obligations.BlocksEndOnTheirCondition : Prop :=
  let ready (x : CtxRef) (s : State) : State := s.setStatus x .ready
  let ends (i : CtxRef → Instr) (b : Block) (C : State → CtxRef → Prop) : Prop :=
    ∀ x s, x.wf = true → (s.ctx x).status = .blocked b →
      (C s x → exec (i x) s = .next (ready x s)) ∧ (¬C s x → exec (i x) s = .next s)
  let other (i : CtxRef → Instr) (B : Block → Prop) : Prop :=
    ∀ x s, x.wf = true → (∀ b, (s.ctx x).status = .blocked b → ¬B b) → exec (i x) s = .next s
  let none_ (q : Core → List Cmd) (s : State) (x : CtxRef) : Prop := ∀ c ∈ q (s.core x.core), c.ctx ≠ x.ctx
  (∀ u, ends .engineQueueSpace (.queue u) fun s x => (((s.core x.core).queue u).filter fun c => !c.started).length < 16) ∧
  other .engineQueueSpace (fun b => ∃ u, b = .queue u) ∧
  (∀ rd wr, ends .rangeHoldRelease (.hold rd wr) fun s x => ∀ c ∈ (s.core x.core).held,
    (∀ r ∈ rd ++ wr, piecesMeet c.writes [r] = false) ∧ ∀ r ∈ wr, piecesMeet c.reads [r] = false) ∧
  other .rangeHoldRelease (fun b => ∃ rd wr, b = .hold rd wr) ∧
  (∀ w n, ends .waitSatisfied (.wait w n) fun s x => s.waitR x (s.sel x w) n ≠ .blocked) ∧
  other .waitSatisfied (fun b => ∃ w n, b = .wait w n) ∧
  (∀ k, ends .fenceComplete (.fence k) fun s x => s.fenceDone x k = true) ∧ other .fenceComplete (fun b => ∃ k, b = .fence k) ∧
  (∀ l, ends .yieldRelease (.yield l) fun s x => ∀ k ∈ l, (s.ctx ⟨x.core, k⟩).status ≠ .ready) ∧
  other .yieldRelease (fun b => ∃ l, b = .yield l) ∧
  (∀ line full, ends .feWaitServed (.fe line full) fun s x => s.feTurn x line full = true) ∧
  other .feWaitServed (fun b => ∃ line full, b = .fe line full) ∧
  ends .versionSlotFree .version (fun _ _ => True) ∧ other .versionSlotFree (fun b => b = .version) ∧
  (∀ n, ends .cpWaitbSatisfied (.waitb n) fun s x =>
    ((s.core x.core).cpq.filter fun c => decide (c.ctx = x.ctx) && decide (c.port = 0x26C)).length ≤ n) ∧
  other .cpWaitbSatisfied (fun b => ∃ n, b = .waitb n) ∧
  ends .mxDrainComplete .mxDrain (none_ Core.mxq) ∧ other .mxDrainComplete (fun b => b = .mxDrain) ∧
  ends .msFenceComplete .msFence (fun s x => none_ Core.msq s x ∧ ∀ o ∈ (s.pre x.core).flits, o.ofAccess x = false) ∧
  other .msFenceComplete (fun b => b = .msFence) ∧
  (∀ x s sid, x.wf = true → (s.ctx x).status = .blocked (.tinv sid) →
    ∃ t, exec (.tinvComplete x) s = .next t ∧ (t.ctx x).status = .ready ∧ sid ∉ t.tinv ∧
      t = (ready x ({ s with tinv := t.tinv } : State))) ∧
  other .tinvComplete (fun b => ∃ sid, b = .tinv sid) ∧
  (∀ x s, x.wf = true → (s.ctx x).status = .blocked .idle →
    ((s.ctx x).wake = true →
      exec (.idleWake x) s = .next (s.updCtx x fun c => { c with status := .ready, wake := false })) ∧
    ((s.ctx x).wake = false → exec (.idleWake x) s = .next s)) ∧
  other .idleWake (fun b => b = .idle)

/-- Results land, late data ends its freeze, held adds and filled blocks add, a context yields, and a sy.tend retires.
RESULT_LAND lands exactly the due results of its context once none of them is late; LATE_RESULT_ARRIVE ends a freeze
for late data of the running context, unless some of it waits for another device's answer or a load-block's fill, and
leaves no due result late that does not; a context that has issued 4,096 groups in a row with a ready sibling yields
to its ready siblings; a held add whose earlier work is performed leaves the list and raises its counter; the first
unfilled load-block at an address, once filled, counts 128 bytes a line into its counter, also where it has been
evicted (log 70), and what waits for it comes; a sy.tend with nothing outstanding frees its context, a gang's when its
last member retires, and one without a reaction goes idle (log 50). Which data are late is told by a plain list (log
16). An event whose condition does not hold changes nothing (log 42). (03_bundles R74, 03_bundles R77, 10_seq_traps
R203, 10_seq_traps R206, 05_ordering R116, 04_memory R89, 09_seq_control R198) -/
def Obligations.ResultsAddsAndRetirement : Prop :=
  (∀ x s, x.wf = true → (s.ctx x).lateNow = [] → ∃ t, exec (.resultLand x) s = .next t ∧ t.ctx x = (s.ctx x).landDue ∧
    ∀ y, y.ctx < 4 → y ≠ x → t.ctx y = s.ctx y) ∧
  (∀ x s, x.wf = true → (s.ctx x).lateNow ≠ [] → ∃ t, exec (.resultLand x) s = .next t ∧ ∀ y, t.ctx y = s.ctx y) ∧
  (∀ (c : Ctx), c.landDue.pend = c.pend.filter fun p => !p.due) ∧
  (∀ n s k, n < 529 → (s.core n).freeze.isSome = true → (s.core n).running = some k → (s.ctx ⟨n, k⟩).lateNow ≠ [] →
    ∃ t, exec (.lateResultArrive n) s = .next t ∧ t.store = s.store ∧
      ((∀ p ∈ (s.ctx ⟨n, k⟩).lateNow, s.awaitsMore n p = false) →
        (t.core n).freeze = none ∧ (t.ctx ⟨n, k⟩).lateNow = []) ∧
      ((∃ p ∈ (s.ctx ⟨n, k⟩).lateNow, s.awaitsMore n p = true) → (t.core n).freeze.isSome = true ∧
        (t.ctx ⟨n, k⟩).lateNow = (s.ctx ⟨n, k⟩).lateNow.filter (s.awaitsMore n))) ∧
  (∀ (s : State) n p, s.awaitsMore n p = true ↔ p.await.isSome = true ∨
    ∃ k base, p.fill = some (k, base) ∧ ∃ b ∈ (s.ctx ⟨n, k⟩).blocks, b.base = base ∧ b.filled = false) ∧
  (∀ n s, n < 529 → (s.core n).freeze = none → exec (.lateResultArrive n) s = .next s) ∧
  (∀ x s, x.wf = true → (s.ctx x).status = .ready → (s.core x.core).running = some x.ctx → s.standing x.core = false →
    4096 ≤ (s.ctx x).run → s.readySiblings x ≠ [] →
    exec (.implicitYield x) s = .next (s.setStatus x (.blocked (.yield (s.readySiblings x))))) ∧
  (∀ x s, x.wf = true → (s.ctx x).run < 4096 → exec (.implicitYield x) s = .next s) ∧
  (∀ x (s : State) k, k ∈ s.readySiblings x ↔ k < 4 ∧ k ≠ x.ctx ∧ (s.ctx ⟨x.core, k⟩).status = .ready) ∧
  (∀ x s a, x.wf = true → ((s.core x.core).adds.filter fun b => decide (b.ctx = x.ctx)) = [a] →
    s.addReady x.core a = true →
    let u := s.updCore x.core fun k => { k with adds := k.adds.erase a }
    exec (.counterAddApply x) s = .next (u.applyAdd x (u.sel x (BitVec.ofNat 64 a.ctr)) a.n)) ∧
  (∀ x s a, x.wf = true → (s.ctx x).bank = none → ((s.core x.core).adds.find? fun b => decide (b.ctx = x.ctx)) = some a →
    s.addReady x.core a = false → exec (.counterAddApply x) s = .next s) ∧
  (∀ (x : CtxRef) (s : State) i (b : LoadBlock) base, x.wf = true → (s.ctx x).blocks[i]? = some b → b.base = base → b.filled = false →
    (∀ j (c : LoadBlock), j < i → (s.ctx x).blocks[j]? = some c → ¬(c.base = base ∧ c.filled = false)) →
    let u := s.completionAdd x (s.ctx x).react b.sel (BitVec.ofNat 64 (128 * b.lines)) b.tainted
    let w := u.updCtx x fun c =>
      { c with blocks := if b.evict then c.blocks.eraseIdx i else c.blocks.set i { b with filled := true } }
    exec (.loadBlockFilled x base) s = .next (if (∃ c ∈ (w.ctx x).blocks, c.base = base ∧ c.filled = false) then w
      else w.dataCome x.core fun p => if p.fill = some (x.ctx, base) then { p with fill := none, late := p.await.isSome } else p)) ∧
  (∀ x s, x.wf = true → s.tendReady x = true → (s.ctx x).react = none →
    ∃ t, exec (.tendRetire x) s = .next t ∧ (t.ctx x).status = .idle ∧ t.store = s.store) ∧
  (∀ x s r, x.wf = true → s.tendReady x = true → (s.ctx x).react = some r → s.react? r.id = none →
    ∃ t, exec (.tendRetire x) s = .next t ∧ (t.ctx x).status = .idle ∧ (t.ctx x).react = none) ∧
  (∀ x s r q, x.wf = true → s.tendReady x = true → (s.ctx x).react = some r → s.react? r.id = some q →
    (∃ e ∈ q.members, e ≠ r.entry ∧ e ∉ q.tended) →
    ∃ t q', exec (.tendRetire x) s = .next t ∧ t.cores = s.cores ∧ t.store = s.store ∧ t.react? r.id = some q' ∧
      r.entry ∈ q'.tended ∧ q'.st = q.st) ∧
  (∀ x s r q, x.wf = true → s.tendReady x = true → (s.ctx x).react = some r → s.react? r.id = some q →
    (∀ e ∈ q.members, e = r.entry ∨ e ∈ q.tended) →
    ∃ t, exec (.tendRetire x) s = .next t ∧ ∀ p ∈ q.places, (t.ctx p.1).status = .idle) ∧
  ∀ x s, x.wf = true → s.tendReady x = false → exec (.tendRetire x) s = .next s

/-- Queued commands start in order, and a completed one has left its result, made its add and left its queue. Where
its engine runs and its context is in no stop, the first waiting matrix command starts when its pipe is free, and the
first waiting copy command when fewer than four run, once nothing earlier of the core holds its bytes (a command acts
whole, at its completion, log 29). A completed matrix command of the current reaction leaves in its tile what R283 to
R287 say: zero, the source bytes (BX blocks with their exponents apart), the step's sums, the scaled rows; cst leaves
the rounded tile in memory. A completed copy command leaves in its destinations, in order, the pattern, the source
bytes or what R306 and R310 say of the grid, and no other byte changes; canopy leaves the blocks in their slots, stbl
the table in the core. Each is gone, and a copy command's count is added to its completion counter, or logged in an
ordered launch; matrix commands add to none. A marker goes once no earlier data command of its context is left; the
first memory-side operation of a context to its stack is applied and gone. An event without its condition changes
nothing (log 42). (14_matrix R278, 14_matrix R279, 16_copy R296, 16_copy R297, 16_copy R298, 16_copy R299, 16_copy
R302, 16_copy R306, 16_copy R310, 14_matrix R287, 18_clearing R329, 18_clearing R331) -/
def Obligations.EngineCommandsRun : Prop :=
  let gone (q : List Cmd) (c : Cmd) : Prop := ∀ e ∈ q, e.id ≠ c.id
  let src (s : State) (c : Cmd) : List Byte := c.reads.flatMap fun p => cellsRead s.store.mem p.key p.n
  let plain (s : State) (c : Cmd) (p : Piece) : Prop :=
    p.key % 32 + p.n ≤ 32 ∧ (s.viewerOf c.react).versioned p.page = false ∧ ∀ e r m, p.page ≠ .remote e r m
  let stored (s : State) (c : Cmd) (bytes : List Byte) : Prop := (∀ p ∈ c.writes, plain s c p) ∧
    bytes.length = (c.writes.map Piece.n).sum ∧ s.pinSpanIn s.pinned c.writes bytes = none ∧
    c.writes.Pairwise fun p q => p.key + p.n ≤ q.key ∨ q.key + q.n ≤ p.key
  let leaves (s t : State) (c : Cmd) (bytes : List Byte) : Prop :=
    (c.writes.flatMap fun p => cellsRead t.store.mem p.key p.n) = bytes ∧
      ∀ a, inPieces c.writes a = false → cellGet t.store.mem a = cellGet s.store.mem a
  let mxReady (n : Nat) (s : State) (c : Cmd) : Prop := n < 529 ∧ s.sound ∧ (s.core n).mxRuns = true ∧
    (s.core n).mxq.find? (fun d => d.started && (inArray d == inArray c)) = some c ∧ c.sent = false ∧
    s.poisoned c.reads = false ∧ ∀ p ∈ c.reads, ∀ e r m, p.page ≠ .remote e r m
  let cpReady (n : Nat) (s : State) (c : Cmd) : Prop := n < 529 ∧ s.sound ∧ (s.core n).cpRuns = true ∧
    (s.core n).cpq.find? (fun d => d.started && decide (d.id = c.id)) = some c ∧ c.sent = false ∧
    s.poisoned c.reads = false ∧ ∀ p ∈ c.reads, ∀ e r m, p.page ≠ .remote e r m
  let counted (s t : State) (n : Nat) (c : Cmd) : Prop :=
    let x : CtxRef := ⟨n, c.ctx⟩
    let launchOf (r : RunRef) (o : Bool) : Prop := ∃ l, s.launch? r.lid = some l ∧ l.record.open_ = o
    (c.sel = none → t.counters = s.counters) ∧
    ∀ w, c.sel = some w → let q := s.sel x (BitVec.ofNat 64 w)
      (s.ctxFlits x = false → (s.ctx x).react = c.react →
        (q.shared = false ∨ c.react = none ∨ ∃ r, c.react = some r ∧ launchOf r true) →
        t.counters = (s.applyAdd x q c.count).counters ∧ (t.ctx x).lctr = ((s.applyAdd x q c.count).ctx x).lctr) ∧
      ∀ r, c.react = some r → launchOf r false → q.shared = true →
        Eff.add q.addKey c.count c.ctaint ∈ t.store.effs r.lid r.stamp
  (∀ n s c, n < 529 → (s.core n).mxRuns = true → (s.core n).mxq.find? (fun c => !c.started) = some c →
    (∀ e ∈ (s.core n).mxq, e.started = true → inArray e ≠ inArray c) → (s.core n).clear c = true →
    s.mayStart ⟨n, c.ctx⟩ = true → exec (.mxCommandStart n) s = .next (s.updCore n fun k =>
      { k with mxq := k.mxq.map fun e => if e.id = c.id then { e with started := true } else e })) ∧
  (∀ n s, n < 529 → (∀ c ∈ (s.core n).mxq, c.started = true) → exec (.mxCommandStart n) s = .next s) ∧
  (∀ n s c, n < 529 → (s.core n).cpRuns = true → s.mayStart ⟨n, c.ctx⟩ = true →
    (s.core n).cpq.find? (fun c => !c.started && decide (c.port ≠ 0x26C)) = some c →
    ((s.core n).cpq.filter fun c => c.started).length < 4 → (s.core n).clear c = true →
    exec (.cpCommandStart n) s = .next (s.updCore n fun k =>
      { k with cpq := k.cpq.map fun e => if e.id = c.id then { e with started := true } else e })) ∧
  (∀ n s c e, n < 529 → (s.core n).cpq.find? (fun c => !c.started && decide (c.port ≠ 0x26C)) = some c →
    e ∈ (s.core n).cpq → e.started = true → e.id < c.id → c.waitsFor e = true → exec (.cpCommandStart n) s = .next s) ∧
  (∀ n (s : State) c, mxReady n s c → (s.ctx ⟨n, c.ctx⟩).react = c.react → c.writes = [] → c.sel = none →
    ∃ t, exec (.mxCommandComplete n (inArray c)) s = .next t ∧ gone (t.core n).mxq c ∧ t.store.mem = s.store.mem ∧
      t.counters = s.counters ∧
      let w := c.t.word.toNat
      let k := s.ctx ⟨n, c.ctx⟩
      let k' := t.ctx ⟨n, c.ctx⟩
      let el (t : Tile) (r j : Nat) : Nat := leNat ((List.range 4).map fun i => t.bytes.getD (4 * (64 * r + j) + i) 0)
      (c.port = 0x225 → k'.cTile (w % 4) = ⟨[], c.tag, c.taint⟩) ∧
      (c.port = 0x226 → (k'.cTile (w / 16 % 4)).tag = c.tag ∧ ∀ r j, r < 64 → j < 64 →
        el (k'.cTile (w / 16 % 4)) r j = (Num.addV Num.fp32 .rne (Num.ofBits Num.fp32 (el (k.cTile (w / 16 % 4)) r j))
          (Num.ofBits Num.fp32 (Num.dot32 (tileRow c.sfmt (k.aTile (w % 8)) r)
            (s.canopyCol ⟨n, c.ctx⟩ c.sfmt c.slot j)))).1 % 2 ^ 32) ∧
      ((∀ p ∈ c.reads, plain s c p) →
        let b := fmtRec (c.recs.headD [])
        (c.port = 0x223 → (k'.cTile (w % 4)).bytes = src s c ∧ (k'.cTile (w % 4)).tag = c.tag) ∧
        (c.port = 0x22A ∨ c.port = 0x222 ∧ b.bx = none →
          (k'.aTile (w % 8)).bytes = src s c ∧ (k'.aTile (w % 8)).tag = c.tag) ∧
        (∀ f, c.port = 0x222 → b.bx = some f → (src s c).length = 64 * (f.blockBytes + 2) → (k'.aTile (w % 8)).tag = c.tag ∧
          ∀ r, r < 64 → (∀ i, i < f.blockBytes → (k'.aTile (w % 8)).bytes.getD (f.blockBytes * r + i) 0 =
              (src s c).getD ((f.blockBytes + 2) * r + i) 0) ∧
            ∀ i, i < 2 → (k'.aTile (w % 8)).bytes.getD (2048 + 2 * r + i) 0 =
              (src s c).getD ((f.blockBytes + 2) * r + f.blockBytes + i) 0) ∧
        (c.port = 0x22B → (k'.cTile (w % 4)).tag = c.tag ∧ ∀ r j, r < 64 → j < 64 →
          el (k'.cTile (w % 4)) r j = (Num.mulV Num.fp32 .rne (Num.ofBits Num.fp32 (el (k.cTile (w % 4)) r j))
            (Num.ofBits Num.fp32 (leNat (((src s c).drop (4 * r)).take 4)))).1 % 2 ^ 32))) ∧
  (∀ n (s : State) c, mxReady n s c → c.port = 0x224 → c.reads = [] → c.sel = none →
    (let bytes := cstBytes (fmtRec (c.recs.headD [])) ⟨c.recs.getD 1 [], c.tag, c.taint⟩
    stored s c bytes → ∃ t, exec (.mxCommandComplete n (inArray c)) s = .next t ∧ gone (t.core n).mxq c ∧
      leaves s t c bytes ∧ t.counters = s.counters)) ∧
  (∀ (r : FmtRec) (a : Tile) i j, i < 64 → j < 64 → r.bx = none →
    ((cstBytes r a).drop ((64 * i + j) * r.esize)).take r.esize =
      leBytes r.esize (r.round (Num.ofBits Num.fp32 (leNat ((List.range 4).map fun k => a.bytes.getD (4 * (64 * i + j) + k) 0))))) ∧
  (∀ n array s, n < 529 → (∀ c ∈ (s.core n).mxq, c.started = false ∨ inArray c ≠ array) →
    exec (.mxCommandComplete n array) s = .next s) ∧
  (∀ n (s : State) c bytes, cpReady n s c → c.port ∈ [0x262, 0x263, 0x264, 0x265, 0x266, 0x267, 0x26A, 0x26B] →
    (∀ p ∈ c.reads, plain s c p) →
    bytes = (if c.port = 0x266 then patternBytes c.o.word (c.writes.map Piece.n).sum
      else if c.port ∈ [0x267, 0x26A, 0x26B] then gridOut c (src s c) else src s c) → stored s c bytes →
    ∃ t, exec (.cpCommandComplete n c.id) s = .next t ∧ gone (t.core n).cpq c ∧ leaves s t c bytes ∧ counted s t n c) ∧
  (∀ (w : Word) n i, i < n → (patternBytes w n).getD i 0 = BitVec.ofNat 8 (w.toNat / 2 ^ (8 * (i % 8)))) ∧
  (∀ (c : Cmd) bytes x y z, let d := gridDesc (c.recs.headD [])
    let sr := fmtRec (c.recs.getD 2 [])
    let ds := fmtRec (c.recs.getD 3 [])
    let g := sr.grid (d.my * d.mz) d.mx bytes
    let old := ds.grid (d.ny * d.nz) d.nx (bytes.drop (d.my * d.mz * sr.rowBytes d.mx))
    let tbl := stencil (c.recs.getD 1 [])
    let at_ (g : List (List Num.FVal)) (m x y z : Nat) : Num.FVal := (g.getD (y + m * z) []).getD x (.fin false 0 0)
    let v (x : Nat) : Num.FVal := if c.port = 0x267 then at_ g d.my x y z else
      gridPoint tbl d (decide (c.port = 0x26A)) g (if tbl.lvl = 1 then some (at_ old d.ny x y z) else none) x y z
    x < d.nx → y < d.ny → z < d.nz →
    (ds.bx = none → ((gridOut c bytes).drop ((x + d.nx * (y + d.ny * z)) * ds.esize)).take ds.esize =
      leBytes ds.esize (ds.round (v x))) ∧
    ∀ b, ds.bx = some b → d.nx % 32 = 0 → x % 32 = 0 →
      let e := ds.block b ((List.range 32).map fun i => v (x + i))
      ((gridOut c bytes).drop ((x / 32 + d.nx / 32 * (y + d.ny * z)) * (b.blockBytes + 2))).take (b.blockBytes + 2) =
        e.1 ++ e.2) ∧
  (∀ n (s : State) c (bl : List (List Piece)), cpReady n s c → c.port = 0x268 → (s.ctx ⟨n, c.ctx⟩).react = c.react →
    let r := fmtRec (c.recs.headD [])
    let slot := c.t.word.toNat % 2 ^ 12
    let nb := c.t.word.toNat / 2 ^ 12 % 2 ^ 12
    let x : CtxRef := ⟨n, c.ctx⟩
    c.reads = bl.flatten → bl.length = 64 * nb → (∀ b ∈ bl, (b.map Piece.n).sum = r.fillBytes ∧ ∀ p ∈ b, 0 < p.n) →
    (∀ p ∈ c.reads, plain s c p ∧ keyKind p.key ≠ Kind.canopyElem.num ∧ keyKind p.key ≠ Kind.canopyExp.num) →
    (∀ p ∈ c.writes, ∀ e r m, p.page ≠ .remote e r m) → 1 ≤ r.fmt → r.fmt ≤ 5 → slot + nb * slotsPerStep r.fmt ≤ 2048 →
    ∃ t, exec (.cpCommandComplete n c.id) s = .next t ∧ gone (t.core n).cpq c ∧ counted s t n c ∧
      ∀ j m, j < 64 → m < nb →
        let from_ := (bl.getD (j * nb + m) []).flatMap fun p => cellsRead s.store.mem p.key p.n
        (r.bx = none → cellsRead t.store.mem (canopyKey x j (slot + m * slotsPerStep r.fmt) 0) 32 = from_.take 32 ∧
          cellsRead t.store.mem (canopyKey x j (slot + m * slotsPerStep r.fmt + 1) 0) 32 = from_.drop 32) ∧
        ∀ b, r.bx = some b → cellsRead t.store.mem (canopyKey x j (slot + m) 0) b.blockBytes = from_.take b.blockBytes ∧
          cellsRead t.store.mem (canopyExpKey x j (slot + m)) 2 = from_.drop b.blockBytes) ∧
  (∀ n (s : State) c, cpReady n s c → c.port = 0x269 → c.reads = [] → c.writes = [] → c.sel = none →
    ∃ t, exec (.cpCommandComplete n c.id) s = .next t ∧ gone (t.core n).cpq c ∧ (t.core n).stbl = c.recs.head? ∧
      t.store.mem = s.store.mem ∧ t.counters = s.counters) ∧
  (∀ n id s m, n < 529 → (s.core n).cpq.find? (fun c => decide (c.port = 0x26C) && decide (c.id = id)) = some m →
    ((∀ c ∈ (s.core n).cpq, c.ctx = m.ctx → c.id < id → c.port = 0x26C) →
      exec (.closeMarkerRetire n id) s = .next (s.updCore n fun k => { k with cpq := k.cpq.filter fun c => c.id != id })) ∧
    ((∃ c ∈ (s.core n).cpq, c.ctx = m.ctx ∧ c.id < id ∧ c.port ≠ 0x26C) → exec (.closeMarkerRetire n id) s = .next s)) ∧
  (∀ n s c ports i, (ports, i) ∈ [([0x2A2, 0x2A3, 0x2A4, 0x2A5, 0x2A6], Instr.msOpArrive), ([0x2A9], .msRedComplete),
      ([0x2AB], .msMarkFire)] → n < 529 →
    (s.core n).msq.find? (fun d => decide (d.id = c.id) && ports.contains d.port) = some c →
    (s.poisoned (c.reads ++ c.writes) = false → (∀ e ∈ (s.core n).msq, e.ctx = c.ctx → e.stack = c.stack → c.id ≤ e.id) →
      ∃ t, exec (i n c.id) s = .next t ∧ gone (t.core n).msq c) ∧
    ((∃ e ∈ (s.core n).msq, e.ctx = c.ctx ∧ e.stack = c.stack ∧ e.id < c.id) → exec (i n c.id) s = .next s)) ∧
  (∀ n (s : State) c p, s.sound → n < 529 →
    (s.core n).msq.find? (fun d => decide (d.id = c.id) && [0x2A2, 0x2A3, 0x2A4, 0x2A5, 0x2A6].contains d.port) = some c → (∀ e ∈ (s.core n).msq, e.ctx = c.ctx → e.stack = c.stack → c.id ≤ e.id) →
    (s.viewerOf c.react).ordered = false → (s.viewerOf c.react).versioned p.page = false → c.port = 0x2A3 →
    c.reads = [] → c.writes = [p] → p.n = 8 → p.key % 32 + 8 ≤ 32 → (∀ e r m, p.page ≠ .remote e r m) → s.poisoned [p] = false →
    s.pinSpanIn s.pinned [p] (leBytes 8 ((leNat (cellsRead s.store.mem p.key 8) + c.t.word.toNat) % 2 ^ 64)) = none →
    ∃ t, exec (.msOpArrive n c.id) s = .next t ∧
      cellsRead t.store.mem p.key 8 = leBytes 8 ((leNat (cellsRead s.store.mem p.key 8) + c.t.word.toNat) % 2 ^ 64) ∧
      ∀ a, inPieces [p] a = false → cellGet t.store.mem a = cellGet s.store.mem a) ∧
  ∀ n s c, n < 529 → (s.core n).msq.find? (fun d => decide (d.id = c.id) && [0x2AB].contains d.port) = some c →
    (∀ e ∈ (s.core n).msq, e.ctx = c.ctx → e.stack = c.stack → c.id ≤ e.id) → c.react = none →
    (s.ctx ⟨n, c.ctx⟩).react = none → c.reads = [] → c.writes = [] → s.ctxFlits ⟨n, c.ctx⟩ = false →
    ∃ t, exec (.msMarkFire n c.id) s = .next t ∧
      t.counters = (s.applyAdd ⟨n, c.ctx⟩ (s.cmdSel ⟨n, c.ctx⟩ c) c.count).counters

/-- Launches are checked, instants enqueued, tickets taken, reactions preempted, and instants cleared. A launch whose
records and pages are all at hand runs with its entries and pins, or is rejected with the lowest bad field; an instant
that may be enqueued (at once, log 101) adds one queued reaction for every present sub-program and member at the tail
of its ticket counter; a core takes, once in a core cycle, the first ticket whose reaction can start there, in its
lowest idle context (log 57), and starts it with the registers of R35; a queued reaction gains a token each 65,536
units; at multiples of 4,096 a die marks one victim; a marked reaction at a boundary is killed or checkpointed and
queued again at the head with its tokens. An instant that may clear here ends its launch with WRITE_CONFLICT at the
lowest conflicting sector, named as the launch names it (log 20), or with LEASE_EXIT where it would change a pinned
entry (log 162); else it commits once the other devices of the launch have found as much (log 73): its logs are gone,
its reactions retire, the cleared count goes up and its held adds are made. A waiting set is acquired once nothing
stops it. An event without its condition changes nothing (log 42). (02_instants R35, 05_ordering R114, 11_dispatch
R230, 11_dispatch R233, 11_dispatch R234, 11_dispatch R235, 11_dispatch R238, 11_dispatch R240, 18_clearing R315,
18_clearing R319, 18_clearing R322) -/
def Obligations.DispatchPreemptionAndClearing : Prop :=
  (∀ (s : State) lid l bs, s.launch? lid = some l → l.phase = .submitted →
    s.dispRead l l.record.entries (128 * min l.record.nsub 32) = .ok bs →
    let rd := (List.range (min l.record.nsub 32)).map fun i => s.readEntry l ((bs.drop (128 * i)).take 128)
    (∀ q ∈ rd, q.2 = .none) →
    let qs := rd.map Prod.fst
    let es := entriesOf qs
    let dies := diesOf l.record.diemask
    let ws := dies.map fun d => s.leaseWalk l d es
    let shape := firstField (recordShape s.devid (leNat l.raw) l.record es) (qs.map (s.entryShape l))
    let resource := firstField (s.recordResource l es) (qs.zipIdx.map fun q =>
      s.entryResource l q.1 (l.record.gangOf q.2).isSome ++ if leaseFails ws q.2 = true then [832] else [])
    (∀ f, shape = some f → exec (.launchCheck lid) s = .next ((s.dropDisp lid).reject lid 0xC2 f)) ∧
    (shape = none → s.pass2Need l es dies ws = .none →
      (∀ f, resource = some f → exec (.launchCheck lid) s = .next ((s.dropDisp lid).reject lid 0xC1 f)) ∧
      (resource = none → ∃ t l', exec (.launchCheck lid) s = .next t ∧ t.launch? lid = some l' ∧ l'.phase = .running ∧
        l'.entries = es ∧ l'.pins = (ws.flatMap fun w => w.flatMap fun ps => ps.flatMap PageR.read).eraseDups ∧
        l'.nextInst = l.nextInst))) ∧
  (∀ (s : State) lid l, s.launch? lid = some l → l.phase ≠ .submitted → exec (.launchCheck lid) s = .next s) ∧
  (∀ (s : State) lid l, s.launch? lid = some l → l.phase = .running → l.aborting = false → l.nextInst < l.record.ninst →
    l.record.open_ = false → l.nextInst < l.cleared + 4 →
    let new := (l.present l.nextInst).zipIdx.map fun p => l.newReaction l.nextInst s.timebase.toNat p.2 p.1
    ∃ t l', exec (.instantEnqueue lid) s = .next t ∧ t.launch? lid = some l' ∧ l'.nextInst = l.nextInst + 1 ∧
      l'.reacts = l.reacts ++ new ∧ (∀ r ∈ new, r.st = .queued ∧ r.inst = l.nextInst) ∧
      ∀ d p, t.ticketsOf d p = s.ticketsOf d p ++ (new.filter fun r => decide (r.die = d ∧ r.prio = p)).map
        fun r => ⟨lid, r.stamp⟩) ∧
  (∀ (l : Launch) i e k w, (e, k, w) ∈ l.present i → ∃ q, l.entries[e]? = some q ∧ i % q.period = q.phase) ∧
  (∀ (s : State) lid l, s.launch? lid = some l → l.record.ninst ≤ l.nextInst → exec (.instantEnqueue lid) s = .next s) ∧
  (∀ n (s : State) l r rest ps k, n < 512 → n ∉ s.took → s.newcomersOf n = [] → s.heads (dieOf n) = (l, r) :: rest →
    s.coreOpen l n = true → l.aborting = false → s.freeCtx n ⟨l.lid, r.stamp⟩ = some k → s.thresholds l r n = .met →
    l.heldBack r n = false → s.placesFor l r n = some ps → r.slots = [] →
    exec (.ticketTake n) s = .next { s.start l r ps with took := n :: s.took }) ∧
  (∀ n (s : State), n < 512 → n ∈ s.took → exec (.ticketTake n) s = .next s) ∧
  (∀ n (s : State), 512 ≤ n → n < 529 → exec (.ticketTake n) s = .next s) ∧
  (∀ (s : State) l r x k e, l.entries[k]? = some e →
    let c := (s.start l r [(x, k)]).ctx x
    c.status = .ready ∧ c.react = some ⟨l.lid, r.stamp, k⟩ ∧ c.pc = BitVec.ofNat 64 (e.hdr + 64) ∧ c.first = 0 ∧
      c.fpm = l.record.fpm ∧ c.stamp = BitVec.ofNat 64 r.stamp ∧ c.ord = !l.record.open_ ∧
      c.g[1].w = BitVec.ofNat 64 l.record.args ∧ c.g[2].w = BitVec.ofNat 64 ((r.inst - e.phase) / e.period) ∧
      c.g[3].w = BitVec.ofNat 64 r.width ∧ c.g[4].w = BitVec.ofNat 64 r.inst ∧ c.g[5].w = 0 ∧ c.kdef = Ctx.reset.kdef ∧
      c.pend = [] ∧ c.ctaint = false) ∧
  (∀ r (s : State), r.wf = true → exec (.tokenGain r) s = .next (s.updReact r fun q =>
    if q.st = .queued ∧ q.since + 65536 ≤ s.timebase.toNat then
      { q with tok := min 0xFFFF (q.tok + 1), since := q.since + 65536 } else q)) ∧
  (∀ d (s : State) h l r a, d < 8 → s.timebase.toNat % 4096 = 0 → d ∉ s.chose → s.newcomer d = some h →
    s.victim d h = some (l, r) → s.choose l r = some a →
    ∃ t, exec (.preemptChoice d) s = .next t ∧ t.store = s.store ∧ t.cores = s.cores ∧
      t.launches = (s.updReact ⟨l.lid, r.stamp⟩ fun r => { r with action := some a }).launches ∧
      t.reserved = s.reserved ++ r.places.map fun p => (p.1, ⟨h.1.lid, h.2.stamp⟩)) ∧
  (∀ d (s : State), d < 8 → s.timebase.toNat % 4096 ≠ 0 ∨ d ∈ s.chose → exec (.preemptChoice d) s = .next s) ∧
  (∀ id (s : State) r, id.wf = true → s.react? id = some r → r.action = some .kill → r.st = .running →
    s.atBoundary r = true → exec (.kill id) s = .next ((s.killReact id.lid r).checkEnd id.lid)) ∧
  (∀ id (s : State) r, id.wf = true → s.react? id = some r → r.action ≠ some .kill → exec (.kill id) s = .next s) ∧
  (∀ id (s : State) r, s.react? id = some r →
    (s.requeue id).ticketsOf r.die r.prio = id :: (s.ticketsOf r.die r.prio).filter (fun q => q != id)) ∧
  (∀ id (s : State) r, s.react? id = some r → ∃ q, (s.requeue id).react? id = some q ∧ q.st = .queued ∧ q.places = [] ∧
    q.tok = r.tokens s.timebase.toNat ∧ q.since = s.timebase.toNat ∧ q.stamp = r.stamp) ∧
  (∀ id (s : State) l r, id.wf = true → s.launch? id.lid = some l → s.react? id = some r → r.action = some .checkpoint →
    r.st = .running → s.atBoundary r = true → s.inHandler r = false →
    (∀ p ∈ r.places, s.drained p.1 = true ∧ ∀ b ∈ (s.ctx p.1).blocks, b.filled = true) →
    r.places.length ≤ (s.freeSlots l).length →
    (∀ k ∈ (s.freeSlots l).take r.places.length, (s.slotPages l k).need = .none) →
    ∃ t q, exec (.checkpoint id) s = .next t ∧ t.react? id = some q ∧ q.st = .queued ∧ q.places = [] ∧
      q.slots = (s.freeSlots l).take r.places.length ∧ (t.ticketsOf r.die r.prio).head? = some id) ∧
  (∀ lid (s : State) l, s.launch? lid = some l → l.phase = .running → l.record.open_ = false → l.cleared < l.nextInst →
    (∀ r ∈ l.reacts, r.inst = l.cleared → r.st = .finished) →
    (∀ p ∈ l.peers, l.cleared < p.fin ∧ l.cleared ≤ p.clr) →
    let gs := s.store.instLogs lid l.cleared
    let ws := wroteOf gs
    let u := s.dropDisp lid
    (lowestConflict (s.launchAddr lid) ws = none → s.store.taintEvents gs gs = [] →
      (s.pinCommit gs = none →
        ((∀ p ∈ l.peers, l.cleared < p.chk) → exec (.clearInstant lid) s = .next ((u.tellChecked l).commitInstant l gs)) ∧
        ((∃ p ∈ l.peers, p.chk ≤ l.cleared) → exec (.clearInstant lid) s = .next (s.tellChecked l))) ∧
      ∀ st e, s.pinCommit gs = some (st, e) → exec (.clearInstant lid) s = .next (u.endRaised l.lid (l.coreOf st)
        (trapReport st ⟨0xC0, BitVec.ofNat 64 (u.launchAddr l.lid e), l.coreOf st⟩ false))) ∧
    ∀ k, lowestConflict (s.launchAddr lid) ws = some k → s.taintNeed l [homeDie (32 * k)] = .none →
      let addr := u.launchAddr l.lid (32 * k)
      let a := (writerStamps ws k).headD 0
      exec (.clearInstant lid) s = .next ((u.taintLog (homeDie (32 * k)) l 4 a addr ((writerStamps ws k).getD 1 0)).endRaised
        l.lid (l.coreOf a) ⟨0xA0, 0, 0, a, BitVec.ofNat 64 addr, l.coreOf a, false⟩)) ∧
  (∀ (s : State) l gs, s.launch? l.lid = some l → l.record.open_ = false → l.phase = .running → l.cleared + 1 ≠ l.record.ninst →
    (∀ r ∈ l.reacts, r.inst = l.cleared + 1 → r.st ≠ .failed) →
    ∃ l', (s.commitInstant l gs).launch? l.lid = some l' ∧ l'.cleared = l.cleared + 1 ∧ l'.nextInst = l.nextInst ∧
      l'.reacts = l.reacts.filter (fun r => r.inst != l.cleared) ∧
      (s.commitInstant l gs).store.instLogs l.lid l.cleared = [] ∧
      ∀ c n b st, c < 2 ^ 24 → gs = [⟨l.lid, st, [.add c n b]⟩] → (s.commitInstant l gs).ctr c = satAdd (s.ctr c) n) ∧
  (∀ lid (s : State) l, s.launch? lid = some l → l.nextInst ≤ l.cleared → exec (.clearInstant lid) s = .next s) ∧
  (∀ line lid inst (s : State), ∃ t, exec (.versionMerge line lid inst) s = .next t ∧
    t.store.unmerged = s.store.unmerged.filter (fun u => u != (line, lid, inst)) ∧ t.store.mem = s.store.mem ∧
    t.store.logs = s.store.logs ∧ t.launches = s.launches ∧ t.cores = s.cores) ∧
  ∀ x (s : State) rs, x.wf = true → (s.ctx x).status = .blocked (.set rs) →
    (∀ u, s.touch x rs = .ok u → exec (.setAcquire x) s = .next (u.setStatus x .ready)) ∧
    (∀ a, s.touch x rs = .irrev a → exec (.setAcquire x) s = .next (s.setStatus x .ready)) ∧
    ∀ w, s.touch x rs = .wait w → exec (.setAcquire x) s = .next (s.touchAgain x rs)

/-- Walks restart or time out, table multicasts are ordered and completed, and observation, counters and the cycle go
on. A walk whose migration counter has passed its sample, or whose bound has run out, lets its context go on; a
multicast that this device orders is decided: refused where it pins the entry, else written where this device is in
PODMASK; it completes with one add once its flits are acknowledged; FLUSH and the timer seal the open segment, which
goes out to storage; HALTREQ, RESUME and STEP stop and free contexts; performance registers and plain registers take
what is written, and an address that no block assigns takes nothing (log 99); a core cycle adds 1 to the timebase and
gives the agents their turns (log 1). STEP while the partition is halted is log 44; a trace segment waits while any
connection is paused (log 143); an event without its condition changes nothing (log 42). (21_spaces R345, 21_spaces
R353, 22_observation R370, 22_observation R376, 22_observation R379, 22_observation R380, 22_observation R382,
22_observation R383, 22_observation R384, 21_spaces R355) -/
def Obligations.TranslationAndObservationEvents : Prop :=
  let waits (s : State) (x : CtxRef) : Prop := ∃ d, (s.ctx x).status = .blocked (.walk d)
  (∀ (s : State) w, s.walks.find? (fun v => decide (v.id = w.id)) = some w → w.x.core < 529 → waits s w.x →
    (w.sample.toNat + 1 ≤ (s.migCounter w.die).toNat → ∃ t, exec (.walkRestart w.id) s = .next t ∧
      (t.ctx w.x).status = .ready ∧ (t.ctx w.x).walkExpired = false ∧ t.store = s.store ∧ ∀ v ∈ t.walks, v.id ≠ w.id) ∧
    ((s.migCounter w.die).toNat ≤ w.sample.toNat → exec (.walkRestart w.id) s = .next s) ∧
    (w.expired = false → w.since + Config.migrationBound ≤ s.timebase.toNat →
      ∃ t, exec (.walkMigrationTimeout w.id) s = .next t ∧ (t.ctx w.x).status = .ready ∧
        (t.ctx w.x).walkExpired = true ∧ t.store = s.store) ∧
    (w.expired = false → s.timebase.toNat < w.since + Config.migrationBound →
      exec (.walkMigrationTimeout w.id) s = .next s)) ∧
  (∀ (s : State) p, s.ptmcs.find? (fun q => decide (q.id = p.id) && !q.decided) = some p →
    s.podPeers (dieOf p.x.core) = [] →
    (s.die (dieOf p.x.core)).podmask.getLsbD s.devid = true →
    let decided (t : State) (refused : Bool) : Prop := ∃ q ∈ t.ptmcs, q.id = p.id ∧ q.decided = true ∧ q.pinned = refused ∧
      q.addr = p.addr ∧ q.value = p.value
    (p.addr ∈ s.pinned → ∃ t, exec (.ptmcOrdered p.id) s = .next t ∧ t.store = s.store ∧ decided t true) ∧
    (p.addr ∉ s.pinned → ∃ t, exec (.ptmcOrdered p.id) s = .next t ∧ t.store = (s.writeEntry p.addr p.value).store ∧
      decided t false)) ∧
  (∀ (s : State) p, s.ptmcs.find? (fun q => decide (q.id = p.id) && q.decided && !q.pinned && !q.open_) = some p →
    (∀ o ∈ s.fabric.out ++ s.fabric.held, ¬(o.flit.fk = 5 ∧ o.flit.addr.toNat = p.addr)) →
    s.ctxFlits p.x = false →
    let u : State := { s with ptmcs := s.ptmcs.filter fun q => q.id != p.id }
    exec (.ptmcComplete p.id) s = .next (u.applyAdd p.x (u.sel p.x (BitVec.ofNat 64 p.sel)) 1)) ∧
  (∀ x (s : State), x.wf = true → s.obs.open_ ≠ [] → ∃ t, exec (.flush x) s = .next t ∧ t.obs.open_ = [] ∧
    t.obs.seq = s.obs.seq + 1 ∧ t.store = s.store ∧ t.cores = s.cores) ∧
  (∀ x (s : State), x.wf = true → s.obs.open_ = [] → exec (.flush x) s = .next s) ∧
  (∀ (s : State), (s.obs.open_ ≠ [] ∧ s.obs.tb0 + 2 ^ 20 ≤ s.timebase.toNat →
      ∃ t, exec .segmentSealTimer s = .next t ∧ t.obs.open_ = [] ∧ t.obs.seq = s.obs.seq + 1) ∧
    (s.timebase.toNat < s.obs.tb0 + 2 ^ 20 → exec .segmentSealTimer s = .next s)) ∧
  (∀ (s : State) g gs, s.obs.sealed = g :: gs → s.obs.tqlen ≠ 0 → s.mayAccess storDie 45 12 true = true →
    s.storage.paused = [] →
    ∃ t, exec .segmentWrite s = .next t ∧ t.obs.sealed = gs ∧ t.obs.sent = s.obs.sent + 1 ∧ t.store = s.store) ∧
  (∀ (s : State), s.obs.sealed = [] ∨ s.obs.tqlen = 0 ∨ s.storage.paused ≠ [] → exec .segmentWrite s = .next s) ∧
  (∀ x (s : State) p, x.wf = true → s.debugParts x = [p] → s.launchOn p = true → s.park.getLsbD p = false →
    exec (.haltreq x) s = .next (s.haltPartition p) ∧ p ∈ (s.haltPartition p).halted) ∧
  (∀ x (s : State) p, x.wf = true → s.debugParts x = [p] →
    exec (.resume x) s = .next (s.resumePartition p) ∧ p ∉ (s.resumePartition p).halted) ∧
  (∀ x y (s : State) p, x.wf = true → y.wf = true → s.partOf y.core = some p → p ∈ s.debugParts x → p ∈ s.halted →
    s.park.getLsbD p = false → exec (.step x y) s = .next (s.updCtx y Ctx.unhalt)) ∧
  (∀ (c : Ctx) w b, c.status = .stopped w b → (Ctx.unhalt c).status = c.status ∨ ∀ v d, (Ctx.unhalt c).status ≠ .stopped v d) ∧
  (∀ x d off v (s : State), x.wf = true → d < 8 → off < 0x1000 → off % 8 = 0 → ∃ t,
    exec (.perfCounterWrite x d off v) s = .next t ∧ t.die d = (s.die d).perfWrite off v ∧ t.store = s.store ∧
      t.cores = s.cores ∧ ∀ e, e < 8 → e ≠ d → t.die e = s.die e) ∧
  (∀ x d off v (s : State), x.wf = true → d < 8 → 0x1000 ≤ off → off < 0x2000 → off % 8 = 0 → ∃ t,
    exec (.perfConfigWrite x d off v) s = .next t ∧ t.die d = (s.die d).perfConfig off v ∧ t.store = s.store ∧
      t.cores = s.cores) ∧
  (∀ x addr v (s : State) r, x.wf = true → regAddr addr = some r →
    exec (.registerWrite x addr v) s = .next (s.plainWrite x r v)) ∧
  (∀ x addr v (s : State), x.wf = true → regAddr addr = none → exec (.registerWrite x addr v) s = .next s) ∧
  (∀ (s : State) (x : CtxRef) r v, r.blk = 2 → r.off = 24 → (s.plainWrite x r v).obs.tqlba = v ∧
    (s.plainWrite x r v).store = s.store) ∧
  ∀ (s : State), ∃ t, exec .coreCycle s = .next t ∧ t.timebase = s.timebase + 1 ∧ t.turn = s.agents ∧ t.store = s.store ∧
    t.counters = s.counters ∧ t.launches = s.launches ∧ ∀ x, (t.ctx x).sameRegs (s.ctx x)

/-- Ring writes, doorbells and ring pointers of the host port, and the route table. A host write to a ring byte that
stack 0 has, the access table lets the host write and no pin holds changes that byte alone; one to the MSI-X table
changes the table; a pointer write moves its pointer only within the bounds of R390, a doorbell that moves its pointer
makes a wake event for the contexts of die 0's supervisor cores and of the management core (log 92), and ends standby
and every park; the route table takes the word written. (23_system R389, 23_system R390, 23_system R391, 23_system
R393, 23_system R397, 23_system R409) -/
def Obligations.HostPortAndRoutes : Prop :=
  let ring (s : State) (off : Nat) : Nat := (s.die 0).wbase.toNat * 2 ^ 17 + (off - 0x10000)
  (∀ off b (s : State), s.sound → 0x10000 ≤ off → off < 0x30000 → ring s off < 2 ^ 36 → s.physOk (ring s off) = true →
    s.mayHbm (ring s off) 8 true false = true → s.pinHit (ring s off) [b] = none →
    ∃ t, exec (.hostRingWrite off [b]) s = .next t ∧ cellGet t.store.mem (ring s off) = b ∧
      (∀ a, a ≠ ring s off → cellGet t.store.mem a = cellGet s.store.mem a) ∧ t.regs = s.regs ∧
      ∀ x, (t.ctx x).sameRegs (s.ctx x)) ∧
  (∀ off b (s : State), 0x10000 ≤ off → off < 0x30000 → s.mayHbm (ring s off) 8 true false = false →
    ∃ t, exec (.hostRingWrite off [b]) s = .next t ∧ t.store.mem = s.store.mem) ∧
  (∀ off b (s : State), 0x80000 ≤ off → off < 0x88000 → ∃ t, exec (.hostRingWrite off [b]) s = .next t ∧
    t.host.msixTable = cellPut s.host.msixTable (off - 0x80000) b ∧ t.store.mem = s.store.mem ∧ t.regs = s.regs) ∧
  (∀ v (s : State),
    (s.host.h2dtail.toNat ≤ v.toNat → v.toNat ≤ s.host.h2dhead.toNat + 512 → ∃ t, exec (.hostDoorbell v) s = .next t ∧
      t.host.h2dtail = v ∧ t.host.h2dhead = s.host.h2dhead ∧ t.store = s.store ∧ t.launches = s.launches ∧
      t.stby = false ∧ t.park = 0 ∧ (v ≠ s.host.h2dtail → ∀ n k, n ∈ [512, 513, 528] → n ∈ s.cores.map Prod.fst →
        (t.ctx ⟨n, k⟩).wake = true) ∧
      ∀ x, (t.ctx x).sameRegs (s.ctx x) ∧ (t.ctx x).status = (s.ctx x).status) ∧
    (v.toNat < s.host.h2dtail.toNat ∨ s.host.h2dhead.toNat + 512 < v.toNat → exec (.hostDoorbell v) s = .next s)) ∧
  (∀ v (s : State), s.host.d2hhead.toNat ≤ v.toNat → v.toNat ≤ s.host.d2htail.toNat →
    exec (.d2hheadWrite v) s = .next { s with host := { s.host with d2hhead := v } }) ∧
  (∀ v (s : State), v.toNat < s.host.d2hhead.toNat ∨ s.host.d2htail.toNat < v.toNat → exec (.d2hheadWrite v) s = .next s) ∧
  (∀ x v (s : State), x.wf = true →
    (s.host.d2htail.toNat ≤ v.toNat → v.toNat ≤ s.host.d2hhead.toNat + 512 →
      let u := s.performAll x
      exec (.d2htailWrite x v) s = .next { u with host := { u.host with d2htail := v } }) ∧
    (v.toNat < s.host.d2htail.toNat ∨ s.host.d2hhead.toNat + 512 < v.toNat → exec (.d2htailWrite x v) s = .next s)) ∧
  (∀ x v (s : State), x.wf = true →
    (s.host.h2dhead.toNat ≤ v.toNat → v.toNat ≤ s.host.h2dtail.toNat →
      exec (.h2dheadWrite x v) s = .next { s with host := { s.host with h2dhead := v } }) ∧
    (v.toNat < s.host.h2dhead.toNat ∨ s.host.h2dtail.toNat < v.toNat → exec (.h2dheadWrite x v) s = .next s)) ∧
  ∀ x d off v (s : State), x.wf = true → d < 8 → 0x40 ≤ off → off < 0x60 → off % 8 = 0 → ∃ t,
    exec (.routeWrite x d off v) s = .next t ∧ t.store = s.store ∧
      ((t.die d).route.toNat / 2 ^ (8 * (off - 0x40))) % 2 ^ 64 = v.toNat ∧
      ∀ k, k < 256 → (k < 8 * (off - 0x40) ∨ 8 * (off - 0x40) + 64 ≤ k) →
        (t.die d).route.getLsbD k = (s.die d).route.getLsbD k

/-- Every accepted flit gives a credit and does what its kind says; others are discarded, and 16 failures down a link.
On a link that is up, a flit for this device gives one credit: a store writes its masked bytes where the port may
write and no pin holds, else an error is counted; a load is answered with the counter, or the bytes from its address
on, for a reaction of the one launch that spans both devices by its view, with its lease kept (log 165); a response
goes to the first request that waits for it; an add raises its counter; a multicast is ordered here or writes its
entry (logs 24, 77); clearing, lease and version messages tell the launch they name what they say (log 73); a credit
frees the oldest flit of the link; a continuation is answered, or refused with 0xC5. A flit for another device or of
an unknown kind is discarded (log 75). A link that is down, or has no lane left, passes nothing; neither does any in
standby. What is refused is answered with an error, a response without a valid byte, which resets the issuer's
partition, or refuses its multicast where its cause is a pin. (Encodings the spec leaves open: logs 23, 146.)
(05_ordering R110, 05_ordering R111, 05_ordering R112, 05_ordering R114, 21_spaces R347, 21_spaces R353, 23_system
R392) -/
def Obligations.FabricFlits : Prop :=
  let inn (link : Nat) (s : State) : State :=
    { s with fabric := { s.fabric with crcFails := alPut s.fabric.crcFails link 0, credits := s.fabric.credits + 1 } }
  let mine (link : Nat) (f : Flit) (k : BitVec 4) (s : State) : Prop :=
    link < 16 ∧ f.fk = k ∧ f.data.length = 32 ∧ s.linkUp link = true ∧ f.dstdev.toNat = s.devid
  let kind (i : Nat → Flit → Instr) (k : BitVec 4) : Prop :=
    ∀ link f (s : State), link < 16 → f.fk = k → f.data.length = 32 →
      (s.linkUp link = false → exec (i link f) s = .next s) ∧
      (s.linkUp link = true → f.dstdev.toNat ≠ s.devid → ∃ t, exec (i link f) s = .next t ∧
        t.fabric.discarded = s.fabric.discarded + 1 ∧ t.fabric.credits = s.fabric.credits ∧ t.store = s.store ∧
        t.cores = s.cores ∧ t.launches = s.launches)
  kind .flitStore 1 ∧ kind .flitLoadRequest 2 ∧ kind .flitLoadResponse 3 ∧ kind .flitCounterAdd 4 ∧
  kind .flitTableMulticast 5 ∧ (∀ m, kind (.flitClearingMessage · · m) 6) ∧
  (∀ m, kind (.flitLeaseVersionMessage · · m) 7) ∧ kind .flitCredit 8 ∧ kind .flitWalkContinuation 9 ∧
  (∀ link f (s : State) p, s.sound → mine link f 1 s → flitParts f = [p] →
    (s.fabOk p.1 p.2.length true = true → s.pinHit p.1 p.2 = none →
      ∃ t, exec (.flitStore link f) s = .next t ∧ t.fabric.credits = s.fabric.credits + 1 ∧
        (∀ i, i < p.2.length → cellGet t.store.mem (p.1 + i) = p.2.getD i 0) ∧
        ∀ a, (a < p.1 ∨ p.1 + p.2.length ≤ a) → cellGet t.store.mem a = cellGet s.store.mem a) ∧
    (s.fabOk p.1 p.2.length true = false → exec (.flitStore link f) s = .next ((inn link s).flitError (linkDie link) f 0)) ∧
    (s.fabOk p.1 p.2.length true = true → s.pinHit p.1 p.2 ≠ none →
      exec (.flitStore link f) s = .next ((inn link s).flitError (linkDie link) f 0xC6))) ∧
  (∀ (s : State) dev l, s.peerLaunch dev = some l ↔ s.launches.filter (fun l =>
    decide (l.phase = .running) && !l.record.open_ && l.peers.any fun p => decide (p.dev = dev)) = [l]) ∧
  (∀ f : Flit, f.mask = 0xFFFFFFFF → f.data.length = 32 → f.addr.toNat % 32 = 0 → flitParts f = [(f.addr.toNat, f.data)]) ∧
  (∀ link f s, mine link f 2 s →
    let a := f.addr.toNat
    let back (bs : List Byte) : State := (inn link s).sendFlit (2000 + link / 2) 3 f.srcdev.toNat 0 a bs f.mask.toNat 0
    (∀ k, ctrOfAddr a = some k → exec (.flitLoadRequest link f) s = .next (back (leBytes 8 (s.ctrSeen k).toNat))) ∧
    (ctrOfAddr a = none → s.fabOk a (32 - a % 32) false = false ∨ lineOf a ∈ s.store.poison →
      exec (.flitLoadRequest link f) s = .next ((inn link s).flitError (linkDie link) f 0)) ∧
    (ctrOfAddr a = none → s.fabOk a (32 - a % 32) false = true → lineOf a ∉ s.store.poison →
      (f.stamp.toNat = noView ∨ s.peerLaunch f.srcdev.toNat = none →
        exec (.flitLoadRequest link f) s = .next (back (cellsRead s.store.mem a (32 - a % 32)))) ∧
      (f.stamp.toNat ≠ noView → ∀ l, s.peerLaunch f.srcdev.toNat = some l →
        let w := l.guestView f.stamp.toNat
        exec (.flitLoadRequest link f) s = .next (({ inn link s with
          store := s.store.lease f.srcdev.toNat w ⟨a, 32 - a % 32, a, .ver⟩ } : State).sendFlit (2000 + link / 2) 3 f.srcdev.toNat 0 a
            ((s.store.view l.lid f.stamp.toNat (w.holds (sectorOf a)) (sectorOf a)).1.drop (a % 32)) f.mask.toNat 0)))) ∧
  (∀ link f s, mine link f 3 s → f.mask = 0 → exec (.flitLoadResponse link f) s = .next ((inn link s).flitDenied f)) ∧
  (∀ link f s, mine link f 3 s → f.mask ≠ 0 →
    let waits (q : RemoteReq) : Bool := decide (q.dev = f.srcdev.toNat ∧ q.addr = f.addr.toNat ∧ q.resp = none) &&
      q.walk.isSome == decide (f.mask = 0x3FF)
    (∀ q, s.fabric.reqs.find? waits = some q → exec (.flitLoadResponse link f) s = .next ((inn link s).answered f q)) ∧
    (s.fabric.reqs.find? waits = none → exec (.flitLoadResponse link f) s = .next (inn link s))) ∧
  (∀ f q (s : State), q.x.core ≠ 20000 → q.load = true → s.answered f q =
    ({ s with fabric := { s.fabric with reqs := s.fabric.reqs.erase q } } : State).dataCome q.x.core fun p => p.take q.dev q.seq f.data) ∧
  (∀ f (s : State) p, s.ptmcs.find? (fun p => p.asked && !p.decided && decide (p.addr = f.addr.toNat)) = some p →
    (f.data.head? = some 0xC6 → s.flitDenied f = s.ptmcDecide p true) ∧
    (f.data.head? ≠ some 0xC6 →
      s.flitDenied f = ({ s with ptmcs := s.ptmcs.filter fun q => q.id != p.id } : State).resetSoon p.x.core)) ∧
  (∀ link f s, mine link f 4 s →
    (∀ k, ctrOfAddr f.addr.toNat = some k → exec (.flitCounterAdd link f) s =
      .next ((inn link s).ctrAdd k (BitVec.ofNat 64 (leNat (f.data.take 8))))) ∧
    (ctrOfAddr f.addr.toNat = none →
      exec (.flitCounterAdd link f) s = .next ((inn link s).flitError (linkDie link) f 0))) ∧
  (∀ link f s, mine link f 5 s →
    let a := f.addr.toNat
    let d := linkDie link
    let w := BitVec.ofNat 64 (leNat (f.data.take 8))
    let u : State := { inn link s with nextPtmc := s.nextPtmc + 1 }
    (a % 8 ≠ 0 ∨ s.fabOk a 8 true = false → exec (.flitTableMulticast link f) s = .next ((inn link s).flitError d f 0)) ∧
    (a % 8 = 0 → s.fabOk a 8 true = true → a ∈ s.pinned →
      exec (.flitTableMulticast link f) s = .next ((inn link s).flitError d f 0xC6)) ∧
    (a % 8 = 0 → s.fabOk a 8 true = true → a ∉ s.pinned →
      (s.orderDev d = s.devid → exec (.flitTableMulticast link f) s =
        .next (if Config.remotePinned s.nextPtmc then u.flitError d f 0xC6 else (u.writeEntry a w).relay (2000 + d) d a w)) ∧
      (s.orderDev d ≠ s.devid → (∀ p ∈ s.ptmcs, p.asked = false) →
        exec (.flitTableMulticast link f) s = .next ((inn link s).writeEntry a w)))) ∧
  (∀ link f s dev status inst cause, mine link f 6 s →
    let told (m : ClearMsg) (t : State) : Prop := exec (.flitClearingMessage link f m) s = .next t
    (∀ l, s.byStatus status = some l →
      told (.finished dev status inst) ((inn link s).peer l.lid dev (inst + 1) 0 0) ∧
      told (.checked dev status inst) ((inn link s).peer l.lid dev (inst + 1) (inst + 1) 0) ∧
      (∃ t, told (.cleared dev status inst) t ∧ t.fabric.remoteCtrs = [] ∧ t.store = s.store ∧ t.cores = s.cores ∧
        t.launches = ((inn link s).peer l.lid dev (inst + 1) (inst + 1) (inst + 1)).launches) ∧
      told (.ended dev status cause) (((inn link s).unpinFor dev).endLaunch l.lid
        (if cause = 0 then none else some ⟨cause, 0, 0, 0, 0, 0, false⟩) 0)) ∧
    (s.byStatus status = none → told (.finished dev status inst) (inn link s) ∧ told (.checked dev status inst) (inn link s) ∧
      told (.cleared dev status inst) (inn link s) ∧ told (.ended dev status cause) ((inn link s).unpinFor dev))) ∧
  (∀ (s : State) lid dev fin chk clr l, s.launch? lid = some l → l.peers.find? (fun p => decide (p.dev = dev)) = none →
    ∃ m, (s.peer lid dev fin chk clr).launch? lid = some m ∧ m.peers = l.peers ++ [⟨dev, fin, chk, clr⟩]) ∧
  (∀ link f s status stamp addr len data taint ms by_ kind, mine link f 7 s →
    let dev := f.srcdev.toNat
    let d := linkDie link
    let told (m : LeaseMsg) (t : State) : Prop := exec (.flitLeaseVersionMessage link f m) s = .next t
    let met (l : Launch) : State := if l.record.open_ then inn link s else (inn link s).peer l.lid dev 0 0 0
    (∀ l, s.byStatus status = some l →
      told (.store status stamp addr data taint ms) ((met l).guestStore d f l stamp addr data taint ms) ∧
      told (.lease status stamp addr)
        { met l with store := s.store.lease dev (l.guestView stamp) ⟨addr, 1, addr, .ver⟩ }) ∧
    (∀ l, s.named status = some l →
      told (.wound status stamp by_ addr kind) ((met l).woundedAway d l stamp by_ (keyOf .remote dev addr) kind) ∧
      told (.discard status stamp) ((met l).guestDiscard d l stamp) ∧
      told (.touch status stamp addr len) ((met l).guestTouch d dev l stamp ⟨addr, len⟩) ∧
      told (.hold status stamp addr len) ((met l).updLaunch l.lid fun l => { l with away := l.away.map fun a =>
        if a.stamp = stamp ∧ a.range = ⟨keyOf .remote dev addr, len⟩ then { a with held := true } else a }) ∧
      told (.release status stamp taint) ((met l).guestRelease d l stamp taint))) ∧
  (∀ link f s, mine link f 8 s → ∃ t, exec (.flitCredit link f) s = .next t ∧ t.store = s.store ∧ t.cores = s.cores ∧
    t.fabric.out.length + t.fabric.held.length + (if s.fabric.out.any (fun o => decide (o.link = link)) then 1 else 0) =
      s.fabric.out.length + s.fabric.held.length) ∧
  (∀ link f s, mine link f 9 s →
    let d := link / 2
    let e := leNat (f.data.take 8)
    let lvl := leNat ((f.data.drop 8).take 1)
    ((s.die d).fsid ≠ 0 → (s.die d).fsid ≠ f.sid → exec (.flitWalkContinuation link f) s =
      .next ((inn link s).answerWalk d f.srcdev.toNat f.addr.toNat e lvl 0xC5)) ∧
    ((s.die d).fsid = 0 ∨ (s.die d).fsid = f.sid → exec (.flitWalkContinuation link f) s =
      .next ((inn link s).continueWalk d f.srcdev.toNat f.sid.toNat f.addr.toNat e lvl))) ∧
  (∀ link f (s : State), link < 16 → (f.fk = 0 ∨ 9 < f.fk.toNat) → f.data.length = 32 → s.linkUp link = true →
    ∃ t, exec (.flitUnknown link f) s = .next t ∧ t.fabric.discarded = s.fabric.discarded + 1 ∧
      t.fabric.credits = s.fabric.credits ∧ t.store = s.store) ∧
  ∀ link (s : State), link < 16 → s.linkUp link = true →
    let n := (alGet s.fabric.crcFails link).getD 0 + 1
    (n < 16 → ∃ t, exec (.flitCrcFail link) s = .next t ∧ t.store = s.store ∧ t.cores = s.cores ∧
      alGet t.fabric.crcFails link = some n ∧ t.fabric.down = s.fabric.down) ∧
    (16 ≤ n → s.fabric.out = [] → s.fabric.held = [] →
      ∃ t, exec (.flitCrcFail link) s = .next t ∧ link ∈ t.fabric.down ∧ t.store = s.store)

/-- Submitted commands of a queue pair go out in order with their data, or complete locally, and completions come in.
A doorbell sets SQTAIL; the oldest submitted command of a queue pair that is on, its connection not paused, is sent if
it is one of those R395 names, with the bytes that its buffer holds for Connect and Write, and for Identify, Get Log
Page (free bytes, log 3) and Read the data that comes back is written into the buffer; any other opcode completes
locally and sends nothing; a denied buffer completes its command with a transfer error; a completion takes its command
from those sent and writes its entry, and is over all the same where the write is denied (log 163). The link responder
keeps alive, acknowledges each queue pair's packets in sequence with the pair's number, sends pauses (log 144) and
honours them. All this outside standby. (Entry layouts, opcodes, statuses: log 27; QID above 64: log 142.) (23_system
R395, 22_observation R377, 21_spaces R357) -/
def Obligations.StoragePort : Prop :=
  let next (s : State) (q : Nat) (k : NvmeKind) (e : List Byte) : Prop :=
    (s.qpair q).conn.toNat ∉ s.storage.paused ∧ (s.qpair q).isOn = true ∧ s.storage.pending.find? (fun p => decide (p.1 = q)) = some (q, e) ∧
      nvmeKind (decide ((s.qpair q).qid = 0)) e = k
  let gone (s t : State) (q : Nat) : Prop := ∃ i e, s.storage.pending[i]? = some (q, e) ∧
    (∀ j p, j < i → s.storage.pending[j]? = some p → p.1 ≠ q) ∧ t.storage.pending = s.storage.pending.eraseIdx i
  let plain (i : Nat → Instr) (k : NvmeKind) : Prop := ∀ q (s : State) e, q < 520 → s.stby = false → next s q k e →
    ∃ t, exec (i q) s = .next t ∧ gone s t q ∧ t.storage.sent = s.storage.sent ++ [(q, e, [])] ∧ t.store = s.store ∧
      t.cores = s.cores
  let out (i : Nat → Instr) (k : NvmeKind) : Prop := ∀ q (s : State) e p, q < 520 → s.stby = false → next s q k e →
    (s.popCmd q).portPieces q .r (sglOf e).1 (sglOf e).2 = .ok [p] → (∀ d r m, p.page ≠ .remote d r m) →
    (s.popCmd q).poisoned [p] = false →
    ∃ t, exec (i q) s = .next t ∧ gone s t q ∧
      t.storage.sent = s.storage.sent ++ [(q, e, cellsRead s.store.mem p.key p.n)] ∧ t.store.mem = s.store.mem
  let outBad (i : Nat → Instr) (k : NvmeKind) : Prop := ∀ q (s : State) e, q < 520 → s.stby = false → next s q k e →
    (s.popCmd q).portPieces q .r (sglOf e).1 (sglOf e).2 = .denied →
    exec (i q) s = .next (((s.popCmd q).dropAsked (storAgent q)).localComplete q e 4)
  let filled (s t : State) (p : Piece) (bs : List Byte) : Prop :=
    (∀ i, i < p.n → i < bs.length → cellGet t.store.mem (p.key + i) = bs.getD i 0) ∧
    ∀ a, (a < p.key ∨ p.key + bs.length ≤ a) → cellGet t.store.mem a = cellGet s.store.mem a
  let back (i : Nat → Instr) (k : NvmeKind) : Prop := ∀ q (s : State) e, q < 520 → s.stby = false → next s q k e →
    ∃ t, exec (i q) s = .next t ∧ ∀ ps bs,
      bs = fitTo ((List.range (sglOf e).2).map fun j => Config.freeByte (s.freeCount + j)) (sglOf e).2 →
      (((s.popCmd q).sendCmd q e []).freeBytes (sglOf e).2).1.portPieces q .w (sglOf e).1 bs.length = .ok ps →
      (((s.popCmd q).sendCmd q e []).freeBytes (sglOf e).2).1.pinSpan ps bs = none →
      t.storage.sent = s.storage.sent ++ [(q, e, [])] ∧ t.storage.pending = (s.popCmd q).storage.pending ∧
        t.freeCount = s.freeCount + (sglOf e).2 ∧ ∀ p, ps = [p] → (∀ d r m, p.page ≠ .remote d r m) → filled s t p bs
  let idle (i : Nat → Instr) (k : NvmeKind) : Prop := ∀ q (s : State), q < 520 →
    s.nextCmd q k = none ∨ s.stby = true → exec (i q) s = .next s
  (∀ (s : State) q k e, s.nextCmd q k = some e ↔ next s q k e) ∧
  plain .propertyGet .propGet ∧ plain .propertySet .propSet ∧ plain .keepAlive .keepAlive ∧ plain .nvmeFlush .flush ∧
  out .fabricsConnect .connect ∧ out .nvmeWrite .write ∧ outBad .fabricsConnect .connect ∧ outBad .nvmeWrite .write ∧ back .identify .identify ∧ back .getLogPage .getLog ∧
  idle .propertyGet .propGet ∧ idle .propertySet .propSet ∧ idle .keepAlive .keepAlive ∧ idle .nvmeFlush .flush ∧
  idle .fabricsConnect .connect ∧ idle .nvmeWrite .write ∧ idle .identify .identify ∧ idle .getLogPage .getLog ∧
  idle .invalidCommandOpcode .other ∧ (∀ data, idle (fun q => .nvmeRead q data) .read) ∧
  (∀ q (s : State) e data, q < 520 → s.stby = false → next s q .read e →
    exec (.nvmeRead q data) s = .next (((s.popCmd q).sendCmd q e []).moveIn q e data) ∧
    ∀ p, ((s.popCmd q).sendCmd q e []).portPieces q .w (sglOf e).1 (fitTo data (sglOf e).2).length = .ok [p] →
      ((s.popCmd q).sendCmd q e []).pinSpan [p] (fitTo data (sglOf e).2) = none → (∀ d r m, p.page ≠ .remote d r m) →
      ∃ t, exec (.nvmeRead q data) s = .next t ∧ t.storage.sent = s.storage.sent ++ [(q, e, [])] ∧
        filled s t p (fitTo data (sglOf e).2)) ∧
  (∀ q (s : State) e, q < 520 → s.stby = false → next s q .other e → exec (.invalidCommandOpcode q) s = .next ((s.popCmd q).cqWrite q
    (List.replicate 8 0 ++ leBytes 2 ((alGet s.storage.sqhead q).getD 0) ++ leBytes 2 (s.qpair q).qid.toNat ++
      leBytes 2 (cidOf e) ++ leBytes 2 2))) ∧
  (∀ x q tail (s : State), x.wf = true → q < 520 → ∃ t, exec (.storageSqDoorbell x q tail) s = .next t ∧
    ((s.qpair q).depth = 0 → (t.qpair q).sqtail = BitVec.ofNat 16 tail.toNat ∧ t.store = s.store ∧ t.cores = s.cores)) ∧
  (∀ q entry (s : State) i c, q < 520 → entry.length = 16 → s.stby = false → s.storage.sent[i]? = some c → c.1 = q →
    cidOf c.2.1 = leNat ((entry.drop 12).take 2) →
    (∀ j d, j < i → s.storage.sent[j]? = some d → ¬(d.1 = q ∧ cidOf d.2.1 = leNat ((entry.drop 12).take 2))) →
    let u : State := { s with storage := { s.storage with sent := s.storage.sent.eraseIdx i } }
    exec (.nvmeCompletion q entry) s = .next (u.cqWrite q entry)) ∧
  (∀ (s : State) q entry,
    let at_ := (alGet s.storage.cqtail q).getD 0
    let ps := s.portPieces q .w ((s.qpair q).cqbase.toNat + 16 * at_) entry.length
    (ps = .denied → s.cqWrite q entry = (s.dropAsked (storAgent q)).cqDone q) ∧
    (∀ p, ps = .ok [p] → s.pinSpan [p] entry = none → (∀ d r m, p.page ≠ .remote d r m) →
      ∃ t : State, s.cqWrite q entry = t.cselRelease q ∧ filled s t p entry ∧
        t.storage.cqtail = alPut s.storage.cqtail q ((at_ + 1) % ((s.qpair q).depth.toNat + 1)))) ∧
  (∀ q entry (s : State), q < 520 → entry.length = 16 →
    (∀ c ∈ s.storage.sent, ¬(c.1 = q ∧ cidOf c.2.1 = leNat ((entry.drop 12).take 2))) →
    exec (.nvmeCompletion q entry) s = .next s) ∧
  (∀ c (s : State), c < 8 →
    (c ∈ s.storage.paused → exec (.keepAliveTimer c) s = .next s) ∧
    (s.halted ≠ [] → s.stby = false → c ∉ s.storage.paused →
      (∃ q ∈ s.storage.qpairs, q.2.conn.toNat = c ∧ q.2.isOn = true) → ∃ t, exec (.keepAliveTimer c) s = .next t ∧
      t.storage.keepAlives = s.storage.keepAlives ++ [c] ∧ t.store = s.store ∧ t.cores = s.cores) ∧
    (s.halted = [] → exec (.keepAliveTimer c) s = .next s)) ∧
  (∀ q psn good (s : State), q < 521 → s.stby = false →
    let want := (alGet s.storage.expect q).getD psn
    let ok := good && decide (psn = want)
    ∃ t, exec (.rocePacket q psn good) s = .next t ∧ t.storage.acks = s.storage.acks ++ [(q, want, ok)] ∧
      t.store = s.store ∧ t.cores = s.cores ∧ alGet t.storage.expect q = some (if ok then psn + 1 else want) ∧
      t.storage.pauses = (if Config.bufferPassed s.freeCount then s.storage.pauses ++ [q] else s.storage.pauses)) ∧
  ∀ c p (s : State), c < 8 → s.stby = false → ∃ t, exec (.pfcPause c p) s = .next t ∧ (c ∈ t.storage.paused ↔ p = true) ∧ t.store = s.store ∧
    t.storage.sent = s.storage.sent

/-- Boot, updates, identity, security states and the answers of the management port. Once booted, every Redfish and
SPDM request gets one response, and none before but UpdateService (log 87); a firmware image goes to its slot, a bin
record only if it verifies; the identifier setting waits for the next reset; provision, revoke and debug unlock need
an object of their kind that verifies and names the device and a state that allows them (log 86), else they are
refused and counted; challenge and measurements need the provisioned state. A package reset keeps the flash (log 89),
boots the first image that verifies, with a good bin record, fills USABLE by the pseudo-channels present and releases
all contexts of the supervisors at 0 (log 88); else it serves updates only. (SPDM response codes: log 28. Bodies,
keys, verdicts, what firmware writes at boot, what marks an object's kind and the core rail within 300 to 450 mV are
free: logs 12, 13, 25, 140, 141.) (23_system R387, 23_system R388, 23_system R396, 23_system R402, 23_system R403,
23_system R404, 23_system R405, 23_system R406) -/
def Obligations.ManagementAndSecurity : Prop :=
  let say (s t : State) (r : MgmtResp → Prop) : Prop := ∃ m, r m ∧ t.mgmt.responses = s.mgmt.responses ++ [m] ∧
    t.store = s.store ∧ t.cores = s.cores ∧ t.launches = s.launches
  let red (n : Nat) (m : MgmtResp) : Prop := ∃ k, m = .redfish n k
  let spdm (c : Nat) (m : MgmtResp) : Prop := ∃ k, m = .spdm c k
  let ok (s : State) (k : Nat) (o : SignedObj) : Prop := Config.objKind o.body = k ∧
    Config.pssVerifies (o.names ++ o.body) o.sig = true ∧ o.names = if s.sec = .unprovisioned then Config.deviceKeyDigest else Config.certSerial
  let refused (i : Instr) (s : State) : Prop := ∃ t, exec i s = .next t ∧ say s t (red 400) ∧ t.sec = s.sec ∧ t.dbg = s.dbg ∧
    t.flash = s.flash ∧ t.mgmt.refusals = s.mgmt.refusals + 1
  let answers (i : Instr) (s : State) (r : MgmtResp → Prop) : Prop := ∃ t, exec i s = .next t ∧ say s t r ∧ t.sec = s.sec ∧
    t.dbg = s.dbg ∧ t.flash = s.flash
  (∀ (s : State) i, s.boot ≠ .done → i ∈ [Instr.getVersion, .getCapabilities, .negotiateAlgorithms, .getDigests,
      .getCertificate] → exec i s = .next s) ∧
  (∀ (s : State) o v c r n idx, s.boot ≠ .done → v < 64 → 1 ≤ idx → idx ≤ 3 →
    exec (.provision o) s = .next s ∧ exec (.revoke o) s = .next s ∧ exec (.debugUnlock o) s = .next s ∧
    exec (.deviceIdSetting v) s = .next s ∧ (r ≠ .updateService → exec (.redfishGet r) s = .next s) ∧ exec (.challenge n) s = .next s ∧
    exec (.getMeasurements idx n) s = .next s ∧ exec (.unsupportedRequest c) s = .next s) ∧
  (∀ s : State, s.boot = .updateOnly → answers (.redfishGet .updateService) s (red 200)) ∧
  (∀ (s : State) r c n, s.boot = .done → answers (.redfishGet r) s (red 200) ∧ answers .getVersion s (spdm 0x04) ∧
    answers .getCapabilities s (spdm 0x61) ∧ answers .negotiateAlgorithms s (spdm 0x63) ∧
    answers .getDigests s (spdm 0x01) ∧ answers .getCertificate s (spdm 0x02) ∧
    answers (.unsupportedRequest c) s (fun m => m = .spdmUnsupported) ∧
    (s.sec = .provisioned → answers (.challenge n) s (spdm 0x03)) ∧
    (s.sec ≠ .provisioned → answers (.challenge n) s (fun m => m = .spdmError))) ∧
  (∀ (s : State) idx n, s.boot = .done → 1 ≤ idx → idx ≤ 3 →
    (s.sec = .provisioned → answers (.getMeasurements idx n) s (fun m => ∃ k, m = .measurement idx (s.measure idx) k)) ∧
    (s.sec ≠ .provisioned → answers (.getMeasurements idx n) s (fun m => m = .spdmError))) ∧
  (∀ (s : State) i, (∃ t, exec (.updateService (.firmware 0 i)) s = .next t ∧ say s t (red 200) ∧
      t.flash = { s.flash with slot0 := some i }) ∧
    ∃ t, exec (.updateService (.firmware 1 i)) s = .next t ∧ say s t (red 200) ∧
      t.flash = { s.flash with slot1 := some i }) ∧
  (∀ (s : State) b, (binOk b = true → ∃ t, exec (.updateService (.bin b)) s = .next t ∧ say s t (red 200) ∧
      t.flash = { s.flash with bin := some b }) ∧ (binOk b = false → refused (.updateService (.bin b)) s)) ∧
  (∀ (s : State) v, s.boot = .done → v < 64 → ∃ t, exec (.deviceIdSetting v) s = .next t ∧ say s t (red 200) ∧
    t.flash = { s.flash with devid := BitVec.ofNat 6 v } ∧ t.devid = s.devid) ∧
  (∀ (s : State) o, s.boot = .done →
    (ok s 0 o → ∃ t, exec (.provision o) s = .next t ∧ say s t (red 200) ∧ t.sec = .provisioned ∧ t.flash.sealedKey.isSome = true) ∧
    (¬ok s 0 o → refused (.provision o) s) ∧
    (ok s 1 o → s.dbg = .locked → ∃ t, exec (.revoke o) s = .next t ∧ say s t (red 200) ∧ t.sec = .revoked ∧
      t.flash.sealedKey = none ∧ t.flash.revoked = true) ∧
    (¬ok s 1 o ∨ s.dbg ≠ .locked → refused (.revoke o) s) ∧
    (ok s 2 o → s.sec ≠ .revoked → ∃ t, exec (.debugUnlock o) s = .next t ∧ say s t (red 200) ∧ t.dbg = .full ∧ t.sec = s.sec) ∧
    (¬ok s 2 o ∨ s.sec = .revoked → refused (.debugUnlock o) s)) ∧
  (∀ (s : State) i b, s.flash.accepted = some i → s.flash.bin = some b → binOk b = true →
    ∃ t, exec .packageReset s = .next t ∧ t.boot = .done ∧ t.mgmt.fw = some i ∧ t.flash = s.flash ∧ t.devid = s.flash.devid.toNat ∧
      t.store = State.reset.store ∧ t.launches = [] ∧ t.dbg = .locked ∧ t.sec = s.flash.sec ∧
      (∀ d, d < 8 → let c := b.dies.getD d DieRegs.reset.cfg
        (t.die d).cfg = { c with usable := usableOf c.pch } ∧ 300 ≤ (t.die d).vcore.toNat ∧ (t.die d).vcore.toNat ≤ 450) ∧
      ∀ k c, k < 4 → 512 ≤ c → c < 528 → (t.ctx ⟨c, k⟩).status = .ready ∧ (t.ctx ⟨c, k⟩).pc = 0 ∧ (t.ctx ⟨c, k⟩).sid = 0) ∧
  (∀ (s : State), (s.flash.accepted = none ∨ ∀ b, s.flash.bin = some b → binOk b = false) →
    ∃ t, exec .packageReset s = .next t ∧ t.boot = .updateOnly ∧ ∀ x, (t.ctx x).status = .idle) ∧
  ∀ f : Flash, (∀ i, f.slot0 = some i → fwOk i = true → f.accepted = some i) ∧
    (∀ i, f.accepted = some i → fwOk i = true ∧ (f.slot0 = some i ∨ f.slot1 = some i))

/-- Errors are counted, charged and poison lines; partitions are assigned, reset, parked and woken; power steps move.
A corrected error is counted and changes nothing else, a double-bit error resets the partition it is charged to, an
uncorrectable line is poisoned, a scrub moves on (log 81); a partition reset puts its cores at reset, sets its PRESET
bit and clears its PARK bit (log 132); STEP moves by one, once in each 2^20th cycle, up at TWARN or above PLIMIT, down
below both by the margins, else held, or waits for the end of a halt (log 80); at TCRIT the die's partitions are reset
and standby entered; debug (values 2 and 3 are discarded, log 85), assignment and access registers take what may be
written; park, unpark, standby, gating, return, wake and the end of a reset, after which supervisor contexts are ready
at 0 (log 88), do what R400 and R409 say. (23_system R397, 23_system R399, 23_system R400, 23_system R401, 23_system
R404, 23_system R406, 23_system R407, 23_system R409) -/
def Obligations.ErrorsPartitionsAndPower : Prop :=
  let regsOnly (s t : State) : Prop := t.store = s.store ∧ t.cores = s.cores ∧ t.launches = s.launches
  let open_ (s : State) (x : CtxRef) : Prop := x.wf = true ∧ (s.core x.core).gated = false
  (∀ d (s : State), d < 8 → ∃ t, exec (.sramSingleBitError d) s = .next t ∧ regsOnly s t ∧
    (t.die d).cecnt.toNat = min (2 ^ 64 - 1) ((s.die d).cecnt.toNat + 1)) ∧
  (∀ d c (s : State), d < 8 → c < 529 → ∃ u : State, (u.die d).uecnt.toNat = min (2 ^ 64 - 1) ((s.die d).uecnt.toNat + 1) ∧
    regsOnly s u ∧ exec (.sramDoubleBitError d (.core c)) s = .next (u.resetOf c)) ∧
  (∀ d k (s : State), d < 8 → k < 32 → ∃ u : State, regsOnly s u ∧
    exec (.sramDoubleBitError d (.slice k)) s = .next (u.resetPartition (s.sliceOwner d k))) ∧
  (∀ d k off (s : State), d < 8 → k < 32 → ∃ u : State, regsOnly s u ∧
    exec (.sramDoubleBitError d (.sliceLine k off)) s =
      .next (u.resetPartition (s.pchOwner d (pchOf (s.die d).cfg.pch.toNat off)))) ∧
  (∀ st off (s : State), st < 8 → ∃ t, exec (.hbmUncorrectableError st off) s = .next t ∧
    lineOf (st * 2 ^ 36 + off) ∈ t.store.poison ∧ t.store.mem = s.store.mem ∧ t.cores = s.cores) ∧
  (∀ (s : State), ∃ t, exec .scrubRead s = .next t ∧ regsOnly s t ∧
    (s.stby = false → t.scrub = if s.scrub + 1 < 3355440 then s.scrub + 1 else (s.scrub + 1) % 3355440)) ∧
  (∀ d temp power (s : State), d < 8 → temp.toNat < (s.die d).tcrit.toNat →
    ∃ t, exec (.throttleStepUpdate d temp power) s = .next t ∧ regsOnly s t ∧ (t.die d).temp = temp ∧ t.power = power ∧
    let due := s.timebase.toNat % 2 ^ 20 = 0 ∧ d ∉ s.stepped
    let old := ((s.die d).stepDue.getD (s.die d).step).toNat
    let plimit := (s.die 0).plimit.toNat
    let new := if (s.die d).twarn.toNat ≤ temp.toNat ∨ plimit < power then min 7 (old + 1)
      else if temp.toNat + (s.die d).thys.toNat ≤ (s.die d).twarn.toNat ∧ 16 * power ≤ 15 * plimit then old - 1 else old
    (¬due → (t.die d).step = (s.die d).step ∧ (t.die d).stepDue = (s.die d).stepDue) ∧
    (due → s.halted ≠ [] → (t.die d).step = (s.die d).step ∧ (t.die d).stepDue = some (BitVec.ofNat 3 new)) ∧
    (due → s.halted = [] → (t.die d).step.toNat = new)) ∧
  (∀ d temp power (s : State), d < 8 → (s.die d).tcrit.toNat ≤ temp.toNat →
    ∃ t, exec (.throttleStepUpdate d temp power) s = .next t ∧ t.stby = true ∧ t.park = 0xFF ∧ ∀ p ∈ s.dieParts d, p ∈ t.resetting) ∧
  (∀ p (s : State), p < 8 →
    let t := s.resetPartition p
    p ∈ t.resetting ∧ t.host.preset.getLsbD p = true ∧ t.park.getLsbD p = false ∧
      (∀ q, q < 8 → q ≠ p → t.park.getLsbD q = s.park.getLsbD q) ∧
      ∀ n c, (n, c) ∈ t.cores → s.partOf n = some p → c = Core.resetAt n) ∧
  (∀ d temp (s : State), d < 8 →
    (temp.toNat < (s.die d).tcrit.toNat → ∃ t, exec (.thermalCritical d temp) s = .next t ∧ regsOnly s t ∧ (t.die d).temp = temp) ∧
    ((s.die d).tcrit.toNat ≤ temp.toNat → exec (.thermalCritical d temp) s = .next { (s.dieParts d).foldl State.resetPartition
      (s.updDie d fun r => { r with temp := temp }) with stby := true, park := 0xFF })) ∧
  (∀ x d v (s : State), x.wf = true → d < 8 → s.sec ≠ .revoked → s.halted = [] →
    (v.toNat / 2 ^ 59 % 4 = 1 → exec (.dbgWrite x d v) s = .next { s with dbg := .user }) ∧
    (v.toNat / 2 ^ 59 % 4 = 0 → exec (.dbgWrite x d v) s = .next { s with dbg := .locked }) ∧
    (2 ≤ v.toNat / 2 ^ 59 % 4 → exec (.dbgWrite x d v) s = .next s)) ∧
  (∀ x d v (s : State), x.wf = true → d < 8 → s.anyLaunch = false → ∃ t, exec (.partitionAssignWrite x d 0x18 v) s = .next t ∧
    regsOnly s t ∧ (t.die d).supp = BitVec.ofNat 6 v.toNat ∧ (t.die d).corep = (s.die d).corep) ∧
  (∀ x d v (s : State) p q, x.wf = true → d < 8 → (p, q) ∈ movedFields (s.die d).supp.toNat (v.toNat % 64) 2 →
    s.launchOn p = true ∨ s.launchOn q = true → ∃ t, exec (.partitionAssignWrite x d 0x18 v) s = .next t ∧ regsOnly s t ∧
      (t.die d).supp = (s.die d).supp ∧ (t.die d).perr = true) ∧
  (∀ k d off v (s : State), k < 4 → d < 8 → off % 8 = 0 → off < 0xE0 → ∃ t,
    exec (.accessTableWrite ⟨528, k⟩ d off v) s = .next t ∧ regsOnly s t ∧
      (t.die d).access.toList.getD (off / 4) 0 = BitVec.ofNat 32 v.toNat ∧
      (t.die d).access.toList.getD (off / 4 + 1) 0 = BitVec.ofNat 32 (v.toNat / 2 ^ 32)) ∧
  (∀ x d off v (s : State), x.wf = true → d < 8 → x.core ≠ 528 → exec (.accessTableWrite x d off v) s = .next s) ∧
  (∀ x p (s : State), open_ s x → p < 8 →
    (s.launchOn p = false → ∃ t, exec (.partitionPark x p) s = .next t ∧ regsOnly s t ∧ t.park.getLsbD p = true ∧
      ∀ q, q < 8 → q ≠ p → t.park.getLsbD q = s.park.getLsbD q) ∧
    (s.launchOn p = true → exec (.partitionPark x p) s = .next s) ∧
    ∃ t, exec (.partitionUnpark x p) s = .next t ∧ regsOnly s t ∧ t.park.getLsbD p = false ∧
      ∀ q, q < 8 → q ≠ p → t.park.getLsbD q = s.park.getLsbD q) ∧
  (∀ x (s : State), open_ s x →
    (s.anyLaunch = false → exec (.standbyEnter x) s = .next { s with stby := true, park := 0xFF }) ∧
    (s.anyLaunch = true → exec (.standbyEnter x) s = .next s) ∧
    exec (.standbyExit x) s = .next { s with stby := false, park := 0 }) ∧
  (∀ x p (s : State), x.wf = true → p < 8 → (s.core x.core).gated = true → exec (.partitionPark x p) s = .next s ∧
    exec (.partitionUnpark x p) s = .next s ∧ exec (.standbyEnter x) s = .next s ∧ exec (.standbyExit x) s = .next s) ∧
  (∀ n (s : State) p, n < 529 → s.partOf n = some p → s.park.getLsbD p = true → (s.core n).gated = false →
    (s.core n).freeze = none → ∃ t, exec (.parkGate n) s = .next t ∧ (t.core n).gated = true ∧ t.store = s.store ∧
      ∀ k, k < 4 → (t.ctx ⟨n, k⟩).status ≠ .ready) ∧
  (∀ n (s : State) p, n < 529 → s.partOf n = some p → s.park.getLsbD p = false → exec (.parkGate n) s = .next s) ∧
  (∀ (s : State), ∃ t, exec .returnToActive s = .next t ∧ t.store = s.store ∧ t.regs = s.regs ∧
    ∀ n p, s.partOf n = some p → p < 8 → s.park.getLsbD p = false → n ∈ s.cores.map Prod.fst → (t.core n).gated = false) ∧
  (∀ p (s : State), p < 8 → s.boot ≠ .done → exec (.managementRequestWake p) s = .next s) ∧
  (∀ p (s : State), p < 8 → s.boot = .done → ∃ t, exec (.managementRequestWake p) s = .next t ∧ regsOnly s t ∧ t.park.getLsbD p = false ∧
    ∀ q, q < 8 → q ≠ p → t.park.getLsbD q = s.park.getLsbD q) ∧
  ∀ p (s : State), p < 8 →
    (p ∈ s.resetting → ∃ t, exec (.partitionResetComplete p) s = .next t ∧ p ∉ t.resetting ∧
      t.host.preset.getLsbD p = true ∧ t.store = s.store ∧
      (s.boot = .done → ∀ c k, 512 ≤ c → c < 528 → k < 4 → s.partOf c = some p →
        (t.ctx ⟨c, k⟩).status = .ready ∧ (t.ctx ⟨c, k⟩).pc = 0) ∧ (s.boot ≠ .done → t.cores = s.cores)) ∧
    (p ∉ s.resetting → exec (.partitionResetComplete p) s = .next s)

/-- A non-zero exact number is rounded to FP32, FP16 or BF16 as its mode says, to the nearest or bounding value, and
to infinity as R132 says. For every magnitude x = m * 2^e, sign and mode: the result has that sign; rounding toward
zero gives the largest finite value not above x; rounding away gives the least value, or infinity, not below x; RNE
gives infinity exactly from half-way between F and 2^(emax+1) on, else a nearest finite value, the even one of two; NX
is raised exactly if the result is not x; OF exactly if x lies beyond F before (toward zero) or the result is
infinity. (06_numbers R123, 06_numbers R131, 06_numbers R132, 06_numbers R134, 12_vector R252) -/
def Obligations.RoundingIsCorrect : Prop :=
  let val (f : Num.Fmt) (b : Nat) : ℚ := ((Num.ofBits f b).dy.m : ℚ) * 2 ^ (Num.ofBits f b).dy.e
  ∀ f : Num.Fmt, f ∈ [Num.fp32, Num.fp16, Num.bf16] → ∀ (m : Nat) (e : Int), m ≠ 0 →
    let x : ℚ := (m : ℚ) * 2 ^ e
    let mag (md : Num.Mode) (neg : Bool) : Nat := (Num.roundFin f md neg m e).1 % f.signBit
    let flag (md : Num.Mode) (neg : Bool) (i : Nat) : Bool := (Num.roundFin f md neg m e).2.getLsbD i
    let down (md : Num.Mode) (neg : Bool) : Prop := md = .rtz ∨ md = .rup ∧ neg = true ∨ md = .rdn ∧ neg = false
    let up (md : Num.Mode) (neg : Bool) : Prop := md = .rup ∧ neg = false ∨ md = .rdn ∧ neg = true
    (∀ md neg, (Num.roundFin f md neg m e).1 / f.signBit = if neg then 1 else 0) ∧
    (∀ md neg, down md neg → mag md neg < f.infBits ∧ (∀ b, b < f.infBits → (val f b ≤ x ↔ b ≤ mag md neg)) ∧
      (flag md neg 2 = true ↔ (2 : ℚ) ^ ((f.bias : Int) + 1) ≤ x)) ∧
    (∀ md neg, up md neg → mag md neg ≤ f.infBits ∧ (∀ b, b < f.infBits → (x ≤ val f b ↔ mag md neg ≤ b)) ∧
      (flag md neg 2 = true ↔ mag md neg = f.infBits)) ∧
    (∀ neg, mag .rne neg ≤ f.infBits ∧
      (mag .rne neg = f.infBits ↔ (2 : ℚ) ^ ((f.bias : Int) + 1) - 2 ^ ((f.bias : Int) - f.mbits - 1) ≤ x) ∧
      (flag .rne neg 2 = true ↔ mag .rne neg = f.infBits) ∧
      (mag .rne neg < f.infBits → ∀ b, b < f.infBits → |x - val f (mag .rne neg)| ≤ |x - val f b| ∧
        (b ≠ mag .rne neg → |x - val f (mag .rne neg)| = |x - val f b| → mag .rne neg % 2 = 0))) ∧
    ∀ md neg, flag md neg 4 = true ↔ (mag md neg = f.infBits ∨ val f (mag md neg) ≠ x)

/-- The machine after reset is sound and holds the reset values of the spec's register tables. After reset the memory
is canonical and lists nothing (the model's choice, log 4); TIMEBASE is 0; DTHR is all ones and every other
observation register 0; each die's translation, clearing, port and partition registers are 0, its access entries
0x00C00000, TWARN 95, TCRIT 115, THYS 5, PLIMIT 2400, VCORE 350; the window registers read WMAGIC 0xC7A4, WSTEP 0xA1
and else 0; debug is locked, nothing parked, not in standby; the boot ROM has still to run and every context is idle
(log 88). (04_memory R83, 18_clearing R321, 21_spaces R356, 22_observation R370, 22_observation R381, 23_system R389,
23_system R393, 23_system R397, 23_system R399, 23_system R402, 23_system R404, 23_system R407) -/
def Obligations.ResetState : Prop :=
  State.reset.sound ∧ State.reset.store.mem = [] ∧ State.reset.timebase = 0 ∧
  State.reset.obs.dthr = 0xFFFFFFFF ∧ State.reset.obs.kmask = 0 ∧ State.reset.obs.tqns = 0 ∧ State.reset.obs.tqlen = 0 ∧
  State.reset.obs.tqlba = 0 ∧ State.reset.obs.seq = 0 ∧ State.reset.obs.sent = 0 ∧
  (∀ d, d < 8 →
    let r := State.reset.die d
    r.sptbase = 0 ∧ r.migidx = 0 ∧ r.podmask = 0 ∧ r.tfrec = 0 ∧ r.faultq = [] ∧ r.tlbase = 0 ∧ r.tlord = 0 ∧ r.tlhead = 0 ∧
    r.tltail = 0 ∧ r.tllost = 0 ∧ r.wounds = 0 ∧ r.route = 0 ∧ r.valid = 0 ∧ r.fsid = 0 ∧ r.stsid = 0 ∧ r.wbase = 0 ∧
    (∀ k, k < 57 → r.access.toList.getD k 0 = 0x00C00000) ∧ r.corep = 0 ∧ r.supp = 0 ∧ r.slicep = 0 ∧ r.pchp = 0 ∧
    r.perr = false ∧ r.cecnt = 0 ∧ r.uecnt = 0 ∧ r.step = 0 ∧ r.twarn = 95 ∧ r.tcrit = 115 ∧ r.thys = 5 ∧ r.plimit = 2400 ∧
    r.vcore = 350) ∧
  State.reset.host.h2dtail = 0 ∧ State.reset.host.h2dhead = 0 ∧ State.reset.host.d2htail = 0 ∧ State.reset.host.d2hhead = 0 ∧
  State.reset.host.svhalt = 0 ∧ State.reset.host.preset = 0 ∧ State.reset.host.ready = false ∧
  State.reset.regRead ⟨0, 5, 0⟩ = 0xA1C7A4 ∧ (∀ i, 0 < i → i < 6 → State.reset.regRead ⟨0, 5, 8 * i⟩ = 0) ∧
  State.reset.dbg = .locked ∧ State.reset.park = 0 ∧ State.reset.stby = false ∧ State.reset.boot = .pending ∧
  ∀ x, (State.reset.ctx x).status = .idle

/-- Whatever a step does, memory keeps its canonical form. From every state whose memory is in canonical form
(addresses strictly rising, no entry equal to what an unlisted address reads as; the form is the model's, log 4),
every step that answers a next state, whichever move or event it runs, leaves memory in canonical form. (03_bundles
R59, 04_memory R83, 04_memory R94, 18_clearing R315) -/
def Obligations.StepKeepsMemoryCanonical : Prop :=
  ∀ s t : State, s.sound → step s = .next t → t.sound
end

