-- ==== Sys2Proof/Laws/State.lean ====
section
/-!
SUPPORT. One lemma per field per update of the state, of a core and of a context, each true by unfolding, so that no proof
unfolds a record update.
-/

namespace Sys2Proof.Machine

/-! ### `setCore` -/

@[simp] theorem State.setCore_timebase (s : State) (n : Nat) (c : Core) : (s.setCore n c).timebase = s.timebase := rfl
@[simp] theorem State.setCore_agenda (s : State) (n : Nat) (c : Core) : (s.setCore n c).agenda = s.agenda := rfl
@[simp] theorem State.setCore_turn (s : State) (n : Nat) (c : Core) : (s.setCore n c).turn = s.turn := rfl
@[simp] theorem State.setCore_cur (s : State) (n : Nat) (c : Core) : (s.setCore n c).cur = s.cur := rfl
@[simp] theorem State.setCore_issue (s : State) (n : Nat) (c : Core) : (s.setCore n c).issue = s.issue := rfl
@[simp] theorem State.setCore_last (s : State) (n : Nat) (c : Core) : (s.setCore n c).last = s.last := rfl
@[simp] theorem State.setCore_lateness (s : State) (n : Nat) (c : Core) : (s.setCore n c).lateness = s.lateness := rfl
@[simp] theorem State.setCore_freeCount (s : State) (n : Nat) (c : Core) : (s.setCore n c).freeCount = s.freeCount := rfl
@[simp] theorem State.setCore_store (s : State) (n : Nat) (c : Core) : (s.setCore n c).store = s.store := rfl
@[simp] theorem State.setCore_counters (s : State) (n : Nat) (c : Core) : (s.setCore n c).counters = s.counters := rfl
@[simp] theorem State.setCore_ctrOld (s : State) (n : Nat) (c : Core) : (s.setCore n c).ctrOld = s.ctrOld := rfl
@[simp] theorem State.setCore_clearedNow (s : State) (n : Nat) (c : Core) : (s.setCore n c).clearedNow = s.clearedNow := rfl
@[simp] theorem State.setCore_engTraps (s : State) (n : Nat) (c : Core) : (s.setCore n c).engTraps = s.engTraps := rfl
@[simp] theorem State.setCore_launches (s : State) (n : Nat) (c : Core) : (s.setCore n c).launches = s.launches := rfl
@[simp] theorem State.setCore_nextLid (s : State) (n : Nat) (c : Core) : (s.setCore n c).nextLid = s.nextLid := rfl
@[simp] theorem State.setCore_tickets (s : State) (n : Nat) (c : Core) : (s.setCore n c).tickets = s.tickets := rfl
@[simp] theorem State.setCore_reserved (s : State) (n : Nat) (c : Core) : (s.setCore n c).reserved = s.reserved := rfl
@[simp] theorem State.setCore_took (s : State) (n : Nat) (c : Core) : (s.setCore n c).took = s.took := rfl
@[simp] theorem State.setCore_chose (s : State) (n : Nat) (c : Core) : (s.setCore n c).chose = s.chose := rfl
@[simp] theorem State.setCore_stepped (s : State) (n : Nat) (c : Core) : (s.setCore n c).stepped = s.stepped := rfl
@[simp] theorem State.setCore_regs (s : State) (n : Nat) (c : Core) : (s.setCore n c).regs = s.regs := rfl
@[simp] theorem State.setCore_obs (s : State) (n : Nat) (c : Core) : (s.setCore n c).obs = s.obs := rfl
@[simp] theorem State.setCore_halted (s : State) (n : Nat) (c : Core) : (s.setCore n c).halted = s.halted := rfl
@[simp] theorem State.setCore_haltDue (s : State) (n : Nat) (c : Core) : (s.setCore n c).haltDue = s.haltDue := rfl
@[simp] theorem State.setCore_host (s : State) (n : Nat) (c : Core) : (s.setCore n c).host = s.host := rfl
@[simp] theorem State.setCore_fabric (s : State) (n : Nat) (c : Core) : (s.setCore n c).fabric = s.fabric := rfl
@[simp] theorem State.setCore_storage (s : State) (n : Nat) (c : Core) : (s.setCore n c).storage = s.storage := rfl
@[simp] theorem State.setCore_flash (s : State) (n : Nat) (c : Core) : (s.setCore n c).flash = s.flash := rfl
@[simp] theorem State.setCore_mgmt (s : State) (n : Nat) (c : Core) : (s.setCore n c).mgmt = s.mgmt := rfl
@[simp] theorem State.setCore_boot (s : State) (n : Nat) (c : Core) : (s.setCore n c).boot = s.boot := rfl
@[simp] theorem State.setCore_sec (s : State) (n : Nat) (c : Core) : (s.setCore n c).sec = s.sec := rfl
@[simp] theorem State.setCore_dbg (s : State) (n : Nat) (c : Core) : (s.setCore n c).dbg = s.dbg := rfl
@[simp] theorem State.setCore_park (s : State) (n : Nat) (c : Core) : (s.setCore n c).park = s.park := rfl
@[simp] theorem State.setCore_stby (s : State) (n : Nat) (c : Core) : (s.setCore n c).stby = s.stby := rfl
@[simp] theorem State.setCore_resetting (s : State) (n : Nat) (c : Core) : (s.setCore n c).resetting = s.resetting := rfl
@[simp] theorem State.setCore_resetDue (s : State) (n : Nat) (c : Core) : (s.setCore n c).resetDue = s.resetDue := rfl
@[simp] theorem State.setCore_pins (s : State) (n : Nat) (c : Core) : (s.setCore n c).pins = s.pins := rfl
@[simp] theorem State.setCore_ptmcs (s : State) (n : Nat) (c : Core) : (s.setCore n c).ptmcs = s.ptmcs := rfl
@[simp] theorem State.setCore_nextPtmc (s : State) (n : Nat) (c : Core) : (s.setCore n c).nextPtmc = s.nextPtmc := rfl
@[simp] theorem State.setCore_walks (s : State) (n : Nat) (c : Core) : (s.setCore n c).walks = s.walks := rfl
@[simp] theorem State.setCore_nextWalk (s : State) (n : Nat) (c : Core) : (s.setCore n c).nextWalk = s.nextWalk := rfl
@[simp] theorem State.setCore_tinv (s : State) (n : Nat) (c : Core) : (s.setCore n c).tinv = s.tinv := rfl
@[simp] theorem State.setCore_scrub (s : State) (n : Nat) (c : Core) : (s.setCore n c).scrub = s.scrub := rfl
@[simp] theorem State.setCore_power (s : State) (n : Nat) (c : Core) : (s.setCore n c).power = s.power := rfl

/-! ### `updCore` -/

@[simp] theorem State.updCore_timebase (s : State) (n : Nat) (f : Core → Core) : (s.updCore n f).timebase = s.timebase := rfl
@[simp] theorem State.updCore_agenda (s : State) (n : Nat) (f : Core → Core) : (s.updCore n f).agenda = s.agenda := rfl
@[simp] theorem State.updCore_turn (s : State) (n : Nat) (f : Core → Core) : (s.updCore n f).turn = s.turn := rfl
@[simp] theorem State.updCore_cur (s : State) (n : Nat) (f : Core → Core) : (s.updCore n f).cur = s.cur := rfl
@[simp] theorem State.updCore_issue (s : State) (n : Nat) (f : Core → Core) : (s.updCore n f).issue = s.issue := rfl
@[simp] theorem State.updCore_last (s : State) (n : Nat) (f : Core → Core) : (s.updCore n f).last = s.last := rfl
@[simp] theorem State.updCore_lateness (s : State) (n : Nat) (f : Core → Core) : (s.updCore n f).lateness = s.lateness := rfl
@[simp] theorem State.updCore_freeCount (s : State) (n : Nat) (f : Core → Core) : (s.updCore n f).freeCount = s.freeCount := rfl
@[simp] theorem State.updCore_store (s : State) (n : Nat) (f : Core → Core) : (s.updCore n f).store = s.store := rfl
@[simp] theorem State.updCore_counters (s : State) (n : Nat) (f : Core → Core) : (s.updCore n f).counters = s.counters := rfl
@[simp] theorem State.updCore_ctrOld (s : State) (n : Nat) (f : Core → Core) : (s.updCore n f).ctrOld = s.ctrOld := rfl
@[simp] theorem State.updCore_clearedNow (s : State) (n : Nat) (f : Core → Core) : (s.updCore n f).clearedNow = s.clearedNow := rfl
@[simp] theorem State.updCore_engTraps (s : State) (n : Nat) (f : Core → Core) : (s.updCore n f).engTraps = s.engTraps := rfl
@[simp] theorem State.updCore_launches (s : State) (n : Nat) (f : Core → Core) : (s.updCore n f).launches = s.launches := rfl
@[simp] theorem State.updCore_nextLid (s : State) (n : Nat) (f : Core → Core) : (s.updCore n f).nextLid = s.nextLid := rfl
@[simp] theorem State.updCore_tickets (s : State) (n : Nat) (f : Core → Core) : (s.updCore n f).tickets = s.tickets := rfl
@[simp] theorem State.updCore_reserved (s : State) (n : Nat) (f : Core → Core) : (s.updCore n f).reserved = s.reserved := rfl
@[simp] theorem State.updCore_took (s : State) (n : Nat) (f : Core → Core) : (s.updCore n f).took = s.took := rfl
@[simp] theorem State.updCore_chose (s : State) (n : Nat) (f : Core → Core) : (s.updCore n f).chose = s.chose := rfl
@[simp] theorem State.updCore_stepped (s : State) (n : Nat) (f : Core → Core) : (s.updCore n f).stepped = s.stepped := rfl
@[simp] theorem State.updCore_regs (s : State) (n : Nat) (f : Core → Core) : (s.updCore n f).regs = s.regs := rfl
@[simp] theorem State.updCore_obs (s : State) (n : Nat) (f : Core → Core) : (s.updCore n f).obs = s.obs := rfl
@[simp] theorem State.updCore_halted (s : State) (n : Nat) (f : Core → Core) : (s.updCore n f).halted = s.halted := rfl
@[simp] theorem State.updCore_haltDue (s : State) (n : Nat) (f : Core → Core) : (s.updCore n f).haltDue = s.haltDue := rfl
@[simp] theorem State.updCore_host (s : State) (n : Nat) (f : Core → Core) : (s.updCore n f).host = s.host := rfl
@[simp] theorem State.updCore_fabric (s : State) (n : Nat) (f : Core → Core) : (s.updCore n f).fabric = s.fabric := rfl
@[simp] theorem State.updCore_storage (s : State) (n : Nat) (f : Core → Core) : (s.updCore n f).storage = s.storage := rfl
@[simp] theorem State.updCore_flash (s : State) (n : Nat) (f : Core → Core) : (s.updCore n f).flash = s.flash := rfl
@[simp] theorem State.updCore_mgmt (s : State) (n : Nat) (f : Core → Core) : (s.updCore n f).mgmt = s.mgmt := rfl
@[simp] theorem State.updCore_boot (s : State) (n : Nat) (f : Core → Core) : (s.updCore n f).boot = s.boot := rfl
@[simp] theorem State.updCore_sec (s : State) (n : Nat) (f : Core → Core) : (s.updCore n f).sec = s.sec := rfl
@[simp] theorem State.updCore_dbg (s : State) (n : Nat) (f : Core → Core) : (s.updCore n f).dbg = s.dbg := rfl
@[simp] theorem State.updCore_park (s : State) (n : Nat) (f : Core → Core) : (s.updCore n f).park = s.park := rfl
@[simp] theorem State.updCore_stby (s : State) (n : Nat) (f : Core → Core) : (s.updCore n f).stby = s.stby := rfl
@[simp] theorem State.updCore_resetting (s : State) (n : Nat) (f : Core → Core) : (s.updCore n f).resetting = s.resetting := rfl
@[simp] theorem State.updCore_resetDue (s : State) (n : Nat) (f : Core → Core) : (s.updCore n f).resetDue = s.resetDue := rfl
@[simp] theorem State.updCore_pins (s : State) (n : Nat) (f : Core → Core) : (s.updCore n f).pins = s.pins := rfl
@[simp] theorem State.updCore_ptmcs (s : State) (n : Nat) (f : Core → Core) : (s.updCore n f).ptmcs = s.ptmcs := rfl
@[simp] theorem State.updCore_nextPtmc (s : State) (n : Nat) (f : Core → Core) : (s.updCore n f).nextPtmc = s.nextPtmc := rfl
@[simp] theorem State.updCore_walks (s : State) (n : Nat) (f : Core → Core) : (s.updCore n f).walks = s.walks := rfl
@[simp] theorem State.updCore_nextWalk (s : State) (n : Nat) (f : Core → Core) : (s.updCore n f).nextWalk = s.nextWalk := rfl
@[simp] theorem State.updCore_tinv (s : State) (n : Nat) (f : Core → Core) : (s.updCore n f).tinv = s.tinv := rfl
@[simp] theorem State.updCore_scrub (s : State) (n : Nat) (f : Core → Core) : (s.updCore n f).scrub = s.scrub := rfl
@[simp] theorem State.updCore_power (s : State) (n : Nat) (f : Core → Core) : (s.updCore n f).power = s.power := rfl

/-! ### `setCtx` -/

@[simp] theorem State.setCtx_timebase (s : State) (x : CtxRef) (c : Ctx) : (s.setCtx x c).timebase = s.timebase := rfl
@[simp] theorem State.setCtx_agenda (s : State) (x : CtxRef) (c : Ctx) : (s.setCtx x c).agenda = s.agenda := rfl
@[simp] theorem State.setCtx_turn (s : State) (x : CtxRef) (c : Ctx) : (s.setCtx x c).turn = s.turn := rfl
@[simp] theorem State.setCtx_cur (s : State) (x : CtxRef) (c : Ctx) : (s.setCtx x c).cur = s.cur := rfl
@[simp] theorem State.setCtx_issue (s : State) (x : CtxRef) (c : Ctx) : (s.setCtx x c).issue = s.issue := rfl
@[simp] theorem State.setCtx_last (s : State) (x : CtxRef) (c : Ctx) : (s.setCtx x c).last = s.last := rfl
@[simp] theorem State.setCtx_lateness (s : State) (x : CtxRef) (c : Ctx) : (s.setCtx x c).lateness = s.lateness := rfl
@[simp] theorem State.setCtx_freeCount (s : State) (x : CtxRef) (c : Ctx) : (s.setCtx x c).freeCount = s.freeCount := rfl
@[simp] theorem State.setCtx_store (s : State) (x : CtxRef) (c : Ctx) : (s.setCtx x c).store = s.store := rfl
@[simp] theorem State.setCtx_counters (s : State) (x : CtxRef) (c : Ctx) : (s.setCtx x c).counters = s.counters := rfl
@[simp] theorem State.setCtx_ctrOld (s : State) (x : CtxRef) (c : Ctx) : (s.setCtx x c).ctrOld = s.ctrOld := rfl
@[simp] theorem State.setCtx_clearedNow (s : State) (x : CtxRef) (c : Ctx) : (s.setCtx x c).clearedNow = s.clearedNow := rfl
@[simp] theorem State.setCtx_engTraps (s : State) (x : CtxRef) (c : Ctx) : (s.setCtx x c).engTraps = s.engTraps := rfl
@[simp] theorem State.setCtx_launches (s : State) (x : CtxRef) (c : Ctx) : (s.setCtx x c).launches = s.launches := rfl
@[simp] theorem State.setCtx_nextLid (s : State) (x : CtxRef) (c : Ctx) : (s.setCtx x c).nextLid = s.nextLid := rfl
@[simp] theorem State.setCtx_tickets (s : State) (x : CtxRef) (c : Ctx) : (s.setCtx x c).tickets = s.tickets := rfl
@[simp] theorem State.setCtx_reserved (s : State) (x : CtxRef) (c : Ctx) : (s.setCtx x c).reserved = s.reserved := rfl
@[simp] theorem State.setCtx_took (s : State) (x : CtxRef) (c : Ctx) : (s.setCtx x c).took = s.took := rfl
@[simp] theorem State.setCtx_chose (s : State) (x : CtxRef) (c : Ctx) : (s.setCtx x c).chose = s.chose := rfl
@[simp] theorem State.setCtx_stepped (s : State) (x : CtxRef) (c : Ctx) : (s.setCtx x c).stepped = s.stepped := rfl
@[simp] theorem State.setCtx_regs (s : State) (x : CtxRef) (c : Ctx) : (s.setCtx x c).regs = s.regs := rfl
@[simp] theorem State.setCtx_obs (s : State) (x : CtxRef) (c : Ctx) : (s.setCtx x c).obs = s.obs := rfl
@[simp] theorem State.setCtx_halted (s : State) (x : CtxRef) (c : Ctx) : (s.setCtx x c).halted = s.halted := rfl
@[simp] theorem State.setCtx_haltDue (s : State) (x : CtxRef) (c : Ctx) : (s.setCtx x c).haltDue = s.haltDue := rfl
@[simp] theorem State.setCtx_host (s : State) (x : CtxRef) (c : Ctx) : (s.setCtx x c).host = s.host := rfl
@[simp] theorem State.setCtx_fabric (s : State) (x : CtxRef) (c : Ctx) : (s.setCtx x c).fabric = s.fabric := rfl
@[simp] theorem State.setCtx_storage (s : State) (x : CtxRef) (c : Ctx) : (s.setCtx x c).storage = s.storage := rfl
@[simp] theorem State.setCtx_flash (s : State) (x : CtxRef) (c : Ctx) : (s.setCtx x c).flash = s.flash := rfl
@[simp] theorem State.setCtx_mgmt (s : State) (x : CtxRef) (c : Ctx) : (s.setCtx x c).mgmt = s.mgmt := rfl
@[simp] theorem State.setCtx_boot (s : State) (x : CtxRef) (c : Ctx) : (s.setCtx x c).boot = s.boot := rfl
@[simp] theorem State.setCtx_sec (s : State) (x : CtxRef) (c : Ctx) : (s.setCtx x c).sec = s.sec := rfl
@[simp] theorem State.setCtx_dbg (s : State) (x : CtxRef) (c : Ctx) : (s.setCtx x c).dbg = s.dbg := rfl
@[simp] theorem State.setCtx_park (s : State) (x : CtxRef) (c : Ctx) : (s.setCtx x c).park = s.park := rfl
@[simp] theorem State.setCtx_stby (s : State) (x : CtxRef) (c : Ctx) : (s.setCtx x c).stby = s.stby := rfl
@[simp] theorem State.setCtx_resetting (s : State) (x : CtxRef) (c : Ctx) : (s.setCtx x c).resetting = s.resetting := rfl
@[simp] theorem State.setCtx_resetDue (s : State) (x : CtxRef) (c : Ctx) : (s.setCtx x c).resetDue = s.resetDue := rfl
@[simp] theorem State.setCtx_pins (s : State) (x : CtxRef) (c : Ctx) : (s.setCtx x c).pins = s.pins := rfl
@[simp] theorem State.setCtx_ptmcs (s : State) (x : CtxRef) (c : Ctx) : (s.setCtx x c).ptmcs = s.ptmcs := rfl
@[simp] theorem State.setCtx_nextPtmc (s : State) (x : CtxRef) (c : Ctx) : (s.setCtx x c).nextPtmc = s.nextPtmc := rfl
@[simp] theorem State.setCtx_walks (s : State) (x : CtxRef) (c : Ctx) : (s.setCtx x c).walks = s.walks := rfl
@[simp] theorem State.setCtx_nextWalk (s : State) (x : CtxRef) (c : Ctx) : (s.setCtx x c).nextWalk = s.nextWalk := rfl
@[simp] theorem State.setCtx_tinv (s : State) (x : CtxRef) (c : Ctx) : (s.setCtx x c).tinv = s.tinv := rfl
@[simp] theorem State.setCtx_scrub (s : State) (x : CtxRef) (c : Ctx) : (s.setCtx x c).scrub = s.scrub := rfl
@[simp] theorem State.setCtx_power (s : State) (x : CtxRef) (c : Ctx) : (s.setCtx x c).power = s.power := rfl

/-! ### `updCtx` -/

@[simp] theorem State.updCtx_timebase (s : State) (x : CtxRef) (f : Ctx → Ctx) : (s.updCtx x f).timebase = s.timebase := rfl
@[simp] theorem State.updCtx_agenda (s : State) (x : CtxRef) (f : Ctx → Ctx) : (s.updCtx x f).agenda = s.agenda := rfl
@[simp] theorem State.updCtx_turn (s : State) (x : CtxRef) (f : Ctx → Ctx) : (s.updCtx x f).turn = s.turn := rfl
@[simp] theorem State.updCtx_cur (s : State) (x : CtxRef) (f : Ctx → Ctx) : (s.updCtx x f).cur = s.cur := rfl
@[simp] theorem State.updCtx_issue (s : State) (x : CtxRef) (f : Ctx → Ctx) : (s.updCtx x f).issue = s.issue := rfl
@[simp] theorem State.updCtx_last (s : State) (x : CtxRef) (f : Ctx → Ctx) : (s.updCtx x f).last = s.last := rfl
@[simp] theorem State.updCtx_lateness (s : State) (x : CtxRef) (f : Ctx → Ctx) : (s.updCtx x f).lateness = s.lateness := rfl
@[simp] theorem State.updCtx_freeCount (s : State) (x : CtxRef) (f : Ctx → Ctx) : (s.updCtx x f).freeCount = s.freeCount := rfl
@[simp] theorem State.updCtx_store (s : State) (x : CtxRef) (f : Ctx → Ctx) : (s.updCtx x f).store = s.store := rfl
@[simp] theorem State.updCtx_counters (s : State) (x : CtxRef) (f : Ctx → Ctx) : (s.updCtx x f).counters = s.counters := rfl
@[simp] theorem State.updCtx_ctrOld (s : State) (x : CtxRef) (f : Ctx → Ctx) : (s.updCtx x f).ctrOld = s.ctrOld := rfl
@[simp] theorem State.updCtx_clearedNow (s : State) (x : CtxRef) (f : Ctx → Ctx) : (s.updCtx x f).clearedNow = s.clearedNow := rfl
@[simp] theorem State.updCtx_engTraps (s : State) (x : CtxRef) (f : Ctx → Ctx) : (s.updCtx x f).engTraps = s.engTraps := rfl
@[simp] theorem State.updCtx_launches (s : State) (x : CtxRef) (f : Ctx → Ctx) : (s.updCtx x f).launches = s.launches := rfl
@[simp] theorem State.updCtx_nextLid (s : State) (x : CtxRef) (f : Ctx → Ctx) : (s.updCtx x f).nextLid = s.nextLid := rfl
@[simp] theorem State.updCtx_tickets (s : State) (x : CtxRef) (f : Ctx → Ctx) : (s.updCtx x f).tickets = s.tickets := rfl
@[simp] theorem State.updCtx_reserved (s : State) (x : CtxRef) (f : Ctx → Ctx) : (s.updCtx x f).reserved = s.reserved := rfl
@[simp] theorem State.updCtx_took (s : State) (x : CtxRef) (f : Ctx → Ctx) : (s.updCtx x f).took = s.took := rfl
@[simp] theorem State.updCtx_chose (s : State) (x : CtxRef) (f : Ctx → Ctx) : (s.updCtx x f).chose = s.chose := rfl
@[simp] theorem State.updCtx_stepped (s : State) (x : CtxRef) (f : Ctx → Ctx) : (s.updCtx x f).stepped = s.stepped := rfl
@[simp] theorem State.updCtx_regs (s : State) (x : CtxRef) (f : Ctx → Ctx) : (s.updCtx x f).regs = s.regs := rfl
@[simp] theorem State.updCtx_obs (s : State) (x : CtxRef) (f : Ctx → Ctx) : (s.updCtx x f).obs = s.obs := rfl
@[simp] theorem State.updCtx_halted (s : State) (x : CtxRef) (f : Ctx → Ctx) : (s.updCtx x f).halted = s.halted := rfl
@[simp] theorem State.updCtx_haltDue (s : State) (x : CtxRef) (f : Ctx → Ctx) : (s.updCtx x f).haltDue = s.haltDue := rfl
@[simp] theorem State.updCtx_host (s : State) (x : CtxRef) (f : Ctx → Ctx) : (s.updCtx x f).host = s.host := rfl
@[simp] theorem State.updCtx_fabric (s : State) (x : CtxRef) (f : Ctx → Ctx) : (s.updCtx x f).fabric = s.fabric := rfl
@[simp] theorem State.updCtx_storage (s : State) (x : CtxRef) (f : Ctx → Ctx) : (s.updCtx x f).storage = s.storage := rfl
@[simp] theorem State.updCtx_flash (s : State) (x : CtxRef) (f : Ctx → Ctx) : (s.updCtx x f).flash = s.flash := rfl
@[simp] theorem State.updCtx_mgmt (s : State) (x : CtxRef) (f : Ctx → Ctx) : (s.updCtx x f).mgmt = s.mgmt := rfl
@[simp] theorem State.updCtx_boot (s : State) (x : CtxRef) (f : Ctx → Ctx) : (s.updCtx x f).boot = s.boot := rfl
@[simp] theorem State.updCtx_sec (s : State) (x : CtxRef) (f : Ctx → Ctx) : (s.updCtx x f).sec = s.sec := rfl
@[simp] theorem State.updCtx_dbg (s : State) (x : CtxRef) (f : Ctx → Ctx) : (s.updCtx x f).dbg = s.dbg := rfl
@[simp] theorem State.updCtx_park (s : State) (x : CtxRef) (f : Ctx → Ctx) : (s.updCtx x f).park = s.park := rfl
@[simp] theorem State.updCtx_stby (s : State) (x : CtxRef) (f : Ctx → Ctx) : (s.updCtx x f).stby = s.stby := rfl
@[simp] theorem State.updCtx_resetting (s : State) (x : CtxRef) (f : Ctx → Ctx) : (s.updCtx x f).resetting = s.resetting := rfl
@[simp] theorem State.updCtx_resetDue (s : State) (x : CtxRef) (f : Ctx → Ctx) : (s.updCtx x f).resetDue = s.resetDue := rfl
@[simp] theorem State.updCtx_pins (s : State) (x : CtxRef) (f : Ctx → Ctx) : (s.updCtx x f).pins = s.pins := rfl
@[simp] theorem State.updCtx_ptmcs (s : State) (x : CtxRef) (f : Ctx → Ctx) : (s.updCtx x f).ptmcs = s.ptmcs := rfl
@[simp] theorem State.updCtx_nextPtmc (s : State) (x : CtxRef) (f : Ctx → Ctx) : (s.updCtx x f).nextPtmc = s.nextPtmc := rfl
@[simp] theorem State.updCtx_walks (s : State) (x : CtxRef) (f : Ctx → Ctx) : (s.updCtx x f).walks = s.walks := rfl
@[simp] theorem State.updCtx_nextWalk (s : State) (x : CtxRef) (f : Ctx → Ctx) : (s.updCtx x f).nextWalk = s.nextWalk := rfl
@[simp] theorem State.updCtx_tinv (s : State) (x : CtxRef) (f : Ctx → Ctx) : (s.updCtx x f).tinv = s.tinv := rfl
@[simp] theorem State.updCtx_scrub (s : State) (x : CtxRef) (f : Ctx → Ctx) : (s.updCtx x f).scrub = s.scrub := rfl
@[simp] theorem State.updCtx_power (s : State) (x : CtxRef) (f : Ctx → Ctx) : (s.updCtx x f).power = s.power := rfl

/-! ### `setStatus` -/

@[simp] theorem State.setStatus_timebase (s : State) (x : CtxRef) (w : Status) : (s.setStatus x w).timebase = s.timebase := rfl
@[simp] theorem State.setStatus_agenda (s : State) (x : CtxRef) (w : Status) : (s.setStatus x w).agenda = s.agenda := rfl
@[simp] theorem State.setStatus_turn (s : State) (x : CtxRef) (w : Status) : (s.setStatus x w).turn = s.turn := rfl
@[simp] theorem State.setStatus_cur (s : State) (x : CtxRef) (w : Status) : (s.setStatus x w).cur = s.cur := rfl
@[simp] theorem State.setStatus_issue (s : State) (x : CtxRef) (w : Status) : (s.setStatus x w).issue = s.issue := rfl
@[simp] theorem State.setStatus_last (s : State) (x : CtxRef) (w : Status) : (s.setStatus x w).last = s.last := rfl
@[simp] theorem State.setStatus_lateness (s : State) (x : CtxRef) (w : Status) : (s.setStatus x w).lateness = s.lateness := rfl
@[simp] theorem State.setStatus_freeCount (s : State) (x : CtxRef) (w : Status) : (s.setStatus x w).freeCount = s.freeCount := rfl
@[simp] theorem State.setStatus_store (s : State) (x : CtxRef) (w : Status) : (s.setStatus x w).store = s.store := rfl
@[simp] theorem State.setStatus_counters (s : State) (x : CtxRef) (w : Status) : (s.setStatus x w).counters = s.counters := rfl
@[simp] theorem State.setStatus_ctrOld (s : State) (x : CtxRef) (w : Status) : (s.setStatus x w).ctrOld = s.ctrOld := rfl
@[simp] theorem State.setStatus_clearedNow (s : State) (x : CtxRef) (w : Status) : (s.setStatus x w).clearedNow = s.clearedNow := rfl
@[simp] theorem State.setStatus_engTraps (s : State) (x : CtxRef) (w : Status) : (s.setStatus x w).engTraps = s.engTraps := rfl
@[simp] theorem State.setStatus_launches (s : State) (x : CtxRef) (w : Status) : (s.setStatus x w).launches = s.launches := rfl
@[simp] theorem State.setStatus_nextLid (s : State) (x : CtxRef) (w : Status) : (s.setStatus x w).nextLid = s.nextLid := rfl
@[simp] theorem State.setStatus_tickets (s : State) (x : CtxRef) (w : Status) : (s.setStatus x w).tickets = s.tickets := rfl
@[simp] theorem State.setStatus_reserved (s : State) (x : CtxRef) (w : Status) : (s.setStatus x w).reserved = s.reserved := rfl
@[simp] theorem State.setStatus_took (s : State) (x : CtxRef) (w : Status) : (s.setStatus x w).took = s.took := rfl
@[simp] theorem State.setStatus_chose (s : State) (x : CtxRef) (w : Status) : (s.setStatus x w).chose = s.chose := rfl
@[simp] theorem State.setStatus_stepped (s : State) (x : CtxRef) (w : Status) : (s.setStatus x w).stepped = s.stepped := rfl
@[simp] theorem State.setStatus_regs (s : State) (x : CtxRef) (w : Status) : (s.setStatus x w).regs = s.regs := rfl
@[simp] theorem State.setStatus_obs (s : State) (x : CtxRef) (w : Status) : (s.setStatus x w).obs = s.obs := rfl
@[simp] theorem State.setStatus_halted (s : State) (x : CtxRef) (w : Status) : (s.setStatus x w).halted = s.halted := rfl
@[simp] theorem State.setStatus_haltDue (s : State) (x : CtxRef) (w : Status) : (s.setStatus x w).haltDue = s.haltDue := rfl
@[simp] theorem State.setStatus_host (s : State) (x : CtxRef) (w : Status) : (s.setStatus x w).host = s.host := rfl
@[simp] theorem State.setStatus_fabric (s : State) (x : CtxRef) (w : Status) : (s.setStatus x w).fabric = s.fabric := rfl
@[simp] theorem State.setStatus_storage (s : State) (x : CtxRef) (w : Status) : (s.setStatus x w).storage = s.storage := rfl
@[simp] theorem State.setStatus_flash (s : State) (x : CtxRef) (w : Status) : (s.setStatus x w).flash = s.flash := rfl
@[simp] theorem State.setStatus_mgmt (s : State) (x : CtxRef) (w : Status) : (s.setStatus x w).mgmt = s.mgmt := rfl
@[simp] theorem State.setStatus_boot (s : State) (x : CtxRef) (w : Status) : (s.setStatus x w).boot = s.boot := rfl
@[simp] theorem State.setStatus_sec (s : State) (x : CtxRef) (w : Status) : (s.setStatus x w).sec = s.sec := rfl
@[simp] theorem State.setStatus_dbg (s : State) (x : CtxRef) (w : Status) : (s.setStatus x w).dbg = s.dbg := rfl
@[simp] theorem State.setStatus_park (s : State) (x : CtxRef) (w : Status) : (s.setStatus x w).park = s.park := rfl
@[simp] theorem State.setStatus_stby (s : State) (x : CtxRef) (w : Status) : (s.setStatus x w).stby = s.stby := rfl
@[simp] theorem State.setStatus_resetting (s : State) (x : CtxRef) (w : Status) : (s.setStatus x w).resetting = s.resetting := rfl
@[simp] theorem State.setStatus_resetDue (s : State) (x : CtxRef) (w : Status) : (s.setStatus x w).resetDue = s.resetDue := rfl
@[simp] theorem State.setStatus_pins (s : State) (x : CtxRef) (w : Status) : (s.setStatus x w).pins = s.pins := rfl
@[simp] theorem State.setStatus_ptmcs (s : State) (x : CtxRef) (w : Status) : (s.setStatus x w).ptmcs = s.ptmcs := rfl
@[simp] theorem State.setStatus_nextPtmc (s : State) (x : CtxRef) (w : Status) : (s.setStatus x w).nextPtmc = s.nextPtmc := rfl
@[simp] theorem State.setStatus_walks (s : State) (x : CtxRef) (w : Status) : (s.setStatus x w).walks = s.walks := rfl
@[simp] theorem State.setStatus_nextWalk (s : State) (x : CtxRef) (w : Status) : (s.setStatus x w).nextWalk = s.nextWalk := rfl
@[simp] theorem State.setStatus_tinv (s : State) (x : CtxRef) (w : Status) : (s.setStatus x w).tinv = s.tinv := rfl
@[simp] theorem State.setStatus_scrub (s : State) (x : CtxRef) (w : Status) : (s.setStatus x w).scrub = s.scrub := rfl
@[simp] theorem State.setStatus_power (s : State) (x : CtxRef) (w : Status) : (s.setStatus x w).power = s.power := rfl

/-! ### `land` -/

@[simp] theorem State.land_timebase (s : State) (p : Port) (n : Nat) (v : Value) (f : Num.Flags) : (s.land p n v f).timebase = s.timebase := rfl
@[simp] theorem State.land_agenda (s : State) (p : Port) (n : Nat) (v : Value) (f : Num.Flags) : (s.land p n v f).agenda = s.agenda := rfl
@[simp] theorem State.land_turn (s : State) (p : Port) (n : Nat) (v : Value) (f : Num.Flags) : (s.land p n v f).turn = s.turn := rfl
@[simp] theorem State.land_cur (s : State) (p : Port) (n : Nat) (v : Value) (f : Num.Flags) : (s.land p n v f).cur = s.cur := rfl
@[simp] theorem State.land_issue (s : State) (p : Port) (n : Nat) (v : Value) (f : Num.Flags) : (s.land p n v f).issue = s.issue := rfl
@[simp] theorem State.land_last (s : State) (p : Port) (n : Nat) (v : Value) (f : Num.Flags) : (s.land p n v f).last = s.last := rfl
@[simp] theorem State.land_lateness (s : State) (p : Port) (n : Nat) (v : Value) (f : Num.Flags) : (s.land p n v f).lateness = s.lateness := rfl
@[simp] theorem State.land_freeCount (s : State) (p : Port) (n : Nat) (v : Value) (f : Num.Flags) : (s.land p n v f).freeCount = s.freeCount := rfl
@[simp] theorem State.land_store (s : State) (p : Port) (n : Nat) (v : Value) (f : Num.Flags) : (s.land p n v f).store = s.store := rfl
@[simp] theorem State.land_counters (s : State) (p : Port) (n : Nat) (v : Value) (f : Num.Flags) : (s.land p n v f).counters = s.counters := rfl
@[simp] theorem State.land_ctrOld (s : State) (p : Port) (n : Nat) (v : Value) (f : Num.Flags) : (s.land p n v f).ctrOld = s.ctrOld := rfl
@[simp] theorem State.land_clearedNow (s : State) (p : Port) (n : Nat) (v : Value) (f : Num.Flags) : (s.land p n v f).clearedNow = s.clearedNow := rfl
@[simp] theorem State.land_engTraps (s : State) (p : Port) (n : Nat) (v : Value) (f : Num.Flags) : (s.land p n v f).engTraps = s.engTraps := rfl
@[simp] theorem State.land_launches (s : State) (p : Port) (n : Nat) (v : Value) (f : Num.Flags) : (s.land p n v f).launches = s.launches := rfl
@[simp] theorem State.land_nextLid (s : State) (p : Port) (n : Nat) (v : Value) (f : Num.Flags) : (s.land p n v f).nextLid = s.nextLid := rfl
@[simp] theorem State.land_tickets (s : State) (p : Port) (n : Nat) (v : Value) (f : Num.Flags) : (s.land p n v f).tickets = s.tickets := rfl
@[simp] theorem State.land_reserved (s : State) (p : Port) (n : Nat) (v : Value) (f : Num.Flags) : (s.land p n v f).reserved = s.reserved := rfl
@[simp] theorem State.land_took (s : State) (p : Port) (n : Nat) (v : Value) (f : Num.Flags) : (s.land p n v f).took = s.took := rfl
@[simp] theorem State.land_chose (s : State) (p : Port) (n : Nat) (v : Value) (f : Num.Flags) : (s.land p n v f).chose = s.chose := rfl
@[simp] theorem State.land_stepped (s : State) (p : Port) (n : Nat) (v : Value) (f : Num.Flags) : (s.land p n v f).stepped = s.stepped := rfl
@[simp] theorem State.land_regs (s : State) (p : Port) (n : Nat) (v : Value) (f : Num.Flags) : (s.land p n v f).regs = s.regs := rfl
@[simp] theorem State.land_obs (s : State) (p : Port) (n : Nat) (v : Value) (f : Num.Flags) : (s.land p n v f).obs = s.obs := rfl
@[simp] theorem State.land_halted (s : State) (p : Port) (n : Nat) (v : Value) (f : Num.Flags) : (s.land p n v f).halted = s.halted := rfl
@[simp] theorem State.land_haltDue (s : State) (p : Port) (n : Nat) (v : Value) (f : Num.Flags) : (s.land p n v f).haltDue = s.haltDue := rfl
@[simp] theorem State.land_host (s : State) (p : Port) (n : Nat) (v : Value) (f : Num.Flags) : (s.land p n v f).host = s.host := rfl
@[simp] theorem State.land_fabric (s : State) (p : Port) (n : Nat) (v : Value) (f : Num.Flags) : (s.land p n v f).fabric = s.fabric := rfl
@[simp] theorem State.land_storage (s : State) (p : Port) (n : Nat) (v : Value) (f : Num.Flags) : (s.land p n v f).storage = s.storage := rfl
@[simp] theorem State.land_flash (s : State) (p : Port) (n : Nat) (v : Value) (f : Num.Flags) : (s.land p n v f).flash = s.flash := rfl
@[simp] theorem State.land_mgmt (s : State) (p : Port) (n : Nat) (v : Value) (f : Num.Flags) : (s.land p n v f).mgmt = s.mgmt := rfl
@[simp] theorem State.land_boot (s : State) (p : Port) (n : Nat) (v : Value) (f : Num.Flags) : (s.land p n v f).boot = s.boot := rfl
@[simp] theorem State.land_sec (s : State) (p : Port) (n : Nat) (v : Value) (f : Num.Flags) : (s.land p n v f).sec = s.sec := rfl
@[simp] theorem State.land_dbg (s : State) (p : Port) (n : Nat) (v : Value) (f : Num.Flags) : (s.land p n v f).dbg = s.dbg := rfl
@[simp] theorem State.land_park (s : State) (p : Port) (n : Nat) (v : Value) (f : Num.Flags) : (s.land p n v f).park = s.park := rfl
@[simp] theorem State.land_stby (s : State) (p : Port) (n : Nat) (v : Value) (f : Num.Flags) : (s.land p n v f).stby = s.stby := rfl
@[simp] theorem State.land_resetting (s : State) (p : Port) (n : Nat) (v : Value) (f : Num.Flags) : (s.land p n v f).resetting = s.resetting := rfl
@[simp] theorem State.land_resetDue (s : State) (p : Port) (n : Nat) (v : Value) (f : Num.Flags) : (s.land p n v f).resetDue = s.resetDue := rfl
@[simp] theorem State.land_pins (s : State) (p : Port) (n : Nat) (v : Value) (f : Num.Flags) : (s.land p n v f).pins = s.pins := rfl
@[simp] theorem State.land_ptmcs (s : State) (p : Port) (n : Nat) (v : Value) (f : Num.Flags) : (s.land p n v f).ptmcs = s.ptmcs := rfl
@[simp] theorem State.land_nextPtmc (s : State) (p : Port) (n : Nat) (v : Value) (f : Num.Flags) : (s.land p n v f).nextPtmc = s.nextPtmc := rfl
@[simp] theorem State.land_walks (s : State) (p : Port) (n : Nat) (v : Value) (f : Num.Flags) : (s.land p n v f).walks = s.walks := rfl
@[simp] theorem State.land_nextWalk (s : State) (p : Port) (n : Nat) (v : Value) (f : Num.Flags) : (s.land p n v f).nextWalk = s.nextWalk := rfl
@[simp] theorem State.land_tinv (s : State) (p : Port) (n : Nat) (v : Value) (f : Num.Flags) : (s.land p n v f).tinv = s.tinv := rfl
@[simp] theorem State.land_scrub (s : State) (p : Port) (n : Nat) (v : Value) (f : Num.Flags) : (s.land p n v f).scrub = s.scrub := rfl
@[simp] theorem State.land_power (s : State) (p : Port) (n : Nat) (v : Value) (f : Num.Flags) : (s.land p n v f).power = s.power := rfl

/-! ### `landAt` -/

@[simp] theorem State.landAt_timebase (s : State) (d : Land) (v : Value) : (s.landAt d v).timebase = s.timebase := rfl
@[simp] theorem State.landAt_agenda (s : State) (d : Land) (v : Value) : (s.landAt d v).agenda = s.agenda := rfl
@[simp] theorem State.landAt_turn (s : State) (d : Land) (v : Value) : (s.landAt d v).turn = s.turn := rfl
@[simp] theorem State.landAt_cur (s : State) (d : Land) (v : Value) : (s.landAt d v).cur = s.cur := rfl
@[simp] theorem State.landAt_issue (s : State) (d : Land) (v : Value) : (s.landAt d v).issue = s.issue := rfl
@[simp] theorem State.landAt_last (s : State) (d : Land) (v : Value) : (s.landAt d v).last = s.last := rfl
@[simp] theorem State.landAt_lateness (s : State) (d : Land) (v : Value) : (s.landAt d v).lateness = s.lateness := rfl
@[simp] theorem State.landAt_freeCount (s : State) (d : Land) (v : Value) : (s.landAt d v).freeCount = s.freeCount := rfl
@[simp] theorem State.landAt_store (s : State) (d : Land) (v : Value) : (s.landAt d v).store = s.store := rfl
@[simp] theorem State.landAt_counters (s : State) (d : Land) (v : Value) : (s.landAt d v).counters = s.counters := rfl
@[simp] theorem State.landAt_ctrOld (s : State) (d : Land) (v : Value) : (s.landAt d v).ctrOld = s.ctrOld := rfl
@[simp] theorem State.landAt_clearedNow (s : State) (d : Land) (v : Value) : (s.landAt d v).clearedNow = s.clearedNow := rfl
@[simp] theorem State.landAt_engTraps (s : State) (d : Land) (v : Value) : (s.landAt d v).engTraps = s.engTraps := rfl
@[simp] theorem State.landAt_launches (s : State) (d : Land) (v : Value) : (s.landAt d v).launches = s.launches := rfl
@[simp] theorem State.landAt_nextLid (s : State) (d : Land) (v : Value) : (s.landAt d v).nextLid = s.nextLid := rfl
@[simp] theorem State.landAt_tickets (s : State) (d : Land) (v : Value) : (s.landAt d v).tickets = s.tickets := rfl
@[simp] theorem State.landAt_reserved (s : State) (d : Land) (v : Value) : (s.landAt d v).reserved = s.reserved := rfl
@[simp] theorem State.landAt_took (s : State) (d : Land) (v : Value) : (s.landAt d v).took = s.took := rfl
@[simp] theorem State.landAt_chose (s : State) (d : Land) (v : Value) : (s.landAt d v).chose = s.chose := rfl
@[simp] theorem State.landAt_stepped (s : State) (d : Land) (v : Value) : (s.landAt d v).stepped = s.stepped := rfl
@[simp] theorem State.landAt_regs (s : State) (d : Land) (v : Value) : (s.landAt d v).regs = s.regs := rfl
@[simp] theorem State.landAt_obs (s : State) (d : Land) (v : Value) : (s.landAt d v).obs = s.obs := rfl
@[simp] theorem State.landAt_halted (s : State) (d : Land) (v : Value) : (s.landAt d v).halted = s.halted := rfl
@[simp] theorem State.landAt_haltDue (s : State) (d : Land) (v : Value) : (s.landAt d v).haltDue = s.haltDue := rfl
@[simp] theorem State.landAt_host (s : State) (d : Land) (v : Value) : (s.landAt d v).host = s.host := rfl
@[simp] theorem State.landAt_fabric (s : State) (d : Land) (v : Value) : (s.landAt d v).fabric = s.fabric := rfl
@[simp] theorem State.landAt_storage (s : State) (d : Land) (v : Value) : (s.landAt d v).storage = s.storage := rfl
@[simp] theorem State.landAt_flash (s : State) (d : Land) (v : Value) : (s.landAt d v).flash = s.flash := rfl
@[simp] theorem State.landAt_mgmt (s : State) (d : Land) (v : Value) : (s.landAt d v).mgmt = s.mgmt := rfl
@[simp] theorem State.landAt_boot (s : State) (d : Land) (v : Value) : (s.landAt d v).boot = s.boot := rfl
@[simp] theorem State.landAt_sec (s : State) (d : Land) (v : Value) : (s.landAt d v).sec = s.sec := rfl
@[simp] theorem State.landAt_dbg (s : State) (d : Land) (v : Value) : (s.landAt d v).dbg = s.dbg := rfl
@[simp] theorem State.landAt_park (s : State) (d : Land) (v : Value) : (s.landAt d v).park = s.park := rfl
@[simp] theorem State.landAt_stby (s : State) (d : Land) (v : Value) : (s.landAt d v).stby = s.stby := rfl
@[simp] theorem State.landAt_resetting (s : State) (d : Land) (v : Value) : (s.landAt d v).resetting = s.resetting := rfl
@[simp] theorem State.landAt_resetDue (s : State) (d : Land) (v : Value) : (s.landAt d v).resetDue = s.resetDue := rfl
@[simp] theorem State.landAt_pins (s : State) (d : Land) (v : Value) : (s.landAt d v).pins = s.pins := rfl
@[simp] theorem State.landAt_ptmcs (s : State) (d : Land) (v : Value) : (s.landAt d v).ptmcs = s.ptmcs := rfl
@[simp] theorem State.landAt_nextPtmc (s : State) (d : Land) (v : Value) : (s.landAt d v).nextPtmc = s.nextPtmc := rfl
@[simp] theorem State.landAt_walks (s : State) (d : Land) (v : Value) : (s.landAt d v).walks = s.walks := rfl
@[simp] theorem State.landAt_nextWalk (s : State) (d : Land) (v : Value) : (s.landAt d v).nextWalk = s.nextWalk := rfl
@[simp] theorem State.landAt_tinv (s : State) (d : Land) (v : Value) : (s.landAt d v).tinv = s.tinv := rfl
@[simp] theorem State.landAt_scrub (s : State) (d : Land) (v : Value) : (s.landAt d v).scrub = s.scrub := rfl
@[simp] theorem State.landAt_power (s : State) (d : Land) (v : Value) : (s.landAt d v).power = s.power := rfl

/-! ### `judge` -/

@[simp] theorem State.judge_timebase (s : State) (b : Bool) : (s.judge b).timebase = s.timebase := rfl
@[simp] theorem State.judge_agenda (s : State) (b : Bool) : (s.judge b).agenda = s.agenda := rfl
@[simp] theorem State.judge_turn (s : State) (b : Bool) : (s.judge b).turn = s.turn := rfl
@[simp] theorem State.judge_cur (s : State) (b : Bool) : (s.judge b).cur = s.cur := rfl
@[simp] theorem State.judge_issue (s : State) (b : Bool) : (s.judge b).issue = s.issue := rfl
@[simp] theorem State.judge_last (s : State) (b : Bool) : (s.judge b).last = s.last := rfl
@[simp] theorem State.judge_lateness (s : State) (b : Bool) : (s.judge b).lateness = s.lateness := rfl
@[simp] theorem State.judge_freeCount (s : State) (b : Bool) : (s.judge b).freeCount = s.freeCount := rfl
@[simp] theorem State.judge_store (s : State) (b : Bool) : (s.judge b).store = s.store := rfl
@[simp] theorem State.judge_counters (s : State) (b : Bool) : (s.judge b).counters = s.counters := rfl
@[simp] theorem State.judge_ctrOld (s : State) (b : Bool) : (s.judge b).ctrOld = s.ctrOld := rfl
@[simp] theorem State.judge_clearedNow (s : State) (b : Bool) : (s.judge b).clearedNow = s.clearedNow := rfl
@[simp] theorem State.judge_engTraps (s : State) (b : Bool) : (s.judge b).engTraps = s.engTraps := rfl
@[simp] theorem State.judge_launches (s : State) (b : Bool) : (s.judge b).launches = s.launches := rfl
@[simp] theorem State.judge_nextLid (s : State) (b : Bool) : (s.judge b).nextLid = s.nextLid := rfl
@[simp] theorem State.judge_tickets (s : State) (b : Bool) : (s.judge b).tickets = s.tickets := rfl
@[simp] theorem State.judge_reserved (s : State) (b : Bool) : (s.judge b).reserved = s.reserved := rfl
@[simp] theorem State.judge_took (s : State) (b : Bool) : (s.judge b).took = s.took := rfl
@[simp] theorem State.judge_chose (s : State) (b : Bool) : (s.judge b).chose = s.chose := rfl
@[simp] theorem State.judge_stepped (s : State) (b : Bool) : (s.judge b).stepped = s.stepped := rfl
@[simp] theorem State.judge_regs (s : State) (b : Bool) : (s.judge b).regs = s.regs := rfl
@[simp] theorem State.judge_obs (s : State) (b : Bool) : (s.judge b).obs = s.obs := rfl
@[simp] theorem State.judge_halted (s : State) (b : Bool) : (s.judge b).halted = s.halted := rfl
@[simp] theorem State.judge_haltDue (s : State) (b : Bool) : (s.judge b).haltDue = s.haltDue := rfl
@[simp] theorem State.judge_host (s : State) (b : Bool) : (s.judge b).host = s.host := rfl
@[simp] theorem State.judge_fabric (s : State) (b : Bool) : (s.judge b).fabric = s.fabric := rfl
@[simp] theorem State.judge_storage (s : State) (b : Bool) : (s.judge b).storage = s.storage := rfl
@[simp] theorem State.judge_flash (s : State) (b : Bool) : (s.judge b).flash = s.flash := rfl
@[simp] theorem State.judge_mgmt (s : State) (b : Bool) : (s.judge b).mgmt = s.mgmt := rfl
@[simp] theorem State.judge_boot (s : State) (b : Bool) : (s.judge b).boot = s.boot := rfl
@[simp] theorem State.judge_sec (s : State) (b : Bool) : (s.judge b).sec = s.sec := rfl
@[simp] theorem State.judge_dbg (s : State) (b : Bool) : (s.judge b).dbg = s.dbg := rfl
@[simp] theorem State.judge_park (s : State) (b : Bool) : (s.judge b).park = s.park := rfl
@[simp] theorem State.judge_stby (s : State) (b : Bool) : (s.judge b).stby = s.stby := rfl
@[simp] theorem State.judge_resetting (s : State) (b : Bool) : (s.judge b).resetting = s.resetting := rfl
@[simp] theorem State.judge_resetDue (s : State) (b : Bool) : (s.judge b).resetDue = s.resetDue := rfl
@[simp] theorem State.judge_pins (s : State) (b : Bool) : (s.judge b).pins = s.pins := rfl
@[simp] theorem State.judge_ptmcs (s : State) (b : Bool) : (s.judge b).ptmcs = s.ptmcs := rfl
@[simp] theorem State.judge_nextPtmc (s : State) (b : Bool) : (s.judge b).nextPtmc = s.nextPtmc := rfl
@[simp] theorem State.judge_walks (s : State) (b : Bool) : (s.judge b).walks = s.walks := rfl
@[simp] theorem State.judge_nextWalk (s : State) (b : Bool) : (s.judge b).nextWalk = s.nextWalk := rfl
@[simp] theorem State.judge_tinv (s : State) (b : Bool) : (s.judge b).tinv = s.tinv := rfl
@[simp] theorem State.judge_scrub (s : State) (b : Bool) : (s.judge b).scrub = s.scrub := rfl
@[simp] theorem State.judge_power (s : State) (b : Bool) : (s.judge b).power = s.power := rfl

/-! ### `updLaunch` -/

@[simp] theorem State.updLaunch_timebase (s : State) (n : Nat) (f : Launch → Launch) : (s.updLaunch n f).timebase = s.timebase := rfl
@[simp] theorem State.updLaunch_agenda (s : State) (n : Nat) (f : Launch → Launch) : (s.updLaunch n f).agenda = s.agenda := rfl
@[simp] theorem State.updLaunch_turn (s : State) (n : Nat) (f : Launch → Launch) : (s.updLaunch n f).turn = s.turn := rfl
@[simp] theorem State.updLaunch_cur (s : State) (n : Nat) (f : Launch → Launch) : (s.updLaunch n f).cur = s.cur := rfl
@[simp] theorem State.updLaunch_issue (s : State) (n : Nat) (f : Launch → Launch) : (s.updLaunch n f).issue = s.issue := rfl
@[simp] theorem State.updLaunch_last (s : State) (n : Nat) (f : Launch → Launch) : (s.updLaunch n f).last = s.last := rfl
@[simp] theorem State.updLaunch_lateness (s : State) (n : Nat) (f : Launch → Launch) : (s.updLaunch n f).lateness = s.lateness := rfl
@[simp] theorem State.updLaunch_freeCount (s : State) (n : Nat) (f : Launch → Launch) : (s.updLaunch n f).freeCount = s.freeCount := rfl
@[simp] theorem State.updLaunch_cores (s : State) (n : Nat) (f : Launch → Launch) : (s.updLaunch n f).cores = s.cores := rfl
@[simp] theorem State.updLaunch_store (s : State) (n : Nat) (f : Launch → Launch) : (s.updLaunch n f).store = s.store := rfl
@[simp] theorem State.updLaunch_counters (s : State) (n : Nat) (f : Launch → Launch) : (s.updLaunch n f).counters = s.counters := rfl
@[simp] theorem State.updLaunch_ctrOld (s : State) (n : Nat) (f : Launch → Launch) : (s.updLaunch n f).ctrOld = s.ctrOld := rfl
@[simp] theorem State.updLaunch_clearedNow (s : State) (n : Nat) (f : Launch → Launch) : (s.updLaunch n f).clearedNow = s.clearedNow := rfl
@[simp] theorem State.updLaunch_engTraps (s : State) (n : Nat) (f : Launch → Launch) : (s.updLaunch n f).engTraps = s.engTraps := rfl
@[simp] theorem State.updLaunch_nextLid (s : State) (n : Nat) (f : Launch → Launch) : (s.updLaunch n f).nextLid = s.nextLid := rfl
@[simp] theorem State.updLaunch_tickets (s : State) (n : Nat) (f : Launch → Launch) : (s.updLaunch n f).tickets = s.tickets := rfl
@[simp] theorem State.updLaunch_reserved (s : State) (n : Nat) (f : Launch → Launch) : (s.updLaunch n f).reserved = s.reserved := rfl
@[simp] theorem State.updLaunch_took (s : State) (n : Nat) (f : Launch → Launch) : (s.updLaunch n f).took = s.took := rfl
@[simp] theorem State.updLaunch_chose (s : State) (n : Nat) (f : Launch → Launch) : (s.updLaunch n f).chose = s.chose := rfl
@[simp] theorem State.updLaunch_stepped (s : State) (n : Nat) (f : Launch → Launch) : (s.updLaunch n f).stepped = s.stepped := rfl
@[simp] theorem State.updLaunch_regs (s : State) (n : Nat) (f : Launch → Launch) : (s.updLaunch n f).regs = s.regs := rfl
@[simp] theorem State.updLaunch_obs (s : State) (n : Nat) (f : Launch → Launch) : (s.updLaunch n f).obs = s.obs := rfl
@[simp] theorem State.updLaunch_halted (s : State) (n : Nat) (f : Launch → Launch) : (s.updLaunch n f).halted = s.halted := rfl
@[simp] theorem State.updLaunch_haltDue (s : State) (n : Nat) (f : Launch → Launch) : (s.updLaunch n f).haltDue = s.haltDue := rfl
@[simp] theorem State.updLaunch_host (s : State) (n : Nat) (f : Launch → Launch) : (s.updLaunch n f).host = s.host := rfl
@[simp] theorem State.updLaunch_fabric (s : State) (n : Nat) (f : Launch → Launch) : (s.updLaunch n f).fabric = s.fabric := rfl
@[simp] theorem State.updLaunch_storage (s : State) (n : Nat) (f : Launch → Launch) : (s.updLaunch n f).storage = s.storage := rfl
@[simp] theorem State.updLaunch_flash (s : State) (n : Nat) (f : Launch → Launch) : (s.updLaunch n f).flash = s.flash := rfl
@[simp] theorem State.updLaunch_mgmt (s : State) (n : Nat) (f : Launch → Launch) : (s.updLaunch n f).mgmt = s.mgmt := rfl
@[simp] theorem State.updLaunch_boot (s : State) (n : Nat) (f : Launch → Launch) : (s.updLaunch n f).boot = s.boot := rfl
@[simp] theorem State.updLaunch_sec (s : State) (n : Nat) (f : Launch → Launch) : (s.updLaunch n f).sec = s.sec := rfl
@[simp] theorem State.updLaunch_dbg (s : State) (n : Nat) (f : Launch → Launch) : (s.updLaunch n f).dbg = s.dbg := rfl
@[simp] theorem State.updLaunch_park (s : State) (n : Nat) (f : Launch → Launch) : (s.updLaunch n f).park = s.park := rfl
@[simp] theorem State.updLaunch_stby (s : State) (n : Nat) (f : Launch → Launch) : (s.updLaunch n f).stby = s.stby := rfl
@[simp] theorem State.updLaunch_resetting (s : State) (n : Nat) (f : Launch → Launch) : (s.updLaunch n f).resetting = s.resetting := rfl
@[simp] theorem State.updLaunch_resetDue (s : State) (n : Nat) (f : Launch → Launch) : (s.updLaunch n f).resetDue = s.resetDue := rfl
@[simp] theorem State.updLaunch_pins (s : State) (n : Nat) (f : Launch → Launch) : (s.updLaunch n f).pins = s.pins := rfl
@[simp] theorem State.updLaunch_ptmcs (s : State) (n : Nat) (f : Launch → Launch) : (s.updLaunch n f).ptmcs = s.ptmcs := rfl
@[simp] theorem State.updLaunch_nextPtmc (s : State) (n : Nat) (f : Launch → Launch) : (s.updLaunch n f).nextPtmc = s.nextPtmc := rfl
@[simp] theorem State.updLaunch_walks (s : State) (n : Nat) (f : Launch → Launch) : (s.updLaunch n f).walks = s.walks := rfl
@[simp] theorem State.updLaunch_nextWalk (s : State) (n : Nat) (f : Launch → Launch) : (s.updLaunch n f).nextWalk = s.nextWalk := rfl
@[simp] theorem State.updLaunch_tinv (s : State) (n : Nat) (f : Launch → Launch) : (s.updLaunch n f).tinv = s.tinv := rfl
@[simp] theorem State.updLaunch_scrub (s : State) (n : Nat) (f : Launch → Launch) : (s.updLaunch n f).scrub = s.scrub := rfl
@[simp] theorem State.updLaunch_power (s : State) (n : Nat) (f : Launch → Launch) : (s.updLaunch n f).power = s.power := rfl

/-! ### `updReact` -/

@[simp] theorem State.updReact_timebase (s : State) (r : ReactId) (f : Reaction → Reaction) : (s.updReact r f).timebase = s.timebase := rfl
@[simp] theorem State.updReact_agenda (s : State) (r : ReactId) (f : Reaction → Reaction) : (s.updReact r f).agenda = s.agenda := rfl
@[simp] theorem State.updReact_turn (s : State) (r : ReactId) (f : Reaction → Reaction) : (s.updReact r f).turn = s.turn := rfl
@[simp] theorem State.updReact_cur (s : State) (r : ReactId) (f : Reaction → Reaction) : (s.updReact r f).cur = s.cur := rfl
@[simp] theorem State.updReact_issue (s : State) (r : ReactId) (f : Reaction → Reaction) : (s.updReact r f).issue = s.issue := rfl
@[simp] theorem State.updReact_last (s : State) (r : ReactId) (f : Reaction → Reaction) : (s.updReact r f).last = s.last := rfl
@[simp] theorem State.updReact_lateness (s : State) (r : ReactId) (f : Reaction → Reaction) : (s.updReact r f).lateness = s.lateness := rfl
@[simp] theorem State.updReact_freeCount (s : State) (r : ReactId) (f : Reaction → Reaction) : (s.updReact r f).freeCount = s.freeCount := rfl
@[simp] theorem State.updReact_cores (s : State) (r : ReactId) (f : Reaction → Reaction) : (s.updReact r f).cores = s.cores := rfl
@[simp] theorem State.updReact_store (s : State) (r : ReactId) (f : Reaction → Reaction) : (s.updReact r f).store = s.store := rfl
@[simp] theorem State.updReact_counters (s : State) (r : ReactId) (f : Reaction → Reaction) : (s.updReact r f).counters = s.counters := rfl
@[simp] theorem State.updReact_ctrOld (s : State) (r : ReactId) (f : Reaction → Reaction) : (s.updReact r f).ctrOld = s.ctrOld := rfl
@[simp] theorem State.updReact_clearedNow (s : State) (r : ReactId) (f : Reaction → Reaction) : (s.updReact r f).clearedNow = s.clearedNow := rfl
@[simp] theorem State.updReact_engTraps (s : State) (r : ReactId) (f : Reaction → Reaction) : (s.updReact r f).engTraps = s.engTraps := rfl
@[simp] theorem State.updReact_nextLid (s : State) (r : ReactId) (f : Reaction → Reaction) : (s.updReact r f).nextLid = s.nextLid := rfl
@[simp] theorem State.updReact_tickets (s : State) (r : ReactId) (f : Reaction → Reaction) : (s.updReact r f).tickets = s.tickets := rfl
@[simp] theorem State.updReact_reserved (s : State) (r : ReactId) (f : Reaction → Reaction) : (s.updReact r f).reserved = s.reserved := rfl
@[simp] theorem State.updReact_took (s : State) (r : ReactId) (f : Reaction → Reaction) : (s.updReact r f).took = s.took := rfl
@[simp] theorem State.updReact_chose (s : State) (r : ReactId) (f : Reaction → Reaction) : (s.updReact r f).chose = s.chose := rfl
@[simp] theorem State.updReact_stepped (s : State) (r : ReactId) (f : Reaction → Reaction) : (s.updReact r f).stepped = s.stepped := rfl
@[simp] theorem State.updReact_regs (s : State) (r : ReactId) (f : Reaction → Reaction) : (s.updReact r f).regs = s.regs := rfl
@[simp] theorem State.updReact_obs (s : State) (r : ReactId) (f : Reaction → Reaction) : (s.updReact r f).obs = s.obs := rfl
@[simp] theorem State.updReact_halted (s : State) (r : ReactId) (f : Reaction → Reaction) : (s.updReact r f).halted = s.halted := rfl
@[simp] theorem State.updReact_haltDue (s : State) (r : ReactId) (f : Reaction → Reaction) : (s.updReact r f).haltDue = s.haltDue := rfl
@[simp] theorem State.updReact_host (s : State) (r : ReactId) (f : Reaction → Reaction) : (s.updReact r f).host = s.host := rfl
@[simp] theorem State.updReact_fabric (s : State) (r : ReactId) (f : Reaction → Reaction) : (s.updReact r f).fabric = s.fabric := rfl
@[simp] theorem State.updReact_storage (s : State) (r : ReactId) (f : Reaction → Reaction) : (s.updReact r f).storage = s.storage := rfl
@[simp] theorem State.updReact_flash (s : State) (r : ReactId) (f : Reaction → Reaction) : (s.updReact r f).flash = s.flash := rfl
@[simp] theorem State.updReact_mgmt (s : State) (r : ReactId) (f : Reaction → Reaction) : (s.updReact r f).mgmt = s.mgmt := rfl
@[simp] theorem State.updReact_boot (s : State) (r : ReactId) (f : Reaction → Reaction) : (s.updReact r f).boot = s.boot := rfl
@[simp] theorem State.updReact_sec (s : State) (r : ReactId) (f : Reaction → Reaction) : (s.updReact r f).sec = s.sec := rfl
@[simp] theorem State.updReact_dbg (s : State) (r : ReactId) (f : Reaction → Reaction) : (s.updReact r f).dbg = s.dbg := rfl
@[simp] theorem State.updReact_park (s : State) (r : ReactId) (f : Reaction → Reaction) : (s.updReact r f).park = s.park := rfl
@[simp] theorem State.updReact_stby (s : State) (r : ReactId) (f : Reaction → Reaction) : (s.updReact r f).stby = s.stby := rfl
@[simp] theorem State.updReact_resetting (s : State) (r : ReactId) (f : Reaction → Reaction) : (s.updReact r f).resetting = s.resetting := rfl
@[simp] theorem State.updReact_resetDue (s : State) (r : ReactId) (f : Reaction → Reaction) : (s.updReact r f).resetDue = s.resetDue := rfl
@[simp] theorem State.updReact_pins (s : State) (r : ReactId) (f : Reaction → Reaction) : (s.updReact r f).pins = s.pins := rfl
@[simp] theorem State.updReact_ptmcs (s : State) (r : ReactId) (f : Reaction → Reaction) : (s.updReact r f).ptmcs = s.ptmcs := rfl
@[simp] theorem State.updReact_nextPtmc (s : State) (r : ReactId) (f : Reaction → Reaction) : (s.updReact r f).nextPtmc = s.nextPtmc := rfl
@[simp] theorem State.updReact_walks (s : State) (r : ReactId) (f : Reaction → Reaction) : (s.updReact r f).walks = s.walks := rfl
@[simp] theorem State.updReact_nextWalk (s : State) (r : ReactId) (f : Reaction → Reaction) : (s.updReact r f).nextWalk = s.nextWalk := rfl
@[simp] theorem State.updReact_tinv (s : State) (r : ReactId) (f : Reaction → Reaction) : (s.updReact r f).tinv = s.tinv := rfl
@[simp] theorem State.updReact_scrub (s : State) (r : ReactId) (f : Reaction → Reaction) : (s.updReact r f).scrub = s.scrub := rfl
@[simp] theorem State.updReact_power (s : State) (r : ReactId) (f : Reaction → Reaction) : (s.updReact r f).power = s.power := rfl

/-! ### `updDie` -/

@[simp] theorem State.updDie_timebase (s : State) (d : Nat) (f : DieRegs → DieRegs) : (s.updDie d f).timebase = s.timebase := rfl
@[simp] theorem State.updDie_agenda (s : State) (d : Nat) (f : DieRegs → DieRegs) : (s.updDie d f).agenda = s.agenda := rfl
@[simp] theorem State.updDie_turn (s : State) (d : Nat) (f : DieRegs → DieRegs) : (s.updDie d f).turn = s.turn := rfl
@[simp] theorem State.updDie_cur (s : State) (d : Nat) (f : DieRegs → DieRegs) : (s.updDie d f).cur = s.cur := rfl
@[simp] theorem State.updDie_issue (s : State) (d : Nat) (f : DieRegs → DieRegs) : (s.updDie d f).issue = s.issue := rfl
@[simp] theorem State.updDie_last (s : State) (d : Nat) (f : DieRegs → DieRegs) : (s.updDie d f).last = s.last := rfl
@[simp] theorem State.updDie_lateness (s : State) (d : Nat) (f : DieRegs → DieRegs) : (s.updDie d f).lateness = s.lateness := rfl
@[simp] theorem State.updDie_freeCount (s : State) (d : Nat) (f : DieRegs → DieRegs) : (s.updDie d f).freeCount = s.freeCount := rfl
@[simp] theorem State.updDie_cores (s : State) (d : Nat) (f : DieRegs → DieRegs) : (s.updDie d f).cores = s.cores := rfl
@[simp] theorem State.updDie_store (s : State) (d : Nat) (f : DieRegs → DieRegs) : (s.updDie d f).store = s.store := rfl
@[simp] theorem State.updDie_counters (s : State) (d : Nat) (f : DieRegs → DieRegs) : (s.updDie d f).counters = s.counters := rfl
@[simp] theorem State.updDie_ctrOld (s : State) (d : Nat) (f : DieRegs → DieRegs) : (s.updDie d f).ctrOld = s.ctrOld := rfl
@[simp] theorem State.updDie_clearedNow (s : State) (d : Nat) (f : DieRegs → DieRegs) : (s.updDie d f).clearedNow = s.clearedNow := rfl
@[simp] theorem State.updDie_engTraps (s : State) (d : Nat) (f : DieRegs → DieRegs) : (s.updDie d f).engTraps = s.engTraps := rfl
@[simp] theorem State.updDie_launches (s : State) (d : Nat) (f : DieRegs → DieRegs) : (s.updDie d f).launches = s.launches := rfl
@[simp] theorem State.updDie_nextLid (s : State) (d : Nat) (f : DieRegs → DieRegs) : (s.updDie d f).nextLid = s.nextLid := rfl
@[simp] theorem State.updDie_tickets (s : State) (d : Nat) (f : DieRegs → DieRegs) : (s.updDie d f).tickets = s.tickets := rfl
@[simp] theorem State.updDie_reserved (s : State) (d : Nat) (f : DieRegs → DieRegs) : (s.updDie d f).reserved = s.reserved := rfl
@[simp] theorem State.updDie_took (s : State) (d : Nat) (f : DieRegs → DieRegs) : (s.updDie d f).took = s.took := rfl
@[simp] theorem State.updDie_chose (s : State) (d : Nat) (f : DieRegs → DieRegs) : (s.updDie d f).chose = s.chose := rfl
@[simp] theorem State.updDie_stepped (s : State) (d : Nat) (f : DieRegs → DieRegs) : (s.updDie d f).stepped = s.stepped := rfl
@[simp] theorem State.updDie_obs (s : State) (d : Nat) (f : DieRegs → DieRegs) : (s.updDie d f).obs = s.obs := rfl
@[simp] theorem State.updDie_halted (s : State) (d : Nat) (f : DieRegs → DieRegs) : (s.updDie d f).halted = s.halted := rfl
@[simp] theorem State.updDie_haltDue (s : State) (d : Nat) (f : DieRegs → DieRegs) : (s.updDie d f).haltDue = s.haltDue := rfl
@[simp] theorem State.updDie_host (s : State) (d : Nat) (f : DieRegs → DieRegs) : (s.updDie d f).host = s.host := rfl
@[simp] theorem State.updDie_fabric (s : State) (d : Nat) (f : DieRegs → DieRegs) : (s.updDie d f).fabric = s.fabric := rfl
@[simp] theorem State.updDie_storage (s : State) (d : Nat) (f : DieRegs → DieRegs) : (s.updDie d f).storage = s.storage := rfl
@[simp] theorem State.updDie_flash (s : State) (d : Nat) (f : DieRegs → DieRegs) : (s.updDie d f).flash = s.flash := rfl
@[simp] theorem State.updDie_mgmt (s : State) (d : Nat) (f : DieRegs → DieRegs) : (s.updDie d f).mgmt = s.mgmt := rfl
@[simp] theorem State.updDie_boot (s : State) (d : Nat) (f : DieRegs → DieRegs) : (s.updDie d f).boot = s.boot := rfl
@[simp] theorem State.updDie_sec (s : State) (d : Nat) (f : DieRegs → DieRegs) : (s.updDie d f).sec = s.sec := rfl
@[simp] theorem State.updDie_dbg (s : State) (d : Nat) (f : DieRegs → DieRegs) : (s.updDie d f).dbg = s.dbg := rfl
@[simp] theorem State.updDie_park (s : State) (d : Nat) (f : DieRegs → DieRegs) : (s.updDie d f).park = s.park := rfl
@[simp] theorem State.updDie_stby (s : State) (d : Nat) (f : DieRegs → DieRegs) : (s.updDie d f).stby = s.stby := rfl
@[simp] theorem State.updDie_resetting (s : State) (d : Nat) (f : DieRegs → DieRegs) : (s.updDie d f).resetting = s.resetting := rfl
@[simp] theorem State.updDie_resetDue (s : State) (d : Nat) (f : DieRegs → DieRegs) : (s.updDie d f).resetDue = s.resetDue := rfl
@[simp] theorem State.updDie_pins (s : State) (d : Nat) (f : DieRegs → DieRegs) : (s.updDie d f).pins = s.pins := rfl
@[simp] theorem State.updDie_ptmcs (s : State) (d : Nat) (f : DieRegs → DieRegs) : (s.updDie d f).ptmcs = s.ptmcs := rfl
@[simp] theorem State.updDie_nextPtmc (s : State) (d : Nat) (f : DieRegs → DieRegs) : (s.updDie d f).nextPtmc = s.nextPtmc := rfl
@[simp] theorem State.updDie_walks (s : State) (d : Nat) (f : DieRegs → DieRegs) : (s.updDie d f).walks = s.walks := rfl
@[simp] theorem State.updDie_nextWalk (s : State) (d : Nat) (f : DieRegs → DieRegs) : (s.updDie d f).nextWalk = s.nextWalk := rfl
@[simp] theorem State.updDie_tinv (s : State) (d : Nat) (f : DieRegs → DieRegs) : (s.updDie d f).tinv = s.tinv := rfl
@[simp] theorem State.updDie_scrub (s : State) (d : Nat) (f : DieRegs → DieRegs) : (s.updDie d f).scrub = s.scrub := rfl
@[simp] theorem State.updDie_power (s : State) (d : Nat) (f : DieRegs → DieRegs) : (s.updDie d f).power = s.power := rfl

/-! ### `ctrAdd` -/

@[simp] theorem State.ctrAdd_timebase (s : State) (k : Nat) (n : Word) : (s.ctrAdd k n).timebase = s.timebase := rfl
@[simp] theorem State.ctrAdd_agenda (s : State) (k : Nat) (n : Word) : (s.ctrAdd k n).agenda = s.agenda := rfl
@[simp] theorem State.ctrAdd_turn (s : State) (k : Nat) (n : Word) : (s.ctrAdd k n).turn = s.turn := rfl
@[simp] theorem State.ctrAdd_cur (s : State) (k : Nat) (n : Word) : (s.ctrAdd k n).cur = s.cur := rfl
@[simp] theorem State.ctrAdd_issue (s : State) (k : Nat) (n : Word) : (s.ctrAdd k n).issue = s.issue := rfl
@[simp] theorem State.ctrAdd_last (s : State) (k : Nat) (n : Word) : (s.ctrAdd k n).last = s.last := rfl
@[simp] theorem State.ctrAdd_lateness (s : State) (k : Nat) (n : Word) : (s.ctrAdd k n).lateness = s.lateness := rfl
@[simp] theorem State.ctrAdd_freeCount (s : State) (k : Nat) (n : Word) : (s.ctrAdd k n).freeCount = s.freeCount := rfl
@[simp] theorem State.ctrAdd_cores (s : State) (k : Nat) (n : Word) : (s.ctrAdd k n).cores = s.cores := rfl
@[simp] theorem State.ctrAdd_store (s : State) (k : Nat) (n : Word) : (s.ctrAdd k n).store = s.store := rfl
@[simp] theorem State.ctrAdd_clearedNow (s : State) (k : Nat) (n : Word) : (s.ctrAdd k n).clearedNow = s.clearedNow := rfl
@[simp] theorem State.ctrAdd_engTraps (s : State) (k : Nat) (n : Word) : (s.ctrAdd k n).engTraps = s.engTraps := rfl
@[simp] theorem State.ctrAdd_launches (s : State) (k : Nat) (n : Word) : (s.ctrAdd k n).launches = s.launches := rfl
@[simp] theorem State.ctrAdd_nextLid (s : State) (k : Nat) (n : Word) : (s.ctrAdd k n).nextLid = s.nextLid := rfl
@[simp] theorem State.ctrAdd_tickets (s : State) (k : Nat) (n : Word) : (s.ctrAdd k n).tickets = s.tickets := rfl
@[simp] theorem State.ctrAdd_reserved (s : State) (k : Nat) (n : Word) : (s.ctrAdd k n).reserved = s.reserved := rfl
@[simp] theorem State.ctrAdd_took (s : State) (k : Nat) (n : Word) : (s.ctrAdd k n).took = s.took := rfl
@[simp] theorem State.ctrAdd_chose (s : State) (k : Nat) (n : Word) : (s.ctrAdd k n).chose = s.chose := rfl
@[simp] theorem State.ctrAdd_stepped (s : State) (k : Nat) (n : Word) : (s.ctrAdd k n).stepped = s.stepped := rfl
@[simp] theorem State.ctrAdd_regs (s : State) (k : Nat) (n : Word) : (s.ctrAdd k n).regs = s.regs := rfl
@[simp] theorem State.ctrAdd_obs (s : State) (k : Nat) (n : Word) : (s.ctrAdd k n).obs = s.obs := rfl
@[simp] theorem State.ctrAdd_halted (s : State) (k : Nat) (n : Word) : (s.ctrAdd k n).halted = s.halted := rfl
@[simp] theorem State.ctrAdd_haltDue (s : State) (k : Nat) (n : Word) : (s.ctrAdd k n).haltDue = s.haltDue := rfl
@[simp] theorem State.ctrAdd_host (s : State) (k : Nat) (n : Word) : (s.ctrAdd k n).host = s.host := rfl
@[simp] theorem State.ctrAdd_fabric (s : State) (k : Nat) (n : Word) : (s.ctrAdd k n).fabric = s.fabric := rfl
@[simp] theorem State.ctrAdd_storage (s : State) (k : Nat) (n : Word) : (s.ctrAdd k n).storage = s.storage := rfl
@[simp] theorem State.ctrAdd_flash (s : State) (k : Nat) (n : Word) : (s.ctrAdd k n).flash = s.flash := rfl
@[simp] theorem State.ctrAdd_mgmt (s : State) (k : Nat) (n : Word) : (s.ctrAdd k n).mgmt = s.mgmt := rfl
@[simp] theorem State.ctrAdd_boot (s : State) (k : Nat) (n : Word) : (s.ctrAdd k n).boot = s.boot := rfl
@[simp] theorem State.ctrAdd_sec (s : State) (k : Nat) (n : Word) : (s.ctrAdd k n).sec = s.sec := rfl
@[simp] theorem State.ctrAdd_dbg (s : State) (k : Nat) (n : Word) : (s.ctrAdd k n).dbg = s.dbg := rfl
@[simp] theorem State.ctrAdd_park (s : State) (k : Nat) (n : Word) : (s.ctrAdd k n).park = s.park := rfl
@[simp] theorem State.ctrAdd_stby (s : State) (k : Nat) (n : Word) : (s.ctrAdd k n).stby = s.stby := rfl
@[simp] theorem State.ctrAdd_resetting (s : State) (k : Nat) (n : Word) : (s.ctrAdd k n).resetting = s.resetting := rfl
@[simp] theorem State.ctrAdd_resetDue (s : State) (k : Nat) (n : Word) : (s.ctrAdd k n).resetDue = s.resetDue := rfl
@[simp] theorem State.ctrAdd_pins (s : State) (k : Nat) (n : Word) : (s.ctrAdd k n).pins = s.pins := rfl
@[simp] theorem State.ctrAdd_ptmcs (s : State) (k : Nat) (n : Word) : (s.ctrAdd k n).ptmcs = s.ptmcs := rfl
@[simp] theorem State.ctrAdd_nextPtmc (s : State) (k : Nat) (n : Word) : (s.ctrAdd k n).nextPtmc = s.nextPtmc := rfl
@[simp] theorem State.ctrAdd_walks (s : State) (k : Nat) (n : Word) : (s.ctrAdd k n).walks = s.walks := rfl
@[simp] theorem State.ctrAdd_nextWalk (s : State) (k : Nat) (n : Word) : (s.ctrAdd k n).nextWalk = s.nextWalk := rfl
@[simp] theorem State.ctrAdd_tinv (s : State) (k : Nat) (n : Word) : (s.ctrAdd k n).tinv = s.tinv := rfl
@[simp] theorem State.ctrAdd_scrub (s : State) (k : Nat) (n : Word) : (s.ctrAdd k n).scrub = s.scrub := rfl
@[simp] theorem State.ctrAdd_power (s : State) (k : Nat) (n : Word) : (s.ctrAdd k n).power = s.power := rfl

/-! ### `ctrDrop` -/

@[simp] theorem State.ctrDrop_timebase (s : State) (l : List Nat) : (s.ctrDrop l).timebase = s.timebase := rfl
@[simp] theorem State.ctrDrop_agenda (s : State) (l : List Nat) : (s.ctrDrop l).agenda = s.agenda := rfl
@[simp] theorem State.ctrDrop_turn (s : State) (l : List Nat) : (s.ctrDrop l).turn = s.turn := rfl
@[simp] theorem State.ctrDrop_cur (s : State) (l : List Nat) : (s.ctrDrop l).cur = s.cur := rfl
@[simp] theorem State.ctrDrop_issue (s : State) (l : List Nat) : (s.ctrDrop l).issue = s.issue := rfl
@[simp] theorem State.ctrDrop_last (s : State) (l : List Nat) : (s.ctrDrop l).last = s.last := rfl
@[simp] theorem State.ctrDrop_lateness (s : State) (l : List Nat) : (s.ctrDrop l).lateness = s.lateness := rfl
@[simp] theorem State.ctrDrop_freeCount (s : State) (l : List Nat) : (s.ctrDrop l).freeCount = s.freeCount := rfl
@[simp] theorem State.ctrDrop_cores (s : State) (l : List Nat) : (s.ctrDrop l).cores = s.cores := rfl
@[simp] theorem State.ctrDrop_store (s : State) (l : List Nat) : (s.ctrDrop l).store = s.store := rfl
@[simp] theorem State.ctrDrop_clearedNow (s : State) (l : List Nat) : (s.ctrDrop l).clearedNow = s.clearedNow := rfl
@[simp] theorem State.ctrDrop_engTraps (s : State) (l : List Nat) : (s.ctrDrop l).engTraps = s.engTraps := rfl
@[simp] theorem State.ctrDrop_launches (s : State) (l : List Nat) : (s.ctrDrop l).launches = s.launches := rfl
@[simp] theorem State.ctrDrop_nextLid (s : State) (l : List Nat) : (s.ctrDrop l).nextLid = s.nextLid := rfl
@[simp] theorem State.ctrDrop_tickets (s : State) (l : List Nat) : (s.ctrDrop l).tickets = s.tickets := rfl
@[simp] theorem State.ctrDrop_reserved (s : State) (l : List Nat) : (s.ctrDrop l).reserved = s.reserved := rfl
@[simp] theorem State.ctrDrop_took (s : State) (l : List Nat) : (s.ctrDrop l).took = s.took := rfl
@[simp] theorem State.ctrDrop_chose (s : State) (l : List Nat) : (s.ctrDrop l).chose = s.chose := rfl
@[simp] theorem State.ctrDrop_stepped (s : State) (l : List Nat) : (s.ctrDrop l).stepped = s.stepped := rfl
@[simp] theorem State.ctrDrop_regs (s : State) (l : List Nat) : (s.ctrDrop l).regs = s.regs := rfl
@[simp] theorem State.ctrDrop_obs (s : State) (l : List Nat) : (s.ctrDrop l).obs = s.obs := rfl
@[simp] theorem State.ctrDrop_halted (s : State) (l : List Nat) : (s.ctrDrop l).halted = s.halted := rfl
@[simp] theorem State.ctrDrop_haltDue (s : State) (l : List Nat) : (s.ctrDrop l).haltDue = s.haltDue := rfl
@[simp] theorem State.ctrDrop_host (s : State) (l : List Nat) : (s.ctrDrop l).host = s.host := rfl
@[simp] theorem State.ctrDrop_fabric (s : State) (l : List Nat) : (s.ctrDrop l).fabric = s.fabric := rfl
@[simp] theorem State.ctrDrop_storage (s : State) (l : List Nat) : (s.ctrDrop l).storage = s.storage := rfl
@[simp] theorem State.ctrDrop_flash (s : State) (l : List Nat) : (s.ctrDrop l).flash = s.flash := rfl
@[simp] theorem State.ctrDrop_mgmt (s : State) (l : List Nat) : (s.ctrDrop l).mgmt = s.mgmt := rfl
@[simp] theorem State.ctrDrop_boot (s : State) (l : List Nat) : (s.ctrDrop l).boot = s.boot := rfl
@[simp] theorem State.ctrDrop_sec (s : State) (l : List Nat) : (s.ctrDrop l).sec = s.sec := rfl
@[simp] theorem State.ctrDrop_dbg (s : State) (l : List Nat) : (s.ctrDrop l).dbg = s.dbg := rfl
@[simp] theorem State.ctrDrop_park (s : State) (l : List Nat) : (s.ctrDrop l).park = s.park := rfl
@[simp] theorem State.ctrDrop_stby (s : State) (l : List Nat) : (s.ctrDrop l).stby = s.stby := rfl
@[simp] theorem State.ctrDrop_resetting (s : State) (l : List Nat) : (s.ctrDrop l).resetting = s.resetting := rfl
@[simp] theorem State.ctrDrop_resetDue (s : State) (l : List Nat) : (s.ctrDrop l).resetDue = s.resetDue := rfl
@[simp] theorem State.ctrDrop_pins (s : State) (l : List Nat) : (s.ctrDrop l).pins = s.pins := rfl
@[simp] theorem State.ctrDrop_ptmcs (s : State) (l : List Nat) : (s.ctrDrop l).ptmcs = s.ptmcs := rfl
@[simp] theorem State.ctrDrop_nextPtmc (s : State) (l : List Nat) : (s.ctrDrop l).nextPtmc = s.nextPtmc := rfl
@[simp] theorem State.ctrDrop_walks (s : State) (l : List Nat) : (s.ctrDrop l).walks = s.walks := rfl
@[simp] theorem State.ctrDrop_nextWalk (s : State) (l : List Nat) : (s.ctrDrop l).nextWalk = s.nextWalk := rfl
@[simp] theorem State.ctrDrop_tinv (s : State) (l : List Nat) : (s.ctrDrop l).tinv = s.tinv := rfl
@[simp] theorem State.ctrDrop_scrub (s : State) (l : List Nat) : (s.ctrDrop l).scrub = s.scrub := rfl
@[simp] theorem State.ctrDrop_power (s : State) (l : List Nat) : (s.ctrDrop l).power = s.power := rfl

/-! ### `retired` -/

@[simp] theorem State.retired_timebase (s : State) : (s.retired).timebase = s.timebase := rfl
@[simp] theorem State.retired_agenda (s : State) : (s.retired).agenda = s.agenda := rfl
@[simp] theorem State.retired_turn (s : State) : (s.retired).turn = s.turn := rfl
@[simp] theorem State.retired_cur (s : State) : (s.retired).cur = s.cur := rfl
@[simp] theorem State.retired_issue (s : State) : (s.retired).issue = s.issue := rfl
@[simp] theorem State.retired_lateness (s : State) : (s.retired).lateness = s.lateness := rfl
@[simp] theorem State.retired_freeCount (s : State) : (s.retired).freeCount = s.freeCount := rfl
@[simp] theorem State.retired_cores (s : State) : (s.retired).cores = s.cores := rfl
@[simp] theorem State.retired_store (s : State) : (s.retired).store = s.store := rfl
@[simp] theorem State.retired_counters (s : State) : (s.retired).counters = s.counters := rfl
@[simp] theorem State.retired_ctrOld (s : State) : (s.retired).ctrOld = s.ctrOld := rfl
@[simp] theorem State.retired_clearedNow (s : State) : (s.retired).clearedNow = s.clearedNow := rfl
@[simp] theorem State.retired_engTraps (s : State) : (s.retired).engTraps = s.engTraps := rfl
@[simp] theorem State.retired_launches (s : State) : (s.retired).launches = s.launches := rfl
@[simp] theorem State.retired_nextLid (s : State) : (s.retired).nextLid = s.nextLid := rfl
@[simp] theorem State.retired_tickets (s : State) : (s.retired).tickets = s.tickets := rfl
@[simp] theorem State.retired_reserved (s : State) : (s.retired).reserved = s.reserved := rfl
@[simp] theorem State.retired_took (s : State) : (s.retired).took = s.took := rfl
@[simp] theorem State.retired_chose (s : State) : (s.retired).chose = s.chose := rfl
@[simp] theorem State.retired_stepped (s : State) : (s.retired).stepped = s.stepped := rfl
@[simp] theorem State.retired_regs (s : State) : (s.retired).regs = s.regs := rfl
@[simp] theorem State.retired_obs (s : State) : (s.retired).obs = s.obs := rfl
@[simp] theorem State.retired_halted (s : State) : (s.retired).halted = s.halted := rfl
@[simp] theorem State.retired_haltDue (s : State) : (s.retired).haltDue = s.haltDue := rfl
@[simp] theorem State.retired_host (s : State) : (s.retired).host = s.host := rfl
@[simp] theorem State.retired_fabric (s : State) : (s.retired).fabric = s.fabric := rfl
@[simp] theorem State.retired_storage (s : State) : (s.retired).storage = s.storage := rfl
@[simp] theorem State.retired_flash (s : State) : (s.retired).flash = s.flash := rfl
@[simp] theorem State.retired_mgmt (s : State) : (s.retired).mgmt = s.mgmt := rfl
@[simp] theorem State.retired_boot (s : State) : (s.retired).boot = s.boot := rfl
@[simp] theorem State.retired_sec (s : State) : (s.retired).sec = s.sec := rfl
@[simp] theorem State.retired_dbg (s : State) : (s.retired).dbg = s.dbg := rfl
@[simp] theorem State.retired_park (s : State) : (s.retired).park = s.park := rfl
@[simp] theorem State.retired_stby (s : State) : (s.retired).stby = s.stby := rfl
@[simp] theorem State.retired_resetting (s : State) : (s.retired).resetting = s.resetting := rfl
@[simp] theorem State.retired_resetDue (s : State) : (s.retired).resetDue = s.resetDue := rfl
@[simp] theorem State.retired_pins (s : State) : (s.retired).pins = s.pins := rfl
@[simp] theorem State.retired_ptmcs (s : State) : (s.retired).ptmcs = s.ptmcs := rfl
@[simp] theorem State.retired_nextPtmc (s : State) : (s.retired).nextPtmc = s.nextPtmc := rfl
@[simp] theorem State.retired_walks (s : State) : (s.retired).walks = s.walks := rfl
@[simp] theorem State.retired_nextWalk (s : State) : (s.retired).nextWalk = s.nextWalk := rfl
@[simp] theorem State.retired_tinv (s : State) : (s.retired).tinv = s.tinv := rfl
@[simp] theorem State.retired_scrub (s : State) : (s.retired).scrub = s.scrub := rfl
@[simp] theorem State.retired_power (s : State) : (s.retired).power = s.power := rfl

/-! ### `atSlot` -/

@[simp] theorem State.atSlot_timebase (s : State) (e : GSlot) (p : Before) : (s.atSlot e p).timebase = s.timebase := rfl
@[simp] theorem State.atSlot_agenda (s : State) (e : GSlot) (p : Before) : (s.atSlot e p).agenda = s.agenda := rfl
@[simp] theorem State.atSlot_turn (s : State) (e : GSlot) (p : Before) : (s.atSlot e p).turn = s.turn := rfl
@[simp] theorem State.atSlot_cur (s : State) (e : GSlot) (p : Before) : (s.atSlot e p).cur = s.cur := rfl
@[simp] theorem State.atSlot_lateness (s : State) (e : GSlot) (p : Before) : (s.atSlot e p).lateness = s.lateness := rfl
@[simp] theorem State.atSlot_freeCount (s : State) (e : GSlot) (p : Before) : (s.atSlot e p).freeCount = s.freeCount := rfl
@[simp] theorem State.atSlot_cores (s : State) (e : GSlot) (p : Before) : (s.atSlot e p).cores = s.cores := rfl
@[simp] theorem State.atSlot_store (s : State) (e : GSlot) (p : Before) : (s.atSlot e p).store = s.store := rfl
@[simp] theorem State.atSlot_counters (s : State) (e : GSlot) (p : Before) : (s.atSlot e p).counters = s.counters := rfl
@[simp] theorem State.atSlot_ctrOld (s : State) (e : GSlot) (p : Before) : (s.atSlot e p).ctrOld = s.ctrOld := rfl
@[simp] theorem State.atSlot_clearedNow (s : State) (e : GSlot) (p : Before) : (s.atSlot e p).clearedNow = s.clearedNow := rfl
@[simp] theorem State.atSlot_engTraps (s : State) (e : GSlot) (p : Before) : (s.atSlot e p).engTraps = s.engTraps := rfl
@[simp] theorem State.atSlot_launches (s : State) (e : GSlot) (p : Before) : (s.atSlot e p).launches = s.launches := rfl
@[simp] theorem State.atSlot_nextLid (s : State) (e : GSlot) (p : Before) : (s.atSlot e p).nextLid = s.nextLid := rfl
@[simp] theorem State.atSlot_tickets (s : State) (e : GSlot) (p : Before) : (s.atSlot e p).tickets = s.tickets := rfl
@[simp] theorem State.atSlot_reserved (s : State) (e : GSlot) (p : Before) : (s.atSlot e p).reserved = s.reserved := rfl
@[simp] theorem State.atSlot_took (s : State) (e : GSlot) (p : Before) : (s.atSlot e p).took = s.took := rfl
@[simp] theorem State.atSlot_chose (s : State) (e : GSlot) (p : Before) : (s.atSlot e p).chose = s.chose := rfl
@[simp] theorem State.atSlot_stepped (s : State) (e : GSlot) (p : Before) : (s.atSlot e p).stepped = s.stepped := rfl
@[simp] theorem State.atSlot_regs (s : State) (e : GSlot) (p : Before) : (s.atSlot e p).regs = s.regs := rfl
@[simp] theorem State.atSlot_obs (s : State) (e : GSlot) (p : Before) : (s.atSlot e p).obs = s.obs := rfl
@[simp] theorem State.atSlot_halted (s : State) (e : GSlot) (p : Before) : (s.atSlot e p).halted = s.halted := rfl
@[simp] theorem State.atSlot_haltDue (s : State) (e : GSlot) (p : Before) : (s.atSlot e p).haltDue = s.haltDue := rfl
@[simp] theorem State.atSlot_host (s : State) (e : GSlot) (p : Before) : (s.atSlot e p).host = s.host := rfl
@[simp] theorem State.atSlot_fabric (s : State) (e : GSlot) (p : Before) : (s.atSlot e p).fabric = s.fabric := rfl
@[simp] theorem State.atSlot_storage (s : State) (e : GSlot) (p : Before) : (s.atSlot e p).storage = s.storage := rfl
@[simp] theorem State.atSlot_flash (s : State) (e : GSlot) (p : Before) : (s.atSlot e p).flash = s.flash := rfl
@[simp] theorem State.atSlot_mgmt (s : State) (e : GSlot) (p : Before) : (s.atSlot e p).mgmt = s.mgmt := rfl
@[simp] theorem State.atSlot_boot (s : State) (e : GSlot) (p : Before) : (s.atSlot e p).boot = s.boot := rfl
@[simp] theorem State.atSlot_sec (s : State) (e : GSlot) (p : Before) : (s.atSlot e p).sec = s.sec := rfl
@[simp] theorem State.atSlot_dbg (s : State) (e : GSlot) (p : Before) : (s.atSlot e p).dbg = s.dbg := rfl
@[simp] theorem State.atSlot_park (s : State) (e : GSlot) (p : Before) : (s.atSlot e p).park = s.park := rfl
@[simp] theorem State.atSlot_stby (s : State) (e : GSlot) (p : Before) : (s.atSlot e p).stby = s.stby := rfl
@[simp] theorem State.atSlot_resetting (s : State) (e : GSlot) (p : Before) : (s.atSlot e p).resetting = s.resetting := rfl
@[simp] theorem State.atSlot_resetDue (s : State) (e : GSlot) (p : Before) : (s.atSlot e p).resetDue = s.resetDue := rfl
@[simp] theorem State.atSlot_pins (s : State) (e : GSlot) (p : Before) : (s.atSlot e p).pins = s.pins := rfl
@[simp] theorem State.atSlot_ptmcs (s : State) (e : GSlot) (p : Before) : (s.atSlot e p).ptmcs = s.ptmcs := rfl
@[simp] theorem State.atSlot_nextPtmc (s : State) (e : GSlot) (p : Before) : (s.atSlot e p).nextPtmc = s.nextPtmc := rfl
@[simp] theorem State.atSlot_walks (s : State) (e : GSlot) (p : Before) : (s.atSlot e p).walks = s.walks := rfl
@[simp] theorem State.atSlot_nextWalk (s : State) (e : GSlot) (p : Before) : (s.atSlot e p).nextWalk = s.nextWalk := rfl
@[simp] theorem State.atSlot_tinv (s : State) (e : GSlot) (p : Before) : (s.atSlot e p).tinv = s.tinv := rfl
@[simp] theorem State.atSlot_scrub (s : State) (e : GSlot) (p : Before) : (s.atSlot e p).scrub = s.scrub := rfl
@[simp] theorem State.atSlot_power (s : State) (e : GSlot) (p : Before) : (s.atSlot e p).power = s.power := rfl

@[simp] theorem State.retired_last (s : State) : s.retired.last = .done := rfl

/-! ### A core -/

@[simp] theorem Core.setCtx_running (k : Core) (n : Nat) (c : Ctx) : (k.setCtx n c).running = k.running := rfl
@[simp] theorem Core.setCtx_ended (k : Core) (n : Nat) (c : Ctx) : (k.setCtx n c).ended = k.ended := rfl
@[simp] theorem Core.setCtx_freeze (k : Core) (n : Nat) (c : Ctx) : (k.setCtx n c).freeze = k.freeze := rfl
@[simp] theorem Core.setCtx_mxq (k : Core) (n : Nat) (c : Ctx) : (k.setCtx n c).mxq = k.mxq := rfl
@[simp] theorem Core.setCtx_cpq (k : Core) (n : Nat) (c : Ctx) : (k.setCtx n c).cpq = k.cpq := rfl
@[simp] theorem Core.setCtx_msq (k : Core) (n : Nat) (c : Ctx) : (k.setCtx n c).msq = k.msq := rfl
@[simp] theorem Core.setCtx_adds (k : Core) (n : Nat) (c : Ctx) : (k.setCtx n c).adds = k.adds := rfl
@[simp] theorem Core.setCtx_seq (k : Core) (n : Nat) (c : Ctx) : (k.setCtx n c).seq = k.seq := rfl
@[simp] theorem Core.setCtx_stbl (k : Core) (n : Nat) (c : Ctx) : (k.setCtx n c).stbl = k.stbl := rfl
@[simp] theorem Core.setCtx_gated (k : Core) (n : Nat) (c : Ctx) : (k.setCtx n c).gated = k.gated := rfl

/-! ### A context -/

@[simp] theorem Ctx.schedule_g (c : Ctx) (d : Land) (n : Nat) (v : Value) (x : Num.Flags) :
    (c.schedule d n v x).g = c.g := rfl
@[simp] theorem Ctx.schedule_v (c : Ctx) (d : Land) (n : Nat) (v : Value) (x : Num.Flags) :
    (c.schedule d n v x).v = c.v := rfl
@[simp] theorem Ctx.schedule_kdef (c : Ctx) (d : Land) (n : Nat) (v : Value) (x : Num.Flags) :
    (c.schedule d n v x).kdef = c.kdef := rfl
@[simp] theorem Ctx.schedule_kpres (c : Ctx) (d : Land) (n : Nat) (v : Value) (x : Num.Flags) :
    (c.schedule d n v x).kpres = c.kpres := rfl
@[simp] theorem Ctx.schedule_lo (c : Ctx) (d : Land) (n : Nat) (v : Value) (x : Num.Flags) :
    (c.schedule d n v x).lo = c.lo := rfl
@[simp] theorem Ctx.schedule_lp (c : Ctx) (d : Land) (n : Nat) (v : Value) (x : Num.Flags) :
    (c.schedule d n v x).lp = c.lp := rfl
@[simp] theorem Ctx.schedule_q (c : Ctx) (d : Land) (n : Nat) (v : Value) (x : Num.Flags) :
    (c.schedule d n v x).q = c.q := rfl
@[simp] theorem Ctx.schedule_at8 (c : Ctx) (d : Land) (n : Nat) (v : Value) (x : Num.Flags) :
    (c.schedule d n v x).at8 = c.at8 := rfl
@[simp] theorem Ctx.schedule_ct4 (c : Ctx) (d : Land) (n : Nat) (v : Value) (x : Num.Flags) :
    (c.schedule d n v x).ct4 = c.ct4 := rfl
@[simp] theorem Ctx.schedule_mxl (c : Ctx) (d : Land) (n : Nat) (v : Value) (x : Num.Flags) :
    (c.schedule d n v x).mxl = c.mxl := rfl
@[simp] theorem Ctx.schedule_loop0 (c : Ctx) (d : Land) (n : Nat) (v : Value) (x : Num.Flags) :
    (c.schedule d n v x).loop0 = c.loop0 := rfl
@[simp] theorem Ctx.schedule_loop1 (c : Ctx) (d : Land) (n : Nat) (v : Value) (x : Num.Flags) :
    (c.schedule d n v x).loop1 = c.loop1 := rfl
@[simp] theorem Ctx.schedule_fpm (c : Ctx) (d : Land) (n : Nat) (v : Value) (x : Num.Flags) :
    (c.schedule d n v x).fpm = c.fpm := rfl
@[simp] theorem Ctx.schedule_ff (c : Ctx) (d : Land) (n : Nat) (v : Value) (x : Num.Flags) :
    (c.schedule d n v x).ff = c.ff := rfl
@[simp] theorem Ctx.schedule_ffPre (c : Ctx) (d : Land) (n : Nat) (v : Value) (x : Num.Flags) :
    (c.schedule d n v x).ffPre = c.ffPre := rfl
@[simp] theorem Ctx.schedule_stamp (c : Ctx) (d : Land) (n : Nat) (v : Value) (x : Num.Flags) :
    (c.schedule d n v x).stamp = c.stamp := rfl
@[simp] theorem Ctx.schedule_drop (c : Ctx) (d : Land) (n : Nat) (v : Value) (x : Num.Flags) :
    (c.schedule d n v x).drop = c.drop := rfl
@[simp] theorem Ctx.schedule_emu (c : Ctx) (d : Land) (n : Nat) (v : Value) (x : Num.Flags) :
    (c.schedule d n v x).emu = c.emu := rfl
@[simp] theorem Ctx.schedule_ord (c : Ctx) (d : Land) (n : Nat) (v : Value) (x : Num.Flags) :
    (c.schedule d n v x).ord = c.ord := rfl
@[simp] theorem Ctx.schedule_strict (c : Ctx) (d : Land) (n : Nat) (v : Value) (x : Num.Flags) :
    (c.schedule d n v x).strict = c.strict := rfl
@[simp] theorem Ctx.schedule_cyc (c : Ctx) (d : Land) (n : Nat) (v : Value) (x : Num.Flags) :
    (c.schedule d n v x).cyc = c.cyc := rfl
@[simp] theorem Ctx.schedule_nrg (c : Ctx) (d : Land) (n : Nat) (v : Value) (x : Num.Flags) :
    (c.schedule d n v x).nrg = c.nrg := rfl
@[simp] theorem Ctx.schedule_tr (c : Ctx) (d : Land) (n : Nat) (v : Value) (x : Num.Flags) :
    (c.schedule d n v x).tr = c.tr := rfl
@[simp] theorem Ctx.schedule_ctaint (c : Ctx) (d : Land) (n : Nat) (v : Value) (x : Num.Flags) :
    (c.schedule d n v x).ctaint = c.ctaint := rfl
@[simp] theorem Ctx.schedule_lctr (c : Ctx) (d : Land) (n : Nat) (v : Value) (x : Num.Flags) :
    (c.schedule d n v x).lctr = c.lctr := rfl
@[simp] theorem Ctx.schedule_blocks (c : Ctx) (d : Land) (n : Nat) (v : Value) (x : Num.Flags) :
    (c.schedule d n v x).blocks = c.blocks := rfl
@[simp] theorem Ctx.schedule_pc (c : Ctx) (d : Land) (n : Nat) (v : Value) (x : Num.Flags) :
    (c.schedule d n v x).pc = c.pc := rfl
@[simp] theorem Ctx.schedule_first (c : Ctx) (d : Land) (n : Nat) (v : Value) (x : Num.Flags) :
    (c.schedule d n v x).first = c.first := rfl
@[simp] theorem Ctx.schedule_delay (c : Ctx) (d : Land) (n : Nat) (v : Value) (x : Num.Flags) :
    (c.schedule d n v x).delay = c.delay := rfl
@[simp] theorem Ctx.schedule_status (c : Ctx) (d : Land) (n : Nat) (v : Value) (x : Num.Flags) :
    (c.schedule d n v x).status = c.status := rfl
@[simp] theorem Ctx.schedule_run (c : Ctx) (d : Land) (n : Nat) (v : Value) (x : Num.Flags) :
    (c.schedule d n v x).run = c.run := rfl
@[simp] theorem Ctx.schedule_bank (c : Ctx) (d : Land) (n : Nat) (v : Value) (x : Num.Flags) :
    (c.schedule d n v x).bank = c.bank := rfl
@[simp] theorem Ctx.schedule_emuDone (c : Ctx) (d : Land) (n : Nat) (v : Value) (x : Num.Flags) :
    (c.schedule d n v x).emuDone = c.emuDone := rfl
@[simp] theorem Ctx.schedule_tret (c : Ctx) (d : Land) (n : Nat) (v : Value) (x : Num.Flags) :
    (c.schedule d n v x).tret = c.tret := rfl
@[simp] theorem Ctx.schedule_eret (c : Ctx) (d : Land) (n : Nat) (v : Value) (x : Num.Flags) :
    (c.schedule d n v x).eret = c.eret := rfl
@[simp] theorem Ctx.schedule_sid (c : Ctx) (d : Land) (n : Nat) (v : Value) (x : Num.Flags) :
    (c.schedule d n v x).sid = c.sid := rfl
@[simp] theorem Ctx.schedule_tent (c : Ctx) (d : Land) (n : Nat) (v : Value) (x : Num.Flags) :
    (c.schedule d n v x).tent = c.tent := rfl
@[simp] theorem Ctx.schedule_wake (c : Ctx) (d : Land) (n : Nat) (v : Value) (x : Num.Flags) :
    (c.schedule d n v x).wake = c.wake := rfl
@[simp] theorem Ctx.schedule_react (c : Ctx) (d : Land) (n : Nat) (v : Value) (x : Num.Flags) :
    (c.schedule d n v x).react = c.react := rfl
@[simp] theorem Ctx.schedule_alloc (c : Ctx) (d : Land) (n : Nat) (v : Value) (x : Num.Flags) :
    (c.schedule d n v x).alloc = c.alloc := rfl
@[simp] theorem Ctx.schedule_batch (c : Ctx) (d : Land) (n : Nat) (v : Value) (x : Num.Flags) :
    (c.schedule d n v x).batch = c.batch := rfl
@[simp] theorem Ctx.schedule_lastCnt (c : Ctx) (d : Land) (n : Nat) (v : Value) (x : Num.Flags) :
    (c.schedule d n v x).lastCnt = c.lastCnt := rfl
@[simp] theorem Ctx.schedule_mark (c : Ctx) (d : Land) (n : Nat) (v : Value) (x : Num.Flags) :
    (c.schedule d n v x).mark = c.mark := rfl
@[simp] theorem Ctx.schedule_skipBreak (c : Ctx) (d : Land) (n : Nat) (v : Value) (x : Num.Flags) :
    (c.schedule d n v x).skipBreak = c.skipBreak := rfl
@[simp] theorem Ctx.schedule_skipWatch (c : Ctx) (d : Land) (n : Nat) (v : Value) (x : Num.Flags) :
    (c.schedule d n v x).skipWatch = c.skipWatch := rfl
@[simp] theorem Ctx.schedule_feWait (c : Ctx) (d : Land) (n : Nat) (v : Value) (x : Num.Flags) :
    (c.schedule d n v x).feWait = c.feWait := rfl
@[simp] theorem Ctx.schedule_walkExpired (c : Ctx) (d : Land) (n : Nat) (v : Value) (x : Num.Flags) :
    (c.schedule d n v x).walkExpired = c.walkExpired := rfl

@[simp] theorem Ctx.schedule_pend (c : Ctx) (d : Land) (n : Nat) (v : Value) (x : Num.Flags) :
    (c.schedule d n v x).pend = c.pend ++ [⟨n, d, v, x, false, [], 0#64, none, none⟩] := rfl

/-! ### Keyed lists -/

theorem alGet_cons {α : Type} (p : Nat × α) (l : List (Nat × α)) (k : Nat) :
    alGet (p :: l) k = if p.1 = k then some p.2 else alGet l k := by
  by_cases h : p.1 = k <;> simp [alGet, h]

@[simp] theorem alGet_alPut_same {α : Type} (l : List (Nat × α)) (k : Nat) (v : α) : alGet (alPut l k v) k = some v := by
  induction l with
  | nil => simp [alPut, alGet_cons]
  | cons p l ih =>
    obtain ⟨j, w⟩ := p
    rw [alPut]
    split
    · rw [alGet_cons, if_neg (by dsimp only; omega), ih]
    · split <;> simp [alGet_cons]

theorem alGet_alPut_other {α : Type} (l : List (Nat × α)) (k m : Nat) (v : α) (h : m ≠ k) :
    alGet (alPut l k v) m = alGet l m := by
  induction l with
  | nil => simp [alPut, alGet_cons, Ne.symm h]
  | cons p l ih =>
    obtain ⟨j, w⟩ := p
    rw [alPut]
    split
    · rw [alGet_cons, alGet_cons, ih]
    · split
      · subst_vars; simp [alGet_cons, Ne.symm h]
      · simp [alGet_cons, Ne.symm h]

/-! ### Cores and contexts read after an update -/

@[simp] theorem State.core_setCore (s : State) (n : Nat) (c : Core) : (s.setCore n c).core n = c := by
  simp [State.core, State.setCore]

theorem State.core_setCore_other (s : State) (n m : Nat) (c : Core) (h : m ≠ n) : (s.setCore n c).core m = s.core m := by
  simp [State.core, State.setCore, alGet_alPut_other _ _ _ _ h]

@[simp] theorem State.core_updCore (s : State) (n : Nat) (f : Core → Core) : (s.updCore n f).core n = f (s.core n) := by
  simp [State.updCore]

theorem State.core_updCore_other (s : State) (n m : Nat) (f : Core → Core) (h : m ≠ n) :
    (s.updCore n f).core m = s.core m := State.core_setCore_other s n m _ h

@[simp] theorem Core.ctx_setCtx (k : Core) (n : Nat) (c : Ctx) : (k.setCtx n c).ctx n = c := by
  simp [Core.ctx, Core.setCtx]

theorem Core.ctx_setCtx_other (k : Core) (n m : Nat) (c : Ctx) (h : n % 4 ≠ m % 4) : (k.setCtx n c).ctx m = k.ctx m := by
  simp [Core.ctx, Core.setCtx, h]

@[simp] theorem State.ctx_setCtx (s : State) (x : CtxRef) (c : Ctx) : (s.setCtx x c).ctx x = c := by
  simp [State.ctx, State.setCtx]

@[simp] theorem State.ctx_updCtx (s : State) (x : CtxRef) (f : Ctx → Ctx) : (s.updCtx x f).ctx x = f (s.ctx x) := by
  simp [State.updCtx]

theorem State.ctx_updCtx_other (s : State) (x y : CtxRef) (f : Ctx → Ctx) (h : y.core ≠ x.core ∨ x.ctx % 4 ≠ y.ctx % 4) :
    (s.updCtx x f).ctx y = s.ctx y := by
  by_cases hc : y.core = x.core
  · have h4 : x.ctx % 4 ≠ y.ctx % 4 := by tauto
    simp [State.ctx, State.updCtx, State.setCtx, hc, Core.ctx_setCtx_other _ _ _ _ h4]
  · simp [State.ctx, State.updCtx, State.setCtx, State.core_updCore_other _ _ _ _ hc]

/-- Core queues are not touched by a change to a context. -/
theorem State.core_updCtx (s : State) (x : CtxRef) (f : Ctx → Ctx) (n : Nat) :
    ((s.updCtx x f).core n).mxq = (s.core n).mxq ∧ ((s.updCtx x f).core n).cpq = (s.core n).cpq ∧
      ((s.updCtx x f).core n).msq = (s.core n).msq ∧ ((s.updCtx x f).core n).adds = (s.core n).adds := by
  by_cases h : n = x.core
  · subst h; simp [State.updCtx, State.setCtx]
  · simp [State.updCtx, State.setCtx, State.core_updCore_other _ _ _ _ h]

theorem State.retired_core (s : State) (n : Nat) : s.retired.core n = s.core n := rfl

theorem State.retired_ctx (s : State) (x : CtxRef) : s.retired.ctx x = s.ctx x := rfl

/-- A change to a context made twice is one change. -/
theorem State.updCtx_updCtx (s : State) (x : CtxRef) (f g : Ctx → Ctx) : (s.updCtx x f).updCtx x g = s.updCtx x (g ∘ f) := by
  have put_put : ∀ (l : List (Nat × Core)) (k : Nat) (a b : Core), alPut (alPut l k a) k b = alPut l k b := by
    intro l k a b
    induction l with
    | nil => simp [alPut]
    | cons p l ih =>
      obtain ⟨j, w⟩ := p
      simp only [alPut]
      split
      · rename_i h; simp [alPut, h, ih]
      · split <;> simp [alPut]
  simp [State.updCtx, State.setCtx, State.updCore, State.setCore, State.ctx, State.core, put_put, Core.setCtx, Core.ctx]

end Sys2Proof.Machine
end

