-- ==== Sys2Proof/Laws/Memory.lean ====
section
/-!
SUPPORT. Memory: every operation on cells keeps the canonical form, a read after a write gives the bytes written, and a
write leaves every other key alone. The operations of the store that write memory follow.
-/

namespace Sys2Proof.Machine

theorem cellsFrom_mono (lo lo' : Nat) (h : lo' ≤ lo) (m : List Host.Cell) (w : cellsFrom lo m = true) :
    cellsFrom lo' m = true := by
  cases m with
  | nil => rfl
  | cons p m =>
    simp only [cellsFrom, Bool.and_eq_true, decide_eq_true_eq] at w ⊢
    exact ⟨⟨by omega, w.1.2⟩, w.2⟩

theorem cellPut_from (m : List Host.Cell) (a : Nat) (v : Byte) :
    ∀ lo, lo ≤ a → cellsFrom lo m = true → cellsFrom lo (cellPut m a v) = true := by
  induction m with
  | nil => intro lo h _; by_cases hv : v = 0#8 <;> simp [cellPut, hv, cellsFrom, h]
  | cons p m ih =>
    obtain ⟨k, b⟩ := p
    intro lo h w
    simp only [cellsFrom, Bool.and_eq_true, decide_eq_true_eq] at w
    obtain ⟨⟨hk, hb⟩, hm⟩ := w
    rw [cellPut]
    split_ifs with h1 h2 h3 h4
    · simp [cellsFrom, hk, hb, ih (k + 1) (by omega) hm]
    · exact cellsFrom_mono _ _ (by omega) _ hm
    · subst h2; simp [cellsFrom, h, h3, hm]
    · simp [cellsFrom, hk, hb, hm]
    · have : k ≥ a + 1 := by omega
      simp [cellsFrom, h, h4, hb, hm, this]

/-- A byte written keeps the canonical form. -/
theorem cellPut_wf (m : List Host.Cell) (a : Nat) (v : Byte) (w : Memory.wf m = true) : Memory.wf (cellPut m a v) = true :=
  cellPut_from m a v 0 (by omega) w

/-- Bytes written keep the canonical form. -/
theorem cellsWrite_wf (bs : List Byte) :
    ∀ (m : List Host.Cell) (a : Nat), Memory.wf m = true → Memory.wf (cellsWrite m a bs) = true := by
  induction bs with
  | nil => intro m a w; exact w
  | cons b bs ih => intro m a w; exact ih _ _ (cellPut_wf m a b w)

theorem cellGet_below (m : List Host.Cell) : ∀ lo a, cellsFrom lo m = true → a < lo → cellGet m a = 0#8 := by
  induction m with
  | nil => intros; rfl
  | cons p m ih =>
    obtain ⟨k, b⟩ := p
    intro lo a w h
    simp only [cellsFrom, Bool.and_eq_true, decide_eq_true_eq] at w
    rw [cellGet, if_neg (by omega)]
    exact ih (k + 1) a w.2 (by omega)

theorem cellGet_cellPut_from (m : List Host.Cell) (a : Nat) (v : Byte) :
    ∀ lo, cellsFrom lo m = true → cellGet (cellPut m a v) a = v := by
  induction m with
  | nil => intro lo _; by_cases hv : v = 0#8 <;> simp [cellPut, hv, cellGet]
  | cons p m ih =>
    obtain ⟨k, b⟩ := p
    intro lo w
    simp only [cellsFrom, Bool.and_eq_true, decide_eq_true_eq] at w
    rw [cellPut]
    split_ifs with h1 h2 h3 h4
    · rw [cellGet, if_neg (by omega)]; exact ih _ w.2
    · subst h2; rw [h3]; exact cellGet_below m _ _ w.2 (by omega)
    · simp [cellGet]
    · rw [cellGet, if_neg h2, h4]; exact cellGet_below m _ _ w.2 (by omega)
    · simp [cellGet]

/-- A byte read where it was written. -/
theorem cellGet_cellPut_same (m : List Host.Cell) (a : Nat) (v : Byte) (w : Memory.wf m = true) :
    cellGet (cellPut m a v) a = v := cellGet_cellPut_from m a v 0 w

/-- A write of a byte leaves every other key alone. -/
theorem cellGet_cellPut_other (m : List Host.Cell) (a b : Nat) (v : Byte) (h : b ≠ a) :
    cellGet (cellPut m a v) b = cellGet m b := by
  induction m with
  | nil => by_cases hv : v = 0#8 <;> simp [cellPut, hv, cellGet, Ne.symm h]
  | cons p m ih =>
    obtain ⟨k, c⟩ := p
    rw [cellPut]
    split_ifs with h1 h2 h3 h4
    · simp [cellGet, ih]
    · subst h2; simp [cellGet, Ne.symm h]
    · subst h2; simp [cellGet, Ne.symm h]
    · rfl
    · simp [cellGet, Ne.symm h]

/-- What every key reads after bytes are written. -/
theorem cellGet_cellsWrite (bs : List Byte) :
    ∀ (m : List Host.Cell) (a b : Nat), Memory.wf m = true →
      cellGet (cellsWrite m a bs) b = if a ≤ b ∧ b < a + bs.length then bs.getD (b - a) 0#8 else cellGet m b := by
  induction bs with
  | nil => intro m a b _; rw [if_neg (by simp)]; rfl
  | cons v bs ih =>
    intro m a b w
    rw [cellsWrite, ih _ _ _ (cellPut_wf m a v w)]
    by_cases hb : b = a
    · subst hb
      simp [cellGet_cellPut_same m b v w]
    · rw [cellGet_cellPut_other m a b v hb]
      by_cases h : a + 1 ≤ b ∧ b < a + 1 + bs.length
      · rw [if_pos h, if_pos (by simp; omega)]
        obtain ⟨n, hn⟩ : ∃ n, b - a = n + 1 := ⟨b - a - 1, by omega⟩
        rw [hn, show b - (a + 1) = n by omega]; simp
      · rw [if_neg h, if_neg (by simp; omega)]

/-- Bytes written leave every key outside them alone. -/
theorem cellGet_cellsWrite_other (bs : List Byte) :
    ∀ (m : List Host.Cell) (a b : Nat), ¬(a ≤ b ∧ b < a + bs.length) → cellGet (cellsWrite m a bs) b = cellGet m b := by
  induction bs with
  | nil => intros; rfl
  | cons v bs ih =>
    intro m a b h
    simp only [List.length_cons] at h
    rw [cellsWrite, ih _ _ _ (by omega), cellGet_cellPut_other _ _ _ _ (by omega)]

/-- Bytes read back where they were written. -/
theorem cellsRead_cellsWrite (m : List Host.Cell) (a : Nat) (bs : List Byte) (w : Memory.wf m = true) :
    cellsRead (cellsWrite m a bs) a bs.length = bs := by
  apply List.ext_getElem
  · simp [cellsRead]
  · intro i h1 h2
    simp only [cellsRead, List.getElem_map, List.getElem_range]
    rw [cellGet_cellsWrite _ _ _ _ w, if_pos (by omega)]
    simp [h2]

/-! ### Bytes and numbers (R2) -/

@[simp] theorem leBytes_length (n : Nat) : ∀ v, (leBytes n v).length = n := by
  induction n with
  | zero => intro v; rfl
  | succ n ih => intro v; simp [leBytes, ih]

/-- A number read back from its bytes, low byte first. -/
theorem leNat_leBytes (n : Nat) : ∀ v, leNat (leBytes n v) = v % 2 ^ (8 * n) := by
  induction n with
  | zero => intro v; simp [leBytes, leNat, Nat.mod_one]
  | succ n ih =>
    intro v
    simp only [leBytes, leNat, ih, BitVec.toNat_ofNat]
    rw [show 8 * (n + 1) = 8 + 8 * n by ring, pow_add, Nat.mod_mul]
    norm_num

/-! ### The operations of the store that write memory -/

theorem Store.put_wf (st : Store) (k : Nat) (bs : List Byte) (t : Bool) (w : Memory.wf st.mem = true) :
    Memory.wf (st.put k bs t).mem = true := cellsWrite_wf bs _ _ w

theorem Store.setSector_wf (st : Store) (k : Nat) (x : SecVal) (w : Memory.wf st.mem = true) :
    Memory.wf (st.setSector k x).mem = true := cellsWrite_wf x.1 _ _ w

/-- A fold of operations that keep the canonical form keeps it. -/
theorem foldl_wf {α : Type} (f : Store → α → Store) (h : ∀ st a, Memory.wf st.mem = true → Memory.wf (f st a).mem = true)
    (l : List α) : ∀ st : Store, Memory.wf st.mem = true → Memory.wf (l.foldl f st).mem = true := by
  induction l with
  | nil => intro st w; exact w
  | cons a l ih => intro st w; exact ih _ (h st a w)

theorem Store.copyLine_wf (st : Store) (src dst : Nat) (t : Bool) (w : Memory.wf st.mem = true) :
    Memory.wf (st.copyLine src dst t).mem = true :=
  foldl_wf _ (fun st _ w => Store.setSector_wf st _ _ w) _ st w

theorem Store.putPte_wf (st : Store) (e : Nat × Nat) (w : Memory.wf st.mem = true) : Memory.wf (st.putPte e).mem = true :=
  cellsWrite_wf _ _ _ w

theorem Store.place_wf (st : Store) (d : Nat) (b : Bundle) (w : Memory.wf st.mem = true) :
    Memory.wf (st.place d b).mem = true :=
  cellsWrite_wf _ _ _ (foldl_wf _ (fun st e w => Store.putPte_wf st e w) _ st w)

/-- A fold over memory of operations that keep the canonical form keeps it. -/
theorem foldl_cells_wf {α : Type} (f : List Host.Cell → α → List Host.Cell)
    (h : ∀ m a, Memory.wf m = true → Memory.wf (f m a) = true) (l : List α) :
    ∀ m, Memory.wf m = true → Memory.wf (l.foldl f m) = true := by
  induction l with
  | nil => intro m w; exact w
  | cons a l ih => intro m w; exact ih _ (h m a w)

/-- A change to a store that leaves its memory, made over a list. -/
theorem foldl_mem {α : Type} (f : Store → α → Store) (h : ∀ st a, (f st a).mem = st.mem) (l : List α) :
    ∀ st : Store, (l.foldl f st).mem = st.mem := by
  induction l with
  | nil => intro st; rfl
  | cons a l ih => intro st; rw [List.foldl_cons, ih, h]

theorem Store.setFull_mem (st : Store) (f : FeLine) : (st.setFull f).mem = st.mem := rfl

theorem Store.unconsume_wf (st : Store) (gone : List Nat) (c : Consumed) (w : Memory.wf st.mem = true) :
    Memory.wf (st.unconsume gone c).mem = true := by
  rw [Store.unconsume]
  split
  · exact w
  · rw [Store.setFull_mem]
    exact foldl_wf (fun (st : Store) i => { st with taint := numSet st.taint (c.line * 4 + i) (c.taints.getD i true) })
      (fun _ _ w => w) _ _ (cellsWrite_wf c.bytes st.mem (c.line * 128) w)

theorem Store.discard_wf (st : Store) (lid stamp : Nat) (gone : List Nat) (w : Memory.wf st.mem = true) :
    Memory.wf (st.discard lid stamp gone).mem = true :=
  foldl_wf _ (fun st c w => Store.unconsume_wf st gone c w) _ _ w

theorem Store.lease_mem (st : Store) (d : Nat) (v : Viewer) (p : Piece) : (st.lease d v p).mem = st.mem := by
  unfold Store.lease; split <;> [rfl; (dsimp only; split <;> rfl)]

theorem Store.log_mem (st : Store) (lid stamp : Nat) (es : List Eff) : (st.log lid stamp es).mem = st.mem := by
  unfold Store.log; split <;> rfl

theorem State.putSlot_wf (s : State) (x : CtxRef) (j slot : Nat) (bs : List Byte) (t : Bool) (w : s.sound) :
    (s.putSlot x j slot bs t).sound := cellsWrite_wf _ _ _ w

theorem State.fillBlock_wf (s : State) (x : CtxRef) (r : FmtRec) (j slot : Nat) (bs : List Byte) (t : Bool)
    (w : s.sound) : (s.fillBlock x r j slot bs t).sound := by
  unfold State.fillBlock
  split
  · exact cellsWrite_wf _ _ _ (State.putSlot_wf _ _ _ _ _ _ w)
  · exact State.putSlot_wf _ _ _ _ _ _ (State.putSlot_wf _ _ _ _ _ _ w)

theorem State.restoreAlloc_wf (s : State) (x : CtxRef) (e : Entry) (grb : Nat) (img : List Byte) (w : s.sound) :
    (s.restoreAlloc x e grb img).sound := by
  refine foldl_cells_wf _ (fun m _ w => cellsWrite_wf _ _ _ (cellsWrite_wf _ _ _ w)) _ _ (cellsWrite_wf _ _ _ (cellsWrite_wf _ _ _ ?_))
  exact foldl_cells_wf _ (fun m _ w => cellsWrite_wf _ _ _ w) _ _ w

/-- Memory right after reset is canonical. -/
theorem reset_memory_wf : Memory.wf State.reset.store.mem = true := by decide

end Sys2Proof.Machine
end

