-- ==== Sys2Proof/Laws/Moves.lean ====
section
/-!
SUPPORT. What a move can do, said once: a trigger whose checks pass carries out its operation, one with a false guard does
nothing, any other traps; and how a completed move came to complete.
-/

namespace Sys2Proof.Machine

theorem finish_ok (s : State) (m : BitVec 24) (t : State) : finish s m (.ok t) = .next t.retired := rfl

theorem finish_trap (s : State) (m : BitVec 24) (c : Byte) (k i : Nat) :
    finish s m (.trap c k i) =
      .next { s.takeTrap s.cur (s.trapOf m c k i) with last := .trapped (s.trapOf m c k i) } := rfl

theorem finish_block (s : State) (m : BitVec 24) (b : Block) :
    finish s m (.block b) = .next { s.enterBlock s.cur b with last := .blocked b } := rfl

theorem finish_reset (s : State) (m : BitVec 24) :
    finish s m .reset = .next { s.resetOf s.cur.core with last := .poisoned s.cur.core } := rfl

/-- A finished move has completed only if its operation has. -/
theorem finish_done {s t : State} {m : BitVec 24} {r : MoveR} (h : finish s m r = .next t) (d : t.last = .done) :
    ∃ u, r = .ok u ∧ t = u.retired := by
  cases r <;> simp only [finish, Host.Outcome.next.injEq] at h <;> subst h <;> simp_all [State.retired]

/-- A finished move always gives a next state. -/
theorem finish_next (s : State) (m : BitVec 24) (r : MoveR) : ∃ t, finish s m r = .next t := by
  cases r <;> exact ⟨_, rfl⟩

/-- A trigger whose checks pass carries out its operation. -/
theorem trigger_fires {u : Unit11} {d : Nat} {us : Uses} {body : Opnds → State → MoveR} {a : Src} {g : Guard} {s : State}
    (h : fires u d us a g s = true) : trigger u d us body a g s = finish s (slotOf a d g) (body (s.operands u us a) s) := by
  simp only [fires, formed, clocked, State.hasUnit, Bool.and_eq_true, Option.isNone_iff_eq_none] at h
  obtain ⟨⟨⟨h1, h2⟩, h3⟩, h4⟩ := h
  simp only [Bool.not_eq_true'] at h3
  simp only [trigger, h1, h2, Bool.not_true, Bool.false_eq_true, if_false, h3, Ctx.opnds, h4, State.operands]

/-- A trigger with a false guard completes and does nothing (R57). -/
theorem trigger_guarded {u : Unit11} {d : Nat} {us : Uses} {body : Opnds → State → MoveR} {a : Src} {g : Guard} {s : State}
    (h : formed d a s = true) (hg : s.me.guard g = false) : trigger u d us body a g s = .next s.retired := by
  simp only [formed, Option.isNone_iff_eq_none] at h
  simp [trigger, h, hg, finish_ok]

/-- How a trigger that has completed came to complete. -/
theorem trigger_done {u : Unit11} {d : Nat} {us : Uses} {body : Opnds → State → MoveR} {a : Src} {g : Guard}
    {s t : State} (h : trigger u d us body a g s = .next t) (hd : t.last = .done) :
    (s.me.guard g = false ∧ t = s.retired) ∨
      (fires u d us a g s = true ∧ ∃ v, body (s.operands u us a) s = .ok v ∧ t = v.retired) := by
  unfold trigger at h
  dsimp only at h
  split at h
  · obtain ⟨v, h1, _⟩ := finish_done h hd; cases h1
  · rename_i h1
    split at h
    · rename_i h2
      obtain ⟨v, h3, h4⟩ := finish_done h hd
      cases h3
      exact .inl ⟨by simpa using h2, h4⟩
    · rename_i h2
      split at h
      · obtain ⟨v, h3, _⟩ := finish_done h hd; cases h3
      · rename_i h3
        split at h
        · obtain ⟨v, h4, _⟩ := finish_done h hd; cases h4
        · rename_i h4
          refine .inr ⟨?_, finish_done h hd⟩
          have h5 : (tagCheck s.me ((us.vals (s.me.latchO u) (s.me.latchP u) (s.me.src s.issue.limm a)).map
            Value.tag)) = none := h4
          simp only [fires, formed, clocked, State.hasUnit, h1, h5, Option.isNone_none, Bool.true_and, Bool.and_true]
          simp at h2 h3
          rcases Bool.eq_false_or_eq_true s.sup with hs | hs <;> simp_all

/-- An event row whose data are within bounds gives its next state. -/
theorem event_ok {b : Bool} (h : b = true) (s : State) : event b s = .next s := by simp [event, h]

/-- A context in a block that has ended is ready. -/
theorem State.wakeIf_blocked {s : State} {x : CtxRef} {b : Block} {p : Block → Bool} (h : (s.ctx x).status = .blocked b)
    (hp : p b = true) : s.wakeIf x p = s.setStatus x .ready := by simp [State.wakeIf, h, hp]

/-- What a scalar result leaves: one more pending result, and nothing else. -/
theorem onlyPends_land (s : State) (q : Port) (n : Nat) (v : Value) (f : Num.Flags) :
    onlyPends s (s.land q n v f).retired :=
  .inr ⟨_, rfl⟩

/-- What a write at the next cycle leaves: one more pending result, and nothing else. -/
theorem onlyPends_landAt (s : State) (d : Land) (v : Value) : onlyPends s (s.landAt d v).retired := .inr ⟨_, rfl⟩

end Sys2Proof.Machine
end

