-- ==== Sys2Proof/Machine/Spf.lean ====
section
/-!
DEFINITION. Portable form (21_spaces R364-R369): the header, entries, declarations and records of an SPF object, and the
structural pass that kraug makes over them, a function of the object's bytes; and what an SPF reaction means, as a machine
that takes its records in list order (R366). kraug is a tool of the host, so nothing here is state of the device and no step
reads it (log 120).
-/

namespace Sys2Proof.Machine.Spf

/-! ### The object (R364, R365) -/

/-- The header (R364). -/
structure Header where
  smagic : Nat
  sver : Nat
  supv : Bool
  nrec : Nat
  nent : Nat
  nctr : Nat
  npipe : Nat
  recoff : Nat
  entoff : Nat
  declOff : Nat
  dataoff : Nat
  datalen : Nat
  deriving DecidableEq, Repr

/-- The header from the first 64 bytes of an object. -/
def headerOf (bs : List Byte) : Header :=
  let v := leNat (bs.take 64)
  ⟨bitsOf v 0 16, bitsOf v 16 8, v.testBit 24, bitsOf v 32 32, bitsOf v 64 16, bitsOf v 80 16, bitsOf v 96 16,
    bitsOf v 128 64, bitsOf v 192 64, bitsOf v 256 64, bitsOf v 320 64, bitsOf v 384 64⟩

/-- An entry: its first and last record (R364). -/
structure SpfEntry where
  first : Nat
  last : Nat
  deriving DecidableEq, Repr

/-- A counter declaration (R364). -/
structure CtrDecl where
  sel : Nat
  adder : Bool
  extern : Bool
  deriving DecidableEq, Repr

/-- An operation record (R365). -/
structure OpRec where
  dst : Nat
  dkind : Nat
  guard : Nat
  skind : Nat
  dvreg : Nat
  sval : Nat
  reserved : Bool
  deriving DecidableEq, Repr

/-- `n` bytes of an object from an offset, as a number. -/
def field (bs : List Byte) (off n : Nat) : Nat := leNat ((bs.drop off).take n)

/-- Entry `n` (R364). -/
def entryOf (h : Header) (bs : List Byte) (n : Nat) : SpfEntry :=
  let v := field bs (h.entoff + 16 * n) 16
  ⟨bitsOf v 0 32, bitsOf v 32 32⟩

/-- Counter declaration `n` (R364). -/
def ctrOf (h : Header) (bs : List Byte) (n : Nat) : CtrDecl :=
  let v := field bs (h.declOff + 16 * n) 16
  ⟨bitsOf v 0 32, v.testBit 32, v.testBit 33⟩

/-- Pipe `n`, after the counter declarations, laid out as the pipe word of R225 (R364). -/
def pipeAt (h : Header) (bs : List Byte) (n : Nat) : Pipe :=
  pipeOf (field bs (h.declOff + 16 * h.nctr + 8 * n) 8 * 2 ^ 2048) 0

/-- Record `n` (R365). -/
def recOf (h : Header) (bs : List Byte) (n : Nat) : OpRec :=
  let v := field bs (h.recoff + 16 * n) 16
  ⟨bitsOf v 0 10, bitsOf v 10 2, bitsOf v 12 4, bitsOf v 16 3, bitsOf v 32 16, bitsOf v 64 64,
    decide (bitsOf v 19 13 ≠ 0 ∨ bitsOf v 48 16 ≠ 0)⟩

/-! ### What a record is (R67, R68, R70-R72) -/

/-- The result ports that the trigger at a destination address writes. -/
def portsOf (d : Nat) : List Port :=
  if !assigned d then []
  else
    let k := (unitAt d).2 - 2
    match (unitAt d).1 with
    | .x0 => if k < 33 then [.x0q] else []
    | .x1 => if k < 33 then [.x1q] else []
    | .ls => if k < 7 then [.lsq] else []
    | .br => if [4, 8].contains k then [.brq] else []
    | .ck => if [2, 3, 4, 6, 7, 8, 10].contains k then [.ckq] else []
    | .sy => if [2, 4, 7, 8].contains k then [.syq] else []
    | .ve =>
      if k = 19 then [.veq, .veq2]
      else if [6, 7, 32, 33, 43, 44, 45, 48, 50].contains k then [.veq2]
      else if [52, 54, 56].contains k then []
      else [.veq]
    | .mx => if k = 7 then [.mxq] else []
    | .cp => if k = 12 then [.cpq] else []
    | .ms => if [5, 6].contains k then [.msq] else []
    | .sv => if [2, 5, 8, 10].contains k then [.svq] else []

/-- A destination that may hold a vector: `v` registers, and the `ve` block outside supervisor code (R67, R69). -/
def vectorDst (supv : Bool) (r : OpRec) : Bool :=
  decide (r.dkind = 2) ||
  (decide (r.dkind = 0) && (decide (0x40 ≤ r.dst ∧ r.dst < 0x60) || (!supv && decide (0x1A0 ≤ r.dst ∧ r.dst < 0x220))))

/-- A destination address that the mode of the object defines; `k` registers and the `sv` block are judged apart (R67-R69,
K-PRIV). -/
def dstDefined (supv : Bool) (d : Nat) : Bool :=
  if d < 0x40 then true
  else if d < 0x60 then !supv
  else if d < 0x70 then true
  else if d < 0x80 then false
  else if d < 0x300 then decide ((unitAt d).2 < 2) || assigned d
  else false

/-- An architected source address that a record may name: not a result port (R70, R365). -/
def srcDefined (supv : Bool) (v : Nat) : Bool :=
  match Src.ofCode v with
  | some (.port _) => false
  | some (.v _) => !supv
  | some _ => true
  | none => false

/-! ### The structural pass (R367) -/

/-- The codes of the pass. -/
inductive Code where
  | kHeader | kRecord | kTarget | kVreg | kProducer | kCounter | kPipe | kEntry | kPriv
  deriving DecidableEq, Repr

/-- How a code is printed. -/
def Code.text : Code → String
  | .kHeader => "K-HEADER"
  | .kRecord => "K-RECORD"
  | .kTarget => "K-TARGET"
  | .kVreg => "K-VREG"
  | .kProducer => "K-PRODUCER"
  | .kCounter => "K-COUNTER"
  | .kPipe => "K-PIPE"
  | .kEntry => "K-ENTRY"
  | .kPriv => "K-PRIV"

/-- A rejection: the number printed with it, and its code. A fault of the header, an entry or a declaration carries the
number of that entry or declaration, 0 for the header (log 120). -/
structure Rejection where
  number : Nat
  code : Code
  deriving DecidableEq, Repr

/-- The line that kraug prints (R367). -/
def Rejection.text (r : Rejection) : String := "record " ++ toString r.number ++ ": " ++ r.code.text

/-- Whether the header is well formed: magic, version, reserved bits, and every offset inside the object (R364, R367). -/
def headerOk (bs : List Byte) : Bool :=
  let v := leNat (bs.take 64)
  let h := headerOf bs
  decide (64 ≤ bs.length) && decide (h.smagic = 0x5346) && decide (h.sver = 1) &&
  decide (bitsOf v 25 7 = 0) && decide (bitsOf v 112 16 = 0) && decide (bitsOf v 448 64 = 0) &&
  decide (h.recoff % 16 = 0) && decide (h.recoff + 16 * h.nrec ≤ bs.length) && decide (h.entoff + 16 * h.nent ≤ bs.length) &&
  decide (h.declOff + 16 * h.nctr + 8 * h.npipe ≤ bs.length) && decide (h.dataoff + h.datalen ≤ bs.length)

/-- The first number below `n` with a property. -/
def firstBelow (n : Nat) (p : Nat → Bool) : Option Nat := (List.range n).find? p

/-- The entry whose records hold record `n`. -/
def ownEntry (es : List SpfEntry) (n : Nat) : Option SpfEntry :=
  es.find? fun e => decide (e.first ≤ n ∧ n ≤ e.last)

/-- An entry out of range or overlapping an earlier one (K-ENTRY). -/
def entryBad (h : Header) (es : List SpfEntry) (n : Nat) : Bool :=
  match es[n]? with
  | none => true
  | some e =>
    decide (h.nrec ≤ e.last ∨ e.last < e.first) ||
    (es.take n).any fun f => decide (e.first ≤ f.last ∧ f.first ≤ e.last)

/-- A pipe that is used and names an entry the object lacks, has one entry for both sides, has no line, or carries an
earlier pipe's name (K-PIPE, R47). -/
def pipeBad (h : Header) (ps : List Pipe) (n : Nat) : Bool :=
  match ps[n]? with
  | none => true
  | some p =>
    decide (p.name ≠ 0) &&
    (decide (h.nent ≤ p.prod ∨ h.nent ≤ p.cons ∨ p.prod = p.cons ∨ p.lines = 0) ||
      (ps.take n).any fun q => decide (q.name = p.name))

/-- A reserved bit of entry `n`. -/
def entryReserved (h : Header) (bs : List Byte) (n : Nat) : Bool :=
  decide (bitsOf (field bs (h.entoff + 16 * n) 16) 64 64 ≠ 0)

/-- A reserved bit of counter declaration `n`. -/
def ctrReserved (h : Header) (bs : List Byte) (n : Nat) : Bool :=
  let v := field bs (h.declOff + 16 * n) 16
  decide (bitsOf v 34 94 ≠ 0 ∨ bitsOf v 29 3 ≠ 0)

/-- A reserved bit of pipe `n`. -/
def pipeReserved (h : Header) (bs : List Byte) (n : Nat) : Bool :=
  decide (bitsOf (field bs (h.declOff + 16 * h.nctr + 8 * n) 8) 58 6 ≠ 0)

/-- What the pass has learnt of the records before the present one: the virtual registers used as scalars and as vectors,
and, in the present entry, the last immediate moved to `sy.o` if its last write was one, and whether a `sy.tend` record
has been read. -/
structure Pass where
  scalars : List Nat
  vectors : List Nat
  syo : Option Nat
  tend : Bool
  deriving DecidableEq, Repr

/-- The pass before any record: virtual registers 0 to 4 are the scalars `g0` to `g4` (R365). -/
def Pass.start : Pass := ⟨[0, 1, 2, 3, 4], [], none, false⟩

/-- The number of the `sy.o` latch, of the `sy.wait` trigger and of the `sy.tend` trigger (R68). -/
abbrev syO : Nat := 0x180
abbrev syWaitPort : Nat := 0x183
abbrev syTendPort : Nat := 0x187

/-- Whether a source is known to be a vector: a `v` register, a virtual register used as one, or a producer whose only port
is `ve.q` outside supervisor code. -/
def vectorSrc (supv : Bool) (p : Pass) (rs : Nat → OpRec) (r : OpRec) : Bool :=
  match r.skind with
  | 0 => decide (0x40 ≤ r.sval ∧ r.sval < 0x60)
  | 1 => p.vectors.contains r.sval
  | 3 => !supv && decide (portsOf (rs r.sval).dst = [.veq])
  | _ => false

/-- Whether record `n` names a producer that is an earlier trigger of its own entry and writes a port (K-PRODUCER). -/
def producerOk (e : Option SpfEntry) (rs : Nat → OpRec) (n k : Nat) : Bool :=
  match e with
  | none => false
  | some e => decide (e.first ≤ k ∧ k < n) && decide ((rs k).dkind = 0) && !(portsOf (rs k).dst).isEmpty

/-- Whether a counter is declared with an adder (K-COUNTER). -/
def waited (ds : List CtrDecl) (sel : Nat) : Bool := ds.any fun d => decide (d.sel = sel) && (d.adder || d.extern)

/-- The codes of one record, in the order of R367's table. -/
def recordCode (h : Header) (es : List SpfEntry) (ds : List CtrDecl) (rs : Nat → OpRec) (p : Pass) (n : Nat) :
    Option Code :=
  let r := rs n
  let e := ownEntry es n
  let priv := decide (r.dkind = 0) && (decide (0x60 ≤ r.dst ∧ r.dst < 0x70) || decide (0x2C0 ≤ r.dst ∧ r.dst < 0x300))
  if r.reserved || decide (r.dkind = 3) || decide (4 < r.skind) || (Guard.ofCode r.guard).isNone ||
      (decide (r.dkind = 0) && !dstDefined h.supv r.dst) || (decide (r.skind = 0) && !srcDefined h.supv r.sval) ||
      (h.supv && decide (r.dkind = 2)) || (vectorSrc h.supv p rs r && !vectorDst h.supv r) then some .kRecord
  else if decide (r.skind = 4) && !(match e with
      | some e => decide (e.first ≤ r.sval ∧ r.sval ≤ e.last)
      | none => false) then some .kTarget
  else if (decide (r.dkind = 1) && p.vectors.contains r.dvreg) || (decide (r.dkind = 2) && p.scalars.contains r.dvreg) then
    some .kVreg
  else if decide (r.skind = 3) && !producerOk e rs n r.sval then some .kProducer
  else if decide (r.dkind = 0 ∧ r.dst = syWaitPort) && !(match p.syo with
      | some sel => waited ds sel
      | none => false) then some .kCounter
  else if (match e with
      | some e => decide (n = e.last) && !p.tend && !decide (r.dkind = 0 ∧ r.dst = syTendPort)
      | none => false) then some .kEntry
  else if priv && !h.supv then some .kPriv
  else none

/-- What a record adds to the pass; an entry's first record begins its part anew. -/
def Pass.read (p : Pass) (r : OpRec) (first : Bool) : Pass :=
  let p := if first then { p with syo := none, tend := false } else p
  { p with
    scalars := if r.dkind = 1 then r.dvreg :: p.scalars else p.scalars
    vectors := if r.dkind = 2 then r.dvreg :: p.vectors else p.vectors
    syo := if r.dkind = 0 ∧ r.dst = syO then (if r.skind = 2 then some r.sval else none) else p.syo
    tend := p.tend || decide (r.dkind = 0 ∧ r.dst = syTendPort) }

/-- The records from `n` on, `fuel` of them, each once and in order; the first error ends the pass. -/
def records (h : Header) (es : List SpfEntry) (ds : List CtrDecl) (rs : Nat → OpRec) : Nat → Nat → Pass → Option Rejection
  | 0, _, _ => none
  | fuel + 1, n, p =>
    let first := es.any fun e => decide (e.first = n)
    let p0 := if first then { p with syo := none, tend := false } else p
    match recordCode h es ds rs p0 n with
    | some c => some ⟨n, c⟩
    | none => records h es ds rs fuel (n + 1) (p0.read (rs n) first)

/-- The structural pass: none when the object is accepted (R367). -/
def structuralPass (bs : List Byte) : Option Rejection :=
  let h := headerOf bs
  if !headerOk bs then some ⟨0, .kHeader⟩
  else
    let es := (List.range h.nent).map (entryOf h bs)
    let ds := (List.range h.nctr).map (ctrOf h bs)
    let ps := (List.range h.npipe).map (pipeAt h bs)
    let err (c : Code) (o : Option Nat) : Option Rejection := o.map fun n => ⟨n, c⟩
    (err .kHeader (firstBelow h.nent (entryReserved h bs))).or <|
      (err .kEntry (firstBelow h.nent (entryBad h es))).or <|
        (err .kHeader (firstBelow h.nctr (ctrReserved h bs))).or <|
          (err .kHeader (firstBelow h.npipe (pipeReserved h bs))).or <|
            (err .kPipe (firstBelow h.npipe (pipeBad h ps))).or <|
              records h es ds (recOf h bs) h.nrec 0 Pass.start

/-! ### What an SPF reaction means (R366) -/

/-- The address of a record: three bundles each, its own and two delay bundles, so that what `br.call` gives as the address
after the second delay bundle is the next record's (R64, R178; log 148). -/
def recordAt (base n : Nat) : Nat := base + 96 * n

/-- The record that stands at an address, or is the next after it. -/
def recordFrom (base a : Nat) : Nat := (a - base + 95) / 96

/-- An SPF reaction in progress beside its context: where its records stand, its virtual registers, and what each trigger record
made, port by port. -/
structure Run where
  base : Nat
  scalars : List (Nat × Value)
  vectors : List (Nat × Value)
  made : List (Nat × List (Port × Value))
  deriving DecidableEq, Repr

/-- A reaction that has taken no record. -/
def Run.start (base : Nat) : Run := ⟨base, [], [], []⟩

/-- A virtual register as it stands: 0 to 4 are `g0` to `g4`; one never written holds the entry value of a register, 0 (R35,
R365). -/
def Run.virt (u : Run) (c : Ctx) (n : Nat) : Value :=
  if n < 5 then .sc (c.reg (Fin.ofNat 64 n))
  else ((alGet u.scalars n).or (alGet u.vectors n)).getD (.sc SVal.zero)

/-- Whether a trigger takes its operand as a displacement from its own bundle (R178, R181). -/
def takesDisplacement (d : Nat) : Bool := [0x142, 0x143, 0x144, 0x146, 0x147, 0x148].contains d

/-- The result that a trigger record has made: at the first port it writes; before the record has made one, what stands there. -/
def Run.result (u : Run) (c : Ctx) (dst n : Nat) : Value :=
  match portsOf dst with
  | [] => .sc SVal.zero
  | q :: _ => (((alGet u.made n).bind fun l => l.find? fun e => decide (e.1 = q)).map Prod.snd).getD c.q[portIdx q]

/-- What a move reads, as its SKIND names it (R365, R366). -/
def Run.source (u : Run) (c : Ctx) (rs : Nat → OpRec) (n : Nat) : Value :=
  let r := rs n
  match r.skind with
  | 0 => ((Src.ofCode r.sval).map (c.src 0#32)).getD (.sc SVal.zero)
  | 1 => u.virt c r.sval
  | 2 => .scalar (BitVec.ofNat 64 r.sval) Tag.any false
  | 3 => u.result c (rs r.sval).dst r.sval
  | _ =>
    let a := BitVec.ofNat 64 (recordAt u.base r.sval)
    .scalar (if takesDisplacement r.dst then a - BitVec.ofNat 64 (recordAt u.base n) else a) Tag.any false

/-- A record as the one move of its group: its value comes by `x0.q`, which no record reads as an architected source (R365). -/
def recordSlot (base n : Nat) (r : OpRec) : GSlot :=
  ⟨BitVec.ofNat 64 (recordAt base n), 7, false, BitVec.ofNat 24 (Src.code (.port .x0q) * 2 ^ 14 + r.dst * 2 ^ 4 + r.guard), 0#32,
    false, false, 0, false⟩

/-- Latencies are kraug's: what a record has scheduled lands before the next record. -/
def landAll (c : Ctx) : Ctx :=
  ({ c with pend := c.pend.map fun p => { p with left := 0, late := false, fill := none } } : Ctx).landDue

/-- Delay bundles are kraug's: a transfer taken goes on at its target at once. -/
def takeTransfer (c : Ctx) : Ctx :=
  match c.delay with
  | some ⟨_, some a⟩ => { c with pc := a, first := 0, delay := none }
  | _ => { c with delay := none }

/-- The ports that a context's scheduled results go to. -/
def duePorts (c : Ctx) : List Port :=
  c.pend.filterMap fun p => match p.dest with
    | .port q => some q
    | _ => none

/-- A record that has taken effect: what it scheduled lands, what it made at each port is kept, and fetch goes on. -/
def Run.settle (u : Run) (x : CtxRef) (n : Nat) (s : State) : State × Run :=
  let ports := duePorts (s.ctx x)
  let c := landAll (s.ctx x)
  (s.updCtx x fun _ => takeTransfer c, { u with made := alPut u.made n (ports.map fun q => (q, c.q[portIdx q])) })

/-- A virtual register written, if the guard holds (R57, R365): a scalar moved to a vector register fills its lanes (R71). -/
def Run.write (u : Run) (c : Ctx) (r : OpRec) (v : Value) : Run :=
  if !((Guard.ofCode r.guard).map c.guard).getD false then u
  else if r.dkind = 1 then { u with scalars := alPut u.scalars r.dvreg (.sc v.toSVal) }
  else { u with vectors := alPut u.vectors r.dvreg (.ve v.toVVal) }

/-- The record at a context's fetch position (R366): a move to an architected destination issues as a group of its own, with the
meaning, the traps and the waits of that move; one to a virtual register writes it. A record that waits or traps stays. -/
def Run.record (ex : Exec) (u : Run) (x : CtxRef) (rs : Nat → OpRec) (s : State) : Host.Outcome (State × Run) Fault Refusal :=
  let c := s.ctx x
  let n := recordFrom u.base c.pc.toNat
  let r := rs n
  let v := u.source c rs n
  let e := recordSlot u.base n r
  let arch := r.dkind = 0 ∨ (r.dkind = 1 ∧ r.dvreg < 5)
  let e := if r.dkind = 0 then e else recordSlot u.base n { r with dst := r.dvreg % 64 }
  let at_ : State := ({ s with cur := x } : State).updCtx x fun c =>
    { c with q := c.q.set (portIdx .x0q) v, pc := e.bundle, first := 0 }
  if arch then
    match at_.issueGroup ex x ⟨[e], false, none⟩ with
    | .next t => .next (if (t.ctx x).cyc = c.cyc then (t, u) else u.settle x n t)
    | .fault f => .fault f
    | .refused f => .refused f
  else .next ((u.write c r v).settle x n (s.updCtx x fun c => ({ c with pc := e.bundle, first := 0 } : Ctx).commit [e]))

/-- Records of a reaction taken one after another, at most `fuel`, while its context is ready. -/
def Run.run (ex : Exec) (x : CtxRef) (rs : Nat → OpRec) : Nat → State × Run → Host.Outcome (State × Run) Fault Refusal
  | 0, q => .next q
  | fuel + 1, q =>
    if (q.1.ctx x).status ≠ .ready then .next q
    else
      match q.2.record ex x rs q.1 with
      | .next t => Run.run ex x rs fuel t
      | o => o

end Sys2Proof.Machine.Spf
end

