-- ==== Sys2Proof/Machine/Asm.lean ====
section
/-!
DEFINITION. The assembler (07_vxasm R142-R153): from source lines, as data, to the bytes of the text and data sections, the
relocations of load addresses and the diagnostics. vxasm is a tool of the host, so nothing here is state of the device and no
step reads it (log 121). Reading text into lines stands in AsmText.lean; schedules, listings, SPF output and the debugger in
AsmTools.lean.
-/

namespace Sys2Proof.Machine.Asm

/-! ### Lines as data (R142-R147) -/

/-- The sections (R147). -/
inductive Sect where
  | text | data | bss
  deriving DecidableEq, Repr

/-- An expression (R151); `place` is a label's place in its section (R152), and `dot` the current line. -/
inductive Expr where
  | lit (v : Word)
  | sym (n : String)
  | dot
  | place (s : Sect) (off : Nat)
  | neg (a : Expr)
  | mul (a b : Expr)
  | div (a b : Expr)
  | mod (a b : Expr)
  | add (a b : Expr)
  | sub (a b : Expr)
  | shl (a b : Expr)
  | shr (a b : Expr)
  deriving DecidableEq, Repr

/-- A guard as written (R146). -/
inductive GuardText where
  | always
  | k (n : Nat)
  | p (n : Nat)
  | other
  deriving DecidableEq, Repr

/-- A source as written (R144); `unknown` is a name that names no register or port. -/
inductive Operand where
  | reg (s : Src)
  | lit (e : Expr)
  | unknown
  deriving DecidableEq, Repr

/-- A move as written, its destination by address (R142, R146). -/
structure Mv where
  guard : GuardText
  src : Operand
  dst : Nat
  stop : Bool
  deriving DecidableEq, Repr

/-- The floating-point formats of data (R147). -/
inductive FloatFmt where
  | f32 | f16 | bf16
  deriving DecidableEq, Repr

/-- A floating-point literal: sign, digits without the point, and the exponent of 10, or of 2 for a hexadecimal one. -/
structure FloatLit where
  neg : Bool
  digits : Nat
  hex : Bool
  exp : Int
  deriving DecidableEq, Repr

/-- The codes of diagnostics (R155). -/
inductive Code where
  | eSyntax | eSlots | ePort | eImm | eNoimm | eGuard | eGroupLong | eGroupDep | eDelay | ePriv | eRange | eThresh | eMarkImm
  | eMacro | eSymbol | eAlign | eStep | eSpfRead | eVector
  | wEarly | wLost | wClock | wImmSign | wInexact | wDcyc | wMarkGap | wUnit
  deriving DecidableEq, Repr

/-- What a line holds after its label (R142, R147); `refused` is a line that could not be read. -/
inductive Body where
  | moves (ms : List Mv) (imm : Option Expr)
  | stepping (name : String)
  | sect (s : Sect)
  | align (n : Expr)
  | data (width : Nat) (es : List Expr)
  | floats (f : FloatFmt) (vs : List FloatLit)
  | space (n : Expr)
  | equ (n : String) (e : Expr)
  | globals (ns : List String)
  | reaction (name : String) (dcyc : Expr)
  | thresh (csel step base : Expr)
  | empty (n : Expr)
  | marker (expected remaining : Expr)
  | mode (sup : Bool)
  | refused (c : Code)
  | none
  deriving DecidableEq, Repr

/-- Where a source line stands: its file, and its number counted from 1 within it (R155). -/
structure SrcPos where
  file : String
  no : Nat
  deriving DecidableEq, Repr

/-- A source line (R142), with its place. -/
structure Line where
  pos : SrcPos
  label : Option String
  body : Body
  deriving DecidableEq, Repr

/-! ### Diagnostics (R155) -/

/-- How a code is printed. -/
def Code.text : Code → String
  | .eSyntax => "E-SYNTAX" | .eSlots => "E-SLOTS" | .ePort => "E-PORT" | .eImm => "E-IMM" | .eNoimm => "E-NOIMM"
  | .eGuard => "E-GUARD" | .eGroupLong => "E-GROUPLONG" | .eGroupDep => "E-GROUPDEP" | .eDelay => "E-DELAY"
  | .ePriv => "E-PRIV" | .eRange => "E-RANGE" | .eThresh => "E-THRESH" | .eMarkImm => "E-MARKIMM" | .eMacro => "E-MACRO"
  | .eSymbol => "E-SYMBOL" | .eAlign => "E-ALIGN" | .eStep => "E-STEP" | .eSpfRead => "E-SPFREAD" | .eVector => "E-VECTOR"
  | .wEarly => "W-EARLY" | .wLost => "W-LOST" | .wClock => "W-CLOCK" | .wImmSign => "W-IMMSIGN" | .wInexact => "W-INEXACT"
  | .wDcyc => "W-DCYC" | .wMarkGap => "W-MARKGAP" | .wUnit => "W-UNIT"

/-- Whether a code is a warning's. -/
def Code.isWarning : Code → Bool
  | .wEarly | .wLost | .wClock | .wImmSign | .wInexact | .wDcyc | .wMarkGap | .wUnit => true
  | _ => false

/-- A diagnostic: line, code, and slot where one applies. -/
structure Diag where
  line : SrcPos
  code : Code
  slot : Option Nat
  deriving DecidableEq, Repr

/-- A diagnostic as printed, with its free text (R155). -/
def Diag.text (words : String) (d : Diag) : String :=
  d.line.file ++ ":" ++ toString d.line.no ++ ": " ++ d.code.text ++ (d.slot.elim "" fun n => " slot " ++ toString n) ++ ": " ++ words

/-! ### Expressions (R151, R152) -/

/-- The load addresses of the sections. -/
structure Bases where
  text : Nat
  data : Nat
  bss : Nat
  deriving DecidableEq, Repr

/-- The load address of a section. -/
def Bases.of (b : Bases) : Sect → Nat
  | .text => b.text
  | .data => b.data
  | .bss => b.bss

/-- The value of a label within vxasm is its offset from the start of its section (R152). -/
def Bases.none : Bases := ⟨0, 0, 0⟩

/-- A symbol: the line that defines it, whether it is a label, and what it stands for. -/
structure Sym where
  name : String
  line : SrcPos
  isLabel : Bool
  val : Expr
  deriving DecidableEq, Repr

/-- The symbol of a name. -/
def lookup (env : List Sym) (n : String) : Option Sym := env.find? fun s => s.name == n

/-- The leaves of an expression replaced. -/
def Expr.bind (f : Expr → Expr) : Expr → Expr
  | .neg a => .neg (a.bind f)
  | .mul a b => .mul (a.bind f) (b.bind f)
  | .div a b => .div (a.bind f) (b.bind f)
  | .mod a b => .mod (a.bind f) (b.bind f)
  | .add a b => .add (a.bind f) (b.bind f)
  | .sub a b => .sub (a.bind f) (b.bind f)
  | .shl a b => .shl (a.bind f) (b.bind f)
  | .shr a b => .shr (a.bind f) (b.bind f)
  | e => f e

/-- `.` replaced by the place of its line. -/
def Expr.atLine (here : Sect × Nat) : Expr → Expr :=
  Expr.bind fun e => match e with
    | .dot => .place here.1 here.2
    | e => e

/-- Symbols replaced by what they stand for; an undefined one stays. -/
def Expr.subst (env : List Sym) : Expr → Expr :=
  Expr.bind fun e => match e with
    | .sym n => ((lookup env n).map Sym.val).getD (.sym n)
    | e => e

/-- Whether an expression holds a label (R152). -/
def Expr.holdsLabel : Expr → Bool
  | .lit _ | .sym _ => false
  | .dot | .place _ _ => true
  | .neg a => a.holdsLabel
  | .mul a b | .div a b | .mod a b | .add a b | .sub a b | .shl a b | .shr a b => a.holdsLabel || b.holdsLabel

/-- A shift count of 0 to 63 (R151). -/
def shiftCount (b : Word) : Except Code Nat := if b.toNat < 64 then .ok b.toNat else .error .eRange

/-- A division whose right operand is not 0 (R151). -/
def quotient (f : Int → Int → Int) (x y : Word) : Except Code Word :=
  if y = 0#64 then .error .eRange else .ok (BitVec.ofInt 64 (f x.toInt y.toInt))

/-- The value of an expression in 64-bit two's complement, its symbols replaced (R151); one that is left is undefined. -/
def Expr.eval (bs : Bases) : Expr → Except Code Word
  | .lit v => .ok v
  | .sym _ | .dot => .error .eSymbol
  | .place s o => .ok (BitVec.ofNat 64 (bs.of s + o))
  | .neg a => do return -(← a.eval bs)
  | .mul a b => do return (← a.eval bs) * (← b.eval bs)
  | .add a b => do return (← a.eval bs) + (← b.eval bs)
  | .sub a b => do return (← a.eval bs) - (← b.eval bs)
  | .div a b => do quotient Int.tdiv (← a.eval bs) (← b.eval bs)
  | .mod a b => do quotient Int.tmod (← a.eval bs) (← b.eval bs)
  | .shl a b => do return (← a.eval bs) <<< (← shiftCount (← b.eval bs))
  | .shr a b => do return (← a.eval bs).sshiftRight (← shiftCount (← b.eval bs))

/-- The symbols with their own symbols replaced: `n` rounds reach through a chain of `n` of them, in whatever order the lines
define them; a circle stays undefined (R151). -/
def settleSyms : Nat → List Sym → List Sym
  | 0, env => env
  | n + 1, env => settleSyms n (env.map fun s => { s with val := s.val.subst env })

/-- The fault that an expression has wherever the sections are placed (R151): an undefined symbol, a right operand of 0, or a bad
shift count; a right operand that holds a label is judged only at placement. -/
def Expr.fault : Expr → Option Code
  | .lit _ | .place _ _ => none
  | .sym _ | .dot => some .eSymbol
  | .neg a => a.fault
  | .mul a b | .add a b | .sub a b => a.fault.or b.fault
  | .div a b | .mod a b => (a.fault.or b.fault).or
      (if b.holdsLabel then none else match (b.eval Bases.none).bind (quotient Int.tdiv 0#64) with
        | .error c => some c
        | .ok _ => none)
  | .shl a b | .shr a b => (a.fault.or b.fault).or
      (if b.holdsLabel then none else match (b.eval Bases.none).bind shiftCount with
        | .error c => some c
        | .ok _ => none)

/-- An operand's value within vxasm (R152). -/
def constant (env : List Sym) (here : Sect × Nat) (e : Expr) : Except Code Int :=
  (((e.atLine here).subst env).eval Bases.none).map BitVec.toInt

/-- An operand's value in a range, else the code of its range. -/
def constantIn (env : List Sym) (here : Sect × Nat) (lo hi : Int) (code : Code) (e : Expr) : Except Code Int := do
  let v ← constant env here e
  if lo ≤ v ∧ v ≤ hi then return v else .error code

/-- The name of a text label that stands alone, or `.` alone on a text line, gives a displacement from the bundle (R145). -/
def displacement (env : List Sym) (here : Nat) : Expr → Option Int
  | .dot => some 0
  | .sym n =>
    match lookup env n with
    | some ⟨_, _, true, .place .text o⟩ => some ((o : Int) - here)
    | _ => none
  | _ => none

/-! ### Fields filled in now or at placement (R145, R147, R152) -/

/-- A field that takes a value: LIMM, or data of some bytes. -/
inductive Field where
  | limm
  | data (w : Nat)
  deriving DecidableEq, Repr

/-- The range of a field. -/
def Field.range : Field → Int × Int
  | .limm => (-2 ^ 31, 2 ^ 32 - 1)
  | .data w => (-2 ^ (8 * w - 1), 2 ^ (8 * w) - 1)

/-- The error of a value outside it. -/
def Field.code : Field → Code
  | .limm => .eImm
  | .data _ => .eRange

/-- The bytes of a field. -/
def Field.bytes : Field → Nat
  | .limm => 4
  | .data w => w

/-- A relocation: where a load address is filled in, in which field, and its value (R152). -/
structure Reloc where
  sect : Sect
  off : Nat
  field : Field
  val : Expr
  deriving DecidableEq, Repr

/-- What a field holds: a value, or the load address that a relocation will fill in. -/
inductive Filled where
  | now (v : Int)
  | later (e : Expr)
  deriving DecidableEq, Repr

/-- The value of a field in range. -/
def Field.check (f : Field) (v : Int) : Except Code Filled :=
  if f.range.1 ≤ v ∧ v ≤ f.range.2 then .ok (.now v) else .error f.code

/-- The content of a field from its expression: an expression that holds a label is a load address, filled in at placement, and
its faults that no placement can mend are told at once (R151, R152). -/
def Field.fill (env : List Sym) (here : Sect × Nat) (f : Field) (e : Expr) : Except Code Filled :=
  let r := (e.atLine here).subst env
  if r.holdsLabel then
    match r.fault with
    | some c => .error c
    | none => .ok (.later r)
  else (r.eval Bases.none).bind fun v => f.check v.toInt

/-- The content of LIMM from `=expr` on the bundle at `here` (R145, R152). -/
def limmOf (env : List Sym) (here : Nat) (e : Expr) : Except Code Filled :=
  match displacement env here e with
  | some d => Field.limm.check d
  | none => Field.limm.fill env (.text, here) e

/-- The value that stands in a field before placement. -/
def Filled.value : Filled → Int
  | .now v => v
  | .later _ => 0

/-- The relocation of a field, if it has one. -/
def Filled.reloc (sect : Sect) (off : Nat) (f : Field) : Filled → List Reloc
  | .now _ => []
  | .later e => [⟨sect, off, f, e⟩]

/-! ### From a line to a bundle (R142-R146, R149, R153) -/

/-- A guard, if it is one of R146. -/
def GuardText.guard : GuardText → Option Guard
  | .always => some .always
  | .k n => if 1 ≤ n ∧ n ≤ 7 then Guard.ofCode n else none
  | .p n => if n < 4 then Guard.ofCode (8 + n) else none
  | .other => none

/-- The source address of a move (R144): a literal is a short immediate. -/
def Operand.code (env : List Sym) (here : Nat) : Operand → Except Code Nat
  | .reg s => .ok s.code
  | .unknown => .error .ePort
  | .lit e => (constantIn env (.text, here) (-128) 127 .eImm e).map fun v => 0x100 + (v % 256).toNat

/-- Whether a destination address is one that source text can name (R68, R144). -/
def named (d : Nat) : Bool :=
  decide (d < 0x70) || (decide (0x80 ≤ d ∧ d < 0x300) && (decide ((unitAt d).2 < 2) || assigned d))

/-- Whether a move's source is a `v` register. -/
def Mv.fromVector (m : Mv) : Bool :=
  match m.src with
  | .reg (.v _) => true
  | _ => false

/-- Whether a move uses a unit that supervisor cores emulate: a destination in its block, or its result port (R69, R153). -/
def Mv.emulated (m : Mv) : Bool :=
  (decide (0x80 ≤ m.dst ∧ m.dst < 0x300) && (decide ((unitAt m.dst).1 = .ve) || decide ((unitAt m.dst).1 = .mx) ||
    decide ((unitAt m.dst).1 = .cp))) ||
  ([Port.veq, .veq2, .mxq, .cpq].any fun q => decide (m.src = .reg (.port q)))

/-- The codes that a move's own words decide (R146, R153): a privileged destination that takes a vector source in user mode has
both faults. -/
def Mv.codes (sup : Bool) (m : Mv) : List Code :=
  let vReg := decide (0x40 ≤ m.dst ∧ m.dst < 0x60)
  let vecSrc := m.fromVector || decide (m.src = .reg (.port .veq))
  let vecDst := vReg || decide (0x1A0 ≤ m.dst ∧ m.dst < 0x220)
  let priv := decide (0x60 ≤ m.dst ∧ m.dst < 0x70) || decide (0x2C0 ≤ m.dst) || decide (m.src = .reg (.port .svq))
  (if m.guard.guard.isNone then [.eGuard] else []) ++
  (if !named m.dst || (sup && (vReg || m.fromVector)) then [.ePort]
    else (if !sup && priv then [.ePriv] else []) ++ (if !sup && vecSrc && !vecDst then [.eVector] else [])) ++
  (if sup && m.emulated then [.wUnit] else [])

/-- The slot of a move (R56), with the diagnostics of the move. -/
def Mv.slot (env : List Sym) (sup : Bool) (line : SrcPos) (here i : Nat) (m : Mv) : BitVec 24 × List Diag :=
  let src := m.src.code env here
  let word := (src.toOption.getD 0) * 2 ^ 14 + m.dst % 2 ^ 10 * 2 ^ 4 + (m.guard.guard.map Guard.code).getD 0
  (BitVec.ofNat 24 word,
    ((m.codes sup) ++ (match src with
      | .ok _ => []
      | .error c => [c])).map fun c => ⟨line, c, some i⟩)

/-- The stop bits: a stop on the last move stands on slot 7 (R143). -/
def stops (ms : List Mv) : Nat :=
  ((ms.zipIdx.map fun (m, i) => if m.stop then 2 ^ (if i + 1 = ms.length then 7 else i) else 0).foldl (· + ·) 0)

/-- A marker that waits for the next bundle: its LIMM and MREM (R149). -/
structure Marker where
  limm : Nat
  mrem : Nat
  deriving DecidableEq, Repr

/-- MREM of a remaining estimate (R149). -/
def mremOf (remaining : Nat) : Nat := min ((remaining + 1023) / 1024) 0x3FFFFF

/-- A control word (R53) from stop bits, LIMM and a marker. -/
def cwOf (stop limm : Nat) (mk : Option Marker) : BitVec 64 :=
  match mk with
  | none => BitVec.ofNat 64 (stop + limm * 2 ^ 8)
  | some m => BitVec.ofNat 64 (stop + m.limm * 2 ^ 8 + 2 ^ 40 + m.mrem * 2 ^ 41)

/-- A bundle of empty slots with its stop on slot 7 (R147). -/
def emptyBundle (mk : Option Marker) : Bundle := ⟨List.replicate 8 0xF#24, cwOf 0x80 0 mk⟩

/-- The surprise of a move that reads LIMM: `imm` with 2^31 or more, `imm.z` with a negative value (R145). -/
def signDiag (line : SrcPos) (v : Int) (i : Nat) (m : Mv) : List Diag :=
  if (decide (m.src = .reg .imm) && decide (2 ^ 31 ≤ v)) || (decide (m.src = .reg .immZ) && decide (v < 0)) then
    [⟨line, .wImmSign, some i⟩]
  else []

/-- A line of moves as a bundle (R142-R146), its relocation and its diagnostics. -/
structure LineOut where
  bundle : Bundle
  relocs : List Reloc
  diags : List Diag
  deriving DecidableEq, Repr

/-- The bundle of a line of moves. -/
def lineBundle (env : List Sym) (sup : Bool) (mk : Option Marker) (line : SrcPos) (here : Nat) (ms : List Mv)
    (imm : Option Expr) : LineOut :=
  let err (c : Code) (b : Bool) : List Diag := if b then [⟨line, c, none⟩] else []
  let slots := (ms.take 8).zipIdx.map fun p => p.1.slot env sup line here p.2
  let reads := ms.any fun m => decide (m.src = .reg .imm ∨ m.src = .reg .immZ)
  let limm := imm.map (limmOf env here)
  let val := (limm.map fun r => (r.toOption.map Filled.value).getD 0).getD 0
  { bundle := ⟨(slots.map Prod.fst) ++ List.replicate (8 - slots.length) 0xF#24,
      cwOf (stops (ms.take 8)) (val % 2 ^ 32).toNat mk⟩
    relocs := ((limm.bind Except.toOption).map (Filled.reloc .text (here + 25) .limm)).getD []
    diags := err .eSlots (decide (8 < ms.length)) ++ slots.flatMap Prod.snd ++ err .eNoimm (reads && imm.isNone) ++
      err .eMarkImm (imm.isSome && mk.isSome) ++
      (match limm with
        | some (.error c) => [⟨line, c, none⟩]
        | some (.ok (.now v)) => ms.zipIdx.flatMap fun p => signDiag line v p.2 p.1
        | _ => []) }

/-! ### Floating-point data (R147) -/

/-- The encoding of a format. -/
def FloatFmt.fmt : FloatFmt → Num.Fmt
  | .f32 => Num.fp32
  | .f16 => Num.fp16
  | .bf16 => Num.bf16

/-- The bytes of a format. -/
def FloatFmt.bytes : FloatFmt → Nat
  | .f32 => 4
  | _ => 2

/-- A literal as digits times a power of 2, and whether that is exact: below the 200th binary place the rest of a decimal
fraction leaves one bit, which no rounding of these formats can tell from it. -/
def FloatLit.exact (l : FloatLit) : Num.FVal × Bool :=
  if l.hex then (.fin l.neg l.digits l.exp, true)
  else if 0 ≤ l.exp then (.fin l.neg (l.digits * 10 ^ l.exp.toNat) 0, true)
  else
    let n := l.digits * 2 ^ 200
    let d := 10 ^ (-l.exp).toNat
    (.fin l.neg (2 * (n / d) + if n % d = 0 then 0 else 1) (-201), decide (n % d = 0))

/-- A literal encoded under RNE: W-INEXACT where the value changes, E-RANGE where it rounds to infinity. -/
def FloatLit.encode (f : FloatFmt) (line : SrcPos) (l : FloatLit) : List Byte × List Diag :=
  let x := l.exact
  let b := (Num.cvt f.fmt .rne x.1).1
  (leBytes f.bytes b,
    if b % 2 ^ (8 * f.bytes - 1) = f.fmt.infBits then [⟨line, .eRange, none⟩]
    else if x.2 && Num.eqV (Num.ofBits f.fmt b) x.1 then [] else [⟨line, .wInexact, none⟩])

/-! ### Where lines stand (R143, R147, R148, R152) -/

/-- The section in use and the length of each. -/
structure Loc where
  sect : Sect
  text : Nat
  data : Nat
  bss : Nat
  deriving DecidableEq, Repr

/-- The next multiple of `m`. -/
def padTo (m n : Nat) : Nat := (n + m - 1) / m * m

/-- The offset in the section in use. -/
def Loc.off (l : Loc) : Nat :=
  match l.sect with
  | .text => l.text
  | .data => l.data
  | .bss => l.bss

/-- The section in use grown to a length. -/
def Loc.grow (l : Loc) (n : Nat) : Loc :=
  match l.sect with
  | .text => { l with text := n }
  | .data => { l with data := n }
  | .bss => { l with bss := n }

/-- The offset of what a line emits, and the place after it; `n` is the value of the line's size operand. -/
def Loc.place (l : Loc) (n : Nat) : Body → Nat × Loc
  | .moves _ _ => (padTo 32 l.text, { l with text := padTo 32 l.text + 32 })
  | .sect s => let l := { l with sect := s }; (l.off, l)
  | .align _ => (l.off, l.grow (padTo n (if l.sect = .text then padTo 32 l.off else l.off)))
  | .data w es => (l.off, l.grow (l.off + w * es.length))
  | .floats f vs => (l.off, l.grow (l.off + f.bytes * vs.length))
  | .space _ => (l.off, l.grow (l.off + n))
  | .reaction _ _ => (padTo 64 (padTo 32 l.text), { l with text := padTo 64 (padTo 32 l.text) + 64 })
  | .empty _ => (padTo 32 l.text, { l with text := padTo 32 l.text + 32 * n })
  | _ => (l.off, l)

/-- A power of 2 from 1 to 4,096 (R147). -/
def alignOk (n : Nat) : Bool := (List.range 13).any fun k => decide (n = 2 ^ k)

/-- The size operand of a line, from the symbols of the lines before it: an alignment, or a count of bytes or bundles. -/
def sizeOf (env : List Sym) (here : Sect × Nat) : Body → Except Code Nat
  | .align e => do
    let n ← constant env here e
    if alignOk n.toNat ∧ 0 ≤ n then return n.toNat else .error .eRange
  | .space e => (constantIn env here 0 (2 ^ 55) .eRange e).map Int.toNat
  | .empty e => (constantIn env here 0 (2 ^ 50) .eRange e).map Int.toNat
  | _ => .ok 0

/-- A line in its place: section, offset, and the value of its size operand or the code of a bad one. -/
structure Placed where
  line : Line
  sect : Sect
  off : Nat
  size : Except Code Nat

/-- The size that a line takes in its place; a bad operand takes none. -/
def Placed.count (p : Placed) : Nat :=
  match p.line.body, p.size with
  | .align _, .error _ => 1
  | _, .ok n => n
  | _, .error _ => 0

/-- The symbols that a line defines: its label, a reaction's name at the header (R148), and what `.equ` names (R147). -/
def Placed.syms (p : Placed) : List Sym :=
  (p.line.label.toList.map fun n => ⟨n, p.line.pos, true, .place p.sect p.off⟩) ++
    (match p.line.body with
      | .reaction n _ => [⟨n, p.line.pos, true, .place .text p.off⟩]
      | .equ n e => [⟨n, p.line.pos, false, e.atLine (p.sect, p.off)⟩]
      | _ => [])

/-- The lines in their places, and every symbol, by a first pass over the lines. -/
def layout : Loc → List Sym → List Line → List Placed × List Sym
  | _, env, [] => ([], env)
  | l, env, ln :: rest =>
    let size := sizeOf (settleSyms 8 env) (l.sect, l.off) ln.body
    let p : Placed := ⟨ln, l.sect, l.off, size⟩
    let r := l.place p.count ln.body
    let p := { p with sect := r.2.sect, off := r.1 }
    let q := layout r.2 (env ++ p.syms) rest
    (p :: q.1, q.2)

/-- A symbol defined twice, at its later line (R151). -/
def doubled : List Sym → List Diag
  | [] => []
  | s :: rest => (match lookup rest s.name with
    | some t => [⟨t.line, .eSymbol, none⟩]
    | none => []) ++ doubled rest

/-! ### Emission -/

/-- A reaction header and its threshold entries (R148). -/
structure OpenHdr where
  line : SrcPos
  pos : Nat
  dcyc : Nat
  thr : List (Nat × Nat × Nat)
  deriving DecidableEq, Repr

/-- The 64 bytes of a reaction header (R30, R148). -/
def OpenHdr.bytes (h : OpenHdr) : List Byte :=
  leBytes 16 (0xC7A1 + 2 ^ 16 + h.thr.length * 2 ^ 24 + h.dcyc * 2 ^ 32) ++
    ((h.thr ++ List.replicate (4 - h.thr.length) (0, 0, 0)).flatMap fun (t : Nat × Nat × Nat) => leBytes 12 (t.1 + t.2.1 * 2 ^ 32 + t.2.2 * 2 ^ 48))

/-- A bundle in its place, with the line it comes from. -/
structure PlacedBundle where
  off : Nat
  line : SrcPos
  b : Bundle
  deriving DecidableEq, Repr

/-- What has been emitted: the bytes of both sections, the bundles, headers, relocations, exported symbols and diagnostics; the
mode, a waiting marker, and whether the last header still takes thresholds. -/
structure Built where
  loc : Loc
  text : List Byte
  data : List Byte
  bundles : List PlacedBundle
  headers : List OpenHdr
  relocs : List Reloc
  exports : List (String × SrcPos)
  diags : List Diag
  sup : Bool
  marker : Option Marker
  hdrOpen : Bool
  deriving DecidableEq, Repr

/-- Nothing emitted: a text section in user mode (R147). -/
def Built.start : Built := ⟨⟨.text, 0, 0, 0⟩, [], [], [], [], [], [], [], false, none, false⟩

/-- A diagnostic of a line. -/
def Built.note (o : Built) (line : SrcPos) (c : Code) : Built := { o with diags := o.diags ++ [⟨line, c, none⟩] }

/-- Zero bytes up to an offset of text. -/
def Built.padText (o : Built) (n : Nat) : Built := { o with text := o.text ++ List.replicate (n - o.text.length) 0#8 }

/-- A bundle added after padding (R143); it closes an open header and takes the waiting marker. -/
def Built.bundle (o : Built) (line : SrcPos) (b : Bundle) : Built :=
  let o := o.padText (padTo 32 o.text.length)
  { o with
    text := o.text ++ b.toBytes, bundles := o.bundles ++ [⟨o.text.length, line, b⟩], marker := none, hdrOpen := false }

/-- `n` empty bundles, the first of which takes a waiting marker (R147, R149). -/
def Built.empties (line : SrcPos) : Nat → Built → Built
  | 0, o => o
  | n + 1, o => Built.empties line n (o.bundle line (emptyBundle o.marker))

/-- Text padded to a multiple of `n`, a multiple of 32: first with zero bytes, then with empty bundles (R147). -/
def Built.alignText (o : Built) (line : SrcPos) (n : Nat) : Built :=
  let o := o.padText (padTo 32 o.text.length)
  Built.empties line ((padTo n o.text.length - o.text.length) / 32) o

/-- Bytes of data added to the section in use. -/
def Built.bytes (o : Built) (bs : List Byte) : Built :=
  if o.loc.sect = .text then { o with text := o.text ++ bs } else { o with data := o.data ++ bs }

/-- One data expression added (R147, R152). -/
def Built.datum (env : List Sym) (line : SrcPos) (w : Nat) (here : Sect × Nat) (o : Built) (e : Expr) (i : Nat) : Built :=
  match (Field.data w).fill env here e with
  | .ok v =>
    { o.bytes (leBytes w (v.value % 2 ^ (8 * w)).toNat) with
      relocs := o.relocs ++ v.reloc here.1 (here.2 + w * i) (.data w) }
  | .error c => (o.bytes (List.replicate w 0#8)).note line c

/-- One floating-point literal added. -/
def Built.float (f : FloatFmt) (line : SrcPos) (o : Built) (l : FloatLit) : Built :=
  let r := l.encode f line
  { o.bytes r.1 with diags := o.diags ++ r.2 }

/-- A threshold added to the open header (R148): a fifth one, one after the first bundle, and STEP or BASE beyond its bits are
E-THRESH; a selector beyond its 32 bits is a field out of range (R155). -/
def Built.thresh (o : Built) (env : List Sym) (line : SrcPos) (here : Sect × Nat) (csel step base : Expr) : Built :=
  let vals : Except Code (Nat × Nat × Nat) := do
    let st ← constantIn env here 0 (2 ^ 16 - 1) .eThresh step
    let ba ← constantIn env here 0 (2 ^ 48 - 1) .eThresh base
    let c ← constantIn env here 0 (2 ^ 32 - 1) .eRange csel
    return (c.toNat, st.toNat, ba.toNat)
  match o.headers.getLast?, vals with
  | some h, .ok t =>
    if !o.hdrOpen ∨ 4 ≤ h.thr.length then o.note line .eThresh
    else
      let h := { h with thr := h.thr ++ [t] }
      { o with text := o.text.take h.pos ++ h.bytes ++ o.text.drop (h.pos + 64), headers := o.headers.dropLast ++ [h] }
  | none, _ => o.note line .eThresh
  | _, .error c => o.note line c

/-- Whether a body may stand in a section (R147): bundles and headers in text, data of whole numbers in text, data and space in
data, and only space and alignment in `.bss`. DESIGN CHOICE (log 166): a threshold or a marker outside text is E-SYNTAX too. -/
def Body.fits (s : Sect) : Body → Bool
  | .moves _ _ | .reaction _ _ | .thresh _ _ _ | .empty _ | .marker _ _ => decide (s = .text)
  | .data _ _ => decide (s ≠ .bss)
  | .floats _ _ => decide (s = .data)
  | .space _ => decide (s ≠ .text)
  | _ => true

/-- The effect of one line in its section (R143, R147-R149). -/
def Built.emit (o : Built) (env : List Sym) (p : Placed) : Built :=
  let no := p.line.pos
  let here := (p.sect, p.off)
  let num (lo hi : Int) (e : Expr) (k : Nat → Built → Built) : Built :=
    match constantIn env here lo hi .eRange e with
    | .ok v => k v.toNat o
    | .error c => o.note no c
  match p.line.body with
  | .none | .sect _ => o
  | .equ _ e =>
    match ((e.atLine here).subst env).fault with
    | some c => o.note no c
    | none => o
  | .globals ns => { o with exports := o.exports ++ ns.map fun n => (n, no) }
  | .stepping n => if n = "a1" then o else o.note no .eStep
  | .mode sup => { o with sup := sup }
  | .refused c => o.note no c
  | .moves ms imm =>
    let r := lineBundle env o.sup o.marker no p.off ms imm
    { o.bundle no r.bundle with relocs := o.relocs ++ r.relocs, diags := o.diags ++ r.diags }
  | .empty _ => Built.empties no p.count (o.padText p.off)
  | .align _ =>
    match p.sect with
    | .text => if p.count < 32 then o.note no .eAlign else o.alignText no p.count
    | .data => { o with data := o.data ++ List.replicate (padTo p.count o.data.length - o.data.length) 0#8 }
    | .bss => o
  | .data w es => es.zipIdx.foldl (fun o q => o.datum env no w here q.1 q.2) o
  | .floats f vs => vs.foldl (Built.float f no) o
  | .space _ => if p.sect = .data then o.bytes (List.replicate p.count 0#8) else o
  | .reaction _ dcyc =>
    let put (n : Nat) (o : Built) : Built :=
      let o := o.alignText no 64
      let h : OpenHdr := ⟨no, o.text.length, n, []⟩
      { o with text := o.text ++ h.bytes, headers := o.headers ++ [h], hdrOpen := true }
    match constantIn env here 1 0xFFFFFFFF .eRange dcyc with
    | .ok v => put v.toNat o
    | .error c => put 0 (o.note no c)
  | .thresh csel step base => o.thresh env no here csel step base
  | .marker expected remaining =>
    match constantIn env here 0 (2 ^ 32 - 1) .eRange expected with
    | .ok v => num 0 (2 ^ 63 - 1) remaining fun r o => { o with marker := some ⟨v.toNat, mremOf r⟩ }
    | .error c => o.note no c

/-- One line: refused with E-SYNTAX where its section cannot hold it, with the code of a bad size operand, else emitted. -/
def Built.line (env : List Sym) (o : Built) (p : Placed) : Built :=
  let next := (o.loc.place p.count p.line.body).2
  let o' :=
    if !p.line.body.fits o.loc.sect then o.note p.line.pos .eSyntax
    else
      match p.size with
      | .error c => o.note p.line.pos c
      | .ok _ => o.emit env p
  { o' with loc := next }

/-! ### The checks of groups and delay bundles (R59, R61, R65, R153) -/

/-- A slot of the text in its place. -/
structure SlotAt where
  off : Nat
  line : SrcPos
  i : Nat
  raw : BitVec 24
  limm : Nat
  stop : Bool
  deriving DecidableEq, Repr

/-- The slots of a bundle. -/
def PlacedBundle.slots (p : PlacedBundle) : List SlotAt :=
  (List.range 8).map fun i => ⟨p.off, p.line, i, p.b.slot i, p.b.limm.toNat, p.b.stop i⟩

/-- The groups of bundles in address order: each ends at its stop, or where no bundle follows; `acc` is the group in progress
and `next` the address that would continue it. -/
def groupsFrom : List PlacedBundle → Nat → List SlotAt → List (List SlotAt)
  | [], _, acc => if acc = [] then [] else [acc]
  | p :: rest, next, acc =>
    let cut (a : List (List SlotAt) × List SlotAt) (e : SlotAt) : List (List SlotAt) × List SlotAt :=
      if p.b.stop e.i then (a.1 ++ [a.2 ++ [e]], []) else (a.1, a.2 ++ [e])
    let before := if p.off ≠ next ∧ acc ≠ [] then [acc] else []
    let r := p.slots.foldl cut (before, if p.off = next then acc else [])
    r.1 ++ groupsFrom rest (p.off + 32) r.2

/-- The groups of some bundles. -/
def groupsOf (bs : List PlacedBundle) : List (List SlotAt) := groupsFrom bs 0 []

/-- What is wrong with a group: an eighth slot without a stop, or dependent moves (R59, R61). -/
def groupDiags (g : List SlotAt) : List Diag :=
  let ms := (g.filter fun e => rawMove e.raw)
  let dep (e : SlotAt) : Bool := depends e.raw ((ms.filter fun f => f != e).map SlotAt.raw)
  (match g[7]? with
    | some e => if e.stop then [] else [⟨e.line, .eGroupLong, some e.i⟩]
    | none => []) ++
  (match ms.find? dep with
    | some e => [⟨e.line, .eGroupDep, some e.i⟩]
    | none => [])

/-- The control transfers of a bundle, as encoded (R178). -/
def PlacedBundle.transfers (p : PlacedBundle) : List SlotAt := p.slots.filter fun e => rawTransfer e.raw

/-- Whether a bundle stands as a delay bundle behind a transfer of some bundles (R64). -/
def inDelayOf (bs : List PlacedBundle) (off : Nat) : Bool :=
  bs.any fun q => (decide (off = q.off + 32) || decide (off = q.off + 64)) && decide (q.transfers ≠ [])

/-- A control transfer in a delay bundle, or a second one in a bundle (R65, R178). -/
def delayDiags (bs : List PlacedBundle) : List Diag :=
  bs.flatMap fun p =>
    let ts := p.transfers
    (if inDelayOf bs p.off then ts else ts.drop 1).map fun e => ⟨e.line, .eDelay, some e.i⟩

/-! ### The whole (R141, R152) -/

/-- Source lines assembled, with symbols of `-D` before them: the sections, relocations and diagnostics. -/
def assembleLines (defs : List Sym) (ls : List Line) : Built × List Sym :=
  let l := layout ⟨.text, 0, 0, 0⟩ defs ls
  let env := settleSyms l.2.length l.2
  let o := l.1.foldl (Built.line env) Built.start
  let missing := o.exports.filter fun n => (lookup env n.1).isNone
  ({ o with diags := doubled l.2 ++ o.diags ++ missing.map (fun n => ⟨n.2, .eSymbol, none⟩) ++
      (groupsOf o.bundles).flatMap groupDiags ++ delayDiags o.bundles }, env)

/-- A value put into bytes. -/
def putBytes (bs : List Byte) (off n : Nat) (v : Int) : List Byte :=
  bs.take off ++ leBytes n (v % 2 ^ (8 * n)).toNat ++ bs.drop (off + n)

/-- A relocation filled in as the sections are placed; none where the value does not fit its field, and the placement fails
(R152). -/
def Reloc.fill (bs : Bases) (o : Built) (r : Reloc) : Option Built :=
  match r.val.eval bs with
  | .ok v =>
    if v.toInt < r.field.range.1 ∨ r.field.range.2 < v.toInt then none
    else if r.sect = .text then some { o with text := putBytes o.text r.off r.field.bytes v.toInt }
    else some { o with data := putBytes o.data r.off r.field.bytes v.toInt }
  | .error _ => none

/-- The sections placed at their load addresses (R152). -/
def Built.placeAt (o : Built) (bs : Bases) : Option Built := o.relocs.foldlM (Reloc.fill bs) o

end Sys2Proof.Machine.Asm
end

