-- ==== Sys2Proof/Machine/AsmTools.lean ====
section
/-!
DEFINITION. What vxasm makes of assembled bundles: blocks and their schedule with its warnings (07_vxasm R148, R149, R153, R154),
the exit status (R141), listings (R156) and SPF output (R157); and the debugger's commands and prints (R158, R159). Tools of the
host: no step reads any of it (log 121).
-/

namespace Sys2Proof.Machine.Asm

/-! ### Blocks (R154) -/

/-- Bundles cut after the second delay bundle of each control transfer: a block runs on through the labels that it reaches. A gap
in the addresses, such as a reaction's header, ends a block too. `acc` is the block in progress. -/
def blocksFrom : List PlacedBundle → List PlacedBundle → List (List PlacedBundle)
  | [], acc => if acc = [] then [] else [acc]
  | p :: rest, acc =>
    let cut := acc.any (fun q => decide (q.off + 96 = p.off) && decide (q.transfers ≠ [])) ||
      !(acc = [] || acc.any fun q => decide (q.off + 32 = p.off))
    if cut ∧ acc ≠ [] then acc :: blocksFrom rest [p] else blocksFrom rest (acc ++ [p])

/-- The blocks of the text. -/
def blocksOf (o : Built) : List (List PlacedBundle) := blocksFrom o.bundles []

/-! ### The schedule of a block (R74-R76, R154) -/

/-- The fixed latency of a trigger (R76, R168, R170, R249, 18_clearing R331, 21_spaces R363). The address of a load is not known:
`ls` is taken at the 5 cycles of translated space, as the programs of 19_prog_index and 20_prog_gradsum are, and `ve` at 3. -/
def latencyOf (d : Nat) : Nat :=
  let k := (unitAt d).2 - 2
  match (unitAt d).1 with
  | .x0 | .x1 =>
    if 22 ≤ k ∧ k ≤ 25 then 18 else if (19 ≤ k ∧ k ≤ 21) ∨ (26 ≤ k ∧ k ≤ 28) ∨ k = 30 ∨ k = 31 then 3 else 1
  | .ls => 5
  | .ve =>
    if 51 ≤ k then 3 else if 43 ≤ k then 6 else if 21 ≤ k then 2 else if 8 ≤ k ∧ k ≤ 12 then 8 else 4
  | .ms => 32
  | .sv => if k = 2 ∨ k = 10 then 4 else 32
  | _ => 1

/-- The result port that a slot reads. -/
def portRead (m : BitVec 24) : Option Port :=
  match Src.ofCode (bitsOf m.toNat 14 10) with
  | some (.port q) => some q
  | _ => none

/-- A result of the block on its way: port, due cycle, the trigger's slot and its schedule cycle. -/
structure Due where
  port : Port
  due : Nat
  cycle : Nat
  slot : SlotAt
  deriving DecidableEq, Repr

/-- The results that the triggers of a group make due. -/
def duesOf (cycle : Nat) (g : List SlotAt) : List Due :=
  (g.filter fun e => rawMove e.raw).flatMap fun e =>
    (Spf.portsOf (rawDst e.raw)).map fun q => ⟨q, cycle + latencyOf (rawDst e.raw), cycle, e⟩

/-- The results of a block's groups, each group one schedule cycle, in trigger order. -/
def allDues (gs : List (List SlotAt)) : List Due := gs.zipIdx.flatMap fun p => duesOf p.2 p.1

/-- The moves of a group that are the first in it to read their result port. -/
def firstReads : List Port → List SlotAt → List (SlotAt × Port)
  | _, [] => []
  | seen, e :: rest =>
    match (if rawMove e.raw then portRead e.raw else none) with
    | some q => if seen.contains q then firstReads seen rest else (e, q) :: firstReads (q :: seen) rest
    | none => firstReads seen rest

/-- W-EARLY: a move reads a result port while a trigger earlier in the block has a result due there at a later cycle. A group draws
it once for a port, at the first of its reads, as 19_prog_index does. -/
def earlyDiags (ds : List Due) (cycle : Nat) (g : List SlotAt) : List Diag :=
  (firstReads [] g).filterMap fun r =>
    if ds.any fun d => decide (d.port = r.2) && decide (d.cycle < cycle) && decide (cycle < d.due) then
      some ⟨r.1.line, .wEarly, some r.1.i⟩
    else none

/-- W-LOST: two results fall due at one port in one cycle, told at the later trigger. -/
def lostDiags : List Due → List Diag
  | [] => []
  | d :: rest =>
    ((rest.filter fun r => decide (r.port = d.port) && decide (r.due = d.due)).map fun r => ⟨r.slot.line, .wLost, some r.slot.i⟩) ++
      lostDiags rest

/-! ### Clock tags known from a block (R71-R73, R154, R184, R185) -/

/-- Tags known at a point of a block: of registers and latches by address, of result ports from 0x1000 on. -/
abbrev Tags := List (Nat × Tag)

/-- Triggers whose `t` is ignored or is what the operation works on, and whose `o` and `p` are (R73, R185). -/
def skipsT (d : Nat) : Bool := [0x16A, 0x187, 0x188, 0x22C, 0x26C, 0x2AA, 0x2CC, 0x2CF, 0x2D1].contains d
def skipsO (d : Nat) : Bool := [0x165, 0x166, 0x169].contains d
def skipsP (d : Nat) : Bool := [0x165, 0x166].contains d

/-- The tag of a move's source, if the block tells it; `g0` and literals are on every clock. -/
def tagOfSource (ts : Tags) (m : BitVec 24) : Option Tag :=
  match Src.ofCode (bitsOf m.toNat 14 10) with
  | some (.g n) => if n = 0 then some Tag.any else alGet ts n.val
  | some (.v n) => alGet ts (0x40 + n.val)
  | some (.k _) => some 0#4
  | some .imm | some .immZ | some (.short _) => some Tag.any
  | some (.port q) => alGet ts (0x1000 + q.code)
  | none => none

/-- The tags of the operands that a trigger uses. -/
def usedTags (ts : Tags) (m : BitVec 24) : List (Option Tag) :=
  let d := rawDst m
  (if usesO d && !skipsO d then [alGet ts (unitAt d).1.base] else []) ++
    (if usesP d && !skipsP d then [alGet ts ((unitAt d).1.base + 1)] else []) ++
    (if skipsT d then [] else [tagOfSource ts m])

/-- Whether the known ones of some tags name two clocks. -/
def twoClocks (l : List (Option Tag)) : Bool :=
  let named := (l.filterMap id).filter fun t => t != Tag.any
  named.any fun t => named.any fun u => t != u

/-- The tag of a trigger's result, if the block tells it (R72, R184); one that depends on a load is not known. -/
def resultTag (ts : Tags) (m : BitVec 24) : Option Tag :=
  let d := rawDst m
  let target : Option Tag := match Src.ofCode (bitsOf m.toNat 14 10) with
    | some (.short b) => if b.toNat < 16 then some (BitVec.ofNat 4 b.toNat) else none
    | _ => none
  if [0x162, 0x163, 0x167, 0x16A, 0x16B].contains d then some 0#4
  else if [0x164, 0x165, 0x166, 0x169].contains d then target
  else if d = 0x168 ∨ d = 0x16C then tagOfSource ts m
  else if (unitAt d).1 = .ls then none
  else
    let used := usedTags ts m
    match (used.filterMap id).find? fun t => t != Tag.any with
    | some t => some t
    | none => if used.all Option.isSome then some Tag.any else none

/-- A tag known or no longer known of a place. -/
def setTag (ts : Tags) (k : Nat) (t : Option Tag) : Tags :=
  let ts := ts.filter fun p => p.1 != k
  match t with
  | some t => (k, t) :: ts
  | none => ts

/-- Tags through the groups of a block: results land before the group of their cycle; a trigger whose known operands name two
clocks is W-CLOCK; a guarded write leaves its place unknown. -/
def clockDiags : Tags → List (Nat × Nat × Option Tag) → Nat → List (List SlotAt) → List Diag
  | _, _, _, [] => []
  | ts, due, cycle, g :: rest =>
    let ts := (due.filter fun d => decide (d.1 = cycle)).foldl (fun ts d => setTag ts d.2.1 d.2.2) ts
    let ms := g.filter fun e => rawMove e.raw
    let trig := ms.filter fun e => assigned (rawDst e.raw)
    let diags := (trig.filter fun e => twoClocks (usedTags ts e.raw)).map fun e => (⟨e.line, .wClock, some e.i⟩ : Diag)
    let sure (e : SlotAt) (t : Option Tag) : Option Tag := if bitsOf e.raw.toNat 0 4 = 0 then t else none
    let fresh := trig.flatMap fun e => (Spf.portsOf (rawDst e.raw)).map fun q =>
      (cycle + latencyOf (rawDst e.raw), 0x1000 + q.code, sure e (resultTag ts e.raw))
    let moved := (ms.filter fun e => !assigned (rawDst e.raw)).foldl
      (fun t e => setTag t (rawDst e.raw) (sure e (tagOfSource ts e.raw))) ts
    diags ++ clockDiags moved (due.filter (fun d => decide (cycle < d.1)) ++ fresh) (cycle + 1) rest

/-- The warnings of a block. -/
def blockWarnings (b : List PlacedBundle) : List Diag :=
  let gs := groupsOf b
  let ds := allDues gs
  (gs.zipIdx.flatMap fun p => earlyDiags ds p.2 p.1) ++ lostDiags ds ++ clockDiags [] [] 0 gs

/-! ### Loop ends in delay bundles (R65, R153) -/

/-- The value of a slot's source where its own bundle tells it. -/
def literalOf (e : SlotAt) : Option Int :=
  match Src.ofCode (bitsOf e.raw.toNat 14 10) with
  | some .imm => some (BitVec.ofNat 32 e.limm).toInt
  | some .immZ => some e.limm
  | some (.short b) => some b.toInt
  | _ => none

/-- The loop that a slot arms, with its end bundle (R181). -/
def loopOf (e : SlotAt) : Option (Nat × Int) :=
  let d := rawDst e.raw
  if rawMove e.raw && (decide (d = 0x147) || decide (d = 0x148)) then
    (literalOf e).map fun v => (d - 0x147, (e.off : Int) + v)
  else none

/-- Whether a slot may give a loop another end: it arms the loop anew (R181). `br.lpend` leaves it armed (R180). -/
def disarms (n : Nat) (e : SlotAt) : Bool := rawMove e.raw && decide (rawDst e.raw = 0x147 + n)

/-- E-DELAY where a delay bundle of a block is the end bundle of a loop armed earlier in it, which nothing between disarms. -/
def loopDelayDiags (b : List PlacedBundle) : List Diag :=
  let slots := b.flatMap PlacedBundle.slots
  slots.zipIdx.flatMap fun q =>
    match loopOf q.1 with
    | none => []
    | some (n, ending) =>
      let later := slots.drop (q.2 + 1)
      (b.filter fun p => decide ((p.off : Int) = ending) && decide (q.1.off < p.off) && inDelayOf b p.off &&
          !(later.any fun e => decide (e.off < p.off) && disarms n e)).map fun p => ⟨p.line, .eDelay, none⟩

/-! ### Reactions (R148, R149) -/

/-- The bundles of a reaction: those behind its header up to the next header. -/
def reactionBundles (o : Built) (h : OpenHdr) : List PlacedBundle :=
  let stop := ((o.headers.map OpenHdr.pos).filter fun p => decide (h.pos < p)).min?
  o.bundles.filter fun b => decide (h.pos + 64 ≤ b.off) && stop.all fun p => decide (b.off < p)

/-- W-DCYC: on the straight way from its first bundle to its first `sy.tend`, the groups before it differ from DCYC. -/
def dcycDiag (o : Built) (h : OpenHdr) : List Diag :=
  let gs := groupsOf (reactionBundles o h)
  let has (d : Nat) (g : List SlotAt) : Bool := g.any fun e => rawMove e.raw && decide (rawDst e.raw = d)
  match gs.findIdx? (has 0x187) with
  | none => []
  | some n =>
    if ((gs.take n).any fun g => g.any fun e => rawTransfer e.raw) ∨ n = h.dcyc then [] else [⟨h.line, .wDcyc, none⟩]

/-- W-MARKGAP: bundles of a reaction in address order, 64 of them without a marker; `run` counts those without one. -/
def gapDiags : Nat → List PlacedBundle → List Diag
  | _, [] => []
  | run, p :: rest =>
    if p.b.mkv then gapDiags 0 rest
    else if run + 1 = 64 then ⟨p.line, .wMarkGap, none⟩ :: gapDiags 0 rest
    else gapDiags (run + 1) rest

/-! ### vxasm (R141) -/

/-- Source lines assembled with every check: errors and warnings in the order of the checks. -/
def assemble (defs : List Sym) (ls : List Line) : Built × List Sym :=
  let r := assembleLines defs ls
  let o := r.1
  let blocks := blocksOf o
  ({ o with diags := o.diags ++ blocks.flatMap loopDelayDiags ++ blocks.flatMap blockWarnings ++
      o.headers.flatMap fun h => dcycDiag o h ++ gapDiags 0 (reactionBundles o h) }, r.2)

/-- The exit status of a right invocation: 1 when an error was reported, or a warning under `-Werror`, else 0 (R141). -/
def exitStatus (werror : Bool) (ds : List Diag) : Nat := if ds.any fun d => werror || !d.code.isWarning then 1 else 0

/-! ### Listings (R156) -/

/-- A number in hexadecimal, at least `n` digits. -/
def hex (n v : Nat) : String :=
  let ds := (Nat.toDigits 16 v).map Char.toUpper
  String.ofList (List.replicate (n - ds.length) '0' ++ ds)

/-- A source line number, right-aligned in 4 places. -/
def lineNo (n : Nat) : String :=
  let ds := (toString n).toList
  String.ofList (List.replicate (4 - ds.length) ' ' ++ ds)

/-- The listing line of a bundle: source line number, offset, slots, control word, and the source text. -/
def listBundle (p : PlacedBundle) (source : String) : String :=
  lineNo p.line.no ++ " " ++ hex 6 p.off ++ "  " ++ String.intercalate " " (p.b.slots.map fun m => hex 6 m.toNat) ++ "  " ++
    hex 16 p.b.cw.toNat ++ "  " ++ source

/-- Lists of at most 16 of a list. -/
def sixteens {α : Type} : Nat → List α → List (List α)
  | 0, _ => []
  | fuel + 1, l => if l.isEmpty then [] else l.take 16 :: sixteens fuel (l.drop 16)

/-- The listing lines of a data line: up to 16 bytes each. -/
def listData (line off : Nat) (bs : List Byte) (source : String) : List String :=
  (sixteens bs.length bs).zipIdx.map fun p =>
    lineNo line ++ " " ++ hex 6 (off + 16 * p.2) ++ "  " ++ String.intercalate " " (p.1.map fun b => hex 2 b.toNat) ++ "  " ++
      (if p.2 = 0 then source else "")

/-! ### SPF output (R157) -/

/-- The moves of the text in issue order, each an operation record's. -/
def movesOf (o : Built) : List SlotAt := (o.bundles.flatMap PlacedBundle.slots).filter fun e => rawMove e.raw

/-- The record of a move. -/
def indexOf (ms : List SlotAt) (e : SlotAt) : Nat := ms.findIdx fun f => f == e

/-- The trigger whose result a port read at a schedule cycle of its block takes: the last to have landed (R74, R75). -/
def producer (ds : List Due) (q : Port) (cycle : Nat) : Option Due :=
  (ds.filter fun d => decide (d.port = q) && decide (d.due ≤ cycle)).foldl (fun b d =>
    match b with
    | none => some d
    | some c => if c.due ≤ d.due then some d else some c) none

/-- Every port read of a block with the trigger it reads; one with none in its own block is E-SPFREAD. -/
def boundReads (b : List PlacedBundle) : List (SlotAt × Option SlotAt) :=
  let gs := groupsOf b
  let ds := allDues gs
  gs.zipIdx.flatMap fun p => p.1.filterMap fun e =>
    if rawMove e.raw then (portRead e.raw).map fun q => (e, (producer ds q p.2).map Due.slot) else none

/-! #### The producers that paths bring to a read (R157) -/

/-- What a result port holds on a path: the trigger whose result landed last, and those whose results are on their way, with the
cycles still to go (R74, R75). -/
structure Flow where
  landed : Option SlotAt
  pend : List (Nat × SlotAt)
  deriving DecidableEq, Repr

/-- The results of the cycle landed. -/
def Flow.land (f : Flow) : Flow :=
  ⟨((f.pend.filter fun p => decide (p.1 = 0)).getLast?.map Prod.snd).or f.landed, f.pend.filter fun p => decide (p.1 ≠ 0)⟩

/-- A group issued, and the next cycle begun. -/
def Flow.issue (q : Port) (f : Flow) (g : List SlotAt) : Flow :=
  let fresh := (duesOf 0 g).filter fun d => decide (d.port = q)
  Flow.land ⟨f.landed, (f.pend ++ fresh.map fun d => (d.due, d.slot)).map fun p => (p.1 - 1, p.2)⟩

/-- The group that begins with a bundle. -/
def groupAt (gs : List (List SlotAt)) (off : Int) : List Nat :=
  (gs.findIdx? fun g => g.head?.any fun e => decide ((e.off : Int) = off) && decide (e.i = 0)).toList

/-- The groups that may issue after a group: behind a transfer's second delay bundle its target, at a loop's end bundle the loop's
first, and the group that follows unless a jump is always taken. -/
def successors (gs : List (List SlotAt)) (n : Nat) : List Nat :=
  match gs[n]?, (gs[n]?).bind List.getLast? with
  | some g, some last =>
    let all := gs.flatten
    let ended := (g.filter fun e => decide (e.i = 7)).map SlotAt.off
    let jumps := all.filter fun e => rawMove e.raw && rawTransfer e.raw && ended.contains (e.off + 64)
    let loops := all.filterMap fun e => (loopOf e).map fun l => (e, l.2)
    let away := jumps.any fun e => decide (rawDst e.raw = 0x142 ∨ rawDst e.raw = 0x145) && decide (bitsOf e.raw.toNat 0 4 = 0)
    let follows := (gs[n + 1]?.bind List.head?).any fun e =>
      (decide (e.off = last.off) && decide (e.i = last.i + 1)) ||
        (decide (e.off = last.off + 32) && decide (e.i = 0) && decide (last.i = 7))
    (jumps.flatMap fun e => ((literalOf e).map fun v => groupAt gs (e.off + v)).getD []) ++
      (loops.flatMap fun l => if ended.any (fun o => decide ((o : Int) = l.2)) then groupAt gs (l.1.off + 32) else []) ++
      (if follows && !away then [n + 1] else [])
  | _, _ => []

/-- Every group with what a port may hold as it issues, found along the paths from some groups: `todo` still to be followed, `seen`
followed already, at most `fuel` of them. -/
def explore (gs : List (List SlotAt)) (q : Port) : Nat → List (Nat × Flow) → List (Nat × Flow) → List (Nat × Flow)
  | 0, _, seen => seen
  | _ + 1, [], seen => seen
  | fuel + 1, t :: todo, seen =>
    if seen.contains t then explore gs q fuel todo seen
    else explore gs q fuel ((successors gs t.1).map (fun n => (n, t.2.issue q ((gs[t.1]?).getD []))) ++ todo) (t :: seen)

/-- What a port may hold at each group, along the paths from the first groups of the reactions, or from the first group of text
that has none. -/
def portPaths (o : Built) (gs : List (List SlotAt)) (q : Port) : List (Nat × Flow) :=
  let starts := if o.headers.isEmpty then [0] else o.headers.flatMap fun h => groupAt gs (h.pos + 64)
  explore gs q (4096 * gs.length) (starts.map fun n => (n, ⟨none, []⟩)) []

/-- The reads that have no single producer (R157): none in the read's own block, or another one on some path. -/
def unbound (o : Built) (reads : List (SlotAt × Option SlotAt)) : List SlotAt :=
  let gs := groupsOf o.bundles
  let ports := (reads.filterMap fun r => portRead r.1.raw).eraseDups
  let paths := ports.map fun q => (q, portPaths o gs q)
  (reads.filter fun r => r.2.isNone || paths.any fun p => decide (portRead r.1.raw = some p.1) &&
    p.2.any fun t => ((gs[t.1]?).getD []).contains r.1 && t.2.landed != r.2).map Prod.fst

/-! #### Records and objects (R364, R365) -/

/-- The first record at or after an offset: what a transfer to it runs next; for a loop's end bundle, its last record. -/
def targetRecord (ms : List SlotAt) (loop : Bool) (off : Int) : Nat :=
  let n := ms.findIdx fun f => decide (off ≤ (f.off : Int))
  if loop then n + (ms.filter fun f => decide ((f.off : Int) = off)).length - 1 else n

/-- The operation record of a move (R365): a port read becomes its producer, a displacement of a transfer or a loop its target,
a literal an immediate, and any other source stays. -/
def opRecord (ms : List SlotAt) (reads : List (SlotAt × Option SlotAt)) (e : SlotAt) : Spf.OpRec :=
  let d := rawDst e.raw
  let out (skind sval : Nat) : Spf.OpRec := ⟨d, 0, bitsOf e.raw.toNat 0 4, skind, 0, sval, false⟩
  match reads.find? fun r => r.1 == e, literalOf e with
  | some (_, some t), _ => out 3 (indexOf ms t)
  | some (_, none), _ => out 3 0
  | none, some v =>
    if Spf.takesDisplacement d then out 4 (targetRecord ms (decide (d = 0x147 ∨ d = 0x148)) (e.off + v))
    else out 2 (v % 2 ^ 64).toNat
  | none, none => out 0 (bitsOf e.raw.toNat 14 10)

/-- The 16 bytes of a record (R365). -/
def recordBytes (r : Spf.OpRec) : List Byte :=
  leBytes 16 (r.dst + r.dkind * 2 ^ 10 + r.guard * 2 ^ 12 + r.skind * 2 ^ 16 + r.dvreg * 2 ^ 32 + r.sval * 2 ^ 64)

/-- The records of assembled text in issue order, markers and stops dropped, with E-SPFREAD at each read that has no single
producer (R149, R157). -/
def spfRecords (o : Built) : List Spf.OpRec × List Diag :=
  let ms := movesOf o
  let reads := (blocksOf o).flatMap boundReads
  (ms.map (opRecord ms reads), (unbound o reads).map fun e => ⟨e.line, .eSpfRead, some e.i⟩)

/-- The entries of assembled text: the first and the last record of each reaction. -/
def spfEntries (o : Built) : List Spf.SpfEntry :=
  let ms := movesOf o
  o.headers.map fun h =>
    let own := (reactionBundles o h).flatMap PlacedBundle.slots |>.filter fun e => rawMove e.raw
    ⟨(own.head?.map (indexOf ms)).getD 0, (own.getLast?.map (indexOf ms)).getD 0⟩

/-- An SPF object of records, entries, declarations (16 bytes a counter, 8 a pipe) and a data image, one after another behind the
header (R364). -/
def spfObject (sup : Bool) (rs : List Spf.OpRec) (es : List Spf.SpfEntry) (ctrs pipes : List Nat) (data : List Byte) : List Byte :=
  let ent := 64 + 16 * rs.length
  let decl := ent + 16 * es.length
  let dat := decl + 16 * ctrs.length + 8 * pipes.length
  let head := 0x5346 + 2 ^ 16 + (if sup then 2 ^ 24 else 0) + rs.length * 2 ^ 32 + es.length * 2 ^ 64 + ctrs.length * 2 ^ 80 +
    pipes.length * 2 ^ 96 + 64 * 2 ^ 128 + ent * 2 ^ 192 + decl * 2 ^ 256 + dat * 2 ^ 320 + data.length * 2 ^ 384
  leBytes 64 head ++ rs.flatMap recordBytes ++ (es.flatMap fun e => leBytes 16 (e.first + e.last * 2 ^ 32)) ++
    ctrs.flatMap (leBytes 16) ++ pipes.flatMap (leBytes 8) ++ data

/-- A relocation of an SPF object (R152): where in the object a load address is filled in, the field of the source whose range it
must meet, the bytes there, and whether they hold the value as `imm` reads it, sign-extended from 32 bits. -/
structure SpfReloc where
  off : Nat
  field : Field
  bytes : Nat
  signed : Bool
  val : Expr
  deriving DecidableEq, Repr

/-- The relocations of an object: the immediates that read a LIMM with one, and those of the data image. -/
def spfRelocs (o : Built) (dataAt : Nat) : List SpfReloc :=
  ((movesOf o).zipIdx.flatMap fun p =>
    let reads (src : Src) : Bool := decide (Src.ofCode (bitsOf p.1.raw.toNat 14 10) = some src)
    if reads .imm || reads .immZ then
      (o.relocs.filter fun r => decide (r.sect = .text) && decide (r.off = p.1.off + 25)).map fun r =>
        ⟨64 + 16 * p.2 + 8, .limm, 8, reads .imm, r.val⟩
    else []) ++
  (o.relocs.filter fun r => decide (r.sect = .data)).map fun r => ⟨dataAt + r.off, r.field, r.field.bytes, false, r.val⟩

/-- One relocation filled in by kraug as the sections are placed; a value that does not fit its field is K-HEADER (R152). -/
def SpfReloc.fill (bs : Bases) (obj : List Byte) (r : SpfReloc) : Except Spf.Code (List Byte) :=
  match (r.val.eval bs).bind fun v => r.field.check v.toInt with
  | .ok (.now v) =>
    .ok (putBytes obj r.off r.bytes (if r.signed then (BitVec.ofInt 32 v).toInt else v % 2 ^ (8 * r.field.bytes)))
  | _ => .error .kHeader

/-- An object placed: every relocation filled in. -/
def placeSpf (bs : Bases) (rs : List SpfReloc) (obj : List Byte) : Except Spf.Code (List Byte) :=
  rs.foldlM (SpfReloc.fill bs) obj

/-- The SPF object of assembled text with its relocations (R157): it declares no counter and no pipe, for no directive names one. -/
def spfOf (o : Built) : List Byte × List SpfReloc :=
  let rs := (spfRecords o).1
  let es := spfEntries o
  (spfObject o.sup rs es [] [] o.data, spfRelocs o (64 + 16 * rs.length + 16 * es.length))
/-! ### The debugger (R158, R159) -/

/-- A command of a session that acts on the device (R158): `start` is `run`, with the launch record that it submits. -/
inductive Command where
  | setBreak (n sid addr : Nat)
  | watch (n sid addr len : Nat)
  | start (sid : BitVec 16) (done : Nat) (raw : List Byte)
  | cont
  | step (y : CtxRef)
  deriving DecidableEq, Repr

/-- A range cut into pieces of 2^k bytes, the largest first, for a watchpoint covers 2^k bytes (R375): each piece's start and `k`. -/
def watchPieces (addr len : Nat) : List (Nat × Nat) :=
  ((List.range 32).foldl (fun (l : List (Nat × Nat) × Nat) i =>
    let k := 31 - i
    if len.testBit k then (l.1 ++ [(l.2, k)], l.2 + 2 ^ k) else l) ([], addr)).1

/-- The register words that a command writes: offsets of the observation block with their values (R375, R376, R381). A watch
stops on reads and on writes, and takes as many watchpoints from number `n` on as its range has pieces. -/
def Command.writes : Command → List (Nat × Word)
  | .setBreak n sid addr =>
    [(0x48 + 16 * n, BitVec.ofNat 64 sid), (0x40 + 16 * n, BitVec.ofNat 64 (addr % 2 ^ 56 / 32 * 32 + 1))]
  | .watch n sid addr len =>
    (watchPieces addr len).zipIdx.flatMap fun p =>
      [(0xC0 + 16 * (n + p.2), BitVec.ofNat 64 (p.1.1 % 2 ^ 56)),
        (0xC8 + 16 * (n + p.2), BitVec.ofNat 64 (sid + p.1.2 * 2 ^ 16 + 7 * 2 ^ 21))]
  | .start _ _ _ => []
  | .cont => [(0x38, 4#64)]
  | .step y => [(0x38, BitVec.ofNat 64 (8 + y.core * 2 ^ 4 + y.ctx * 2 ^ 14))]

/-- Whether the device has the breakpoint or the watchpoints that a command needs. -/
def Command.fits : Command → Bool
  | .setBreak n _ _ => decide (n < 8)
  | .watch n _ addr len => decide (0 < len) && decide (len < 2 ^ 32) && decide (n + (watchPieces addr len).length ≤ 4)
  | _ => true

/-- A command carried out for a context that may make its register writes (R378); `run` submits the launch (R358). -/
def Command.run (c : Command) (x : CtxRef) (s : State) : State :=
  match c with
  | .start sid done raw => s.submit sid done x.core raw
  | c => if c.fits then c.writes.foldl (fun s w => s.regWrite x ⟨0, 2, w.1⟩ w.2) s else s

/-- An address as symbol and offset: the nearest symbol at or below it (R158). -/
def placeText (syms : List (String × Nat)) (a : Nat) : String :=
  match (syms.filter fun p => decide (p.2 ≤ a)).foldl (fun (b : Option (String × Nat)) p =>
      match b with
      | none => some p
      | some q => if q.2 < p.2 then some p else some q) none with
  | none => "0x" ++ hex 1 a
  | some (n, b) => if a = b then n else n ++ "+0x" ++ hex 1 (a - b)

/-- The names of the causes (R209, and the cards of 12_vector, 14_matrix and 16_copy). -/
def causeNames : List (Nat × String) :=
  [(0x01, "UNDEF_MOVE"), (0x02, "UNDEF_OP"), (0x03, "GROUP_DEP"), (0x04, "DELAY_BRANCH"), (0x05, "PRIV"), (0x06, "GROUP_LONG"),
    (0x07, "EMU_DOUBLE"), (0x08, "FE_LEVEL"), (0x09, "CTX_REG"), (0x0A, "LS_FORM"), (0x0B, "LOOP_FORM"), (0x0C, "BR_TARGET"),
    (0x20, "CLOCK_MISMATCH"), (0x21, "ABSENT_READ"), (0x22, "MERGE_BOTH"), (0x23, "COUNTER_UNREACHABLE"),
    (0x24, "CHANNEL_FUTURE"), (0x25, "SY_FORM"), (0x26, "ASET_LIMIT"), (0x27, "CK_FORM"), (0x28, "CLOCK_REDEF"),
    (0x40, "VE_FORM"), (0x41, "VE_ALIGN"), (0x42, "VE_LEVEL"), (0x60, "TILE_FORMAT"), (0x61, "MX_FORM"), (0x62, "MX_CANOPY"),
    (0x63, "MX_LEVEL"), (0x80, "COPY_FORMAT"), (0x81, "CP_FORM"), (0x82, "CP_CANOPY"), (0x83, "CP_LEVEL"),
    (0xA0, "WRITE_CONFLICT"), (0xA1, "MS_FORM"), (0xA2, "WOUND"), (0xA3, "TAINT_COMMIT"), (0xA4, "MS_LEVEL"),
    (0xA5, "ORDER_IRREV"), (0xC0, "LEASE_EXIT"), (0xC1, "LAUNCH_RESOURCE"), (0xC2, "LAUNCH_SHAPE"), (0xC3, "SV_FORM"),
    (0xC4, "TRANSLATION_NODE"), (0xC5, "PT_PERM"), (0xC6, "PT_PINNED"), (0xC7, "LAUNCH_ABORT"), (0xE0, "WATCH"),
    (0xE1, "BREAK"), (0xE8, "MACHINE_CHECK")]

/-- A cause by name; a reserved code by number. -/
def causeText (n : Nat) : String := ((causeNames.find? fun p => p.1 == n).map Prod.snd).getD ("0x" ++ hex 2 n)

/-- The cause of a context's stop: BREAK or WATCH while that stop is the one suppressed for its next group, the name of the trap
that halted it at trap entry 0, else STEP. -/
def stopCause (c : Ctx) : String :=
  match c.status with
  | .stopped .trapEntry0 _ => causeText (c.tr.tcause.toNat % 256)
  | _ => if c.skipBreak then "BREAK" else if c.skipWatch ≠ [] then "WATCH" else "STEP"

/-- The line of a stop (R159). -/
def stopLine (s : State) (x : CtxRef) (syms : List (String × Nat)) : String :=
  let c := s.ctx x
  "stop " ++ stopCause c ++ " core " ++ toString x.core ++ " ctx " ++ toString x.ctx ++ " bundle " ++
    placeText syms c.pc.toNat ++ " cycle " ++ toString c.cyc.toNat ++ " stamp 0x" ++ hex 16 c.stamp.toNat

/-- A name, with spaces up to 4 places. -/
def padName (n : String) : String := n ++ String.ofList (List.replicate (4 - n.length) ' ')

/-- The tag and taint of a value as printed. -/
def markText (v : Value) : String := " tag 0x" ++ hex 1 v.tag.toNat ++ " taint " ++ (if v.taint then "1" else "0")

/-- A scalar as printed: value, tag and taint, then the results in flight to it with the cycles until each is due. -/
def scalarLine (name : String) (v : Value) (pending : List (Nat × Word)) : String :=
  padName name ++ " = 0x" ++ hex 16 v.word.toNat ++ markText v ++
    String.join (pending.map fun p => " pending, due in " ++ toString p.1 ++ ": 0x" ++ hex 16 p.2.toNat)

/-- Lanes of a vector as printed, with the tag and taint of the whole. -/
def lanesLine (name : String) (v : Value) (lo hi : Nat) : String :=
  let lanes := match v with
    | .ve w => (w.lanes.toList.drop lo).take (hi + 1 - lo)
    | .sc _ => []
  padName name ++ " =" ++ String.join (lanes.map fun l => " 0x" ++ hex 8 l.toNat) ++ markText v

/-- What `print` shows (R158), under the name that the user typed. -/
inductive Shown where
  | g (n : Fin 64)
  | clock (n : Nat)
  | port (q : Port)
  | latch (u : Unit11) (isP : Bool)
  | ctxReg (n : Nat)
  | vector (n : Fin 32) (lo hi : Nat)
  | lanes (q : Port) (lo hi : Nat)
  | counter (c : Sel)
  | memory (va len : Nat)
  deriving DecidableEq, Repr

/-- The key of a counter among the adds that versions hold (R193). -/
def heldKey (x : CtxRef) (r : Option ReactId) : Sel → Option Nat
  | .die d i => some (ctrKey d i)
  | .loc i => some (locKey x i)
  | .gang i => r.map fun r => gangKey r i
  | _ => none

/-- The adds to a counter that reactions hold until their instants clear, each with its stamp. -/
def heldAdds (s : State) (key : Nat) : List (Nat × Word) :=
  s.store.logs.flatMap fun l => l.effs.filterMap fun e => match e with
    | .add k n _ => if k = key then some (l.stamp, n) else none
    | _ => none

/-- Four bytes as committed memory holds them at an address that a context reads, or what stands for a byte it cannot read. -/
def memoryWord (s : State) (x : CtxRef) (va n : Nat) : String :=
  match s.resolvePiece x .r va n with
  | .ok [p] => hex (2 * n) (leNat (cellsRead s.store.mem p.key n))
  | _ => String.ofList (List.replicate (2 * n) '?')

/-- Memory as printed: 32 bytes a line in words of 4 bytes, each line with its address. -/
def memoryLines (s : State) (x : CtxRef) (syms : List (String × Nat)) (va len : Nat) : List String :=
  (List.range ((len + 31) / 32)).map fun i =>
    placeText syms (va + 32 * i) ++ ":" ++ String.join ((List.range (min 8 ((len - 32 * i + 3) / 4))).map fun j =>
      " " ++ memoryWord s x (va + 32 * i + 4 * j) (min 4 (len - 32 * i - 4 * j)))

/-- The lines that `print` gives for a name at a stop (R158, R159): what is due has landed, and every result still in flight to a
port is printed with it, in the order in which they fall due. -/
def Shown.lines (name : String) (s : State) (x : CtxRef) (syms : List (String × Nat)) (i : Shown) : List String :=
  let c := (s.ctx x).landDue
  let flight (q : Port) : List (Nat × Word) :=
    (saddleOrder c.pend).filterMap fun p => if p.dest = .port q then some (p.left, p.val.word) else none
  match i with
  | .g n => [scalarLine name (.sc c.g[n]) []]
  | .clock n => [padName name ++ (if c.kpres.getLsbD n then " present" else " absent")]
  | .port q => [scalarLine name (c.port q) (flight q)]
  | .latch u isP => [scalarLine name (if isP then c.lp[unitIdx u] else c.lo[unitIdx u]) []]
  | .ctxReg n => [padName name ++ " = 0x" ++ hex 16 ((({ s with cur := x } : State).updCtx x fun _ => c).readReg n).1.toNat]
  | .vector n lo hi => [lanesLine name (.ve c.v[n]) lo hi]
  | .lanes q lo hi => [lanesLine name (c.port q) lo hi]
  | .counter k =>
    let held := ((heldKey x (c.react.map RunRef.id) k).map (heldAdds s)).getD []
    [padName name ++ " = 0x" ++ hex 16 (s.ctrVal x k).toNat ++
      String.join (held.map fun h => " held +" ++ toString h.2.toNat ++ " by stamp 0x" ++ hex 16 h.1)]
  | .memory va len => memoryLines s x syms va len

/-- The saddlebag as shown: the results and loop arms on their way in the order of their entries, then the commands that wait, in
the order they were issued (R215, R216). -/
def sbagLines (s : State) (x : CtxRef) : List String :=
  let c := (s.ctx x).landDue
  ((saddleOrder c.pend).filterMap fun p => (saddleDest p.dest).map fun k =>
    "entry kind " ++ toString k.1 ++ " dst 0x" ++ hex 3 k.2.1 ++ " due in " ++ toString p.left ++ ": 0x" ++
      hex 16 p.val.word.toNat ++ markText p.val) ++
    (s.captured x).map fun k => "command dst 0x" ++ hex 3 k.port

/-- The records of a sealed segment, behind its header of 64 bytes (R379). -/
def segmentRecords (g : Segment) : List TraceRec :=
  (List.range (leNat ((g.bytes.drop 4).take 4))).map fun i => (g.bytes.drop (64 + 64 * i)).take 64

/-- The records of the trace buffer, oldest first. -/
def traceRecords (s : State) : List Nat := ((s.obs.sealed.flatMap segmentRecords) ++ s.obs.open_).map leNat

/-- The part of a trace record that every line names: core, context, bundle, cycle, stamp (R373). -/
def recordPlace (syms : List (String × Nat)) (r : Nat) : String :=
  " core " ++ toString (bitsOf r 9 10) ++ " ctx " ++ toString (bitsOf r 19 2) ++ " bundle " ++ placeText syms (bitsOf r 64 56)

/-- A signed number with its sign. -/
def signedText (v : Int) : String := if v < 0 then toString v else "+" ++ toString v

/-- The drift log: one line for each marker record (R371, R373). -/
def driftLines (s : State) (syms : List (String × Nat)) : List String :=
  ((traceRecords s).filter fun r => decide (bitsOf r 0 9 = 0x101)).map fun r =>
    "stamp 0x" ++ hex 16 (bitsOf r 192 64) ++ recordPlace syms r ++ " expected " ++ toString (bitsOf r 256 32) ++
      " actual " ++ toString (bitsOf r 320 64) ++ " drift " ++ signedText (BitVec.ofNat 64 (bitsOf r 384 64)).toInt

/-- The name of a record's kind: the cause of an event, or one of the others (R373). -/
def kindText (k : Nat) : String :=
  if k < 0x100 then "0x" ++ hex 2 k ++ " " ++ causeText k
  else "0x" ++ hex 3 k ++ " " ++ ((["MARK", "MARKER", "FREEZE", "CHECKPOINT", "RESUME"])[k - 0x100]?).getD ""

/-- The trace records as shown, each with the words of its payload: of a wound the restart record (R325, R373). -/
def traceLines (s : State) (syms : List (String × Nat)) : List String :=
  (traceRecords s).flatMap fun r =>
    let words := String.join ((List.range 4).map fun i => " 0x" ++ hex 16 (bitsOf r (256 + 64 * i) 64))
    [kindText (bitsOf r 0 9) ++ recordPlace syms r ++ " cycle " ++ toString (bitsOf r 128 48) ++ " stamp 0x" ++
        hex 16 (bitsOf r 192 64), (if bitsOf r 0 9 = 0xA2 then "  restart" else "  payload") ++ words]

/-- The line of a launch's end: its cause, the instants it cleared, and how many other traps its report counts (R232). -/
def endLine (l : Launch) : String :=
  "launch end cause 0x" ++ hex 2 ((l.report.map fun r => r.cause.toNat).getD 0) ++ " cleared " ++ toString l.cleared ++
    " nother " ++ toString l.nother

end Sys2Proof.Machine.Asm
end

