-- ==== Sys2Proof/Machine/AsmText.lean ====
section
/-!
DEFINITION. From source text to source lines (07_vxasm R141-R144, R146, R147, R150, R151): characters to tokens, included files
and macros, and the reading of a line. A tool of the host: no step reads any of it (log 121).
-/

namespace Sys2Proof.Machine.Asm

/-! ### Characters to tokens (R142) -/

/-- Whether a character may stand in a name, a number or a directive. -/
def wordChar (c : Char) : Bool := c.isAlphanum || c == '_' || c == '.' || c == '$' || c == '%'

/-- Whether the sign of an exponent may follow what has been read of a number. -/
def beforeSign (w : List Char) : Bool :=
  match w with
  | 'p' :: _ => w.reverse.take 2 == ['0', 'x']
  | 'e' :: _ => (w.getLast?.any Char.isDigit) && w.reverse.take 2 != ['0', 'x']
  | _ => false

/-- The tokens of a line: `w` is the word in progress, last character first. A comment ends the line; a quoted text is one token
with its quotes, the closing one missing where the line has none. -/
def tokensFrom : List Char → List Char → List String
  | w, [] => if w = [] then [] else [String.ofList w.reverse]
  | w, c :: cs =>
    let done := if w = [] then [] else [String.ofList w.reverse]
    if w.getLast? = some '"' then
      if c = '"' then String.ofList (c :: w).reverse :: tokensFrom [] cs else tokensFrom (c :: w) cs
    else if wordChar c then tokensFrom (c :: w) cs
    else if (c = '-' ∨ c = '+') ∧ beforeSign w then tokensFrom (c :: w) cs
    else if c = '"' then done ++ tokensFrom ['"'] cs
    else if c = ' ' ∨ c = '\t' then done ++ tokensFrom [] cs
    else
      match c, cs with
      | '/', '/' :: _ => done
      | ':', ':' :: r => done ++ "::" :: tokensFrom [] r
      | '<', '<' :: r => done ++ "<<" :: tokensFrom [] r
      | '>', '>' :: r => done ++ ">>" :: tokensFrom [] r
      | c, r => done ++ String.ofList [c] :: tokensFrom [] r

/-- A line of source as its tokens. -/
structure Raw where
  pos : SrcPos
  toks : List String
  deriving DecidableEq, Repr

/-- The lines of a file. -/
def rawLines (file text : String) : List Raw :=
  ((text.toList.splitOn '\n').zipIdx).map fun p => ⟨⟨file, p.2 + 1⟩, tokensFrom [] p.1⟩

/-- The lines of a file: the one of that name, or the first that a searched directory holds (R141). -/
def fileLines (files : List (String × List Raw)) (dirs : List String) (n : String) : Option (List Raw) :=
  (n :: dirs.map fun d => d ++ "/" ++ n).findSome? fun m => (files.find? fun f => f.1 == m).map Prod.snd

/-! ### Names (R67, R68, R70) -/

/-- The mnemonics of a unit's triggers in card order. -/
def opNames : Unit11 → String
  | .x0 | .x1 => "add sub and or xor shl shr sar ror ceq clt.s64 clt.n64 sel min.s64 max.s64 clz popc bfx " ++
      "sxt mul mulh.s64 mulh.n64 div.s64 div.n64 rem.s64 rem.n64 add.f32 mul.f32 fma.f32 clt.f32 " ++
      "itof.s64 ftoi.s64 crd cwr"
  | .ls => "ld.s8 ld.n8 ld.s16 ld.n16 ld.s32 ld.n32 ld.n64 st.n8 st.n16 st.n32 st.n64 st2.b64 ld.fe " ++
      "st.fe blk inv"
  | .br => "jmp jz jnz jr call lp0 lp1 lpend lcrd mark"
  | .ck => "def sub when merge mergep union fby hold isp not pre"
  | .sy => "add wait peek fence asdecl tend yield stamp taint"
  | .ve => "add.f32 sub.f32 mul.f32 fma.f32 min.f32 max.f32 ceq.f32 clt.f32 div.f32 sqrt.f32 rsqrt.f32 " ++
      "exp2.f32 log2.f32 ftoi.s32 itof.s32 cvt.bf16 cvt.f16 wid.bf16 wid.f16 bxenc bxdec add.s32 " ++
      "sub.s32 mul.s32 and.b32 or.b32 xor.b32 shl.b32 shr.b32 sar.b32 min.s32 max.s32 ceq.b32 " ++
      "clt.s32 sel.b32 lid beq.n8 bfind.n8 bcmp.n8 crc32c.n8 crc32c.b32 burl burlf rsum.f32 " ++
      "rmax.f32 rmin.f32 perm lrot lext lins ffs ld.b32 st.b32 ldl.b32 stl.b32 gath.b32 scat.b32 " ++
      "ld16.b64"
  | .mx => "tld cld cst zero step loop off busy xa scl drain"
  | .cp => "lin str2 str3 gath fill cvt canopy stbl restrict prolong close waitb cnt"
  | .ms => "add.f32 add.s64 max.s64 min.s64 or.b64 swap.b64 cas.b64 red fence mark"
  | .sv => "launch abort srd swr space walk ptmc tinv pin unpin tfq tres tent eret hirq idle"

/-- The units by name. -/
def unitNames : List (String × Unit11) :=
  [("x0", .x0), ("x1", .x1), ("ls", .ls), ("br", .br), ("ck", .ck), ("sy", .sy), ("ve", .ve), ("mx", .mx), ("cp", .cp),
    ("ms", .ms), ("sv", .sv)]

/-- A name cut at its first point. -/
def cutDot (n : String) : String × String :=
  match n.splitOn "." with
  | [] => ("", "")
  | a :: rest => (a, String.intercalate "." rest)

/-- A decimal number of digits. -/
def decimal (cs : List Char) : Option Nat :=
  if cs = [] ∨ cs.any (fun c => !c.isDigit) then none else some (cs.foldl (fun n c => n * 10 + (c.toNat - '0'.toNat)) 0)

/-- A register name `x` and number below a bound. -/
def numbered (c : Char) (bound : Nat) (n : String) : Option Nat :=
  match n.toList with
  | d :: cs => if d = c then (decimal cs).bind fun k => if k < bound then some k else none else none
  | [] => none

/-- The port that a unit's result name gives: `q`, and `q2` of `ve`. -/
def portNamed (n : String) : Option Port :=
  ([("x0.q", Port.x0q), ("x1.q", .x1q), ("ls.q", .lsq), ("br.q", .brq), ("ck.q", .ckq), ("sy.q", .syq), ("ve.q", .veq),
    ("ve.q2", .veq2), ("mx.q", .mxq), ("cp.q", .cpq), ("ms.q", .msq), ("sv.q", .svq)].find? fun p => p.1 == n).map Prod.snd

/-- A source by name (R70, R144). -/
def sourceNamed (n : String) : Option Src :=
  if n = "imm" then some .imm
  else if n = "imm.z" then some .immZ
  else
    ((numbered 'g' 64 n).map fun k => .g (Fin.ofNat 64 k)).or <| ((numbered 'v' 32 n).map fun k => .v (Fin.ofNat 32 k)).or <|
      ((numbered 'k' 16 n).map fun k => .k (Fin.ofNat 16 k)).or ((portNamed n).map .port)

/-- The address of a trigger by its mnemonic (R68). -/
def mnemonic (n : String) : Option Nat :=
  let unit := cutDot n
  (unitNames.find? fun p => p.1 == unit.1).bind fun p =>
    (((opNames p.2).splitOn " ").findIdx? fun m => m == unit.2).map fun k => p.2.base + 2 + k

/-- The operand latch of a name, `o` or `p` of a unit. -/
def latchNamed (n : String) : Option (Unit11 × Bool) :=
  let unit := cutDot n
  (unitNames.find? fun p => p.1 == unit.1).bind fun p =>
    if unit.2 = "o" then some (p.2, false) else if unit.2 = "p" then some (p.2, true) else none

/-- A destination address by name (R67, R68); a name of none is an address that none has. -/
def destNamed (n : String) : Nat :=
  ((numbered 'g' 64 n).or <| ((numbered 'v' 32 n).map (0x40 + ·)).or <| ((numbered 'k' 16 n).map (0x60 + ·)).or <|
    ((latchNamed n).map fun l => l.1.base + if l.2 then 1 else 0).or (mnemonic n)).getD 0x3FF

/-! ### Numbers and expressions (R151) -/

/-- The value of a hexadecimal digit. -/
def hexDigit (c : Char) : Option Nat :=
  let c := c.toLower
  if c.isDigit then some (c.toNat - '0'.toNat) else if 'a' ≤ c ∧ c ≤ 'f' then some (c.toNat - 'a'.toNat + 10) else none

/-- A number of hexadecimal digits. -/
def hexNumber (cs : List Char) : Option Nat :=
  if cs = [] then none else cs.foldlM (fun n c => (hexDigit c).map fun d => n * 16 + d) 0

/-- A number of binary digits. -/
def binaryNumber (cs : List Char) : Option Nat :=
  if cs = [] then none else cs.foldlM (fun n c => if c = '0' then some (2 * n) else if c = '1' then some (2 * n + 1) else none) 0

/-- A whole number: decimal, hexadecimal with `0x`, or binary with `0b` (00_scope). -/
def number (t : String) : Option Nat :=
  match t.toList with
  | '0' :: 'x' :: cs => hexNumber cs
  | '0' :: 'b' :: cs => binaryNumber cs
  | cs => decimal cs

/-- Whether a token is a name: it begins with a letter or an underscore, and has no point. -/
def isName (t : String) : Bool := (t.toList.head?.any fun c => c.isAlpha || c == '_') && !t.toList.contains '.'

/-- The operator of a token at a level of R151's table. -/
def operator (lvl : Nat) (t : String) : Option (Expr → Expr → Expr) :=
  match lvl with
  | 2 => if t = "*" then some .mul else if t = "div" then some .div else if t = "mod" then some .mod else none
  | 3 => if t = "+" then some .add else if t = "-" then some .sub else none
  | 4 => if t = "<<" then some .shl else if t = ">>" then some .shr else none
  | _ => none

/-- A literal, a symbol or `.`. -/
def leaf (t : String) : Option Expr :=
  if t = "." then some .dot
  else ((number t).map fun n => .lit (BitVec.ofNat 64 n)).or (if isName t then some (.sym t) else none)

/-- An expression of a level, and the tokens behind it. With `left` the operand of an operator of that level has been read, and
the rest of a left-grouped chain follows. -/
def parse : Nat → Nat → Option Expr → List String → Option (Expr × List String)
  | 0, _, _, _ => none
  | fuel + 1, lvl, none, ts =>
    if lvl ≤ 1 then
      match ts with
      | "-" :: r => (parse fuel 1 none r).map fun q => (.neg q.1, q.2)
      | "(" :: r =>
        match parse fuel 4 none r with
        | some (e, ")" :: r) => some (e, r)
        | _ => none
      | t :: r => (leaf t).map fun e => (e, r)
      | [] => none
    else
      match parse fuel (lvl - 1) none ts with
      | some (e, r) => parse fuel lvl (some e) r
      | none => none
  | fuel + 1, lvl, some left, ts =>
    match ts with
    | t :: r =>
      match operator lvl t with
      | some op =>
        match parse fuel (lvl - 1) none r with
        | some (e, r) => parse fuel lvl (some (op left e)) r
        | none => none
      | none => some (left, ts)
    | [] => some (left, [])

/-- A whole expression. -/
def expression (ts : List String) : Option Expr :=
  match parse (10 * ts.length + 10) 4 none ts with
  | some (e, []) => some e
  | _ => none

/-- Tokens cut at a separator. -/
def cutAt (sep : String) : List String → List (List String)
  | [] => [[]]
  | t :: ts =>
    if t = sep then [] :: cutAt sep ts
    else
      match cutAt sep ts with
      | a :: rest => (t :: a) :: rest
      | [] => [[t]]

/-- Operands between commas. -/
def operands (ts : List String) : List (List String) := if ts = [] then [] else cutAt "," ts

/-- Expressions between commas. -/
def expressions (ts : List String) : Option (List Expr) := (operands ts).mapM expression

/-! ### Floating-point literals (R147) -/

/-- Digits with a point and an exponent mark cut: before the point, behind it, and the exponent. -/
def cutFloat (mark : Char) (cs : List Char) : List Char × List Char × List Char :=
  let i := cs.findIdx (· == mark)
  let m := cs.take i
  let j := m.findIdx (· == '.')
  (m.take j, m.drop (j + 1), cs.drop (i + 1))

/-- An exponent with its sign; none written is 0. -/
def exponent (cs : List Char) : Option Int :=
  match cs with
  | [] => some 0
  | '-' :: r => (decimal r).map fun n => -(n : Int)
  | '+' :: r => (decimal r).map fun n => (n : Int)
  | r => (decimal r).map fun n => (n : Int)

/-- A literal from its tokens, with an optional sign. -/
def floatOf : List String → Option FloatLit
  | "-" :: ts => (floatOf ts).map fun l => { l with neg := !l.neg }
  | [t] =>
    match t.toList with
    | '0' :: 'x' :: cs =>
      let p := cutFloat 'p' cs
      (hexNumber (p.1 ++ p.2.1)).bind fun n => (exponent p.2.2).map fun e => ⟨false, n, true, e - 4 * p.2.1.length⟩
    | cs =>
      let p := cutFloat 'e' cs
      (decimal (p.1 ++ p.2.1)).bind fun n => (exponent p.2.2).map fun e => ⟨false, n, false, e - p.2.1.length⟩
  | _ => none

/-! ### Moves (R142-R146) -/

/-- A guard by name (R146). -/
def guardNamed (n : String) : GuardText :=
  match numbered 'k' 1000 n, numbered 'p' 1000 n with
  | some k, _ => .k k
  | none, some p => .p p
  | none, none => .other

/-- A source from its tokens (R144). DESIGN CHOICE (log 166): a word that could be a symbol's is read as one, so that an undefined
name is E-SYMBOL and not E-PORT; one that could not, such as `x0.foo`, is E-PORT. -/
def operandOf (ts : List String) : Option Operand :=
  match ts with
  | [t] =>
    match sourceNamed t, leaf t with
    | some s, _ => some (.reg s)
    | none, some e => some (.lit e)
    | none, none => some .unknown
  | _ => (expression ts).map .lit

/-- A move from its tokens: guard, source, `>`, destination, stop. -/
def moveOf (ts : List String) : Option Mv :=
  let g : GuardText × List String := match ts with
    | a :: "?" :: r => (guardNamed a, r)
    | r => (.always, r)
  let stop := g.2.getLast? == some "::"
  let body := if stop then g.2.dropLast else g.2
  match body.reverse with
  | d :: ">" :: src => (operandOf src.reverse).map fun s => ⟨g.1, s, destNamed d, stop⟩
  | _ => none

/-- A line of moves with its long immediate. -/
def movesOf? (ts : List String) : Option Body :=
  match cutAt "=" ts with
  | [ms] => ((cutAt "|" ms).mapM moveOf).map fun l => .moves l none
  | [ms, e] => ((cutAt "|" ms).mapM moveOf).bind fun l => (expression e).map fun e => .moves l (some e)
  | _ => none

/-! ### Directives (R147) -/

/-- Names between commas, at least one. -/
def names (ts : List String) : Option (List String) :=
  if ts = [] then none
  else (operands ts).mapM fun o => match o with
    | [n] => if isName n then some n else none
    | _ => none

/-- A directive from its word and its operands; one that is not read is E-SYNTAX. -/
def directive (d : String) (ts : List String) : Body :=
  let one (k : Expr → Body) : Body := ((expression ts).map k).getD (.refused .eSyntax)
  let data (w : Nat) : Body := ((expressions ts).map (.data w)).getD (.refused .eSyntax)
  let floats (f : FloatFmt) : Body := (((operands ts).mapM floatOf).map (.floats f)).getD (.refused .eSyntax)
  let plain (b : Body) : Body := if ts = [] then b else .refused .eSyntax
  match d with
  | ".stepping" => .stepping (String.intercalate " " ts)
  | ".text" => plain (.sect .text)
  | ".data" => plain (.sect .data)
  | ".bss" => plain (.sect .bss)
  | ".align" => one .align
  | ".byte" => data 1
  | ".half" => data 2
  | ".word" => data 4
  | ".dword" => data 8
  | ".f32" => floats .f32
  | ".f16" => floats .f16
  | ".bf16" => floats .bf16
  | ".space" => one .space
  | ".empty" => one .empty
  | ".global" => ((names ts).map .globals).getD (.refused .eSyntax)
  | ".equ" =>
    match operands ts with
    | [[n], e] => if isName n then ((expression e).map (.equ n)).getD (.refused .eSyntax) else .refused .eSyntax
    | _ => .refused .eSyntax
  | ".reaction" =>
    match operands ts with
    | [[n], e] => if isName n then ((expression e).map (.reaction n)).getD (.refused .eSyntax) else .refused .eSyntax
    | _ => .refused .eSyntax
  | ".thresh" =>
    match expressions ts with
    | some [a, b, c] => .thresh a b c
    | _ => .refused .eSyntax
  | ".marker" =>
    match expressions ts with
    | some [a, b] => .marker a b
    | _ => .refused .eSyntax
  | ".mode" => if ts = ["user"] then .mode false else if ts = ["supervisor"] then .mode true else .refused .eSyntax
  | _ => .refused .eSyntax

/-- A label and the tokens behind it (R142). -/
def labelOf : List String → Option String × List String
  | n :: ":" :: ts => (some n, ts)
  | ts => (none, ts)

/-- A line read (R142); a label that is no name is E-SYNTAX. -/
def Raw.line (r : Raw) : Line :=
  let l := labelOf r.toks
  if l.1.any fun n => !isName n then ⟨r.pos, none, .refused .eSyntax⟩
  else
    ⟨r.pos, l.1,
      match l.2 with
      | [] => .none
      | d :: ts => if d.startsWith "." && d != "." then directive d ts else (movesOf? l.2).getD (.refused .eSyntax)⟩

/-! ### Included files and macros (R147, R150) -/

/-- A macro: name, parameters and body. -/
structure Macro where
  pos : SrcPos
  name : String
  params : List String
  body : List Raw
  deriving DecidableEq, Repr

/-- The reading of the lines in progress: macros, the one being defined, how many expansions have been made, and the lines read
with the faults among them. -/
structure Reader where
  macros : List Macro
  inside : Option Macro
  count : Nat
  lines : List Line
  deriving DecidableEq, Repr

/-- A fault of a line. -/
def Reader.fault (s : Reader) (pos : SrcPos) (c : Code) : Reader := { s with lines := s.lines ++ [⟨pos, none, .refused c⟩] }

/-- The label of a line that holds `.include`, `.macro` or a macro's name, defined where the line stands (R142). -/
def Reader.label (s : Reader) (r : Raw) : Reader :=
  match (labelOf r.toks).1 with
  | some n => { s with lines := s.lines ++ [(Raw.mk r.pos [n, ":"]).line] }
  | none => s

/-- The words that name a directive. -/
def directives : List String :=
  [".stepping", ".text", ".data", ".bss", ".align", ".byte", ".half", ".word", ".dword", ".f32", ".f16", ".bf16", ".space",
    ".equ", ".global", ".include", ".reaction", ".thresh", ".empty", ".marker", ".mode", ".macro", ".endm"]

/-- The fault of a macro's name: one like a mnemonic's or a directive's is E-MACRO, and one that is no name at all E-SYNTAX. DESIGN
CHOICE (log 166): a directive's word without its point counts as the directive's, an operation's without its unit does not. -/
def macroNameFault (n : String) : Option Code :=
  if (mnemonic n).isSome || directives.contains n || directives.contains ("." ++ n) then some .eMacro
  else if isName n then none else some .eSyntax

/-- What `%` and a name stand for: the argument of that parameter, or themselves where there is none. -/
def argText (args : List (String × List String)) (n : List Char) : List Char :=
  match args.find? fun p => p.1 == String.ofList n with
  | some p => (String.intercalate " " p.2).toList
  | none => '%' :: n

/-- Text with each `%a` replaced, wherever it stands in a word; `w` is the name being read behind a `%`, last character first. -/
def spliceFrom (args : List (String × List String)) : Option (List Char) → List Char → List Char
  | none, [] => []
  | some w, [] => argText args w.reverse
  | none, c :: cs => if c = '%' then spliceFrom args (some []) cs else c :: spliceFrom args none cs
  | some w, c :: cs =>
    if c.isAlphanum || c == '_' then spliceFrom args (some (c :: w)) cs
    else argText args w.reverse ++ if c = '%' then spliceFrom args (some []) cs else c :: spliceFrom args none cs

/-- A token of a macro's body in an expansion (R150): a label that ends in `$` gets `$` and the expansion's number, and `%a` is its
argument. -/
def expandToken (args : List (String × List String)) (n : Nat) (t : String) : List String :=
  tokensFrom [] (spliceFrom args none (t ++ if t.endsWith "$" then toString n else "").toList)

/-- The name of a quoted file. -/
def quoted (t : String) : Option String :=
  let cs := t.toList
  if cs.head? = some '"' ∧ cs.getLast? = some '"' ∧ 2 ≤ cs.length then some (String.ofList (cs.drop 1).dropLast) else none

/-- The source lines read in order (R147, R150), from the files at hand: `md` expansions and `fd` files stand around. A macro whose
name is at fault is read to its end and then has no name. -/
def readLines (files : List (String × List Raw)) (dirs : List String) : Nat → Nat → Nat → Reader → List Raw → Reader
  | 0, _, _, s, _ => s
  | _, _, _, s, [] => s
  | fuel + 1, md, fd, s, r :: rest =>
    let l := labelOf r.toks
    let s' : Reader :=
      match s.inside with
      | some m =>
        if l.2 = [".endm"] then
          { s with inside := none, macros := s.macros ++ [{ m with body := m.body ++ l.1.toList.map fun n => ⟨r.pos, [n, ":"]⟩ }] }
        else { s with inside := some { m with body := m.body ++ [r] } }
      | none =>
        match l.2 with
        | [".include", f] =>
          let s := s.label r
          match (quoted f).bind (fileLines files dirs) with
          | some ls => if 8 ≤ fd then s.fault r.pos .eSyntax else readLines files dirs fuel md (fd + 1) s ls
          | none => s.fault r.pos .eSyntax
        | ".macro" :: n :: ps =>
          let s := s.label r
          let params := if ps = [] then some [] else names ps
          let s := match macroNameFault n, params with
            | some c, _ => s.fault r.pos c
            | none, none => s.fault r.pos .eSyntax
            | none, some _ => s
          { s with inside := some ⟨r.pos, if (macroNameFault n).isSome then "" else n, params.getD [], []⟩ }
        | n :: ts =>
          match s.macros.find? fun m => m.name == n with
          | some m =>
            let args := operands ts
            if 16 ≤ md ∨ args.length ≠ m.params.length then s.fault r.pos .eMacro
            else
              let k := s.count + 1
              let body := m.body.map fun b => { b with pos := r.pos, toks := b.toks.flatMap (expandToken (m.params.zip args) k) }
              readLines files dirs fuel (md + 1) fd { s.label r with count := k } body
          | none => { s with lines := s.lines ++ [r.line] }
        | [] => { s with lines := s.lines ++ [r.line] }
    readLines files dirs fuel md fd s' rest

/-- The lines of the named files in order, as one unit (R141), with included files and macros in place. Expansions nest 16 deep and
files 8 deep (R147, R150), each no longer than all files together; a macro without its `.endm` is E-SYNTAX. -/
def sourceLines (files : List (String × String)) (dirs named : List String) : List Line :=
  let raws := files.map fun f => (f.1, rawLines f.1 f.2)
  let all := named.flatMap fun n => (fileLines raws [] n).getD []
  let lines := raws.foldl (fun n f => n + f.2.length) 0
  let s := readLines raws dirs (all.length + 24 * lines + 1) 0 0 ⟨[], none, 0, []⟩ all
  (match s.inside with
    | some m => s.fault m.pos .eSyntax
    | none => s).lines

/-- Source text assembled (R141): the named files as one unit, with the directories of `-I` and the symbols of `-D`. -/
def assembleText (files : List (String × String)) (dirs : List String) (defs : List Sym) (named : List String) :
    Built × List Sym :=
  assemble defs (sourceLines files dirs named)

/-! ### The listing (R156) -/

/-- The text of a source line. -/
def sourceText (files : List (String × String)) (p : SrcPos) : String :=
  ((files.find? fun f => f.1 == p.file).bind fun f => (f.2.toList.splitOn '\n')[p.no - 1]?.map String.ofList).getD ""

/-- The listing lines of bundles of one source line, which stands behind the first. -/
def listBundles (bs : List PlacedBundle) (source : String) : List String :=
  bs.zipIdx.map fun p => listBundle p.1 (if p.2 = 0 then source else "")

/-- The listing lines of a source line in its place: its bundles, its data, or its place alone. -/
def listLine (o : Built) (source : String) (p : Placed) : List String :=
  let within (n : Nat) : List PlacedBundle := o.bundles.filter fun b => decide (p.off ≤ b.off) && decide (b.off < n)
  let bytes (n : Nat) : List String :=
    listData p.line.pos.no p.off (((if p.sect = .text then o.text else o.data).drop p.off).take n) source
  let bare : List String := [lineNo p.line.pos.no ++ " " ++ hex 6 p.off ++ "  " ++ source]
  let out := match p.line.body with
    | .moves _ _ => listBundles (within (p.off + 32)) source
    | .empty _ => listBundles (within (p.off + 32 * p.count)) source
    | .align _ =>
      if p.sect = .text then listBundles (within (padTo p.count (padTo 32 p.off))) source
      else if p.sect = .data then bytes (padTo p.count p.off - p.off) else []
    | .reaction _ _ => bytes 64
    | .data w es => bytes (w * es.length)
    | .floats f vs => bytes (f.bytes * vs.length)
    | .space _ => if p.sect = .data then bytes p.count else []
    | _ => []
  if out = [] then bare else out

/-- The listing of assembled lines (R156). -/
def listing (files : List (String × String)) (defs : List Sym) (o : Built) (ls : List Line) : List String :=
  (layout ⟨.text, 0, 0, 0⟩ defs ls).1.flatMap fun p => listLine o (sourceText files p.line.pos) p

/-! ### The invocation (R141) -/

/-- The options of an invocation, with the files named. -/
structure Options where
  bundles : Bool
  spf : Bool
  base : Option String
  listing : Bool
  dirs : List String
  defs : List Sym
  werror : Bool
  files : List String
  deriving DecidableEq, Repr

/-- No option given: a bundle image for stepping A1. -/
def Options.start : Options := ⟨true, false, none, false, [], [], false, []⟩

/-- A symbol of `-D name=value`, as `.equ` defines it. -/
def definedBy (t : String) : Option Sym :=
  match tokensFrom [] t.toList with
  | n :: "=" :: e => if isName n then (expression e).map fun e => ⟨n, ⟨"", 0⟩, false, e⟩ else none
  | _ => none

/-- The arguments of an invocation read; none where it is wrong: an option that is none or lacks its operand, a stepping other than
`a1`, an output kind that is none, a definition that cannot be read, or no file. -/
def readArgs : List String → Options → Option Options
  | "-s" :: v :: r, o => if v = "a1" then readArgs r o else none
  | "-t" :: v :: r, o =>
    if v = "bundles" then readArgs r { o with bundles := true, spf := false }
    else if v = "spf" then readArgs r { o with bundles := false, spf := true }
    else if v = "both" then readArgs r { o with bundles := true, spf := true }
    else none
  | "-o" :: v :: r, o => readArgs r { o with base := some v }
  | "-l" :: r, o => readArgs r { o with listing := true }
  | "-I" :: d :: r, o => readArgs r { o with dirs := o.dirs ++ [d] }
  | "-D" :: v :: r, o => (definedBy v).bind fun d => readArgs r { o with defs := o.defs ++ [d] }
  | "-Werror" :: r, o => readArgs r { o with werror := true }
  | ns, o => if ns = [] ∨ (ns.any fun n => n.startsWith "-") then none else some { o with files := ns }

/-- What an output file holds: the sections, bundles and relocations of a bundle image, the bytes of an SPF object with its
relocations, or the lines of a listing. -/
inductive Content where
  | image (o : Built)
  | spf (bytes : List Byte) (relocs : List SpfReloc)
  | listing (lines : List String)
  deriving DecidableEq, Repr

/-- The base name of a source file: its name without its directories and without `.vxs`. -/
def baseName (n : String) : String :=
  let own := (n.splitOn "/").getLastD n
  if own.endsWith ".vxs" then String.ofList (own.toList.take (own.length - 4)) else own

/-- What an invocation comes to: its exit status, its diagnostics and the files that it writes. -/
structure Invoked where
  status : Nat
  diags : List Diag
  outputs : List (String × Content)
  deriving DecidableEq, Repr

/-- vxasm run with some arguments beside some files (R141): status 2 where the invocation is wrong, a named file that is absent
included; with status 1 or 2 no file is written. -/
def vxasm (files : List (String × String)) (args : List String) : Invoked :=
  match readArgs args Options.start with
  | none => ⟨2, [], []⟩
  | some p =>
    if p.files.any fun n => (files.find? fun f => f.1 == n).isNone then ⟨2, [], []⟩
    else
      let lines := sourceLines files p.dirs p.files
      let o := (assemble p.defs lines).1
      let diags := o.diags ++ if p.spf then (spfRecords o).2 else []
      let base := p.base.getD (baseName (p.files.headD ""))
      let status := exitStatus p.werror diags
      ⟨status, diags,
        if status ≠ 0 then []
        else
          (if p.bundles then [(base ++ ".vxb", .image o)] else []) ++
            (if p.spf then [(base ++ ".spf", .spf (spfOf o).1 (spfOf o).2)] else []) ++
            (if p.listing then [(base ++ ".lst", .listing (listing files p.defs o lines))] else [])⟩

/-! ### What a session names (R158) -/

/-- The `ctx` registers by name (R161). -/
def ctxNamed (n : String) : Option Nat :=
  ([("ctx.fpm", 0), ("ctx.ff", 1), ("ctx.stamp", 2), ("ctx.drop", 3), ("ctx.id", 4), ("ctx.mode", 5), ("ctx.cyc", 6),
    ("ctx.nrg", 7), ("ctx.tcause", 0x10), ("ctx.tgrp", 0x11), ("ctx.tinfo", 0x12), ("ctx.tmove", 0x13), ("ctx.topo", 0x14),
    ("ctx.topp", 0x15), ("ctx.topt", 0x16), ("ctx.tres", 0x17), ("ctx.tret", 0x18)].find? fun p => p.1 == n).map Prod.snd

/-- What is left of a text behind a word that it begins with. -/
def behind (w n : String) : Option (List Char) :=
  if n.startsWith w then some (n.toList.drop w.length) else none

/-- A counter by name: `cnt` with a number is the context's own, `gang.ctr` its gang's, and `die`, a number, `.ctr` and a number a
die's. -/
def counterNamed (n : String) : Option Sel :=
  (((behind "cnt" n).bind decimal).map Sel.loc).or <| (((behind "gang.ctr" n).bind decimal).map Sel.gang).or <|
    let cut := cutDot n
    ((behind "die" cut.1).bind decimal).bind fun d => ((behind "ctr" cut.2).bind decimal).map (Sel.die d)

/-- The lanes that a name in brackets asks for, as `[0:7]`. -/
def lanesNamed : List String → Option (Nat × Nat)
  | ["[", a, ":", b, "]"] => (number a).bind fun lo => (number b).map fun hi => (lo, hi)
  | [] => some (0, 63)
  | _ => none

/-- What a name of `print` shows, from its tokens; memory is named by an address and a length instead. -/
def shownNamed (ts : List String) : Option Shown :=
  match ts with
  | [] => none
  | n :: rest =>
    match sourceNamed n with
    | some (.g k) => if rest = [] then some (.g k) else none
    | some (.k k) => if rest = [] then some (.clock k.val) else none
    | some (.v k) => (lanesNamed rest).map fun l => .vector k l.1 l.2
    | some (.port q) => if rest = [] then some (.port q) else (lanesNamed rest).map fun l => .lanes q l.1 l.2
    | _ =>
      if rest ≠ [] then none
      else
        ((latchNamed n).map fun l => .latch l.1 l.2).or <| ((ctxNamed n).map .ctxReg).or <| (counterNamed n).map .counter

end Sys2Proof.Machine.Asm
end

