-- ==== Sys2Proof/Tests/Slice0.lean ====
section
/-!
SUPPORT. Tests: terms that WellFormed refuses, one for each check; words written out from the encoding of 03_bundles;
single steps with results from the spec's worked examples and tables; and, for the statements of Obligations.lean, states
and operands that meet their hypotheses.
-/

namespace Sys2Proof.Tests

open Sys2Proof Sys2Proof.Machine

set_option maxRecDepth 100000
set_option Elab.async false

/-! ### Ill-formed terms (R6, R8, R9, R392, R395) -/

/-- A flit of a kind with empty data of `n` bytes. -/
def flit (k : BitVec 4) (n : Nat) : Flit := ⟨k, 0, 0, 0, 0, 0, List.replicate n 0, 0, 0⟩

theorem test_wf_context : ∀ x ∈ [(⟨529, 0⟩ : CtxRef), ⟨0, 4⟩],
    (Instr.resultLand x).wf = false ∧ (Instr.implicitYield x).wf = false ∧ (Instr.engineQueueSpace x).wf = false ∧
    (Instr.rangeHoldRelease x).wf = false ∧ (Instr.waitSatisfied x).wf = false ∧ (Instr.fenceComplete x).wf = false ∧
    (Instr.yieldRelease x).wf = false ∧ (Instr.feWaitServed x).wf = false ∧ (Instr.versionSlotFree x).wf = false ∧
    (Instr.cpWaitbSatisfied x).wf = false ∧ (Instr.mxDrainComplete x).wf = false ∧ (Instr.msFenceComplete x).wf = false ∧
    (Instr.counterAddApply x).wf = false ∧ (Instr.tendRetire x).wf = false ∧ (Instr.loadBlockFilled x 0).wf = false ∧
    (Instr.setAcquire x).wf = false ∧ (Instr.tinvComplete x).wf = false ∧ (Instr.idleWake x).wf = false ∧
    (Instr.flush x).wf = false ∧ (Instr.haltreq x).wf = false ∧ (Instr.resume x).wf = false ∧
    (Instr.step x ⟨0, 0⟩).wf = false ∧ (Instr.step ⟨0, 0⟩ x).wf = false ∧ (Instr.perfCounterWrite x 0 0 0).wf = false ∧
    (Instr.perfConfigWrite x 0 0 0).wf = false ∧ (Instr.registerWrite x 0 0).wf = false ∧
    (Instr.d2htailWrite x 0).wf = false ∧ (Instr.h2dheadWrite x 0).wf = false ∧ (Instr.routeWrite x 0 0 0).wf = false ∧
    (Instr.storageSqDoorbell x 0 0).wf = false ∧ (Instr.dbgWrite x 0 0).wf = false ∧
    (Instr.partitionAssignWrite x 0 0 0).wf = false ∧ (Instr.accessTableWrite x 0 0 0).wf = false ∧
    (Instr.partitionPark x 0).wf = false ∧ (Instr.partitionUnpark x 0).wf = false ∧ (Instr.standbyEnter x).wf = false ∧
    (Instr.standbyExit x).wf = false := by decide

theorem test_wf_core :
    (Instr.lateResultArrive 529).wf = false ∧ (Instr.mxCommandStart 529).wf = false ∧
    (Instr.mxCommandComplete 529 true).wf = false ∧ (Instr.cpCommandStart 529).wf = false ∧
    (Instr.cpCommandComplete 529 0).wf = false ∧ (Instr.closeMarkerRetire 529 0).wf = false ∧
    (Instr.msOpArrive 529 0).wf = false ∧ (Instr.msRedComplete 529 0).wf = false ∧ (Instr.msMarkFire 529 0).wf = false ∧
    (Instr.ticketTake 529).wf = false ∧ (Instr.parkGate 529).wf = false := by decide

theorem test_wf_die :
    (Instr.preemptChoice 8).wf = false ∧ (Instr.perfCounterWrite ⟨0, 0⟩ 8 0 0).wf = false ∧
    (Instr.perfConfigWrite ⟨0, 0⟩ 8 0 0).wf = false ∧ (Instr.routeWrite ⟨0, 0⟩ 8 0 0).wf = false ∧
    (Instr.sramSingleBitError 8).wf = false ∧ (Instr.sramDoubleBitError 8 (.core 0)).wf = false ∧
    (Instr.throttleStepUpdate 8 0 0).wf = false ∧ (Instr.thermalCritical 8 0).wf = false ∧
    (Instr.dbgWrite ⟨0, 0⟩ 8 0).wf = false ∧ (Instr.partitionAssignWrite ⟨0, 0⟩ 8 0 0).wf = false ∧
    (Instr.accessTableWrite ⟨528, 0⟩ 8 0 0).wf = false ∧ (Instr.hbmUncorrectableError 8 0).wf = false := by decide

theorem test_wf_place :
    (Instr.sramDoubleBitError 0 (.core 529)).wf = false ∧ (Instr.sramDoubleBitError 0 (.sliceLine 32 0)).wf = false ∧
    (Instr.sramDoubleBitError 0 (.slice 32)).wf = false := by decide

theorem test_wf_stamp :
    (Instr.tokenGain ⟨0, 2 ^ 64⟩).wf = false ∧ (Instr.kill ⟨0, 2 ^ 64⟩).wf = false ∧
    (Instr.checkpoint ⟨0, 2 ^ 64⟩).wf = false := by decide

theorem test_wf_partition :
    (Instr.partitionPark ⟨0, 0⟩ 8).wf = false ∧ (Instr.partitionUnpark ⟨0, 0⟩ 8).wf = false ∧
    (Instr.managementRequestWake 8).wf = false ∧ (Instr.partitionResetComplete 8).wf = false := by decide

theorem test_wf_queue_pair :
    (Instr.storageSqDoorbell ⟨0, 0⟩ 520 0).wf = false ∧ (Instr.fabricsConnect 520).wf = false ∧
    (Instr.propertyGet 520).wf = false ∧ (Instr.propertySet 520).wf = false ∧ (Instr.identify 520).wf = false ∧
    (Instr.getLogPage 520).wf = false ∧ (Instr.keepAlive 520).wf = false ∧ (Instr.nvmeRead 520 []).wf = false ∧
    (Instr.nvmeWrite 520).wf = false ∧ (Instr.nvmeFlush 520).wf = false ∧ (Instr.invalidCommandOpcode 520).wf = false ∧
    (Instr.nvmeCompletion 520 (List.replicate 16 0)).wf = false ∧ (Instr.nvmeCompletion 0 []).wf = false := by decide

theorem test_wf_connection :
    (Instr.keepAliveTimer 8).wf = false ∧ (Instr.rocePacket 521 0 true).wf = false ∧ (Instr.pfcPause 8 true).wf = false := by
  decide

theorem test_wf_other :
    (Instr.deviceIdSetting 64).wf = false ∧ (Instr.getMeasurements 0 []).wf = false ∧
    (Instr.getMeasurements 4 []).wf = false ∧ (Instr.hostRingWrite 0x100000 [0]).wf = false ∧
    (Instr.flitCrcFail 16).wf = false := by decide

theorem test_wf_flit_kind :
    (Instr.flitStore 0 (flit 2 32)).wf = false ∧ (Instr.flitLoadRequest 0 (flit 1 32)).wf = false ∧
    (Instr.flitLoadResponse 0 (flit 1 32)).wf = false ∧ (Instr.flitCounterAdd 0 (flit 1 32)).wf = false ∧
    (Instr.flitTableMulticast 0 (flit 1 32)).wf = false ∧
    (Instr.flitClearingMessage 0 (flit 1 32) (.cleared 0 0 0)).wf = false ∧
    (Instr.flitLeaseVersionMessage 0 (flit 1 32) (.discard 0 0)).wf = false ∧ (Instr.flitCredit 0 (flit 1 32)).wf = false ∧
    (Instr.flitWalkContinuation 0 (flit 1 32)).wf = false ∧ (Instr.flitUnknown 0 (flit 1 32)).wf = false := by decide

theorem test_wf_flit_link :
    (Instr.flitStore 16 (flit 1 32)).wf = false ∧ (Instr.flitLoadRequest 16 (flit 2 32)).wf = false ∧
    (Instr.flitLoadResponse 16 (flit 3 32)).wf = false ∧ (Instr.flitCounterAdd 16 (flit 4 32)).wf = false ∧
    (Instr.flitTableMulticast 16 (flit 5 32)).wf = false ∧
    (Instr.flitClearingMessage 16 (flit 6 32) (.cleared 0 0 0)).wf = false ∧
    (Instr.flitLeaseVersionMessage 16 (flit 7 32) (.discard 0 0)).wf = false ∧ (Instr.flitCredit 16 (flit 8 32)).wf = false ∧
    (Instr.flitWalkContinuation 16 (flit 9 32)).wf = false ∧ (Instr.flitUnknown 16 (flit 0 32)).wf = false := by decide

theorem test_wf_flit_data :
    (Instr.flitStore 0 (flit 1 31)).wf = false ∧ (Instr.flitUnknown 0 (flit 15 33)).wf = false := by decide

/-! ### Words written out from the encoding (R56, R57, R67, R68, R70): SRC in 23:14, DST in 13:4, GUARD in 3:0 -/

-- g6 is source 0x006; x0.add is port 0x082; guard 0 always
theorem test_decode_x0 : decodeSlot 0b0000000110_0010000010_0000#24 = .ok (.x0Add (.g 6) .always) := by decide
-- short immediates are sources 0x100 to 0x1FF; x1.cwr is port 0x0E3
theorem test_decode_x1 : decodeSlot 0b0100000001_0011100011_0000#24 = .ok (.x1Cwr (.short 1) .always) := by decide
-- x0.q is source 0x080; ls.st.n64 is port 0x10C
theorem test_decode_ls : decodeSlot 0b0010000000_0100001100_0000#24 = .ok (.lsStN64 (.port .x0q) .always) := by decide
-- the long immediate is source 0x070; br.jmp is port 0x142
theorem test_decode_br : decodeSlot 0b0001110000_0101000010_0000#24 = .ok (.brJmp .imm .always) := by decide
-- k3 is source 0x063; ck.merge is port 0x165
theorem test_decode_ck : decodeSlot 0b0001100011_0101100101_0000#24 = .ok (.ckMerge (.k 3) .always) := by decide
theorem test_decode_sy : decodeSlot 0b0100000000_0110000111_0000#24 = .ok (.syTend (.short 0) .always) := by decide
-- v2 is source 0x042; ve.add.f32 is port 0x1A2
theorem test_decode_ve : decodeSlot 0b0001000010_0110100010_0000#24 = .ok (.veAddF32 (.v 2) .always) := by decide
-- guard 0xB is p3; mx.cst is port 0x224
theorem test_decode_mx : decodeSlot 0b0100000000_1000100100_1011#24 = .ok (.mxCst (.short 0) (.pred 3)) := by decide
theorem test_decode_cp : decodeSlot 0b0001110000_1001100010_0000#24 = .ok (.cpLin .imm .always) := by decide
theorem test_decode_ms : decodeSlot 0b0000010101_1010100010_0000#24 = .ok (.msAddF32 (.g 21) .always) := by decide
theorem test_decode_sv : decodeSlot 0b0001110000_1011000100_0000#24 = .ok (.svSrd .imm .always) := by decide
-- x0.o is destination 0x080; guard 7 is k7
theorem test_decode_move : decodeSlot 0b0000000101_0010000000_0111#24 = .ok (.move (.g 5) (.o .x0) (.clk 6)) := by decide
theorem test_decode_guard : decodeSlot 0b0000000101_0010000000_1100#24 = .error .reservedGuard := by decide
theorem test_decode_source : decodeSlot 0b0001110010_0010000000_0000#24 = .error .undefSource := by decide
theorem test_decode_destination : decodeSlot 0b0000000101_0001110000_0000#24 = .error .undefDestination := by decide
theorem test_decode_empty : decodeSlot 0b0000000001_0000000000_1111#24 = .error .emptyNonzero := by decide
theorem test_decode_round : ∀ i ∈ [Instr.x0Add (.g 6) .always, .lsStN64 (.port .x0q) .always, .veAddF32 (.v 2) (.pred 0),
    .svSrd .immZ (.clk 0), .move (.short 0x80) (.k 14) .always], ((encode i).map decodeSlot) = some (.ok i) := by decide


/-! ### States for tests -/

/-- Context 0 of compute core 0 in an ordered launch (State.placeWord). -/
def cs : State := { State.reset.placeWord 0x014800#24 with cur := ⟨0, 0⟩ }

/-- The same in an open launch. -/
def co : State :=
  ({ cs with launches := cs.launches.map fun l => { l with record := { l.record with open_ := true } } } : State).updCtx
    ⟨0, 0⟩ fun c => { c with ord := false }

/-- Context 0 of supervisor core 512. -/
def cv : State := { State.reset.placeWord 0x402C40#24 with cur := ⟨512, 0⟩ }

/-- Scalar latches o and p of a unit, and g1, with the tag 0xF. -/
def ops (s : State) (u : Unit11) (o p t : Word) : State :=
  s.updCtx s.cur fun c =>
    { c with
      lo := c.lo.set (unitIdx u) (.sc ⟨o, 0xF, false⟩), lp := c.lp.set (unitIdx u) (.sc ⟨p, 0xF, false⟩)
      g := c.g.set 1 ⟨t, 0xF, false⟩ }

/-- A vector with given first lanes, the rest zero. -/
def lanes (l : List Lane) : Lanes := ⟨⟨(List.range 64).map fun k => l.getD k 0⟩, by simp⟩

/-- A vector o latch of the vector engine, and v1. -/
def vops (s : State) (o t : List Lane) : State :=
  s.updCtx s.cur fun c =>
    { c with lo := c.lo.set (unitIdx .ve) (.ve ⟨lanes o, 0xF, false⟩), v := c.v.set 1 ⟨lanes t, 0xF, false⟩ }

/-- Source g1 with no guard. -/
abbrev onG (i : Src → Guard → Instr) : Instr := i (.g 1) .always

/-- Source v1 with no guard. -/
abbrev onV (i : Src → Guard → Instr) : Instr := i (.v 1) .always

/-- The next state of an instruction that completes, tested. -/
def runs (i : Instr) (s : State) (f : State → Bool) : Bool :=
  match exec i s with
  | .next t => decide (t.last = .done) && f t
  | _ => false

/-- Whether an instruction traps with a cause, in a class. -/
def traps (i : Instr) (s : State) (cause : Byte) (cls : Nat) : Bool :=
  match exec i s with
  | .next t => match t.last with
    | .trapped r => decide (r.cause = cause ∧ r.cls = cls)
    | _ => false
  | _ => false

/-- Whether an instruction blocks. -/
def blocks (i : Instr) (s : State) : Bool :=
  match exec i s with
  | .next t => match t.last with
    | .blocked _ => true
    | _ => false
  | _ => false

/-- Latency, word and flags of the first result on its way to a port. -/
def result (t : State) (q : Port) : Option (Nat × Word × Num.Flags) :=
  (t.me.pend.find? fun p => decide (p.dest = .port q)).map fun p => (p.left, p.val.word, p.flags)

/-- Whether an instruction lands a word with flags at a port after a latency. -/
def gives (i : Instr) (s : State) (q : Port) (lat : Nat) (w : Word) (f : Num.Flags) : Bool :=
  runs i s fun t => decide (result t q = some (lat, w, f))

/-- The first lanes of the first vector on its way to ve.q, with latency and flags. -/
def givesV (i : Instr) (s : State) (lat : Nat) (l : List Lane) (f : Num.Flags) : Bool :=
  runs i s fun t => t.me.pend.any fun p =>
    decide (p.dest = .port .veq ∧ p.left = lat ∧ p.flags = f ∧ (p.val.lanes.toList.take l.length) = l)

/-! ### One step each, from the tables and worked examples of the spec -/

-- 13_prog_clocks, the three bundles of its assembly
theorem test_words_of_merge : decodeSlot 0x1C1C40#24 = .ok (.veSelB32 .imm .always) ∧
    decodeSlot 0x40D660#24 = .ok (.ckMergep (.short 3) .always) ∧
    decodeSlot 0x401C50#24 = .ok (.veLid (.short 0) .always) ∧
    decodeSlot 0x115DA3#24 = .ok (.veScatB32 (.v 5) (.clk 2)) := by decide

theorem test_fetch_runs_the_word : (match step (State.reset.withFetchWord 24 0x014800) with
    | .next t => decide (t.last = .done ∧ (t.ctx ⟨0, 0⟩).first = 1)
    | _ => false) = true := by decide +kernel

-- R166
theorem test_div : gives (onG .x0DivS64) (ops cs .x0 (-7) 0 2) .x0q 18 (-3) 0 = true := by decide +kernel
theorem test_rem : gives (onG .x1RemS64) (ops cs .x1 (-7) 0 2) .x1q 18 (-1) 0 = true := by decide +kernel
theorem test_div_overflow :
    gives (onG .x0DivS64) (ops cs .x0 0x8000000000000000 0 (-1)) .x0q 18 0x8000000000000000 0 = true := by decide +kernel
theorem test_div_zero : gives (onG .x0DivN64) (ops cs .x0 5 0 0) .x0q 18 (-1) 0 = true := by decide +kernel
theorem test_rem_zero : gives (onG .x0RemS64) (ops cs .x0 (-5) 0 0) .x0q 18 (-5) 0 = true := by decide +kernel
theorem test_mulh_unsigned : gives (onG .x0MulhN64) (ops cs .x0 (-1) 0 (-1)) .x0q 3 (-2) 0 = true := by decide +kernel
theorem test_mulh_signed : gives (onG .x1MulhS64) (ops cs .x1 (-1) 0 (-1)) .x1q 3 0 0 = true := by decide +kernel
-- R165: a source that is also what lands, shifts by t[5:0], the field and sign corners
theorem test_shl_mod : gives (onG .x0Shl) (ops cs .x0 1 0 65) .x0q 1 2 0 = true := by decide +kernel
theorem test_ror_zero : gives (onG .x0Ror) (ops cs .x0 9 0 64) .x0q 1 9 0 = true := by decide +kernel
theorem test_clz_zero : gives (onG .x0Clz) (ops cs .x0 0 0 0) .x0q 1 64 0 = true := by decide +kernel
theorem test_bfx_wide : gives (onG .x0Bfx) (ops cs .x0 (-1) 0 (65 * 64)) .x0q 1 0 0 = true := by decide +kernel
theorem test_sxt : gives (onG .x0Sxt) (ops cs .x0 0x80 0 7) .x0q 1 (-128) 0 = true := by decide +kernel
-- R167
theorem test_ftoi_tie : gives (onG .x0FtoiS64) (ops cs .x0 0 0 0x3FC00000) .x0q 3 2 Num.NX = true := by decide +kernel
theorem test_ftoi_saturates :
    gives (onG .x0FtoiS64) (ops cs .x0 0 0 0x5F000000) .x0q 3 0x7FFFFFFFFFFFFFFF Num.NV = true := by decide +kernel
theorem test_ftoi_nan : gives (onG .x1FtoiS64) (ops cs .x1 0 0 0x7FC00000) .x1q 3 0 Num.NV = true := by decide +kernel
theorem test_itof : gives (onG .x0ItofS64) (ops cs .x0 0 0 0x1000001) .x0q 3 0x4B800000 Num.NX = true := by decide +kernel
theorem test_ftoi_rtz : gives (onG .x0FtoiS64)
    ((ops cs .x0 0 0 0x3FC00000).updCtx cs.cur fun c => { c with fpm := 1 }) .x0q 3 1 Num.NX = true := by decide +kernel
-- R133: the half-way value is rounded before it is clamped
theorem test_clamp_none : Num.cvtClamp Num.bf16 none (Num.f32 0x7F7F8000) = 0x7F80 := by decide +kernel
theorem test_clamp_full : Num.cvtClamp Num.bf16 (some 0x7F7F) (Num.f32 0x7F7F8000) = 0x7F7F := by decide +kernel
theorem test_clamp_half : Num.cvtClamp Num.bf16 (some 0x7F00) (Num.f32 0x7F7F8000) = 0x7F00 := by decide +kernel
-- R137: lane 0 holds 2^24, lanes 16 and 48 hold 1.0
theorem test_rsum_tree : gives (.veRsumF32 (.short 0xFF) .always)
    (vops cs ((List.range 64).map fun k => if k = 0 then 0x4B800000 else if k = 16 ∨ k = 48 then 0x3F800000 else 0) [])
    .veq2 6 0x4B800001 0 = true := by decide +kernel
-- R140: +1, -1 and -0 under RDN give +0; an empty reduction gives +0
theorem test_rsum_rdn : gives (.veRsumF32 (.short 7) .always)
    ((vops cs [0x3F800000, 0xBF800000, 0x80000000] []).updCtx cs.cur fun c => { c with fpm := 3 }) .veq2 6 0 0 = true := by
  decide +kernel
theorem test_rmax_zeros : gives (.veRmaxF32 (.short 3) .always) (vops cs [0x80000000, 0] []) .veq2 6 0 0 = true := by
  decide +kernel
theorem test_rmin_empty : gives (.veRminF32 (.short 0) .always) (vops cs [5] []) .veq2 6 0 0 = true := by decide +kernel
-- R259: the nine bytes "123456789" from 0xFFFFFFFF
theorem test_crc_word1 : givesV (onV .veCrc32cB32) (vops cs [0xFFFFFFFF, 0] [0x34333231, 0]) 2
    [vCrc32 0xFFFFFFFF 0x34333231, 0] 0 = true := by decide +kernel
theorem test_crc_check :
    vCrc8 (vCrc32 (vCrc32 0xFFFFFFFF 0x34333231) 0x38373635) 0x39 ^^^ 0xFFFFFFFF = 0xE3069283 := by decide +kernel
-- R255, R129: the worked block
theorem test_bxenc : givesV (.veBxenc .imm .always)
    { vops cs [0x40400000, 0x3DCCCCCD, 0xBE99999A, 0x3B000000, 0x3BC00000] [] with
      issue := ⟨0, 0, 0x403, false, none⟩ } 4 [0x00C51AB0, 2, 0, 0, 0, 0, 0, 0, 0] Num.NX = true := by decide +kernel
theorem test_bxenc_exponents : gives (.veBxenc .imm .always)
    { vops cs [0x40400000, 0x3DCCCCCD, 0xBE99999A, 0x3B000000, 0x3BC00000] [] with
      issue := ⟨0, 0, 0x403, false, none⟩ } .veq2 4 0x807C Num.NX = true := by decide +kernel
theorem test_bxdec : givesV (onG .veBxdec)
    ((vops cs [0x00C51AB0, 2] []).updCtx cs.cur fun c => { c with g := c.g.set 1 ⟨0x30000807C, 0xF, false⟩ }) 4
    [0x40400000, 0x3DD00000, 0xBEA00000, 0, 0x3C000000, 0] 0 = true := by decide +kernel
-- R252
theorem test_sqrt_minus : givesV (onV .veSqrtF32) (vops cs [] [0x80000000, 0xBF800000, 0x7F800000, 0x40800000]) 8
    [0x80000000, 0x7FC00000, 0x7F800000, 0x40000000] Num.NV = true := by decide +kernel
theorem test_div_by_zero : givesV (onV .veDivF32) (vops cs [0x3F800000, 0xC0000000] [0x80000000, 0x3F800000]) 8
    [0xFF800000, 0xC0000000] (Num.DZ ||| Num.NV) = true := by decide +kernel
theorem test_exp2 : givesV (onV .veExp2F32) (vops cs [] [0x40400000, 0xFF800000, 0x7F800000]) 8
    [0x41000000, 0, 0x7F800000, 0x3F800000] 0 = true := by decide +kernel
theorem test_log2 : givesV (.veLog2F32 (.g 1) .always) (ops cs .ve 0 0 0x41000000) 8 [0x40400000] 0 = true := by
  decide +kernel
-- R2, R170-R172: low byte first, sign extension
theorem test_store_load : runs (onG .lsStN32) (ops cs .ls 0x20000 0 0xFFFFFF80) (fun t =>
    decide (cellsRead t.store.mem 0x20000 4 = [0x80, 0xFF, 0xFF, 0xFF]) &&
      gives (.lsLdS8 (.short 0) .always) { t with cur := ⟨0, 0⟩ } .lsq 5 0 0) = true := by decide +kernel
theorem test_load_sign : gives (onG .lsLdS16) ({ ops cs .ls 0 0 0x20000 with
    store := cs.store.put 0x20000 [0x34, 0x92] false } : State) .lsq 5 (0x9234#16 |>.signExtend 64) 0 = true := by
  decide +kernel
-- R178, R186, R192, R69, R73, R162
theorem test_jmp : runs (.brJmp (.short 64) .always) { cs with issue := ⟨0x1000, 0, 0, false, none⟩ } (fun t =>
    decide (t.me.delay = some ⟨0x1000, some 0x1040⟩)) = true := by decide +kernel
theorem test_jmp_misaligned : traps (.brJmp (.short 1) .always) cs 0x0C 5 = true := by decide +kernel
theorem test_lp0_short : traps (.brLp0 (.short 0) .always) (ops cs .br 1 0 0) 0x0B 5 = true := by decide +kernel
theorem test_ck_def : runs (.ckDef (.short 3) .always) (ops cs .ck 1 0 0) (fun t =>
    decide (result t .ckq = some (1, 1, 0))) = true := by decide +kernel
theorem test_ck_redefined : traps (.ckSub (.short 3) .always)
    (cs.updCtx cs.cur fun c => { c with kdef := 8 }) 0x28 5 = true := by decide +kernel
theorem test_add_saturates : runs (onG .syAdd) ((ops cs .sy 0 0 2).updCtx cs.cur fun c => { c with lctr := c.lctr.set 0 (-2) })
    (fun t => decide (t.me.lctr[0] = -1)) = true := by decide +kernel
theorem test_priv : traps (.svSrd (.short 0) .always) cs 0x05 1 = true := by decide +kernel
theorem test_no_vector_unit : traps (.veAddF32 (.short 0) .always) cv 0x02 3 = true := by decide +kernel
theorem test_tags_differ : traps (onG .x0Add) ((ops cs .x0 1 0 1).updCtx cs.cur fun c =>
    { c with lo := c.lo.set 0 (.sc ⟨1, 3, false⟩), g := c.g.set 1 ⟨1, 4, false⟩ }) 0x20 4 = true := by decide +kernel
theorem test_absent_clock : traps (onG .x0Add) ((ops cs .x0 1 0 1).updCtx cs.cur fun c =>
    { c with g := c.g.set 1 ⟨1, 4, false⟩ }) 0x21 4 = true := by decide +kernel
theorem test_ctx_reg_reserved : traps (.x0Crd (.short 9) .always) cs 0x09 5 = true := by decide +kernel
theorem test_sv_form : traps (.svSpace (.short 0xFF) .always) cv 0xC3 5 = true := by decide +kernel
theorem test_mx_loop_word : runs (.mxLoop (.short 1) .always) (ops cs .mx (4 + 2 * 2 ^ 16) 0 0) (fun t =>
    t.me.pend.any fun p => decide (p.dest = .mxLoop (mxWord 1 1 0 0 7 2) (mxWord 0xF 7 0 0x7FF 0x7FF 0xFFFFFF))) = true := by
  decide +kernel
theorem test_fill_joins : runs (onG .cpFill) (ops co .cp 7 0x20000 (0xFFFFFFFF00000020)) (fun t =>
    decide (((t.core 0).cpq.map fun c => (c.port, c.writes.map Piece.n)) = [(0x266, [32])])) = true := by decide +kernel

/-! ### What meets the hypotheses of the statements: shared parts -/

/-- Every trigger of a compute core's units is carried out from a short immediate, whatever operands it uses. -/
theorem test_fires_compute : ∀ e ∈ [(Unit11.x0, 0x082, 34), (.x1, 0x0C2, 34), (.ls, 0x102, 16), (.br, 0x142, 10),
      (.ck, 0x162, 11), (.sy, 0x182, 9), (.ve, 0x1A2, 58), (.mx, 0x222, 11), (.cp, 0x262, 13), (.ms, 0x2A2, 10)],
    ∀ us ∈ [Uses.none_, .t, .ot, .pt, .opt], ∀ k ∈ List.range e.2.2,
      fires e.1 (e.2.1 + k) us (.short 0) .always cs = true ∧ clocked e.1 .t (.short 0) cs = true := by decide +kernel

/-- Every trigger of a supervisor core's units is carried out. -/
theorem test_fires_supervisor : ∀ e ∈ [(Unit11.x0, 0x082, 34), (.x1, 0x0C2, 34), (.ls, 0x102, 16), (.br, 0x142, 10),
      (.ck, 0x162, 11), (.sy, 0x182, 9), (.ms, 0x2A2, 10), (.sv, 0x2C2, 16)],
    ∀ us ∈ [Uses.none_, .t, .ot, .pt, .opt], ∀ k ∈ List.range e.2.2,
      fires e.1 (e.2.1 + k) us (.short 0) .always cv = true := by decide +kernel

/-- A waiting command of context 0 without data. -/
def cmd0 : Cmd :=
  { id := 0, ctx := 0, react := none, port := 0x225, o := .sc SVal.zero, p := .sc SVal.zero, t := .sc SVal.zero, recs := []
    reads := [], writes := [], held := [], clean := [], taint := false, ctaint := false, tag := 0xF, sel := none, count := 0
    slot := 0, sfmt := 0, batch := 0, started := false, sent := false, stack := 0, group := (0, 0) }

/-- A piece of plain memory. -/
def piece (a n : Nat) : Piece := ⟨a, n, a, .direct⟩

/-- The state and pieces of accesses that pass. -/
def passOf (s : State) (l : List Span) : Option (State × List SpanP) :=
  match s.vet s.cur l with
  | .ok t ps => some (t, ps)
  | _ => none

theorem passOf_passes {s : State} {l : List Span} {r : State × List SpanP} (h : passOf s l = some r) :
    s.passes l r.1 r.2 := by
  unfold passOf at h
  split at h
  · rename_i t ps h0
    cases h
    exact h0
  · cases h

theorem ex_passes {s : State} {l : List Span} (f : State → List SpanP → Bool)
    (h : (passOf s l).any (fun r => f r.1 r.2) = true) : ∃ t ps, s.passes l t ps ∧ f t ps = true := by
  cases e : passOf s l with
  | none => simp [e] at h
  | some r => exact ⟨r.1, r.2, passOf_passes e, by simpa [e] using h⟩

/-- The same for vector accesses and commands. -/
def passAllOf (s : State) (what : AccFor) (l : List Span) : Option (State × List SpanP) :=
  match s.watchSpans s.cur l with
  | (_, some _) => none
  | (r, none) =>
    match r.resolveSpans r.cur l with
    | .error _ => none
    | .ok qs =>
      match firstMs qs with
      | some _ => none
      | none =>
        match r.admitFor r.cur what qs with
        | .ok t ps => some (t, ps)
        | _ => none

theorem passAllOf_passes {s : State} {what : AccFor} {l : List Span} {r : State × List SpanP}
    (h : passAllOf s what l = some r) : s.passesAll what l r.1 r.2 := by
  unfold passAllOf at h
  split at h
  · cases h
  · rename_i u h0
    split at h
    · cases h
    · rename_i qs h1
      split at h
      · cases h
      · rename_i h2
        split at h
        · rename_i t ps h3
          cases h
          exact ⟨u, qs, h0, h1, h2, h3⟩
        · cases h

theorem ex_passesAll {s : State} {what : AccFor} {l : List Span} (f : State → List SpanP → Bool)
    (h : (passAllOf s what l).any (fun r => f r.1 r.2) = true) : ∃ t ps, s.passesAll what l t ps ∧ f t ps = true := by
  cases e : passAllOf s what l with
  | none => simp [e] at h
  | some r => exact ⟨r.1, r.2, passAllOf_passes e, by simpa [e] using h⟩

/-- A record read that passes: the state after it, its bytes and taint. -/
def recOf (s : State) (va n : Nat) : Option (State × List Byte × Bool) :=
  match passAllOf s .record [⟨va, n, false⟩] with
  | some (u, [p]) => some ((u.readBefore p).1.recordLate va, (u.readBefore p).2.1, (u.readBefore p).2.2)
  | _ => none

theorem ex_record {s : State} {va n : Nat} (f : State → List Byte → Bool → Bool)
    (h : (recOf s va n).any (fun r => f r.1 r.2.1 r.2.2) = true) :
    ∃ u bs taint, s.recordRead va n u bs taint ∧ f u bs taint = true := by
  cases e : recOf s va n with
  | none => simp [e] at h
  | some r =>
    refine ⟨r.1, r.2.1, r.2.2, ?_, by simpa [e] using h⟩
    unfold recOf at e
    split at e
    · rename_i u p h1
      cases e
      exact ⟨u, p, passAllOf_passes h1, rfl, rfl, rfl⟩
    · cases e

/-- The data accesses of a command that pass. -/
def dataOf (s : State) (l : List Span) : Option (State × List Piece × List Piece) :=
  (passAllOf s .command l).map fun r =>
    (r.1, (r.2.filter fun a => !a.span.write).flatMap SpanP.ps, (r.2.filter fun a => a.span.write).flatMap SpanP.ps)

theorem ex_data {s : State} {l : List Span} (f : State → List Piece → List Piece → Bool)
    (h : (dataOf s l).any (fun r => f r.1 r.2.1 r.2.2) = true) :
    ∃ v rd wr, s.dataPass l v rd wr ∧ f v rd wr = true := by
  unfold dataOf at h
  cases e : passAllOf s .command l with
  | none => simp [e] at h
  | some r => exact ⟨r.1, _, _, ⟨r.2, passAllOf_passes e, rfl, rfl⟩, by simpa [e] using h⟩

/-- Whether a range lies in die scratchpad or translated space outside memory-side pages. -/
def plainAt (s : State) (va n : Nat) : Bool :=
  sharedRange va n && match s.anyMs s.cur (pagesOf va n) with
    | .ok b => !b
    | .error _ => false

/-- A memory-side operation whose checks pass. -/
def passMsOf (s : State) (ws : List Watched) (l : List Span) : Option (State × List SpanP) :=
  match s.watchOne s.cur ws with
  | (_, some _) => none
  | (r, none) =>
    match r.resolveSpans r.cur l with
    | .error _ => none
    | .ok ps =>
      match firstPlain ps with
      | some _ => none
      | none =>
        match r.roomFor r.cur (r.viewer r.cur) ((ps.filter fun a => a.span.write).flatMap SpanP.ps) with
        | some t => if t.poisoned (ps.flatMap SpanP.ps) then none else some (t, ps)
        | none => none

theorem ex_passesMs {s : State} {ws : List Watched} {l : List Span} (f : State → List SpanP → Bool)
    (h : (passMsOf s ws l).any (fun r => f r.1 r.2) = true) : ∃ t ps, s.passesMs ws l t ps ∧ f t ps = true := by
  cases e : passMsOf s ws l with
  | none => simp [e] at h
  | some r =>
    refine ⟨r.1, r.2, ?_, by simpa [e] using h⟩
    unfold passMsOf at e
    split at e
    · cases e
    · rename_i u h0
      split at e
      · cases e
      · rename_i ps h1
        split at e
        · cases e
        · rename_i h2
          split at e
          · rename_i t h3
            split at e
            · cases e
            · rename_i h4
              cases e
              exact ⟨u, h0, h1, h2, h3, by simpa using h4⟩
          · cases e

/-! ### Encodings, groups and scalars -/

-- the boundary words of every clause of ReservedEncodingsRefused
theorem test_wit_reserved :
    (∀ g ∈ [12, 14], 12 ≤ bitsOf (BitVec.ofNat 24 g).toNat 0 4 ∧ bitsOf (BitVec.ofNat 24 g).toNat 0 4 < 15) ∧
    (bitsOf (0x00001F#24).toNat 0 4 = 15 ∧ 0x00001F#24 ≠ 0xF#24) ∧
    (∀ a ∈ [0x072, 0x07F, 0x08C, 0x0FF, 0x200, 0x3FF], bitsOf (BitVec.ofNat 24 (a * 2 ^ 14)).toNat 14 10 = a ∧
      bitsOf (BitVec.ofNat 24 (a * 2 ^ 14)).toNat 0 4 < 12) ∧
    ∀ d ∈ [0x070, 0x07F, 0x300, 0x3FF], bitsOf (BitVec.ofNat 24 (d * 16)).toNat 4 10 = d ∧
      Src.ofCode (bitsOf (BitVec.ofNat 24 (d * 16)).toNat 14 10) ≠ none := by decide +kernel

/-- The hypotheses of StepRunsTheDecodedInstruction, for the one-move program of a word on core `n`. -/
def stepHyps (s : State) (n k : Nat) (g : State → Bool) : Bool :=
  let q := ({ s with turn := [], cur := ⟨n, k⟩ } : State).updCtx ⟨n, k⟩ Ctx.landDue
  decide (s.turn = [issueTurn n k] ∧ n < 529 ∧ k < 4 ∧ s.agenda = [] ∧ s.boot ≠ .pending ∧ (s.core n).running = some k ∧
    (s.ctx ⟨n, k⟩).status = .ready ∧ (s.ctx ⟨n, k⟩).lateNow = []) && !s.standing n && !q.breakHit ⟨n, k⟩ &&
    decide ((q.ctx ⟨n, k⟩).emuDone = []) &&
    match q.fetch ⟨n, k⟩ (q.ctx ⟨n, k⟩).pc with
    | .ok b =>
      match q.form ⟨n, k⟩ b with
      | ⟨[e], false, none⟩ =>
        decide (Group.check ⟨[e], false, none⟩ (isSup n) (q.ctx ⟨n, k⟩) = none) && !e.idleTransfer (q.ctx ⟨n, k⟩) &&
          match decodeSlot e.raw with
          | .ok i =>
            match exec i (q.atSlot e (q.before n)) with
            | .next t => g t && (decide (t.last ≠ .done) || sameRun (q.ctx ⟨n, k⟩) (t.ctx ⟨n, k⟩))
            | _ => false
          | _ => false
      | _ => false
    | _ => false

-- a move that completes (g5 to x0.o), one that traps (sy.stamp of item 9), one that blocks (sy.tend of emulation aside)
theorem test_wit_step_done : stepHyps (State.reset.placeWord 0x014800#24) 0 0 (fun t => decide (t.last = .done)) = true := by
  decide +kernel
theorem test_wit_step_trap : stepHyps (State.reset.placeWord 0x425890#24) 0 0
    (fun t => match t.last with | .trapped _ => true | _ => false) = true := by decide +kernel
-- sy.fence of scope 0 (0x185) with a memory-side command outstanding
theorem test_wit_step_block : stepHyps ((State.reset.placeWord 0x4022C0#24 |>.updCore 0 fun k =>
      { k with mxq := [cmd0] })) 0 0
    (fun t => match t.last with | .blocked _ => true | _ => false) = true := by decide +kernel
theorem test_wit_agenda : ({ State.reset with agenda := [.coreCycle] } : State).agenda = .coreCycle :: [] := by decide +kernel

theorem ex_runs {i : Instr} {s : State} (f : State → Bool) (h : runs i s f = true) :
    ∃ t, exec i s = .next t ∧ t.last = .done ∧ f t = true := by
  unfold runs at h
  split at h
  · rename_i t e; exact ⟨t, e, by simpa using h⟩
  · cases h

/-- A slot that holds the plain move of g5 to x0.o. -/
def slot0 : GSlot := ⟨0, 0, false, 0x014800, 0, false, false, 0, false⟩

-- GroupRunsItsMovesTogether: a group of one plain move
theorem test_wit_group : ∃ t, Group.check ⟨[slot0], false, none⟩ (isSup cs.cur.core) (cs.ctx cs.cur) = none ∧
    (cs.ctx cs.cur).emuDone = [] ∧ runsAll cs.cur (cs.ctx cs.cur) (cs.before cs.cur.core) (execOrder [slot0]) cs t := by
  obtain ⟨t, h1, h2, h3⟩ := ex_runs (i := .move (.g 5) (.o .x0) .always) (s := cs.atSlot slot0 (cs.before cs.cur.core))
    (fun t => sameRun (cs.ctx cs.cur) (t.ctx cs.cur)) (by decide +kernel)
  exact ⟨t, by decide +kernel, by decide +kernel, .inr ⟨by decide +kernel, _, t, by decide +kernel, h1, h2, h3, rfl⟩⟩

theorem test_wit_ctx_registers :
    let t (s : State) (n : Word) := ((ops s .x0 0 0 n).operands .x0 .ot (.g 1)).t.word.toNat
    (t cs 7 < 8) ∧ (0x10 ≤ t cv 0x18 ∧ t cv 0x18 < 0x19 ∧ cv.sup = true) ∧ (8 ≤ t cs 0xF ∧ t cs 0xF < 0x10) ∧
    0x19 ≤ t cs 0x19 ∧ (0x10 ≤ t cs 0x10 ∧ t cs 0x10 < 0x19 ∧ cs.sup = false ∧ cs.me.emu = false) ∧
    ∀ d ∈ [0x0A2, 0x0A3], ∀ s ∈ [cs, cv], fires .x0 d .ot (.g 1) .always (ops s .x0 0 0 0x10) = true := by decide +kernel

-- ScalarFrame: every operation of both units completes; ctx.tret is written in emulation mode
theorem test_wit_scalar_frame : (∀ f ∈ x0Ops ++ x1Ops, runs (f (.short 1) .always) cs (fun _ => true) = true) ∧
    runs (.x0Cwr (.short 0x18) .always) ((ops cs .x0 1 0 0).updCtx cs.cur fun c => { c with emu := true }) (fun t => t.me.tret.isSome) = true := by
  decide +kernel

theorem test_wit_lands : Ctx.reset.pend = [] ∧ Ctx.reset.ffPre = none ∧ (1 : Nat) ≤ 3 := by decide

theorem test_wit_products : (3 : Word) ≠ 0 := by decide

-- ScalarFloatOperations: a NaN, an infinity with zeros and other values, and sums that are exactly zero
theorem test_wit_float_cases : (Num.FVal.nan true).isNan = true ∧ (Num.FVal.fin true 0 0).isNan = false ∧
    Num.FVal.fin false 1 0 ≠ .inf true ∧ (Num.FVal.fin true 0 0).isZero = true ∧
    (Num.Dy.add (Num.FVal.fin false 6 0).dy (Num.FVal.fin true 3 1).dy).m = 0 ∧
    (Num.Dy.add (Num.FVal.fin true 0 0).dy (Num.FVal.fin true 0 5).dy).m = 0 := by decide +kernel

/-! ### Moves, guards, tags -/

theorem test_wit_moves : (∀ d ∈ [Dst.g 1, .v 1, .o .x0, .p .sy], formed d.code (.g 1) cs = true ∧ cs.me.guard .always = true) ∧
    formed (Dst.code (.k 3)) (.g 1) cv = true ∧ formed (Dst.code (.o .sv)) (.port .svq) cv = true := by decide +kernel

theorem test_wit_vector_to_scalar : (Instr.move (.v 0) (.g 1) .always).parts = some (.v 0, 1, .always) ∧
    (cs.me.src cs.issue.limm (.v 0)).isVec = true ∧ ¬(0x40 ≤ 1 ∧ 1 < 0x60) ∧ cs.sup = false ∧
    (Src.v 0 ≠ .port .svq) ∧ (Instr.x0Add (.v 0) .always).parts = some (.v 0, 0x082, .always) := by decide +kernel

theorem test_wit_guard : (Instr.syTend (.short 0) (.pred 0)).parts = some (.short 0, 0x187, .pred 0) ∧
    formed 0x187 (.short 0) cs = true ∧ cs.me.guard (.pred 0) = false ∧ cs.me.guard (.clk 0) = false := by decide +kernel

theorem test_wit_privilege :
    (∀ i ∈ [Instr.svIdle (.short 0) .always, .move (.short 0) (.o .sv) .always, .move (.port .svq) (.g 1) .always],
      i.parts.any (fun q => decide (cs.sup = false ∧ (0x2C0 ≤ q.2.1 ∧ q.2.1 < 0x300 ∨ q.1 = .port .svq))) = true) ∧
    (∀ i ∈ [Instr.move (.v 3) (.g 1) .always, .move (.g 1) (.v 31) .always], i.parts.any (fun q => decide (cv.sup = true ∧
      (q.1 = .v 3 ∨ 0x40 ≤ q.2.1 ∧ q.2.1 < 0x60))) = true) ∧
    (∀ i ∈ [Instr.veAddF32 (.g 1) .always, .mxTld (.g 1) .always, .cpCnt (.g 1) .always], i.parts.any (fun q =>
      decide (cv.me.guard q.2.2 = true ∧ (0x1A2 ≤ q.2.1 ∧ q.2.1 < 0x220 ∨ 0x222 ≤ q.2.1 ∧ q.2.1 < 0x260 ∨
        0x262 ≤ q.2.1 ∧ q.2.1 < 0x2A0) ∧ (cv.me.src cv.issue.limm q.1).isVec = false)) = true) ∧
    (cv.me.src cv.issue.limm (.g 1)) = .sc SVal.zero := by decide +kernel

/-- Operands of x0 with two tags. -/
def tagged (a b : Tag) : State := cs.updCtx cs.cur fun c =>
  { c with lo := c.lo.set 0 (.sc ⟨1, a, false⟩), g := c.g.set 1 ⟨1, b, false⟩ }

theorem test_wit_tags :
    (∀ s ∈ [tagged 3 4, tagged 4 4, tagged 0 0xF, tagged 0xF 0xF], formed 0x082 (.g 1) s = true ∧
      s.me.guard .always = true ∧ s.hasUnit .x0 = true) ∧
    (let tags (s : State) := (Uses.vals .ot (s.me.latchO .x0) (s.me.latchP .x0) (s.me.src s.issue.limm (.g 1))).map Value.tag;
      tags (tagged 3 4) = [3, 4] ∧ tags (tagged 4 4) = [4, 4] ∧ cs.me.pres 4 = false ∧ tags (tagged 0 0xF) = [0, 0xF] ∧
        cs.me.pres 0 = true ∧ tags (tagged 0xF 0xF) = [0xF, 0xF]) := by decide +kernel

/-! ### Traps and handlers -/

/-- A trap of x0.add in slot 7. -/
def trap0 (cause : Byte) (cls : Nat) : Trap := ⟨cause, cls, 5, 7, false, 0x018820⟩

/-- A supervisor context whose handler is set. -/
def cvh : State := cv.updCtx cv.cur fun c => { c with tent := 0x8000 }

/-- A launch with an emulation handler. -/
def csh : State := { cs with launches := cs.launches.map fun l => { l with record := { l.record with emuh := 0x8000 } } }

theorem test_wit_traps :
    (∀ e ∈ [(cvh, trap0 0x05 1), (csh, trap0 0x02 3)],
      e.2.cause ≠ 0xE0 ∧ e.2.cause ≠ 0xE1 ∧ e.2.cause ≠ 0xC6 ∧ (e.1.ctx e.1.cur).emu = false ∧
      (e.2.cause = 0x02 ∨ isSup e.1.cur.core = true) ∧ e.1.handlerOf e.1.cur ≠ 0 ∧ e.2.slot < 8 ∧ e.2.cls < 8 ∧
      moveUnit e.2.move = some .x0 ∧ Src.ofCode (bitsOf e.2.move.toNat 14 10) = some (.g 6)) ∧
    cv.handlerOf cv.cur = 0 ∧ isSup cv.cur.core = true ∧ cs.handlerOf cs.cur = 0 ∧ isSup cs.cur.core = false ∧
    512 ≤ cv.cur.core ∧ cv.cur.core < 528 := by decide +kernel

/-- A context in its handler, after a trap that entered it. -/
def cve : State := cvh.takeTrap cvh.cur (trap0 0x05 1)

theorem test_wit_handler : (cve.ctx cve.cur).bank.isSome = true ∧ (cve.ctx cve.cur).emu = true ∧
    (0 : Word).getLsbD 0 = false ∧ (0x80 : Word).getLsbD 7 = true ∧
    moveUnit (BitVec.ofNat 24 (cve.ctx cve.cur).tr.tmove.toNat) = some .x0 := by decide +kernel

/-! ### Memory -/

-- ScalarLoads and ScalarStores: every load and store of plain memory, with and without a pin in the way
theorem test_wit_loads : ∀ e ∈ [(0x102, 1), (0x103, 1), (0x104, 2), (0x105, 2), (0x106, 4), (0x107, 4), (0x108, 8)],
    fires .ls e.1 .t (.g 1) .always (ops cs .ls 0 0 0x2001F) = true ∧
    ((ops cs .ls 0 0 0x2001F).operands .ls .t (.g 1)).t.word.toNat = 0x2001F ∧
    ((passOf (ops cs .ls 0 0 0x2001F) [⟨0x2001F, e.2, false⟩]).any fun r => decide (r.2.length = 1)) = true := by
  decide +kernel

/-- A pin at the entry of a page-table node at 0x20000. -/
def pinned0 (s : State) : State := { s with pins := [(0, [0x20000])] }

theorem test_wit_stores : ∀ e ∈ [(0x109, Uses.ot, 1), (0x10A, .ot, 2), (0x10B, .ot, 4), (0x10C, .ot, 8), (0x10D, .opt, 16)],
    let s := ops cs .ls 0x20000 7 9
    fires .ls e.1 e.2.1 (.g 1) .always s = true ∧
    ((passOf s [⟨0x20000, e.2.2, true⟩]).any fun r => match r.2 with
      | [p] => decide (((r.1.storeIrrev p).pinSpan p.ps (leBytes e.2.2 9)) = none) &&
          decide (((pinned0 (r.1.storeIrrev p)).pinSpan p.ps (leBytes e.2.2 9)) = some (0x20000, 0x20000))
      | _ => false) = true := by decide +kernel

theorem test_wit_stores_complete : ∀ i ∈ [Instr.lsStN8, .lsStN16, .lsStN32, .lsStN64, .lsSt2B64],
    runs (onG i) (ops cs .ls 0x20000 7 9) (fun _ => true) = true := by decide +kernel

theorem test_wit_plain : (piece 0x20018 8).key % 32 + (piece 0x20018 8).n ≤ 32 ∧
    (cs.viewer cs.cur).versioned (piece 0x20018 8).page = false ∧ cs.sound := by
  exact ⟨by decide +kernel, by decide +kernel, by unfold State.sound; decide +kernel⟩

theorem test_wit_checks : ((passOf cs [⟨0x20000, 8, true⟩]).any fun r =>
    ((r.2.flatMap SpanP.ps).all fun p => decide (p.page ≠ .ms) && !(cs.viewer cs.cur).versioned p.page) &&
      (match cs.reactOf cs.cur with
      | some q => decide (q.unheld (rangesOfPieces ((r.2.flatMap SpanP.ps).filter fun p => decide (p.page ≠ .local_))) = [])
      | none => true)) = true := by decide +kernel

/-- A launch with a channel area in core scratchpad; `ln` is its first line. -/
def cch : State :=
  { cs with launches := cs.launches.map fun l => { l with record := { l.record with chcore := 0x1000 } } }

/-- The first channel line of launch 0 on core 0. -/
def ln : Nat := lineOf (keyOf .cspChan 0 0)

/-- The channel line filled by a producer. -/
def filled (stamp : Nat) : State :=
  { cch with store := cch.store.setFull ⟨ln, 0, stamp, 0, stamp / 65536⟩ }

theorem test_wit_fe : feFault 0xFF000000400000 0xFF000000200000 = none ∧
    fires .ls 0x10E .ot (.g 1) .always (ops cch .ls 0xFF000000200000 0 0xFF000000400000) = true ∧
    fires .ls 0x10F .ot (.g 1) .always (ops cch .ls 0xFF000000400000 0 0xFF000000200000) = true ∧
    (∀ s ∈ [filled 0, filled 5], ((passOf s [⟨0xFF000000400000, 128, false⟩, ⟨0xFF000000200000, 128, true⟩]).any fun r =>
      decide ((r.2.map fun a => a.ps.length) = [4, 4]) && r.1.feTurn r.1.cur ln true &&
        Memory.wf r.1.store.mem && r.1.me.ord) = true) ∧
    (filled 0).store.full? ln = some ⟨ln, 0, 0, 0, 0⟩ ∧ (0 ≤ cch.me.stamp.toNat) ∧ (cch.me.stamp.toNat < 5) ∧
    ((passOf cch [⟨0xFF000000400000, 128, true⟩, ⟨0xFF000000200000, 128, false⟩]).any fun r =>
      decide ((r.2.map fun a => a.ps.length) = [4, 4]) && r.1.feTurn r.1.cur ln false &&
        !r.1.feTurn r.1.cur ln true) = true ∧
    (filled 0).feTurn cs.cur ln false = false := by decide +kernel

/-- The completion counter selector of the context's first local counter. -/
theorem test_wit_blocks :
    let s := ops cs .ls 0x20000 0 1
    fires .ls 0x110 .opt (.g 1) .always s = true ∧ plainAt s 0x20000 (128 * 1) = true ∧
    s.selFault s.cur 0 = none ∧ (match s.resolve s.cur .r 0x20000 (128 * 1) with | .ok _ => true | _ => false) = true ∧
    s.me.blocks.length ≤ 256 ∧ plainAt s 0xFF000000200000 128 = false ∧ s.sel s.cur 16 = .bad := by
  decide +kernel

/-! ### Control, clocks, cells -/

/-- A state at a bundle with the loop registers given. -/
def looped (l0 l1 : Loop) : State :=
  ({ ops cs .br 1 0 64 with issue := ⟨0x1000, 0, 0, false, none⟩ } : State).updCtx cs.cur fun c => { c with loop0 := l0, loop1 := l1 }

theorem test_wit_jumps :
    ((looped Loop.zero Loop.zero).me.armedEnd 0 0x1000 = false ∧ (looped Loop.zero Loop.zero).me.armedEnd 1 0x1000 = false) ∧
    (looped ⟨2, 0x800, 0x1000⟩ Loop.zero).me.armedEnd 0 0x1000 = true ∧ ((0x1000 : Word) + 64).toNat % 32 = 0 ∧
    ((0x1000 : Word) + 1).toNat % 32 ≠ 0 ∧ (∀ d ∈ [0x142, 0x143, 0x144, 0x145, 0x146],
      fires .br d .ot (.g 1) .always (looped Loop.zero Loop.zero) = true) ∧
    (((ops cs .br 0 0 64).operands .br .ot (.g 1)).o.word = 0 ∧ ((ops cs .br 1 0 64).operands .br .ot (.g 1)).o.word ≠ 0) := by
  decide +kernel

theorem test_wit_advance : ({ Ctx.reset with delay := some ⟨0x1000, some 0x2000⟩ } : Ctx).delay = some ⟨0x1000, some 0x2000⟩ ∧
    Ctx.reset.armedEnd 0 0x1020 = false ∧ Ctx.reset.armedEnd 1 0x1020 = false ∧ Ctx.reset.delay = none ∧
    ({ Ctx.reset with loop0 := ⟨2, 0, 0x40⟩ } : Ctx).loop0.lc ≠ 0 ∧ 1 < (2 : Word).toNat := by decide +kernel

theorem test_wit_loops :
    let x (t : Word) := (ops cs .br 1 0 t).operands .br .ot (.g 1)
    (x 32).o.word ≠ 0 ∧ 32 ≤ (x 32).t.word.toInt ∧ (x 32).t.word.toNat % 32 = 0 ∧
    (looped Loop.zero Loop.zero).me.armedEnd 1 (0x1000 + 32) = false ∧
    (looped Loop.zero ⟨1, 0, 0x1020⟩).me.armedEnd 1 (0x1000 + 32) = true ∧ ¬(32 ≤ (x 0).t.word.toInt) ∧
    (x 1).t.word.toNat ≤ 1 ∧ 1 < (x 2).t.word.toNat ∧ cs.obs.kmask.getLsbD 0 = false ∧
    fires .br 0x14B .t (.g 1) .always (ops cs .br 0 0 0) = true := by decide +kernel

theorem test_wit_loop_land : ∃ p q : Pend, p.dest = .lpend 0 ∧ q.dest = .loopArm 1 3 0x20 0x40 :=
  ⟨⟨0, .lpend 0, .sc SVal.zero, 0, false, [], 0, none, none⟩, ⟨0, .loopArm 1 3 0x20 0x40, .sc SVal.zero, 0, false, [], 0, none, none⟩, rfl, rfl⟩

theorem test_wit_clocks :
    (let x := (ops cs .ck (4096 + 2 ^ 16 * 4095) 0 14).operands .ck .ot (.g 1)
    x.o.word.toNat = 4096 + 2 ^ 16 * 4095 ∧ x.t.word.toNat = 14 + 16 * 0 + 256 * 0) ∧ cs.me.kdef.getLsbD 14 = false ∧
    cs.me.kdef.getLsbD 1 = false ∧
    (let x := (ops cs .ck 0 0 (1 + 16 * 15 + 256 * 2)).operands .ck .t (.g 1)
    x.t.word.toNat = 1 + 16 * 15 + 256 * 2) ∧
    (cs.updCtx cs.cur fun c => { c with kdef := 2 }).me.kdef.getLsbD 1 = true ∧
    -- a reserved bit, a target of 15 and a period of 0 are not in form
    (4096 : Nat) ≠ 15 + 16 * 15 + 256 * 15 := by decide +kernel

theorem test_wit_clock_form : (¬∃ k a b : Nat, 1 ≤ k ∧ k ≤ 14 ∧ (k < 16 ∧ a < 16 ∧ b < 16 ∧ 15 = k + 16 * a + 256 * b)) ∧
    ¬∃ n p : Nat, 0 = n + 2 ^ 16 * p ∧ 1 ≤ n ∧ n ≤ 4096 ∧ p < n := by
  constructor
  · rintro ⟨k, a, b, h⟩; omega
  · rintro ⟨n, p, h⟩; omega

/-- ck.merge's operands with the tags of o and p, and k3 present or not. -/
def merging (a b : Tag) (k3 : Bool) : State := (ops cs .ck 5 6 3).updCtx cs.cur fun c =>
  { c with lo := c.lo.set 4 (.sc ⟨5, a, false⟩), lp := c.lp.set 4 (.sc ⟨6, b, false⟩), kpres := if k3 then 8 else 0 }

theorem test_wit_merge :
    (∀ k3 ∈ [true, false], ∀ d ∈ [0x165, 0x166], fires .ck d .t (.g 1) .always (merging 0xF 4 k3) = true) ∧
    (let x := (merging 0xF 4 true).operands .ck .t (.g 1)
    x.t.word.toNat = 3 ∧ x.o.tag = 0xF ∧ x.p.tag = 4 ∧ (merging 0xF 4 true).me.pres 4 = false) ∧
    (merging 0xF 4 true).me.pres 3 = true ∧ (merging 0xF 4 false).me.pres 3 = false ∧
    ((merging 4 5 true).operands .ck .t (.g 1)).o.tag = 4 ∧ (merging 4 5 true).me.pres 5 = false ∧
    fires .ck 0x164 .ot (.g 1) .always (merging 0xF 4 true) = true ∧
    fires .ck 0x16A .none_ (.g 1) .always (merging 0xF 4 true) = true ∧
    16 ≤ ((ops cs .ck 0 0 16).operands .ck .t (.g 1)).t.word.toNat := by decide +kernel

theorem test_wit_drop : ({ Ctx.reset with pend := [⟨0, .dropAdd, .sc SVal.zero, 0#6, false, [], 0#64, none, none⟩,
    ⟨0, .ctxReg 3, .sc ⟨0xFFFFFFFF, 0xF, false⟩, 0#6, false, [], 0#64, none, none⟩] } : Ctx).pend.map Pend.dest = [.dropAdd, .ctxReg 3] := by
  decide +kernel

theorem test_wit_cells :
    let s := ops cs .ck 0x20000 0x20000 3
    fires .ck 0x168 .opt (.g 1) .always s = true ∧ fires .ck 0x16C .ot (.g 1) .always s = true ∧
    fires .ck 0x169 .pt (.g 1) .always s = true ∧ plainAt s 0x20000 32 = true ∧ (0x20008 : Nat) % 32 ≠ 0 ∧
    ((passOf s [⟨0x20000, 32, false⟩, ⟨0x20000, 32, true⟩]).any fun r => match r.2 with
      | [p, w] => decide ((r.1.readSpan r.1.cur p).1.pinSpan w.ps (cellBytes 3) = none)
      | _ => false) = true ∧
    ((passOf s [⟨0x20000, 32, true⟩]).any fun r => match r.2 with
      | [w] => decide (r.1.pinSpan w.ps (cellBytes 0x20000) = none)
      | _ => false) = true ∧
    ((passOf s [⟨0x20000, 32, false⟩]).any fun r => decide (r.2.length = 1)) = true ∧
    (s.operands .ck .pt (.g 1)).o.tag = 0xF ∧
    ((merging 4 0xF true).operands .ck .pt (.g 1)).o.tag = 4 ∧ (merging 4 0xF true).me.pres 4 = false ∧
    fires .ck 0x169 .pt (.g 1) .always (merging 4 0xF true) = true := by decide +kernel

/-! ### Counters, sets, ends, stamps -/

theorem test_wit_add_local :
    let s := ops cs .sy 15 0 7
    fires .sy 0x182 .ot (.g 1) .always s = true ∧ s.selFault s.cur 15 = none ∧ s.sel s.cur 15 = .loc 15 ∧
    (s.core s.cur.core).adds = [] ∧ s.flitsOut s.cur.core = false ∧
    (s.core s.cur.core).mxq ++ (s.core s.cur.core).cpq ++ (s.core s.cur.core).msq = [] := by decide +kernel

/-- A launch granted the own die's counters 0 to 15. -/
def cgr : State := { cs with launches := cs.launches.map fun l =>
  { l with record := { l.record with grants := [⟨0x20000, 16⟩] } } }

theorem test_wit_add_shared :
    let s := ops cgr .sy 0x20000 0 7
    fires .sy 0x182 .ot (.g 1) .always s = true ∧ s.selFault s.cur 0x20000 = none ∧ s.sel s.cur 0x20000 = .die 0 0 ∧
    s.me.react = some ⟨0, 0, 0⟩ ∧ s.me.ord = true ∧ ((s.launch? 0).any fun l => !l.record.open_) = true ∧
    cs.granted cs.cur (.die 0 0) = false ∧ s.sel s.cur 0x20000000 = .bad := by decide +kernel

theorem test_wit_wait :
    let s := ops cs .sy 0 0 0
    s.selFault s.cur 0 = none ∧ s.waitR s.cur (s.sel s.cur 0) 0 = .met ∧ s.waitR s.cur (s.sel s.cur 0) 1 = .unreachable ∧
    cv.waitR cv.cur (.die 0 0) 1 = .blocked ∧ cv.selFault cv.cur 0x20000 = none ∧
    fires .sy 0x183 .ot (.g 1) .always (ops cv .sy 0x20000 0 1) = true := by decide +kernel

theorem test_wit_fence : cs.fenceDone cs.cur 5 = true ∧
    (cs.updCore 0 fun k => { k with mxq := [cmd0], seq := 1 }).fenceDone cs.cur 5 = false ∧
    fires .sy 0x185 .t (.short 5) .always (cs.updCore 0 fun k => { k with mxq := [cmd0], seq := 1 }) = true := by
  decide +kernel

theorem test_wit_sets :
    let s := ops cs .sy 0x20000 0 256
    fires .sy 0x186 .ot (.g 1) .always s = true ∧ plainAt s 0x20000 256 = true ∧
    s.me.react = some ⟨0, 0, 0⟩ ∧ ((s.reactOf s.cur).any fun r => decide (r.sets.length < 16 ∧ r.sets = [])) = true ∧
    (match s.resolve s.cur .r 0x20000 256 with | .ok _ => true | _ => false) = true ∧
    ((({ s with launches := s.launches.map fun l => { l with reacts := l.reacts.map fun r =>
      { r with sets := List.replicate 16 ⟨0x80000, 128, [], false, false, false⟩ } } } : State).reactOf s.cur).any fun r =>
        decide (16 ≤ r.sets.length) && r.sets.all fun q => !q.meets (s.rangesOf s.cur 0x20000 256)) = true ∧
    plainAt s 0xFF000000200000 256 = false := by decide +kernel

/-- A ready sibling beside the running context. -/
def csib : State := cs.updCtx ⟨0, 1⟩ fun c => { c with status := .ready }

theorem test_wit_ends : cs.me.emu = false ∧ (cs.updCtx cs.cur fun c => { c with emu := true }).me.emu = true ∧
    cs.readySiblings cs.cur = [] ∧ csib.readySiblings csib.cur = [1] ∧
    ∀ t ∈ [0, 1, 2, 3, 4, 5], ((ops cs .sy 0 0 (BitVec.ofNat 64 t)).operands .sy .t (.g 1)).t.word = BitVec.ofNat 64 t := by
  decide +kernel

/-! ### Vector -/

theorem test_wit_vector_scalar_operands :
    let x := (ops cs .ve 0 7 63).operands .ve .opt (.g 1)
    x.t.isVec = false ∧ x.p.isVec = false ∧ x.t.word.toNat < 64 ∧ fires .ve 0x1D3 .opt (.g 1) .always (ops cs .ve 0 7 63) = true ∧
    ((cs.operands .ve .ot (.v 1)).t.isVec = true) ∧ fires .ve 0x1CD .ot (.v 1) .always cs = true ∧
    64 ≤ ((ops cs .ve 0 7 64).operands .ve .ot (.g 1)).t.word.toNat := by decide +kernel

-- bxenc with BX8, BX6 and BX4 and default clamps, with FMT 0 and with a reserved bit; bxdec with a format and without
theorem test_wit_bx :
    (∀ n ∈ [3, 4, 5], let x := (ops cs .ve 0 0 (BitVec.ofNat 64 n)).operands .ve .ot (.g 1)
      (x.t.isVec = false ∧ x.t.word.toNat % 8 = n ∧ x.t.word.toNat / 8 % 32 = 0 ∧ x.t.word.toNat / 2 ^ 12 % 2 ^ 20 = 0 ∧
        x.t.word.toNat / 2 ^ 32 = 0)) ∧
    Num.bxOnGrid Num.bx8 0x3F800000 = true ∧
    (∀ n ∈ [0, 2, 6, 7], n % 8 ≠ 3 ∧ n % 8 ≠ 4 ∧ n % 8 ≠ 5) ∧ (0x300001234 / 2 ^ 32 = 3) ∧ fires .ve 0x1B5 .ot (.g 1) .always cs = true ∧
    fires .ve 0x1B6 .ot (.g 1) .always cs = true := by decide +kernel

theorem test_wit_vector_contiguous : (∀ e ∈ [(0x1D5, 256), (0x1DB, 16)],
      fires .ve e.1 .t (.g 1) .always (ops cs .ve 0 0 0x20000) = true ∧
      ∃ t ps, (ops cs .ve 0 0 0x20000).passesAll .plain [⟨0x20000, e.2, false⟩] t ps ∧ decide (ps.length = 1) = true) ∧
    fires .ve 0x1D6 .ot (.g 1) .always (ops cs .ve 0x20000 0 0) = true ∧
    ∃ t ps, (ops cs .ve 0x20000 0 0).passesAll .plain [⟨0x20000, 256, true⟩] t ps ∧
      (match ps with
      | [p] => match t.writeSpan t.cur p (List.replicate 256 1) false with | .ok _ => true | _ => false
      | _ => false) = true := by
  refine ⟨?_, by decide +kernel, ex_passesAll _ (by decide +kernel)⟩
  intro e he
  simp only [List.mem_cons, List.not_mem_nil, or_false] at he
  rcases he with rfl | rfl
  · exact ⟨by decide +kernel, ex_passesAll (fun _ ps => decide (ps.length = 1)) (by decide +kernel)⟩
  · exact ⟨by decide +kernel, ex_passesAll (fun _ ps => decide (ps.length = 1)) (by decide +kernel)⟩

/-- The lane-slice spans of offset 0 in every lane. -/
def slice0 (w : Bool) : List Span := (List.range 64).map fun j => ⟨0xFF000000000000 + j * 4096, 4, w⟩

theorem test_wit_vector_slices : cs.me.alloc.lsb = 4096 ∧ (cs.watchSpans cs.cur (slice0 false)).2 = none ∧
    (∃ t ps, cs.passesAll .plain (slice0 false) t ps ∧ decide (ps.length = 64) = true) ∧
    ∃ t ps, cs.passesAll .plain (slice0 true) t ps ∧
      (match t.writeSpans false (ps.map fun p => (p, leBytes 4 7)) with | .ok _ => true | _ => false) = true :=
  ⟨by decide +kernel, by decide +kernel, ex_passesAll (fun _ ps => decide (ps.length = 64)) (by decide +kernel),
    ex_passesAll (fun t ps => match t.writeSpans false (ps.map fun p => (p, leBytes 4 7)) with | .ok _ => true | _ => false)
      (by decide +kernel)⟩

/-- Offsets with lanes 0 and 2 active. -/
def offs : List Lane := (List.range 64).map fun k => if k = 0 then 4 else if k = 2 then 8 else 0xFFFFFFFF

theorem test_wit_gather : activeLanes 0x20000 (lanes offs) = [(0, 0x20004), (2, 0x20008)] ∧
    (∃ t ps, cs.passesAll .plain [⟨0x20004, 4, false⟩, ⟨0x20008, 4, false⟩] t ps ∧ decide (ps.length = 2) = true) ∧
    (∃ t ps, cs.passesAll .plain [⟨0x20004, 4, true⟩, ⟨0x20008, 4, true⟩] t ps ∧
      (match t.writeSpans false (ps.map fun p => (p, leBytes 4 7)) with | .ok _ => true | _ => false) = true) ∧
    ([(0, 0x20004), (2, 0x20008)].find? fun l => !(winOf l.2).isCore) = some (0, 0x20004) ∧
    (winOf 0xFF000000200004).isCore = true ∧
    (activeLanes 0x20000 (lanes [6])).find? (fun l => decide (l.2 % 4 ≠ 0)) = some (0, 0x20006) :=
  ⟨by decide +kernel, ex_passesAll (fun _ ps => decide (ps.length = 2)) (by decide +kernel),
    ex_passesAll (fun t ps => match t.writeSpans false (ps.map fun p => (p, leBytes 4 7)) with | .ok _ => true | _ => false)
      (by decide +kernel), by decide +kernel, by decide +kernel, by decide +kernel⟩

-- VectorFrame: every operation that reaches no memory completes
theorem test_wit_vector_frame : ∀ f ∈ veOps.take 51, runs (f (.short 3) .always) cs (fun _ => true) = true ∨
    runs (onG f) (ops cs .ve 0 0 0x300000000) (fun _ => true) = true := by decide +kernel

/-! ### Matrix -/

theorem test_wit_matrix_loop :
    (let x := (ops cs .mx (2048 + 2 ^ 16 * 0xFFFFFF) 0 3).operands .mx .ot (.g 1)
    x.o.word.toNat / 2 ^ 12 % 16 = 0 ∧ x.o.word.toNat < 2 ^ 40 ∧ 1 ≤ x.t.word.toNat ∧ x.t.word.toNat ≤ 5 ∧
      0 < x.o.word.toNat % 2 ^ 12 ∧ x.o.word.toNat % 2 ^ 12 ≤ 2048) ∧
    ¬(1 ≤ ((ops cs .mx 1 0 0).operands .mx .ot (.g 1)).t.word.toNat) ∧ (2047 : Nat) < 2048 ∧ mxRem cs.me.mxl = 0 ∧
    fires .mx 0x226 .none_ (.short 0) .always cs = true ∧ clocked .mx .t (.short 0) cs = true ∧
    (0x37 / 8 % 2 = 0 ∧ 0x37 < 64 ∧ 8 / 8 % 2 = 1) ∧
    (let w := mxWord 1 1 0 6 7 2; mxCur w + 2 ≤ mxPlen w + 1 ∧ mxFmt w = 1 ∧ 0 < mxRem w) := by decide +kernel

theorem test_wit_drain : (∀ c ∈ (cs.core cs.cur.core).mxq, c.ctx ≠ cs.cur.ctx) ∧
    ∃ c ∈ ((cs.updCore 0 fun k => { k with mxq := [cmd0] }).core cs.cur.core).mxq, c.ctx = cs.cur.ctx :=
  ⟨by decide +kernel, cmd0, by decide +kernel, rfl⟩

/-- A format record: FMT, EBASE, XBASE, ESTR, XSTR. -/
def rec (fmt eb xb es xs : Nat) : List Byte :=
  leBytes 32 (fmt + eb * 2 ^ 64 + xb * 2 ^ 120 + es * 2 ^ 176 + xs * 2 ^ 208)

/-- An open launch's context with bytes at 0x20000. -/
def with0 (u : Unit11) (o p t : Word) (bs : List Byte) : State :=
  { ops co u o p t with store := co.store.put 0x20000 bs false }

/-- Whether the spans of a command pass with room in the copy queue. -/
def dataOk (v : State) (l : List Span) : Bool :=
  (dataOf v l).any fun r => !queueFull (r.1.core r.1.cur.core).cpq && !queueFull (r.1.core r.1.cur.core).mxq

/-- The first byte of core scratchpad. -/
def sp0 : Nat := 0xFF000000200000

/-- The rows of mx.tld, mx.cld and mx.cst, and the elements of mx.xa, of a record. -/
def tldSpans (bs : List Byte) : List Span := (List.range 64).flatMap fun i => [⟨(fmtRec bs).eaddr i 0, 64, false⟩]
def cldSpans (bs : List Byte) : List Span := (List.range 64).map fun i => ⟨(fmtRec bs).eaddr i 0, 256, false⟩
def xaSpans (bs : List Byte) : List Span :=
  (List.range 64).flatMap fun i => (List.range 32).map fun k => ⟨(fmtRec bs).eaddr k i, 2, false⟩

/-- A valid record of a format whose data accesses pass. -/
def loadOk (fmt : Nat) (l : List Byte → List Span) (u : State) (bs : List Byte) (_ : Bool) : Bool :=
  (fmtRec bs).valid && decide ((fmtRec bs).fmt = fmt) && dataOk u (l bs)

/-- An invalid record. -/
def badRec (_ : State) (bs : List Byte) (_ : Bool) : Bool := !(fmtRec bs).valid

theorem test_wit_tld : ∃ u bs taint, (with0 .mx 0x20000 0 0 (rec 1 sp0 0 64 0)).recordRead 0x20000 32 u bs taint ∧
    loadOk 1 tldSpans u bs taint = true := ex_record (loadOk 1 tldSpans) (by decide +kernel)
theorem test_wit_cld : ∃ u bs taint, (with0 .mx 0x20000 0 0 (rec 0 sp0 0 256 0)).recordRead 0x20000 32 u bs taint ∧
    loadOk 0 cldSpans u bs taint = true := ex_record (loadOk 0 cldSpans) (by decide +kernel)
theorem test_wit_cst : ∃ u bs taint, (with0 .mx 0x20000 0 0 (rec 0 sp0 0 256 0)).recordRead 0x20000 32 u bs taint ∧
    loadOk 0 (fun bs => cstSpans (fmtRec bs) 0 0) u bs taint = true :=
  ex_record (loadOk 0 fun bs => cstSpans (fmtRec bs) 0 0) (by decide +kernel)
theorem test_wit_xa : ∃ u bs taint, (with0 .mx 0x20000 0 0 (rec 1 sp0 0 256 0)).recordRead 0x20000 32 u bs taint ∧
    loadOk 1 xaSpans u bs taint = true := ex_record (loadOk 1 xaSpans) (by decide +kernel)
theorem test_wit_bad_record : ∃ u bs taint, (with0 .mx 0x20000 0 0 (rec 9 0 0 0 0)).recordRead 0x20000 32 u bs taint ∧
    badRec u bs taint = true := ex_record badRec (by decide +kernel)
theorem test_wit_load_fires : ∀ d ∈ [0x222, 0x223, 0x224, 0x22A], ∀ us ∈ [Uses.opt, .none_],
    fires .mx d us (.g 1) .always (with0 .mx 0x20000 0 0 (rec 1 sp0 0 64 0)) = true := by decide +kernel

/-- A context with a canopy allocation and a loop of two steps left. -/
def cstep (cnb : Nat) : State := co.updCtx co.cur fun c =>
  { c with mxl := mxWord 1 1 0 0 7 2, alloc := { c.alloc with cnb := cnb } }

theorem test_wit_matrix_tiles :
    tilesBusy (co.core 0).mxq 0 (cmdTiles 0x226 0).1 (cmdTiles 0x226 0).2.1 true = false ∧ queueFull (co.core 0).mxq = false ∧
    (∃ v rd wr, co.dataPass [⟨0x20000, 256, false⟩] v rd wr ∧ decide (rd.length = 8) = true) ∧
    tagCheck co.me [0xF, 0xF] = none ∧ 0 < mxRem (cstep 1024).me.mxl ∧
    mxBase (cstep 1024).me.mxl + mxCur (cstep 1024).me.mxl + 2 ≤ (cstep 1024).me.alloc.cnb / 32 ∧
    (cstep 0).me.alloc.cnb / 32 < mxBase (cstep 0).me.mxl + mxCur (cstep 0).me.mxl + 2 ∧
    fires .mx 0x226 .none_ (.short 0x37) .always (cstep 1024) = true ∧ (rec 3 0 0 0 0).length = 32 ∧
    bxOf 3 = some Num.bx8 ∧ 33 % 32 ≠ 0 :=
  ⟨by decide +kernel, by decide +kernel, ex_data (fun _ rd _ => decide (rd.length = 8)) (by decide +kernel),
    by decide +kernel, by decide +kernel, by decide +kernel, by decide +kernel, by decide +kernel, by decide +kernel,
    by decide +kernel, by decide⟩

theorem test_matrix_commands_complete : ∀ e ∈ [(Instr.mxTld, rec 1 sp0 0 64 0), (.mxScl, []), (.mxZero, [])],
    runs (onG e.1) (with0 .mx 0x20000 0 1 e.2) (fun t => decide ((t.core 0).mxq.length = 1)) = true := by decide +kernel

/-! ### Copies -/

theorem test_wit_copies :
    (∃ v rd wr, co.dataPass [⟨0x20000, 32, false⟩, ⟨0x30000, 32, true⟩] v rd wr ∧ decide (rd.length = 1 ∧ wr.length = 1) = true) ∧
    (let x := (ops co .cp 0x20000 0x30000 0xFFFFFFFF00000020).operands .cp .opt (.g 1)
    0 < x.t.word.toNat % 2 ^ 32 ∧ x.t.word.toNat / 2 ^ 32 = 0xFFFFFFFF) ∧
    fires .cp 0x262 .opt (.g 1) .always (ops co .cp 0x20000 0x30000 0xFFFFFFFF00000020) = true :=
  ⟨ex_data (fun _ rd wr => decide (rd.length = 1 ∧ wr.length = 1)) (by decide +kernel), by decide +kernel, by decide +kernel⟩

/-- A strided descriptor of 4-byte elements: source, destination, N0, N1, N2, index list. -/
def desc (src dst n0 n1 n2 idx : Nat) : List Byte :=
  leBytes 64 (src + dst * 2 ^ 64 + 0xFFFFFFFF * 2 ^ 128 + 2 * 2 ^ 160 + n0 * 2 ^ 192 + n1 * 2 ^ 208 + n2 * 2 ^ 224 +
    idx * 2 ^ 448)

/-- A strided descriptor in form whose accesses pass. -/
def stridedOk (dims : Nat) (u : State) (bs : List Byte) (_ : Bool) : Bool :=
  !(strided bs).bad dims && decide ((strided bs).csel = 0xFFFFFFFF) &&
    dataOk u (pairSpans (2 ^ (strided bs).esz) (strided bs).pairs)

/-- A strided descriptor that is not in form. -/
def stridedBad (dims : Nat) (_ : State) (bs : List Byte) (_ : Bool) : Bool := (strided bs).bad dims

theorem test_wit_str2 : ∃ u bs taint, (with0 .cp 0 0 0x20000 (desc 0x30000 0x40000 1 1 0 0)).recordRead 0x20000 64 u bs taint ∧
    stridedOk 2 u bs taint = true := ex_record (stridedOk 2) (by decide +kernel)
theorem test_wit_str3 : ∃ u bs taint, (with0 .cp 0 0 0x20000 (desc 0x30000 0x40000 1 1 1 0)).recordRead 0x20000 64 u bs taint ∧
    stridedOk 3 u bs taint = true := ex_record (stridedOk 3) (by decide +kernel)
theorem test_wit_strided_bad : ∃ u bs taint, (with0 .cp 0 0 0x20000 (desc 0 0 0 1 0 0)).recordRead 0x20000 64 u bs taint ∧
    stridedBad 2 u bs taint = true := ex_record (stridedBad 2) (by decide +kernel)

/-- A gather's descriptor and index list in form whose accesses pass. -/
def gatherOk (u : State) (bs : List Byte) (_ : Bool) : Bool :=
  !(strided bs).bad 0 && (recOf u (strided bs).idx 4).any fun r =>
    decide ((gatherOffsets r.2.1 1).getD 0 0 % 4 = 0) &&
      dataOk r.1 (pairSpans 4 ((strided bs).gathered (gatherOffsets r.2.1 1)))

theorem test_wit_gather_copy : ∃ u bs taint,
    (with0 .cp 0 0 0x20000 (desc 0x30000 0x40000 1 0 0 0x20100)).recordRead 0x20000 64 u bs taint ∧
      gatherOk u bs taint = true := ex_record gatherOk (by decide +kernel)

/-- cp.canopy of one slot from slot 1. -/
def ccan : State := { cstep 1024 with store := (with0 .cp 0 0 0 (rec 1 sp0 0 64 0)).store }

/-- A canopy record whose accesses pass, with room in the allocation. -/
def canopyOk (u : State) (bs : List Byte) (_ : Bool) : Bool :=
  (fmtRec bs).valid && decide (1 ≤ (fmtRec bs).fmt ∧ (fmtRec bs).fmt ≤ 5 ∧ 1 + 2 ≤ u.me.alloc.cnb / 32) &&
    dataOk u (canopySpans (fmtRec bs) 1 0)

theorem test_wit_canopy : ∃ u bs taint, ccan.recordRead 0x20000 32 u bs taint ∧ canopyOk u bs taint = true :=
  ex_record canopyOk (by decide +kernel)

/-- A grid descriptor of one point, a stencil table and two FP32 records from 0x20000 on. -/
def grid (drec : Nat) : List Byte :=
  leBytes 64 (0x20100 + drec * 2 ^ 64 + 0xFFFFFFFF * 2 ^ 128 + (2 ^ 192 + 2 ^ 208 + 2 ^ 224) + (2 ^ 256 + 2 ^ 272 + 2 ^ 288)) ++
    List.replicate 64 0 ++ leBytes 128 (3 + 0x20120 * 2 ^ 64 + 2 ^ 128) ++ rec 0 0x40000 0 64 0 ++ rec 0 0x50000 0 64 0

/-- Two records and the accesses between them pass. -/
def pairOk (u : State) (srec drec : Nat) : Bool :=
  (recOf u srec 32).any fun r => (fmtRec r.2.1).valid && (recOf r.1 drec 32).any fun q => (fmtRec q.2.1).valid &&
    dataOk q.1 ((fmtRec r.2.1).gridSpans 1 1 false ++ [] ++ (fmtRec q.2.1).gridSpans 1 1 true)

/-- A grid descriptor for a conversion in form, whose accesses pass. -/
def cvtOk (u : State) (bs : List Byte) (_ : Bool) : Bool :=
  !(gridDesc bs).bad && decide ((gridDesc bs).mx = 1 ∧ (gridDesc bs).nx = 1 ∧ (gridDesc bs).srec = 0x20100) &&
    pairOk u (gridDesc bs).srec (gridDesc bs).drec

/-- A grid level's descriptor and table in form, whose accesses pass. -/
def levelOk (u : State) (bs : List Byte) (_ : Bool) : Bool :=
  (recOf u 0x20080 128).any fun r => decide ((stencil r.2.1).drec = 0x20120 ∧ (stencil r.2.1).bad = false ∧
    levelFault (gridDesc bs) (stencil r.2.1) 0x20000 0x20080 = none) && pairOk r.1 (gridDesc bs).srec (stencil r.2.1).drec

theorem test_wit_cvt : ∃ u bs taint, (with0 .cp 0 0 0x20000 (grid 0x20120)).recordRead 0x20000 64 u bs taint ∧
    cvtOk u bs taint = true := ex_record cvtOk (by decide +kernel)
theorem test_wit_levels : ∃ u bs taint, (with0 .cp 0x20080 0 0x20000 (grid 0)).recordRead 0x20000 64 u bs taint ∧
    levelOk u bs taint = true := ex_record levelOk (by decide +kernel)

theorem test_copy_commands_complete : ∀ e ∈ [(Instr.cpStr2, desc 0x30000 0x40000 1 1 0 0), (.cpStr3, desc 0x30000 0x40000 1 1 1 0),
      (.cpGath, desc 0x30000 0x40000 1 0 0 0x20100), (.cpCvt, grid 0x20120), (.cpRestrict, grid 0), (.cpProlong, grid 0)],
    runs (onG e.1) (with0 .cp 0x20080 0 0x20000 e.2) (fun t => decide ((t.core 0).cpq.length = 1)) = true := by decide +kernel

theorem test_stbl_completes : runs (onG .cpStbl) (with0 .cp 0 0 0x20080 (grid 0))
    (fun t => decide ((t.core 0).cpq.length = 1)) = true := by decide +kernel

/-- A copy queue with commands of the open batch or close markers. -/
def cq (l : List Cmd) : State := ops (co.updCore 0 fun k => { k with cpq := l }) .cp 0 0 1

theorem test_wit_batches :
    ((cq [cmd0]).core 0).cpq = [cmd0] ∧ cmd0.ctx = (cq [cmd0]).cur.ctx ∧ cmd0.port ≠ 0x26C ∧ cmd0.batch = (cq [cmd0]).me.batch ∧
    queueFull [cmd0] = false ∧ queueFull (List.replicate 16 cmd0) = true ∧ (cq []).me.batch = 0 ∧
    (∀ s ∈ [cq [], cq [cmd0], cq (List.replicate 16 cmd0), cq [{ cmd0 with port := 0x26C }, { cmd0 with port := 0x26C }]],
      fires .cp 0x26C .none_ (.short 0) .always s = true ∧ fires .cp 0x26D .t (.g 1) .always s = true) ∧
    (((cq [{ cmd0 with port := 0x26C }, { cmd0 with port := 0x26C }]).operands .cp .t (.g 1)).t.word.toNat = 1) := by
  decide +kernel

/-! ### Memory-side operations -/

/-- The page tables with a memory-side page at 2^36 and a versioned page at 2^37, both over stack 0. -/
def msPages (s : State) : State :=
  { s with
    store := (s.store.putPte (0x6008, 0xF9)).putPte (0x6010, 0x179)
    launches := s.launches.map fun l => { l with entries := l.entries.map fun e => { e with leaseList := [(0, 2 ^ 38)] } } }

/-- The address of the memory-side page. -/
def ms0 : Nat := 2 ^ 36 + 0x20000

theorem test_wit_ms :
    (∃ v ps, (msPages co).passesMs [⟨ms0, 8, true, true⟩] [⟨ms0, 8, true⟩] v ps ∧ (!queueFull (v.core v.cur.core).msq &&
      !(v.viewer v.cur).ordered) = true) ∧
    (∃ v ps, (msPages co).passesMs [⟨ms0, 4, true, true⟩] [⟨ms0, 4, true⟩] v ps ∧ decide (ps.length = 1) = true) ∧
    (∃ v ps, (msPages cs).passesMs [⟨ms0, 8, true, true⟩] [⟨ms0, 8, true⟩] v ps ∧ (v.viewer v.cur).ordered = true) ∧
    fires .ms 0x2A7 .ot (.g 1) .always (ops (msPages co) .ms (BitVec.ofNat 64 ms0) 0 0) = true :=
  ⟨ex_passesMs (fun v _ => !queueFull (v.core v.cur.core).msq && !(v.viewer v.cur).ordered) (by decide +kernel),
    ex_passesMs (fun _ ps => decide (ps.length = 1)) (by decide +kernel),
    ex_passesMs (fun v _ => (v.viewer v.cur).ordered) (by decide +kernel), by decide +kernel⟩

theorem test_ms_complete : ∀ i ∈ [Instr.msAddF32, .msAddS64, .msMaxS64, .msMinS64, .msOrB64, .msSwapB64, .msCasB64],
    ∀ s ∈ [co, cs], runs (onG i) (ops (msPages s) .ms (BitVec.ofNat 64 ms0) 0 7) (fun _ => true) = true := by decide +kernel

/-- A reduction block of one s64 source element, 64 bytes on, into the memory-side page. -/
def redb : List Byte := leBytes 64 (ms0 + 1 * 2 ^ 56 + 2 * 2 ^ 60 + (ms0 + 64) * 2 ^ 64 + 1 * 2 ^ 128 + 0xFFFFFFFF * 2 ^ 160)

/-- A reduction block in form at an address, whose accesses pass with room in the queue. -/
def redOk (s : State) (va : Nat) : Bool :=
  match s.watchSpans s.cur [⟨va, 64, false⟩] with
  | (r, none) =>
    match r.resolveSpans r.cur [⟨va, 64, false⟩] with
    | .ok [bp] =>
      let w := (r.readBefore bp).1.recordLate va
      let b := redBlock (r.readBefore bp).2.1
      decide (r.missingRemote r.cur [bp] = none) && !b.bad && !w.redStacks w.cur b && decide (b.csel = 0xFFFFFFFF) &&
        ((passMsOf w (b.spans.map Span.watched) b.spans).any fun u =>
          match u.1.admitSpans u.1.cur [bp] with
          | .ok v _ => !queueFull (v.core v.cur.core).msq && !(v.viewer v.cur).ordered
          | _ => false)
    | _ => false
  | _ => false

theorem test_wit_ms_red : redOk (msPages (with0 .ms 0 0 0x20000 redb)) 0x20000 = true ∧
    fires .ms 0x2A9 .t (.g 1) .always (msPages (with0 .ms 0 0 0x20000 redb)) = true ∧
    runs (onG .msRed) (msPages (with0 .ms 0 0 0x20000 redb)) (fun t => decide ((t.core 0).msq.length = 1)) = true := by
  decide +kernel

theorem test_wit_ms_mark : (match (msPages co).resolveSpans co.cur [⟨ms0, 1, false⟩] with
      | .ok ps => decide (firstPlain ps = none)
      | _ => false) = true ∧ ((msPages co).watchSpans co.cur [⟨ms0, 1, false⟩]).2 = none ∧ (msPages co).selFault co.cur 0 = none ∧
    runs (onG .msMark) (ops (msPages co) .ms 0 1 (BitVec.ofNat 64 ms0)) (fun t => decide ((t.core 0).msq.length = 1)) = true := by
  decide +kernel

/-! ### Supervisor operations -/

/-- An address-space register operation's operands on core 512. -/
def sv0 (s : State) (o p t : Word) : Opnds := (ops s .sv o p t).operands .sv .opt (.g 1)

theorem test_wit_sv_launch : (let x := sv0 cv 1 0x20000 0x20000
      0 < x.o.word.toNat ∧ x.o.word.toNat < 2 ^ 16 ∧ x.t.word.toNat % 64 = 0 ∧ (cv.sel cv.cur x.p.word).shared = true) ∧
    (cv.sel cv.cur 0xFFFFFFFF).shared = false ∧
    ∃ u ps, (ops cv .sv 1 0x20000 0x20000).passes [⟨0x20000, 512, false⟩] u ps ∧ decide (ps.length = 1) = true :=
  ⟨by decide +kernel, by decide +kernel, ex_passes (fun _ ps => decide (ps.length = 1)) (by decide +kernel)⟩

theorem test_sv_launch_completes : runs (onG .svLaunch) (ops cv .sv 1 0x20000 0x20000) (fun t =>
    decide (t.launches.map Launch.phase = [.submitted])) = true := by decide +kernel

-- R411's addresses of R382's TQLBA and of an access-table entry, an unassigned one, and a refused one
theorem test_wit_sv_registers :
    regAddr 0x20018 = some ⟨0, 2, 24⟩ ∧ regAddr 0x60000 = some ⟨0, 6, 0⟩ ∧ regAddr 1 = none ∧
    (∀ k ∈ [44, 50], ∀ w ∈ [true, false],
      cv.mayAccess 0 k (cv.master 512) w = true ∧ State.reset.mayAccess 0 k (State.reset.master 512) w = false) ∧
    cv.writeForm ⟨0, 2, 24⟩ 5 = false := by decide +kernel

/-- The page tables of `cv` with a migrating leaf at 2^36. -/
def cvm : State := { cv with store := cv.store.putPte (0x6008, 0xFD) }

theorem test_wit_sv_walk :
    cv.physOk 0x20000 = true ∧ cv.physOk (2 ^ 39) = false ∧ (cv.walk 0 1 0x20000).ending = .leaf ∧
    (cv.walk 0 1 (2 ^ 46)).ending = .node ∧ (cvm.walk 0 1 (2 ^ 36)).ending = .migrating ∧ dieOf cv.cur.core = 0 := by
  decide +kernel

/-- A decided multicast of core 512's group. -/
def pt0 (pinned : Bool) : Ptmc := ⟨0, ⟨512, 0⟩, 0x6008, 5, 0, true, pinned, true, false⟩

theorem test_wit_sv_ptmc :
    (let x := sv0 cv 0x6008 0 5; x.o.word.toNat % 8 = 0 ∧ cv.physOk x.o.word.toNat = true ∧ cv.sel cv.cur x.p.word ≠ .bad) ∧
    cv.ptmcs = [] ∧ (∀ b ∈ [true, false], (pt0 b).x = cv.cur ∧ (pt0 b).open_ = true ∧ (pt0 b).addr = 0x6008 ∧
      (pt0 b).value = 5 ∧ (pt0 b).sel = 0 ∧ (pt0 b).decided = true ∧ (pt0 b).pinned = b) ∧
    (9 % 8 ≠ 0 ∧ cv.physOk (2 ^ 39) = false) := by decide +kernel

/-- A supervisor context in the space of SID 1. -/
def cv1 : State := cv.updCtx cv.cur fun c => { c with sid := 1 }

theorem test_wit_sv_pin : (0 < 65536 ∧ 0x20000 % 65536 = 0 ∧ 65536 % 65536 = 0 ∧ 0x20000 + 65536 ≤ 2 ^ 55) ∧
    cv1.sidOf cv1.cur = 1 ∧ (cv1.pinWalk cv1.cur (cv1.sidOf cv1.cur) [0x20000]).toOption.isSome = true ∧
    cv1.freePin = some 0 ∧
    ({ cv1 with pins := (List.range Config.pinSlots).map fun k => (k, []) } : State).freePin = none ∧
    runs (onG .svPin) (ops cv1 .sv 0x20000 0 65536) (fun t => decide (t.pins.length = 1)) = true := by decide +kernel

theorem test_sv_complete : ∀ i ∈ [Instr.svAbort, .svSpace, .svWalk, .svTinv, .svUnpin, .svTfq, .svTres, .svTent, .svHirq, .svIdle],
    runs (i (.short 0) .always) cv (fun _ => true) = true := by decide +kernel

theorem test_sv_registers : (∀ i ∈ [Instr.svSrd, .svSwr],
      runs (i .imm .always) { cv with issue := ⟨0, 0, 0x20018, false, none⟩ } (fun _ => true) = true) ∧
    runs (.svEret (.short 0) .always) (cv.updCtx cv.cur fun c => { c with emu := true }) (fun _ => true) = true := by decide +kernel

theorem test_sv_ptmc : runs (onG .svPtmc) { ops cv .sv 0x6008 0 5 with ptmcs := [pt0 false] } (fun _ => true) = true ∧
    blocks (onG .svPtmc) (ops cv .sv 0x6008 0 5) = true := by decide +kernel

/-! ### Events of a core -/

/-- `co` with the running context blocked. -/
def blk (b : Block) : State := co.setStatus co.cur (.blocked b)

/-- `blk` with a core's queues of the given commands. -/
def blkq (b : Block) (f : Core → Core) : State := (blk b).updCore 0 f

theorem test_wit_blocked : CtxRef.wf ⟨0, 0⟩ = true ∧ ∀ b ∈ [Block.queue .mx, .hold [] [], .wait 0 0, .fence 2, .yield [1],
    .fe 0x1000 true, .version, .waitb 0, .mxDrain, .msFence, .tinv 7, .idle],
    ((blk b).ctx ⟨0, 0⟩).status = .blocked b := by decide +kernel

/-- Commands that hold bytes of core scratchpad. -/
def holdCmd : Cmd := { cmd0 with port := 0x262, reads := [piece 0x40 8], writes := [piece 0x80 8] }

-- each condition of BlocksEndOnTheirCondition, met and not met
theorem test_wit_conditions :
    ((((blk (.queue .mx)).core 0).queue .mx).filter fun c => !c.started).length < 16 ∧
    ¬(((((blkq (.queue .mx) fun k => { k with mxq := List.replicate 16 cmd0 }).core 0).queue .mx).filter
      fun c => !c.started).length < 16) ∧
    ((blk (.hold [] [])).core 0).held = [] ∧
    ¬(∀ c ∈ ((blkq (.hold [⟨0x80, 4⟩] []) fun k => { k with cpq := [holdCmd] }).core 0).held,
      (∀ r ∈ [(⟨0x80, 4⟩ : Range)] ++ [], piecesMeet c.writes [r] = false) ∧ ∀ r ∈ ([] : List Range), piecesMeet c.reads [r] = false) ∧
    (blk (.wait 0 0)).waitR ⟨0, 0⟩ ((blk (.wait 0 0)).sel ⟨0, 0⟩ 0) 0 ≠ .blocked ∧
    (blk (.wait 0x20000 1)).waitR ⟨0, 0⟩ ((blk (.wait 0x20000 1)).sel ⟨0, 0⟩ 0x20000) 1 = .blocked ∧
    (blk (.fence 2)).fenceDone ⟨0, 0⟩ 2 = true ∧
    (blkq (.fence 2) fun k => { k with mxq := [cmd0], seq := 1 }).fenceDone ⟨0, 0⟩ 2 = false ∧
    ((blk (.yield [1])).ctx ⟨0, 1⟩).status ≠ .ready ∧
    (((blk (.yield [1])).setStatus ⟨0, 1⟩ .ready).ctx ⟨0, 1⟩).status = .ready ∧
    (blk (.fe 0x1000 false)).feTurn ⟨0, 0⟩ 0x1000 false = true ∧ (blk (.fe 0x1000 true)).feTurn ⟨0, 0⟩ 0x1000 true = false ∧
    ((blkq (.waitb 0) fun k => { k with cpq := [{ cmd0 with port := 0x26C }] }).core 0).cpq.length = 1 ∧
    (∀ c ∈ ((blk .mxDrain).core 0).mxq, c.ctx ≠ 0) ∧ ((blkq .mxDrain fun k => { k with mxq := [cmd0] }).core 0).mxq = [cmd0] ∧
    ((blk .msFence).core 0).msq = [] ∧ ((blk .msFence).before 0).flits = [] ∧ (blk .msFence).issue.pre = none ∧
    ({ co with issue := { co.issue with pre := some { co.before 0 with flits := [⟨0, ⟨1, 1, 0, 0, 0, 0, [], 0, 0⟩, 0, 0, none⟩] } } } :
      State).msSettled co.cur = false ∧
    ((blkq .msFence fun k => { k with msq := [cmd0] }).core 0).msq = [cmd0] ∧ ((blk .idle).ctx ⟨0, 0⟩).wake = false ∧
    (((blk .idle).updCtx ⟨0, 0⟩ fun c => { c with wake := true }).ctx ⟨0, 0⟩).wake = true := by decide +kernel

/-- A late result, a held add and a load-block of the running context. -/
def adding : State := (co.updCore 0 fun k => { k with adds := [⟨0, 3, 5, false, 1⟩], seq := 1, freeze := some ⟨1, 0, 0, 0⟩ }).updCtx
    ⟨0, 0⟩ fun c =>
      { c with
        blocks := [⟨0x40, 1, [], true, false, 3, false⟩, ⟨0x40, 1, [], false, false, 3, false⟩]
        pend := [⟨0, .port .lsq, .sc SVal.zero, 0, true, [1], 0, none, none⟩] }

/-- The same with the late result of a load that waits for the load-block's fill. -/
def filling : State := adding.updCtx ⟨0, 0⟩ fun c =>
  { c with pend := [⟨0, .port .lsq, .sc SVal.zero, 0, true, [1], 0, some (0, 0x40), none⟩] }

theorem test_wit_adds : (adding.core 0).freeze.isSome = true ∧ (adding.core 0).running = some 0 ∧ (adding.ctx ⟨0, 0⟩).lateNow ≠ [] ∧
    (∀ p ∈ (adding.ctx ⟨0, 0⟩).lateNow, adding.awaitsMore 0 p = false) ∧
    (∃ p ∈ (filling.ctx ⟨0, 0⟩).lateNow, filling.awaitsMore 0 p = true) ∧ (co.core 0).freeze = none ∧
    ((adding.core 0).adds.filter fun b => decide (b.ctx = 0)) = [⟨0, 3, 5, false, 1⟩] ∧
    adding.addReady 0 ⟨0, 3, 5, false, 1⟩ = true ∧
    (adding.updCore 0 fun k => { k with cpq := [cmd0] }).addReady 0 ⟨0, 3, 5, false, 1⟩ = false ∧
    (adding.ctx ⟨0, 0⟩).blocks[1]? = some ⟨0x40, 1, [], false, false, 3, false⟩ ∧
    (adding.ctx ⟨0, 0⟩).blocks[0]?.all (fun c => decide (¬(c.base = 0x40 ∧ c.filled = false))) = true := by decide +kernel

/-- A context that has issued 4,096 groups in a row beside a ready sibling. -/
def longrun : State := (co.updCtx ⟨0, 0⟩ fun c => { c with run := 4096 }).setStatus ⟨0, 1⟩ .ready

theorem test_wit_yield : (longrun.ctx ⟨0, 0⟩).status = .ready ∧ (longrun.core 0).running = some 0 ∧ longrun.standing 0 = false ∧
    4096 ≤ (longrun.ctx ⟨0, 0⟩).run ∧ longrun.readySiblings ⟨0, 0⟩ = [1] ∧ (co.ctx ⟨0, 0⟩).run < 4096 := by decide +kernel

theorem test_wit_tend : (blk .tend).tendReady ⟨0, 0⟩ = true ∧ co.tendReady ⟨0, 0⟩ = false ∧
    (((blk .tend).updCtx ⟨0, 0⟩ fun c => { c with react := none }).tendReady ⟨0, 0⟩ = true) ∧
    (∃ r, ((blk .tend).ctx ⟨0, 0⟩).react = some r ∧ ({ blk .tend with launches := [] } : State).react? r.id = none) ∧
    (let s : State := { blk .tend with launches := co.launches.map fun l =>
        { l with reacts := l.reacts.map fun q => { q with members := [0, 1] } } }
     ((s.ctx ⟨0, 0⟩).react.bind fun r => s.react? r.id).any fun q =>
        decide (1 ∈ q.members ∧ 1 ∉ q.tended ∧ q.st ≠ .finished)) = true := by
  refine ⟨by decide +kernel, by decide +kernel, by decide +kernel, ⟨⟨0, 0, 0⟩, by decide +kernel, by decide +kernel⟩,
    by decide +kernel⟩

/-! ### Engine commands -/

/-- Core 0 with queued commands. -/
def eng (f : Core → Core) : State := co.updCore 0 f

/-- A fill of 8 bytes, and a plain copy of 8. -/
def fill0 : Cmd := { cmd0 with port := 0x266, writes := [piece 0x80 8], started := true }
def copy0 : Cmd := { cmd0 with port := 0x262, reads := [piece 0x40 8], writes := [piece 0x80 8], started := true }

theorem test_wit_engines :
    (let s := eng fun k => { k with mxq := [cmd0] }
     (s.core 0).mxRuns = true ∧ (s.core 0).mxq.find? (fun c => !c.started) = some cmd0 ∧ (s.core 0).clear cmd0 = true ∧
       ∀ e ∈ (s.core 0).mxq, e.started = false) ∧
    (let z := { cmd0 with started := true }
     let s := (eng fun k => { k with mxq := [z] }).updCtx ⟨0, 0⟩ fun c => { c with react := none }
     (s.core 0).mxq.find? (fun c => c.started && (inArray c == true)) = some z ∧ (s.ctx ⟨0, 0⟩).react = z.react ∧
       ∀ c ∈ (s.core 0).mxq, c.started = false ∨ inArray c ≠ false) ∧
    (let w := { holdCmd with id := 1 }
     (∀ s ∈ [eng fun k => { k with cpq := [w] }], (s.core 0).freeze = none ∧ (s.core 0).gated = false ∧
       (s.core 0).cpq.find? (fun c => !c.started && decide (c.port ≠ 0x26C)) = some w ∧
       ((s.core 0).cpq.filter fun c => c.started).length < 4 ∧ (s.core 0).clear w = true) ∧
     (let s := eng fun k => { k with cpq := [copy0, w] }
      (s.core 0).cpq.find? (fun c => !c.started && decide (c.port ≠ 0x26C)) = some w ∧ copy0.id < w.id ∧
       w.waitsFor copy0 = true)) := by decide +kernel

theorem test_wit_copies_complete :
    (let s := eng fun k => { k with cpq := [fill0] }
     (s.core 0).cpq.find? (fun d => d.started && decide (d.id = fill0.id)) = some fill0 ∧ 0x80 % 32 + 8 ≤ 32 ∧
       (s.viewerOf none).versioned .direct = false ∧ s.pinSpan [piece 0x80 8] (patternBytes fill0.o.word 8) = none) ∧
    (let s := eng fun k => { k with cpq := [copy0] }
     (s.core 0).cpq.find? (fun d => d.started && decide (d.id = copy0.id)) = some copy0 ∧
       s.pinSpan [piece 0x80 8] (cellsRead s.store.mem 0x40 8) = none) ∧
    (let m := { cmd0 with port := 0x26C, id := 2 }
     (∀ l ∈ [[m], [{ holdCmd with ctx := 1 }, m]],
        ((eng fun k => { k with cpq := l }).core 0).cpq.find? (fun c => decide (c.port = 0x26C) && decide (c.id = 2)) = some m ∧
        ∀ c ∈ l, c.ctx = m.ctx → c.id < 2 → c.port = 0x26C) ∧
     ∃ c ∈ [fill0, m], c.ctx = m.ctx ∧ c.id < 2 ∧ c.port ≠ 0x26C) := by
  refine ⟨by decide +kernel, by decide +kernel, by decide +kernel, fill0, by decide, by decide⟩

theorem test_wit_ms_commands :
    (let a := { cmd0 with port := 0x2A3, writes := [piece 0x80 8] }
     let s := eng fun k => { k with msq := [a] }
     (s.core 0).msq.find? (fun d => decide (d.id = a.id) && [0x2A2, 0x2A3, 0x2A4, 0x2A5, 0x2A6].contains d.port) = some a ∧
       (s.viewerOf none).ordered = false ∧ (s.viewerOf none).versioned .direct = false) ∧
    (let a := { cmd0 with port := 0x2AB, id := 1 }
     ((eng fun k => { k with msq := [a] }).core 0).msq.find? (fun d => decide (d.id = a.id) && [0x2AB].contains d.port) = some a ∧
      ∃ e ∈ [cmd0, a], e.ctx = a.ctx ∧ e.stack = a.stack ∧ e.id < a.id) := by
  refine ⟨by decide +kernel, by decide +kernel, cmd0, by decide, by decide⟩

/-! ### Dispatch, preemption, clearing -/

/-- A record of one sub-program in an instant, its entry and its header, for the launch block's fields of R243. -/
def recb (nsub : Nat) : List Byte := leBytes 512 (0xC7A2 + 2 ^ 16 + nsub * 2 ^ 24 + 2 ^ 40 + 2 ^ 64 + 0x28000 * 2 ^ 192 + 0x29000 * 2 ^ 448)
def entb : List Byte := leBytes 128 (0x28100 + 2 ^ 64 + 2 ^ 96 + 5 * 2 ^ 160)
def hdrb : List Byte := leBytes 64 (0xC7A1 + 2 ^ 16 + 5 * 2 ^ 32)

/-- A submitted launch. -/
def sub0 (nsub : Nat) : Launch :=
  { placeLaunch 5 with phase := .submitted, raw := recb nsub, record := recordOf (recb nsub), entries := [], nextInst := 0, reacts := [] }

/-- The machine with that launch submitted and its structures in memory. -/
def submitted (nsub : Nat) : State :=
  { cv with store := (cv.store.put 0x28000 entb false).put 0x28100 hdrb false, launches := [sub0 nsub] }

/-- What a check of `sub0` reads and finds: whether everything is at hand, and the lowest bad field of each pass. -/
def checked (nsub : Nat) (f : Option Nat → Bool) : Bool :=
  let s := submitted nsub
  let l := sub0 nsub
  match s.dispRead l l.record.entries (128 * min l.record.nsub 32) with
  | .ok bs =>
    let rd := (List.range (min l.record.nsub 32)).map fun i => s.readEntry l ((bs.drop (128 * i)).take 128)
    let qs := rd.map Prod.fst
    let es := entriesOf qs
    let dies := diesOf l.record.diemask
    let ws := dies.map fun d => s.leaseWalk l d es
    rd.all (fun q => decide (q.2 = .none)) && decide (s.pass2Need l es dies ws = .none) &&
      f (firstField (recordShape s.devid (leNat l.raw) l.record es) (qs.map (s.entryShape l))) &&
      decide (firstField (s.recordResource l es) (qs.zipIdx.map fun q =>
        s.entryResource l q.1 (l.record.gangOf q.2).isSome ++ if leaseFails ws q.2 = true then [832] else []) = none)
  | _ => false

theorem test_wit_launch_check : (submitted 1).launch? 5 = some (sub0 1) ∧ checked 1 (fun f => f.isNone) = true ∧
    checked 0 (fun f => decide (f = some 24)) = true ∧ (placeLaunch 5).phase ≠ .submitted := by decide +kernel

/-- `cs` with an instant to enqueue. -/
def inst0 : State := { cs with launches := cs.launches.map fun l => { l with nextInst := 0, reacts := [] } }

theorem test_wit_instants : (∃ l, inst0.launch? 0 = some l ∧ l.phase = .running ∧ l.aborting = false ∧
      l.nextInst < l.record.ninst ∧ l.record.open_ = false ∧ l.nextInst < l.cleared + 4 ∧ l.present 0 = [(0, [0], 0)]) ∧
    ∃ l, cs.launch? 0 = some l ∧ l.record.ninst ≤ l.nextInst :=
  ⟨⟨_, rfl, by decide +kernel, by decide +kernel, by decide +kernel, by decide +kernel, by decide +kernel, by decide +kernel⟩,
    _, rfl, by decide +kernel⟩

/-- A queued reaction with its ticket. -/
def queued0 : State :=
  { cs.updCtx ⟨0, 0⟩ fun _ => Ctx.reset with
    launches := cs.launches.map fun l => { l with reacts := [{ placeReaction with st := .queued, places := [] }] }
    tickets := [(0, 0, [⟨0, 0⟩])] }

theorem test_wit_ticket : (match queued0.heads 0 with
    | (l, r) :: _ => queued0.coreOpen l 0 && !l.aborting && decide (queued0.thresholds l r 0 = .met ∧ r.slots = [] ∧
        0 ∉ queued0.took ∧ queued0.newcomersOf 0 = [] ∧ queued0.freeCtx 0 ⟨l.lid, r.stamp⟩ = some 0) &&
        !l.heldBack r 0 && decide (queued0.placesFor l r 0 = some [(⟨0, 0⟩, 0)] ∧ l.entries[0]? = some placeEntry)
    | _ => false) = true ∧ (queued0.react? ⟨0, 0⟩).any (fun q => decide (q.st = .queued)) = true ∧ ReactId.wf ⟨0, 0⟩ = true := by
  decide +kernel

/-- The newcomer of a die whose only core is full: an entry that needs the whole scratchpad. -/
def full0 : State :=
  { cs with
    launches := cs.launches.map fun l => { l with
      entries := l.entries ++ [{ placeEntry with spb := 2 ^ 21, tok := 5 }]
      reacts := l.reacts ++ [{ placeReaction with stamp := 1, entry := 1, members := [1], st := .queued, tok := 5, places := [] }] }
    tickets := [(0, 0, [⟨0, 1⟩])] }

theorem test_wit_preempt : (full0.newcomer 0).any (fun h => (full0.victim 0 h).any fun v => (full0.choose v.1 v.2).isSome) = true ∧
    full0.timebase.toNat % 4096 = 0 ∧ 0 ∉ full0.chose ∧ ({ full0 with timebase := 1 } : State).timebase.toNat % 4096 ≠ 0 := by decide +kernel

/-- A running reaction marked for preemption, with one save slot. -/
def marked (a : Action) : State :=
  { cs with launches := cs.launches.map fun l => { l with
      record := { l.record with savebase := 0x20000, savecnt := 1, saveslot := 0x100000 }
      reacts := l.reacts.map fun r => { r with action := some a } } }

theorem test_wit_marked : (∀ a ∈ [Action.kill, .checkpoint], ((marked a).react? ⟨0, 0⟩).any (fun r => decide (r.action = some a ∧
      r.st = .running) && (marked a).atBoundary r && decide (r.places = [(⟨0, 0⟩, 0)])) = true) ∧
    (marked .checkpoint).drained ⟨0, 0⟩ = true ∧ ((marked .checkpoint).ctx ⟨0, 0⟩).blocks = [] ∧
    ((marked .checkpoint).launch? 0).any (fun l => decide ((marked .checkpoint).freeSlots l = [0] ∧
      ((marked .checkpoint).slotPages l 0).need = .none)) = true ∧
    ((marked .checkpoint).react? ⟨0, 0⟩).any (fun r => !(marked .checkpoint).inHandler r) = true ∧
    (cs.react? ⟨0, 0⟩).any (fun r => decide (r.action ≠ some .kill)) = true := by decide +kernel

/-- The instant of `cs` with its one reaction finished, and one that two reactions' stores conflict in. -/
def clearing (ls : List RLog) : State :=
  { cs with
    launches := cs.launches.map fun l => { l with reacts := l.reacts.map fun r => { r with st := .finished } }
    store := { cs.store with logs := ls } }

/-- Two stores to one sector by two reactions. -/
def conflicting : List RLog :=
  [⟨0, 0, [.store (2 ^ 36 + 0x20000) [1, 2] false false false 0]⟩, ⟨0, 1, [.store (2 ^ 36 + 0x20000) [5, 6] false false false 0]⟩]

theorem test_wit_clearing : (∀ ls ∈ [[], conflicting], ((clearing ls).launch? 0).any (fun l => decide (l.phase = .running ∧
      l.record.open_ = false ∧ l.cleared < l.nextInst ∧ l.peers = []) && l.reacts.all fun r => decide (r.st = .finished)) = true) ∧
    lowestConflict ((clearing []).launchAddr 0) (wroteOf ((clearing []).store.instLogs 0 0)) = none ∧
    (clearing []).store.taintEvents [] [] = [] ∧
    (lowestConflict ((clearing conflicting).launchAddr 0) (wroteOf ((clearing conflicting).store.instLogs 0 0))).any (fun k =>
      ((clearing conflicting).launch? 0).any fun l => decide ((clearing conflicting).taintNeed l [homeDie (32 * k)] = .none)) = true ∧
    (inst0.launch? 0).any (fun l => decide (l.nextInst ≤ l.cleared)) = true := by decide +kernel

/-- A reaction blocked on a set that nobody, or an older reaction, holds. -/
def setWait (held : Bool) : State :=
  { cs.setStatus ⟨0, 0⟩ (.blocked (.set [⟨0x1000, 128⟩])) with
    launches := cs.launches.map fun l => { l with reacts := (l.reacts.flatMap fun r =>
      [{ r with sets := [⟨0x1000, 128, [⟨0x1000, 128⟩], held, held, false⟩] },
        { r with stamp := 1, sets := [⟨0x1000, 128, [⟨0x1000, 128⟩], false, false, false⟩] }]) } }

theorem test_wit_set_waits :
    (match (setWait false).touch ⟨0, 0⟩ [⟨0x1000, 128⟩] with | .ok _ => true | _ => false) = true ∧
    (let s := (setWait true).updCtx ⟨0, 0⟩ fun c => { c with react := some ⟨0, 1, 0⟩ }
     (s.ctx ⟨0, 0⟩).status = .blocked (.set [⟨0x1000, 128⟩]) ∧ (match s.touch ⟨0, 0⟩ [⟨0x1000, 128⟩] with | .wait _ => true | _ => false) = true) := by
  decide +kernel

/-! ### Translation and observation -/

/-- A walk that waits for a migration. -/
def walking (e : Bool) : State := { co.setStatus ⟨0, 0⟩ (.blocked (.walk 0)) with walks := [⟨0, ⟨0, 0⟩, 0, 0, 0, e⟩] }

theorem test_wit_walks : (walking false).walks.find? (fun v => decide (v.id = 0)) = some ⟨0, ⟨0, 0⟩, 0, 0, 0, false⟩ ∧
    ((walking false).ctx ⟨0, 0⟩).status = .blocked (.walk 0) ∧ ((walking false).migCounter 0).toNat = 0 ∧
    (({ walking false with counters := [(0, 1)] } : State).migCounter 0).toNat = 1 ∧
    (walking false).timebase.toNat < 0 + Config.migrationBound ∧
    0 + Config.migrationBound ≤ (BitVec.ofNat 64 Config.migrationBound).toNat := by decide +kernel

/-- A multicast of core 512 to order, or decided and gone on. -/
def pt1 (dec : Bool) : Ptmc := ⟨0, ⟨512, 0⟩, 0x6008, 5, 0, dec, false, !dec, false⟩
def ordering (dec : Bool) (pins : List (Nat × List Nat)) : State :=
  { cv.updDie 0 fun d => { d with podmask := 1 } with ptmcs := [pt1 dec], pins := pins }

theorem test_wit_ptmc : (∀ ps ∈ [[], [(0, [0x6008])]],
      (ordering false ps).ptmcs.find? (fun q => decide (q.id = 0) && !q.decided) = some (pt1 false) ∧
      (ordering false ps).podPeers (dieOf 512) = [] ∧
      ((ordering false ps).die (dieOf 512)).podmask.getLsbD (ordering false ps).devid = true) ∧
    0x6008 ∉ (ordering false []).pinned ∧ 0x6008 ∈ (ordering false [(0, [0x6008])]).pinned ∧
    (ordering true []).ptmcs.find? (fun q => decide (q.id = 0) && q.decided && !q.pinned && !q.open_) = some (pt1 true) ∧
    (ordering true []).fabric.out ++ (ordering true []).fabric.held = [] ∧ (ordering true []).flitsOut 512 = false := by
  decide +kernel

/-- An open trace segment, and a sealed one that may go out. -/
def tracing : State := { cv with obs := { cv.obs with open_ := [[1]] } }
def sealing : State :=
  { cv.updDie 7 fun d => { d with access := Vector.replicate 57 0xFFFFFFFF } with
    obs := { cv.obs with sealed := [⟨0, [1], false⟩], tqlen := 1 } }

theorem test_wit_segments : tracing.obs.open_ ≠ [] ∧ cv.obs.open_ = [] ∧
    ({ tracing with timebase := 2 ^ 20 } : State).obs.tb0 + 2 ^ 20 ≤ (BitVec.ofNat 64 (2 ^ 20)).toNat ∧
    cv.timebase.toNat < cv.obs.tb0 + 2 ^ 20 ∧ sealing.obs.sealed = ⟨0, [1], false⟩ :: [] ∧ sealing.obs.tqlen ≠ 0 ∧
    sealing.mayAccess storDie 45 12 true = true ∧ sealing.storage.paused = [] ∧ cv.obs.sealed = [] := by decide +kernel

/-- Debug by user on a partition with a launch, and one that is halted. -/
def debugging (halted : List Nat) : State := { cs with dbg := .user, halted := halted }

theorem test_wit_debug : (∀ h ∈ [[], [0]], (debugging h).debugParts ⟨512, 0⟩ = [0] ∧ (debugging h).launchOn 0 = true ∧
      (debugging h).park.getLsbD 0 = false ∧ (debugging h).partOf 0 = some 0) ∧
    (Ctx.halt (cs.ctx ⟨0, 0⟩)).status = .stopped .halt none ∧ CtxRef.wf ⟨512, 0⟩ = true := by decide +kernel

-- the least and greatest offsets of the performance counters and their configuration, and register addresses
theorem test_wit_register_writes : (0 % 8 = 0 ∧ 0xFF8 < 0x1000 ∧ 0xFF8 % 8 = 0 ∧ 0x1000 % 8 = 0 ∧ 0x1FF8 < 0x2000) ∧
    regAddr 0x20018 = some ⟨0, 2, 24⟩ ∧ regAddr 4 = none := by decide +kernel

/-! ### The host port and the route table -/

theorem test_wit_host : (∀ off ∈ [0x10000, 0x2FFFF], (cs.die 0).wbase.toNat * 2 ^ 17 + (off - 0x10000) < 2 ^ 36 ∧
      cs.physOk ((cs.die 0).wbase.toNat * 2 ^ 17 + (off - 0x10000)) = true ∧
      cs.mayHbm ((cs.die 0).wbase.toNat * 2 ^ 17 + (off - 0x10000)) 8 true false = true ∧
      cs.pinHit ((cs.die 0).wbase.toNat * 2 ^ 17 + (off - 0x10000)) [7] = none ∧
      State.reset.mayHbm ((State.reset.die 0).wbase.toNat * 2 ^ 17 + (off - 0x10000)) 8 true false = false) ∧
    (∀ v ∈ [0, 512], cs.host.h2dtail.toNat ≤ v ∧ v ≤ cs.host.h2dhead.toNat + 512 ∧ cs.host.d2htail.toNat ≤ v ∧
      v ≤ cs.host.d2hhead.toNat + 512) ∧
    cs.host.h2dhead.toNat + 512 < 513 ∧ cs.host.d2hhead.toNat + 512 < 513 ∧
    (let h : HostPort := { cs.host with h2dtail := 5, h2dhead := 3, d2htail := 5, d2hhead := 3 }
     (∀ v ∈ [3, 5], h.d2hhead.toNat ≤ v ∧ v ≤ h.d2htail.toNat ∧ h.h2dhead.toNat ≤ v ∧ v ≤ h.h2dtail.toNat) ∧
       2 < h.d2hhead.toNat ∧ h.d2htail.toNat < 6 ∧ 2 < h.h2dhead.toNat ∧ h.h2dtail.toNat < 6 ∧ 4 < h.h2dtail.toNat ∧
       4 < h.d2htail.toNat) ∧
    (∀ off ∈ [0x40, 0x58], 0x40 ≤ off ∧ off < 0x60 ∧ off % 8 = 0) := by decide +kernel

/-! ### Fabric -/

/-- `cs` with lanes on the links of every die. -/
def cl : State := { cs with regs := Vector.map (fun d => { d with cfg := { d.cfg with lanes0 := 1, lanes1 := 1 } }) cs.regs }

/-- A flit of a kind for this device at an address. -/
def flit0 (k : BitVec 4) (a : Nat) : Flit := ⟨k, 1, 0, 0, 0, BitVec.ofNat 56 a, List.replicate 32 7, 0xFFFFFFFF, 0⟩

theorem test_wit_flits : (∀ k, (flit0 k 0x20000).fk = k ∧ (flit0 k 0x20000).data.length = 32) ∧
    ((flit0 1 0).dstdev.toNat = cs.devid ∧ ({ flit0 1 0 with dstdev := 2 } : Flit).dstdev.toNat ≠ cs.devid) ∧
    (cl.linkUp 3 = true ∧ ({ cl with fabric := { cl.fabric with down := [3] } } : State).linkUp 3 = false ∧ cs.linkUp 3 = false) ∧
    ((flit0 3 0).mask ≠ 0 ∧ ({ flit0 3 0 with mask := 0 } : Flit).mask = 0) ∧
    ((cs.updDie 1 fun d => { d with podmask := 1 }).orderDev 1 = cs.devid ∧
      (cs.updDie 1 fun d => { d with podmask := 2 }).orderDev 1 ≠ cs.devid ∧ ∀ p ∈ cs.ptmcs, p.asked = false) ∧
    flitParts (flit0 1 0x20000) = [(0x20000, List.replicate 32 7)] ∧ cs.fabOk 0x20000 32 true = true ∧
    cs.pinHit 0x20000 (List.replicate 32 7) = none ∧ cs.fabOk (2 ^ 39) 32 true = false ∧
    ({ cs with pins := [(0, [0x20000])] } : State).pinHit 0x20000 (List.replicate 32 7) ≠ none ∧
    cs.peerLaunch 1 = none ∧ ctrOfAddr (2 ^ 55) = some 0 ∧ ctrOfAddr (2 ^ 55 + 8 * (8 * 16384 - 1)) = some (8 * 16384 - 1) ∧
    ctrOfAddr (2 ^ 55 + 8 * (8 * 16384)) = none ∧ ctrOfAddr 0x20000 = none ∧ cs.fabOk 0x20000 (32 - 0x20000 % 32) false = true ∧
    lineOf 0x20000 ∉ cs.store.poison ∧ cs.physOk 0x20000 = true ∧ cs.fabric.reqs = [] := by
  refine ⟨fun k => ⟨rfl, by simp [flit0]⟩, ?_⟩
  decide +kernel

/-- A request of core 0 to device 1 that waits. -/
def req0 : RemoteReq := ⟨⟨0, 0⟩, 1, 0x20000, none, 0, none, false⟩

theorem test_wit_fabric : (req0.dev = (flit0 3 0x20000).srcdev.toNat ∧ req0.addr = (flit0 3 0x20000).addr.toNat ∧ req0.resp = none) ∧
    (cs.byStatus 0).isSome = true ∧ (cs.die 1).fsid = 0 ∧
    ((cs.updDie 1 fun d => { d with fsid := 5 }).die 1).fsid ≠ (flit0 9 0).sid ∧ 9 < (flit0 0xA 0).fk.toNat ∧
    ((alGet cs.fabric.crcFails 3).getD 0 + 1 < 16) ∧
    16 ≤ (alGet [(3, 15)] 3).getD 0 + 1 ∧ cs.fabric.out = [] ∧ cs.fabric.held = [] ∧
    (State.anyLaunch cs = true) := by decide +kernel

/-! ### The storage port -/

/-- An entry of an opcode with a buffer of 16 bytes at 0x20000. -/
def sqe (op fc : Nat) : List Byte := leBytes 64 (op + fc * 2 ^ 32 + 0x20000 * 2 ^ 192 + 16 * 2 ^ 256)

/-- The machine with one command submitted on a queue pair, all access granted on every die. -/
def stor (q op fc qid : Nat) : State :=
  { cs.updDie 7 fun d => { d with access := Vector.replicate 57 0xFFFFFFFF } with
    regs := Vector.map (fun d => { d with access := Vector.replicate 57 0xFFFFFFFF }) cs.regs
    storage := { cs.storage with pending := [(q, sqe op fc)], qpairs := [(q, { QPair.reset with qid := qid, depth := 5 })] } }

theorem test_wit_commands : ∀ e ∈ [(NvmeKind.propGet, 0x7F, 4, 0), (.propSet, 0x7F, 0, 0), (.keepAlive, 0x18, 0, 0),
      (.flush, 0, 0, 1), (.connect, 0x7F, 1, 0), (.write, 1, 0, 1), (.identify, 6, 0, 0), (.getLog, 2, 0, 0), (.read, 2, 0, 1),
      (.other, 0x99, 0, 1)],
    ∀ q ∈ [0, 519], (stor q e.2.1 e.2.2.1 e.2.2.2).nextCmd q e.1 = some (sqe e.2.1 e.2.2.1) ∧ cs.nextCmd q e.1 = none := by
  decide +kernel

theorem test_wit_buffers :
    (match ((stor 1 1 0 1).popCmd 1).portPieces 1 .r 0x20000 16 with
    | .ok [p] => decide (p.page = .direct) && !((stor 1 1 0 1).popCmd 1).poisoned [p]
    | _ => false) = true ∧
    (match ((stor 1 6 0 0).popCmd 1).portPieces 1 .w 0x20000 16 with
    | .ok ps => decide (((stor 1 6 0 0).popCmd 1).pinSpan ps (List.replicate 16 7) = none)
    | _ => false) = true ∧
    (let s : State := { cs with storage := { cs.storage with sent := [(1, sqe 1 0, [])] } }
     s.storage.sent[0]? = some (1, sqe 1 0, []) ∧ cidOf (sqe 1 0) = leNat (((List.replicate 16 (0 : Byte)).drop 12).take 2)) ∧
    ((cs.qpair 3).depth = 0) ∧
    (let s : State := { cs with halted := [0], storage := { cs.storage with qpairs := [(1, { QPair.reset with depth := 4 })] } }
     s.halted ≠ [] ∧ ∃ q ∈ s.storage.qpairs, q.2.conn.toNat = 0 ∧ q.2.depth ≠ 0) := by
  refine ⟨by decide +kernel, by decide +kernel, by decide +kernel, by decide +kernel, by decide +kernel, _, .head _, by decide,
    by decide⟩

/-! ### Management, errors, power -/

-- the verdicts of signatures are free: whichever they are, one of the clauses of ManagementAndSecurity has its hypotheses met
theorem test_wit_verdicts (f : Flash) : (∃ i b, f.accepted = some i ∧ f.bin = some b ∧ binOk b = true) ∨
    (∃ i, f.accepted = some i ∧ f.bin = none) ∨ f.accepted = none ∨ ∀ b, f.bin = some b → binOk b = false := by
  rcases h : f.accepted with _ | i
  · simp
  · rcases hb : f.bin with _ | b
    · simp
    · rcases hk : binOk b
      · simp [hk]
      · simp [hk]

theorem test_wit_management : State.reset.boot ≠ .done ∧ cs.boot = .done ∧ State.reset.flash.accepted = none ∧
    cs.sec ≠ .provisioned ∧ ({ cs with sec := .provisioned } : State).sec = .provisioned ∧ cs.dbg = .locked := by decide +kernel

theorem test_wit_power : State.reset.anyLaunch = false ∧ cs.anyLaunch = true ∧ cs.launchOn 0 = true ∧ State.reset.launchOn 0 = false ∧
    (0, 1) ∈ movedFields (cs.die 0).supp.toNat (1 % 64) 2 ∧ (cs.core 512).gated = false ∧ cs.halted = [] ∧ cs.stby = false ∧
    cs.sec ≠ .revoked ∧ ((cs.updCore 0 fun k => { k with gated := true }).core 0).gated = true ∧
    (∀ k ∈ [0, 1, 2, 3], k * 2 ^ 59 / 2 ^ 59 % 4 = k) ∧ cs.timebase.toNat % 2 ^ 20 = 0 ∧ (cs.die 0).stepDue = none ∧
    ((cs.die 0).twarn.toNat ≤ 95 ∧ 90 + (cs.die 0).thys.toNat ≤ (cs.die 0).twarn.toNat ∧ 16 * 0 ≤ 15 * (cs.die 0).plimit.toNat) ∧
    ((cs.die 0).tcrit.toNat ≤ 115 ∧ 114 < (cs.die 0).tcrit.toNat) ∧
    (({ cs with park := 1 } : State).park.getLsbD 0 = true ∧ cs.partOf 0 = some 0 ∧ (cs.core 0).freeze = none ∧
      cs.park.getLsbD 0 = false ∧ 0 ∈ cs.cores.map Prod.fst) ∧ 0 ∈ ({ cs with resetting := [0] } : State).resetting := by
  decide +kernel

/-! ### Rounding and the step -/

theorem test_wit_rounding : (1 : Nat) ≠ 0 ∧ Num.fp16 ∈ [Num.fp32, Num.fp16, Num.bf16] := by decide

-- StepKeepsMemoryCanonical: a sound state whose step answers a next state
theorem test_wit_sound : State.reset.sound ∧ (match step State.reset with | .next _ => true | _ => false) = true :=
  ⟨by unfold State.sound; decide, by decide +kernel⟩

/-! ### The tools: assembled text, expressions, a placement, the debugger's lines, and the structural pass -/

open Sys2Proof.Machine.Asm in
/-- The line `add2` of 03_bundles: its slots and its control word. -/
theorem test_asm_add2 :
    (lineBundle [] false none ⟨"", 1⟩ 0x40
      [⟨.always, .reg (.g 5), 0x080, false⟩, ⟨.always, .reg (.g 5), 0x0C0, true⟩, ⟨.always, .reg (.g 6), 0x082, false⟩,
        ⟨.always, .reg .imm, 0x0C2, true⟩, ⟨.always, .reg (.port .x0q), 0x007, false⟩,
        ⟨.always, .reg (.port .x1q), 0x008, true⟩] (some (.lit 0x12345))).bundle =
      ⟨[0x014800, 0x014C00, 0x018820, 0x1C0C20, 0x200070, 0x204080, 0x00000F, 0x00000F], 0x000000000123458A⟩ := by
  decide +kernel

/-- The tokens of a line. -/
theorem test_asm_tokens : Asm.tokensFrom [] "L: g5 > x0.o :: =-1 // end".toList = ["L", ":", "g5", ">", "x0.o", "::", "=", "-", "1"] := by
  decide +kernel

open Sys2Proof.Machine.Asm in
/-- R151's own examples: `1 << 2 + 3` and `-7 div 2`. -/
theorem test_asm_expr : ((expression (tokensFrom [] "1 << 2 + 3".toList)).bind fun e => (e.eval Bases.none).toOption) = some 32#64 ∧
    ((expression (tokensFrom [] "-7 div 2".toList)).bind fun e => (e.eval Bases.none).toOption) = some (-3#64) := by decide +kernel

open Sys2Proof.Machine.Asm in
/-- R152's example: `=grad+0x8000` with `grad` at 0x10000 of data placed at 0x410000 is a relocation of LIMM 0x428000. -/
theorem test_asm_place :
    ((Field.limm.fill [⟨"grad", ⟨"", 1⟩, true, .place .data 0x10000⟩] (.text, 0) (.add (.sym "grad") (.lit 0x8000))).toOption.bind
      fun v => match v with
        | .later e => (e.eval ⟨0, 0x410000, 0⟩).toOption
        | .now _ => none) = some 0x428000 := by decide +kernel

open Sys2Proof.Machine.Asm in
/-- The demo of R159: its header stands at 0x000, its first bundle at 0x040, and vxasm prints one warning. -/
theorem test_asm_demo :
    (let o := (assemble [] [⟨⟨"", 3⟩, none, .reaction "demo" (.lit 6)⟩,
      ⟨⟨"", 4⟩, none, .moves [⟨.always, .lit (.lit 6), 0x080, false⟩, ⟨.always, .lit (.lit 3), 0x0C0, true⟩] none⟩,
      ⟨⟨"", 5⟩, none, .moves [⟨.always, .lit (.lit 7), 0x095, true⟩] none⟩,
      ⟨⟨"", 6⟩, none, .moves [⟨.always, .reg (.port .x0q), 5, true⟩] none⟩, ⟨⟨"", 7⟩, none, .empty (.lit 1)⟩,
      ⟨⟨"", 8⟩, none, .moves [⟨.always, .reg (.port .x0q), 0x0C2, true⟩] none⟩,
      ⟨⟨"", 9⟩, none, .moves [⟨.always, .reg (.port .x1q), 6, true⟩] none⟩,
      ⟨⟨"", 10⟩, none, .moves [⟨.always, .lit (.lit 0), 0x187, true⟩] none⟩]).1
     (leNat (o.text.take 8), o.bundles.map PlacedBundle.off, o.diags)) =
      (0x000000060001C7A1, [0x40, 0x60, 0x80, 0xA0, 0xC0, 0xE0, 0x100], [⟨⟨"", 6⟩, .wEarly, some 0⟩]) := by decide +kernel

/-- R149: a remaining estimate of 5,000 cycles gives MREM 5. -/
theorem test_asm_marker : Asm.mremOf 5000 = 5 := by decide

/-- R159's session: `x0.q` while its product is in flight, and a place printed. -/
theorem test_dbg_line : Asm.scalarLine "x0.q" (.sc ⟨0, 0xF, false⟩) [(1, 42)] =
      "x0.q = 0x0000000000000000 tag 0xF taint 0 pending, due in 1: 0x000000000000002A" ∧
    Asm.placeText [("demo", 0)] 0xA0 = "demo+0xA0" := by decide +kernel

/-- An object of one entry whose only record is an immediate moved to `sy.tend`, and the same with a guard of 0xF. -/
def spf1 (guard : Nat) : List Byte :=
  leBytes 64 (0x5346 + 1 * 2 ^ 16 + 1 * 2 ^ 32 + 1 * 2 ^ 64 + 80 * 2 ^ 128 + 64 * 2 ^ 192 + 96 * 2 ^ 256 + 96 * 2 ^ 320) ++
    leBytes 16 0 ++ leBytes 16 (0x187 + guard * 2 ^ 12 + 2 * 2 ^ 16)

theorem test_spf : Spf.structuralPass (spf1 0) = none ∧ Spf.structuralPass (spf1 0xF) = some ⟨0, .kRecord⟩ ∧
    Spf.structuralPass (leBytes 64 0) = some ⟨0, .kHeader⟩ := by decide +kernel

/-! ### What meets the further conditions of the statements -/

-- StepRunsTheDecodedSlot: a blocked group that has no command of its own
theorem test_wit_own_cmds : (cs.atSlot slot0 (cs.before 0)).ownCmds 0 = [] := by decide +kernel

/-- A versioned piece, logs in stamp order, and a launch without a STATUS page. -/
def vpiece : Piece := ⟨ms0, 8, ms0, .ver⟩
def before0 (a b : RLog) : Bool := decide (a.lid < b.lid ∨ a.lid = b.lid ∧ a.stamp < b.stamp)

theorem test_wit_versions :
    (piece 0x20000 8).key + (piece 0x20000 8).n ≤ (piece 0x20008 8).key ∧ [1, 2, 3, 4, 5, 6, 7, 8, 9].length = 9 ∧
    (cs.viewer cs.cur).versioned vpiece.page = true ∧ vpiece.key % 32 + vpiece.n ≤ 32 ∧
    cs.store.leaseJobs (cs.viewer cs.cur).lid (cs.viewer cs.cur).stamp (lineOf vpiece.key) = [] ∧
    (conflicting.all fun a => conflicting.all fun b => decide (a = b) || before0 a b || before0 b a) = true ∧
    (cs.launch? 0).any (fun l => decide (l.lid = 0)) = true := by decide +kernel

theorem test_wit_no_status : ∃ l : Launch, ({ cs with launches := cs.launches.map fun l =>
    { l with record := { l.record with status := 2 ^ 55 } } } : State).launch? l.lid = some l ∧ 2 ^ 55 ≤ l.record.status :=
  ⟨(cs.launches.map fun l => { l with record := { l.record with status := 2 ^ 55 } }).headD (sub0 1), by decide +kernel,
    by decide +kernel⟩

-- InstantsCommitInOrder and its relatives: peers that have found as much, or not, and a pinned entry in the way
theorem test_wit_peers : (∀ p ∈ [(⟨1, 1, 1, 0⟩ : Peer)], 0 < p.chk) ∧ (∃ p ∈ [(⟨1, 1, 0, 0⟩ : Peer)], p.chk ≤ 0) ∧
    cs.pinCommit conflicting = none ∧
    ({ cs with pins := [(0, [2 ^ 36 + 0x20000])] } : State).pinCommit conflicting = some (0, 2 ^ 36 + 0x20000) ∧
    (cs.launches.all fun l => decide (l.record.open_ = false ∧ l.phase = .running ∧ l.cleared + 1 ≠ 2) &&
      l.reacts.all fun r => decide (r.st ≠ .failed)) = true := by decide +kernel

-- LoopsAndMarks: KMASK bit 0 set, and the end of loop 1 with loop 0 not there
theorem test_wit_marks : ({ cs with obs := { cs.obs with kmask := 1 } } : State).obs.kmask.getLsbD 0 = true ∧
    fires .br 0x14B .t (.g 1) .always { cs with obs := { cs.obs with kmask := 1 } } = true ∧
    (let c : Ctx := { Ctx.reset with loop1 := ⟨2, 0x1000, 0x1020⟩ }
     c.delay = none ∧ c.loop1.lc ≠ 0 ∧ c.armedEnd 0 c.loop1.e = false ∧ 1 < c.loop1.lc.toNat) := by decide +kernel

-- ClockDefinitions: a target that is defined, and what defines one
theorem test_wit_known_clocks : (∀ k ∈ [1, 14], (cs.updCtx cs.cur fun c => { c with kdef := 0x7FFE }).me.kdef.getLsbD k = true) ∧
    ∃ p : Pend, p.dest = .clock 14 true := ⟨by decide +kernel, ⟨0, .clock 14 true, .sc SVal.zero, 0, false, [], 0, none, none⟩, rfl⟩

-- CountersAndWaits: a local and a shared counter, the clearing come to an instant, and a held add
theorem test_wit_waits : (cs.waitR cs.cur (.loc 0) 0 = .met) ∧ cs.waitR cs.cur (.loc 0) 1 = .unreachable ∧
    (cs.me.react = some ⟨0, 0, 0⟩ ∧ (cs.launchOf cs.cur).any (fun l => !l.record.open_) = true ∧
      Sel.shared (.die 0 5) = true ∧ cs.known (.die 0 5) = true) ∧
    cs.waitR cs.cur (.die 0 5) 1 = .unreachable ∧ (cs.launches.all fun l => cs.reached l 0) = true ∧
    ({ cs with store := cs.store.log 0 0 [.add (Sel.addKey (.die 0 5)) 7 false] } : State).store.effs 0 0 =
      [.add (Sel.addKey (.die 0 5)) 7 false] := by decide +kernel

-- SetsEndsAndStamps: a set of the reaction on the line asked for
theorem test_wit_shared_line : (let s := setWait false
    (s.reactOf s.cur).any (fun r => r.sets.any fun q => q.meets (s.rangesOf s.cur 0x1000 128)) = true ∧
      sharedRange 0x1000 128 = true ∧ s.anyMs s.cur (pagesOf 0x1000 128) = .ok false) := by decide +kernel

-- VectorMemory: a vector where an address stands, a misaligned offset, and one past the slice
theorem test_wit_vector_forms :
    (let x := (vops cs [4, 6, 5000] [4096]).operands .ve .ot (.v 1)
     x.t.isVec = true ∧ x.o.isVec = true ∧ (List.finRange 64).find? (fun i => x.o.lanes[i].toNat % 4 ≠ 0) = some 1 ∧
      (∀ i : Fin 64, x.t.lanes[i].toNat % 4 = 0) ∧
      (List.finRange 64).find? (fun i => cs.me.alloc.lsb < x.t.lanes[i].toNat + 4) = some 0) ∧
    fires .ve 0x1D7 .t (.v 1) .always (vops cs [] [4096]) = true ∧ fires .ve 0x1D8 .ot (.v 1) .always (vops cs [] []) = true ∧
    (cs.watchSpans cs.cur (((List.finRange 64).filter fun j => (lanes [4096])[j].toNat + 4 ≤ 4096).map fun j =>
      ⟨0xFF000000000000 + j.val * 4096 + (lanes [4096])[j].toNat, 4, false⟩)).2 = none := by decide +kernel

/-- The piece of a page-table entry, pinned or not. -/
def pteState0 (pinned : Bool) : State := { co with pins := if pinned then [(0, [0x80])] else [] }

-- MsOperations: an update that would change a pinned entry, and one that would not; a store of the context that is out
theorem test_wit_ms_pins : (let pin (b : Bool) (s : State) := s.msPinned s.cur (s.viewer s.cur) (msUpdOf 0x2A3) [piece 0x80 8] 5 0
      pin false (pteState0 false) = none ∧ (pin true (pteState0 true)).map Prod.fst = some 0x80) ∧
    OutFlit.ofAccess ⟨0, ⟨1, 1, 0, 0, 0, 0, [], 0, 0⟩, 0, 0, none⟩ ⟨0, 0⟩ = true := by decide +kernel

-- SupervisorOperations: values that a register does not take, a register refused, a denied walk and multicast, base 0
theorem test_wit_sv_refused : regAddr 0x20040 = some ⟨0, 2, 0x40⟩ ∧ cv.writeForm ⟨0, 2, 0x40⟩ (2 ^ 63 - 1) = true ∧
    regAddr 0x50000 = some ⟨0, 5, 0⟩ ∧ State.reset.writeForm ⟨0, 5, 0⟩ 0 = false ∧
    (State.reset.judged.mayAccess 0 (48 + 5) 3 true = false) ∧
    (let s : State := { cv with regs := Vector.map (fun d => { d with access := Vector.replicate 57 0 }) cv.regs }
     s.walkDenied (s.master 0) ⟨.leaf, 0, 4, [0x6008]⟩ = true ∧
      (s.judged.mayHbm 0x6008 (s.master 0) true false = false)) ∧
    cv.judged.mayHbm 0x6008 (cv.master cv.cur.core) true false = true := by decide +kernel

-- EngineCommandsRun: a command whose checks pass, with its pieces plain and apart and its count named
def full1 (c : Cmd) : State := eng fun k => { k with mxq := [c], cpq := [c] }

theorem test_wit_command_results :
    (∀ c ∈ [{ cmd0 with started := true }, fill0, copy0, { copy0 with port := 0x223, writes := [] }],
      let s := full1 c
      (s.core 0).mxRuns = true ∧ (s.core 0).cpRuns = true ∧
        (s.core 0).mxq.find? (fun d => d.started && (inArray d == inArray c)) = some c ∧
        (s.core 0).cpq.find? (fun d => d.started && decide (d.id = c.id)) = some c ∧ c.sent = false ∧
        s.poisoned c.reads = false ∧ s.ctxFlits ⟨0, c.ctx⟩ = false ∧
        (c.reads ++ c.writes).all (fun p => decide (p.key % 32 + p.n ≤ 32) && !(s.viewerOf c.react).versioned p.page) = true) ∧
    (let s := full1 copy0
     (cellsRead s.store.mem 0x40 8).length = (copy0.writes.map Piece.n).sum ∧
       s.pinSpanIn s.pinned copy0.writes (cellsRead s.store.mem 0x40 8) = none) ∧
    ((full1 { copy0 with react := some ⟨0, 0, 0⟩ }).launch? 0).any (fun l => l.record.open_) = true ∧
    (cs.launch? 0).any (fun l => !l.record.open_) = true := by decide +kernel

-- a canopy fill of one block for each lane, in plain memory
theorem test_wit_canopy_blocks : (let r := fmtRec (rec 1 sp0 0 64 0)
    let bl : List (List Piece) := List.replicate 64 [piece 0x20000 32, piece 0x20020 32]
    bl.length = 64 * 1 ∧ (∀ b ∈ bl, (b.map Piece.n).sum = r.fillBytes) ∧ 1 ≤ r.fmt ∧ r.fmt ≤ 5 ∧
      0 + 1 * slotsPerStep r.fmt ≤ 2048 ∧ keyKind 0x20020 ≠ Kind.canopyElem.num ∧ keyKind 0x20020 ≠ Kind.canopyExp.num) := by
  decide +kernel

-- HostPortAndRoutes: a doorbell that moves its pointer
theorem test_wit_doorbell : (1 : Word) ≠ cs.host.h2dtail ∧ 512 ∈ cv.cores.map Prod.fst := by decide +kernel

/-- `cl` with another device known of its launch. -/
def cpeer : State := { cl with launches := cl.launches.map fun l => { l with peers := [⟨1, 0, 0, 0⟩] } }

-- FabricFlits: a launch that spans device 1, waiting requests, multicasts asked for, and a device not known yet
theorem test_wit_pod : (cpeer.peerLaunch 1).isSome = true ∧ (flit0 2 0x20000).stamp.toNat ≠ noView ∧
    ({ flit0 2 0x20000 with stamp := BitVec.allOnes _ } : Flit).stamp.toNat = noView ∧
    [{ req0 with dev := 0 }].find? (fun q => q.meets (flit0 3 0x20000) && q.walk.isSome == decide ((flit0 3 0).mask = 0x3FF)) = none ∧
    [req0].find? (fun q => q.meets (flit0 3 0x20000) && q.walk.isSome == decide ((flit0 3 0).mask = 0x3FF)) = some req0 ∧
    ({ req0 with load := true } : RemoteReq).x.core ≠ 20000 ∧
    [{ pt1 false with asked := true }].find? (fun p => p.asked && !p.decided && decide (p.addr = 0x6008)) =
      some { pt1 false with asked := true } ∧
    ({ flit0 3 0 with data := [0xC6] } : Flit).data.head? = some 0xC6 ∧ (flit0 3 0).data.head? ≠ some 0xC6 ∧
    (cs.launches.all fun l => decide (l.peers.find? (fun p => decide (p.dev = 1)) = none)) = true ∧
    (cs.named 0).isSome = true ∧ cs.byStatus 5 = none ∧
    0x20000 ∈ ({ cs with pins := [(0, [0x20000])] } : State).pinned := by decide +kernel

-- StoragePort: a buffer, and a completion queue, that the access tables deny, and one piece of each that they do not
theorem test_wit_storage_denied : (let s : State := { stor 1 1 0 1 with
      regs := Vector.map (fun d => { d with access := Vector.replicate 57 0 }) cs.regs }
    s.popCmd 1 |>.portPieces 1 .r 0x20000 16) = .denied ∧
    (match ((stor 1 2 0 1).popCmd 1).portPieces 1 .w 0x20000 16 with
    | .ok [p] => decide (p.page = .direct) && decide ((stor 1 2 0 1).pinSpan [p] (List.replicate 16 7) = none)
    | _ => false) = true ∧
    (match (stor 1 2 0 1).portPieces 1 .w (((stor 1 2 0 1).qpair 1).cqbase.toNat + 16 * 0) 16 with
    | .ok [_] => true
    | _ => false) = true := by decide +kernel

-- ManagementAndSecurity and ErrorsPartitionsAndPower: the update-only state, a halt at a step's cycle, and the partitions of a die
theorem test_wit_update_only : ({ cs with boot := .updateOnly } : State).boot = .updateOnly ∧
    ({ cs with halted := [0] } : State).halted ≠ [] ∧ 0 ∈ cs.dieParts 0 := by decide +kernel

end Sys2Proof.Tests
end

section
/-!
PROOFS of 00_scope: memory holds what was stored. What a read and a write of a piece do to memory; how logs stand in
stamp order and what a reaction's view shows of its own log (R316); and what a clearing leaves in memory (R319).
-/

namespace Sys2Proof.Machine

/-! ### Bytes and cells -/

/-- Bytes written out again from the number they hold (R2). -/
theorem leBytes_leNat (bs : List Byte) : leBytes bs.length (leNat bs) = bs := by
  induction bs with
  | nil => rfl
  | cons b bs ih =>
    have low : BitVec.ofNat 8 (b.toNat + 256 * leNat bs) = b := by
      apply BitVec.eq_of_toNat_eq
      simp only [BitVec.toNat_ofNat]
      have := b.isLt
      omega
    have high : (b.toNat + 256 * leNat bs) / 256 = leNat bs := by
      have := b.isLt
      omega
    rw [List.length_cons, leNat, leBytes, low, high, ih]

@[simp] theorem cellsRead_length (m : List Host.Cell) (a n : Nat) : (cellsRead m a n).length = n := by
  simp [cellsRead]

/-- A part of the bytes read from a key is the read of that part. -/
theorem take_drop_cellsRead (m : List Host.Cell) (a n i j : Nat) (h : i + j ≤ n) :
    ((cellsRead m a n).drop i).take j = cellsRead m (a + i) j := by
  apply List.ext_getElem
  · simp; omega
  · intro k _ _
    simp [cellsRead, Nat.add_assoc]

/-- The bytes of a piece lie in its sector at their place (R36). -/
theorem sector_piece (st : Store) (key n : Nat) (h : key % 32 + n ≤ 32) :
    ((st.sector (sectorOf key)).1.drop (key % 32)).take n = cellsRead st.mem key n := by
  rw [Store.sector, take_drop_cellsRead _ _ _ _ _ h, sectorOf, Nat.div_add_mod]

theorem cellsRead_congr {m m' : List Host.Cell} {a n : Nat}
    (h : ∀ k, a ≤ k → k < a + n → cellGet m k = cellGet m' k) : cellsRead m a n = cellsRead m' a n :=
  List.map_congr_left fun i hi => h _ (by omega) (by have := List.mem_range.mp hi; omega)

theorem inPieces_eq_false {ps : List Piece} {a : Nat} :
    inPieces ps a = false ↔ ∀ p ∈ ps, ¬(p.key ≤ a ∧ a < p.key + p.n) := by
  simp [inPieces]

/-! ### Reading and writing plain pieces (R36, R106) -/

/-- A piece on this device and outside versioned memory, within its sector. -/
def Viewer.plain (v : Viewer) (p : Piece) : Prop :=
  p.key % 32 + p.n ≤ 32 ∧ v.versioned p.page = false ∧ ∀ d r m, p.page ≠ .remote d r m

theorem readPiece_plain (s : State) (x : CtxRef) {v : Viewer} {p : Piece} (hp : v.plain p) :
    (s.readPiece x v p).1 = cellsRead s.store.mem p.key p.n := by
  obtain ⟨hn, hv, hr⟩ := hp
  rw [← sector_piece s.store p.key p.n hn, State.readPiece]
  cases hpage : p.page with
  | remote d r m => exact absurd hpage (hr d r m)
  | _ => rw [hpage] at hv; simp [hv]

theorem writePiece_plain_mem (s : State) (x : CtxRef) {v : Viewer} {p : Piece} (bytes : List Byte) (taint : Bool)
    (hp : v.plain p) : (s.writePiece x v p bytes taint).store.mem = cellsWrite s.store.mem p.key bytes := by
  obtain ⟨-, hv, hr⟩ := hp
  rw [State.writePiece]
  cases hpage : p.page with
  | remote d r m => exact absurd hpage (hr d r m)
  | _ => rw [hpage] at hv; simp [hv, Store.put, State.note]

/-- The bytes that a fold of reads gives, whatever stood before it. -/
theorem foldl_readPiece (s : State) (x : CtxRef) {v : Viewer} (ps : List Piece) (hps : ∀ p ∈ ps, v.plain p) :
    ∀ a : List Byte × Bool,
      (ps.foldl (fun a p => let r := s.readPiece x v p; (a.1 ++ r.1, a.2 || r.2)) a).1 =
        a.1 ++ ps.flatMap fun p => cellsRead s.store.mem p.key p.n := by
  induction ps with
  | nil => simp
  | cons p ps ih =>
    intro a
    obtain ⟨hp, hps⟩ := List.forall_mem_cons.mp hps
    rw [List.foldl_cons, ih hps]
    simp [readPiece_plain s x hp]

theorem readPieces_plain (s : State) (x : CtxRef) {v : Viewer} (ps : List Piece) (hps : ∀ p ∈ ps, v.plain p) :
    (s.readPieces x v ps).1 = ps.flatMap fun p => cellsRead s.store.mem p.key p.n :=
  (foldl_readPiece s x ps hps ([], false)).trans (List.nil_append _)

/-- Writing plain pieces leaves every address outside them alone. -/
theorem writePieces_plain_frame (x : CtxRef) {v : Viewer} (taint : Bool) {a : Nat} (ps : List Piece) :
    ∀ (s : State) (bytes : List Byte), (∀ p ∈ ps, v.plain p) → inPieces ps a = false →
      cellGet (s.writePieces x v ps bytes taint).store.mem a = cellGet s.store.mem a := by
  induction ps with
  | nil => intros; rfl
  | cons p ps ih =>
    intro s bytes hps ha
    obtain ⟨hp, hps⟩ := List.forall_mem_cons.mp hps
    obtain ⟨hpa, hpsa⟩ := List.forall_mem_cons.mp (inPieces_eq_false.mp ha)
    rw [State.writePieces, ih _ _ hps (inPieces_eq_false.mpr hpsa), writePiece_plain_mem s x _ taint hp]
    have hn : (bytes.take p.n).length ≤ p.n := List.length_take_le _ _
    exact cellGet_cellsWrite_other _ _ _ _ (by omega)

/-- Plain pieces that do not overlap hold, in order, the bytes written to them. -/
theorem cellsRead_writePieces (x : CtxRef) {v : Viewer} (taint : Bool) (ps : List Piece) :
    ∀ (s : State) (bytes : List Byte), s.sound → (∀ p ∈ ps, v.plain p) → bytes.length = (ps.map Piece.n).sum →
      ps.Pairwise (fun p q => p.key + p.n ≤ q.key ∨ q.key + q.n ≤ p.key) →
      (ps.flatMap fun p => cellsRead (s.writePieces x v ps bytes taint).store.mem p.key p.n) = bytes := by
  induction ps with
  | nil => intro s bytes _ _ hlen _; simpa using (List.length_eq_zero_iff.mp hlen).symm
  | cons p ps ih =>
    intro s bytes hs hps hlen hapart
    obtain ⟨hp, hps⟩ := List.forall_mem_cons.mp hps
    obtain ⟨hpapart, hapart⟩ := List.pairwise_cons.mp hapart
    rw [List.map_cons, List.sum_cons] at hlen
    have hmem := writePiece_plain_mem s x (bytes.take p.n) taint hp
    have hsound : (s.writePiece x v p (bytes.take p.n) taint).sound := by
      rw [State.sound, hmem]; exact cellsWrite_wf _ _ _ hs
    have first : cellsRead (s.writePieces x v (p :: ps) bytes taint).store.mem p.key p.n = bytes.take p.n := by
      have untouched : ∀ k, p.key ≤ k → k < p.key + p.n → inPieces ps k = false := fun k h1 h2 =>
        inPieces_eq_false.mpr fun q hq => by have := hpapart q hq; omega
      rw [State.writePieces, cellsRead_congr fun k h1 h2 =>
        writePieces_plain_frame x taint ps _ _ hps (untouched k h1 h2), hmem]
      have hn : (bytes.take p.n).length = p.n := by rw [List.length_take]; omega
      simpa only [hn] using cellsRead_cellsWrite s.store.mem p.key (bytes.take p.n) hs
    have rest := ih _ (bytes.drop p.n) hsound hps (by rw [List.length_drop]; omega) hapart
    rw [List.flatMap_cons, first, State.writePieces, rest, List.take_append_drop]

/-! ### Logs in stamp order (R316) -/

/-- The order of logs: by launch, then by stamp. -/
def RLog.before (a b : RLog) : Prop := a.lid < b.lid ∨ a.lid = b.lid ∧ a.stamp < b.stamp

/-- What stands before every log, and before the one pushed, stands before every log after the push. -/
theorem before_logPush {a : RLog} {lid stamp : Nat} {es : List Eff} (ha : a.before ⟨lid, stamp, es⟩) (logs : List RLog)
    (h : ∀ g ∈ logs, a.before g) : ∀ g ∈ logPush lid stamp es logs, a.before g := by
  induction logs with
  | nil => simpa [logPush] using ha
  | cons l ls ih =>
    obtain ⟨hl, hls⟩ := List.forall_mem_cons.mp h
    rw [logPush]
    split_ifs
    · exact List.forall_mem_cons.mpr ⟨hl, hls⟩
    · exact List.forall_mem_cons.mpr ⟨hl, ih hls⟩
    · exact List.forall_mem_cons.mpr ⟨ha, h⟩

/-- A log that is neither of this reaction nor before it stands after it. -/
theorem RLog.after_of_not_before {l : RLog} {lid stamp : Nat} {es : List Eff} (hne : ¬(l.lid = lid ∧ l.stamp = stamp))
    (hnb : ¬(l.lid < lid ∨ l.lid = lid ∧ l.stamp < stamp)) : RLog.before ⟨lid, stamp, es⟩ l := by
  simp only [RLog.before]
  omega

theorem RLog.before.trans {a b c : RLog} (hab : a.before b) (hbc : b.before c) : a.before c := by
  simp only [RLog.before] at *
  omega

/-- Logs stay in order as they grow. -/
theorem logPush_pairwise (lid stamp : Nat) (es : List Eff) (logs : List RLog) (h : logs.Pairwise RLog.before) :
    (logPush lid stamp es logs).Pairwise RLog.before := by
  induction logs with
  | nil => simp [logPush]
  | cons l ls ih =>
    obtain ⟨hl, hls⟩ := List.pairwise_cons.mp h
    rw [logPush]
    split_ifs with hsame hbefore
    · exact List.pairwise_cons.mpr ⟨hl, hls⟩
    · exact List.pairwise_cons.mpr ⟨before_logPush hbefore ls hl, ih hls⟩
    · have hafter : RLog.before ⟨lid, stamp, es⟩ l := RLog.after_of_not_before hsame hbefore
      exact List.pairwise_cons.mpr ⟨List.forall_mem_cons.mpr ⟨hafter, fun g hg => hafter.trans (hl g hg)⟩, h⟩

/-- The logs of one instant of one launch stand in stamp order. -/
theorem instLogs_pairwise (st : Store) (lid inst : Nat) (h : st.logs.Pairwise RLog.before) :
    (st.instLogs lid inst).Pairwise fun a b => a.stamp < b.stamp := by
  refine (h.filter _).imp_of_mem fun {a b} ha hb hab => ?_
  have lid_eq : ∀ g ∈ st.instLogs lid inst, g.lid = lid := fun g hg => by
    simpa using (Bool.and_eq_true_iff.mp (List.mem_filter.mp hg).2).1
  have hla := lid_eq a ha
  have hlb := lid_eq b hb
  simp only [RLog.before] at hab
  omega

/-! ### A version is read by its own reaction (R316) -/

/-- A log after a reaction's is no part of its view. -/
theorem logView_of_after {lid stamp : Nat} {es : List Eff} (held : Bool) (k : Nat) (x : SecVal) {g : RLog}
    (h : RLog.before ⟨lid, stamp, es⟩ g) : logView lid stamp held k x g = x := by
  simp only [RLog.before] at h
  by_cases hl : g.lid = lid
  · have hstamp : stamp < g.stamp := by omega
    have hinst : instOf stamp ≤ instOf g.stamp := Nat.div_le_div_right hstamp.le
    rw [logView, if_neg (not_not.mpr hl), if_neg (by omega), if_neg (by omega)]
  · rw [logView, if_pos hl]

theorem foldl_logView_of_after {lid stamp : Nat} {es : List Eff} (held : Bool) (k : Nat) (x : SecVal) (logs : List RLog)
    (h : ∀ g ∈ logs, RLog.before ⟨lid, stamp, es⟩ g) : logs.foldl (logView lid stamp held k) x = x := by
  induction logs with
  | nil => rfl
  | cons l ls ih =>
    obtain ⟨hl, hls⟩ := List.forall_mem_cons.mp h
    rw [List.foldl_cons, logView_of_after held k x hl, ih hls]

/-- All of a reaction's own log is in its view. -/
theorem logView_own (lid stamp : Nat) (held : Bool) (k : Nat) (x : SecVal) (es : List Eff) :
    logView lid stamp held k x ⟨lid, stamp, es⟩ = es.foldl (secEff k) x := by
  simp [logView]

/-- Effects pushed to a reaction's log are applied last in its view: the logs behind it are no part of the view. -/
theorem foldl_logView_logPush (lid stamp : Nat) (es : List Eff) (held : Bool) (k : Nat) (logs : List RLog) :
    ∀ x, logs.Pairwise RLog.before →
      (logPush lid stamp es logs).foldl (logView lid stamp held k) x =
        es.foldl (secEff k) (logs.foldl (logView lid stamp held k) x) := by
  induction logs with
  | nil => intro x _; simp [logPush, logView_own]
  | cons l ls ih =>
    intro x h
    obtain ⟨hl, hls⟩ := List.pairwise_cons.mp h
    rw [logPush]
    split_ifs with hsame hbefore
    · obtain ⟨rfl, rfl⟩ := hsame
      rw [List.foldl_cons, List.foldl_cons, foldl_logView_of_after held k _ ls hl, foldl_logView_of_after held k _ ls hl]
      have own : ∀ fs, logView l.lid l.stamp held k x { l with effs := fs } = fs.foldl (secEff k) x :=
        logView_own l.lid l.stamp held k x
      rw [own, own l.effs, List.foldl_append]
    · rw [List.foldl_cons, List.foldl_cons, ih _ hls]
    · have hafter : RLog.before ⟨lid, stamp, es⟩ l := RLog.after_of_not_before hsame hbefore
      have hrest : ∀ g ∈ l :: ls, RLog.before ⟨lid, stamp, es⟩ g :=
        List.forall_mem_cons.mpr ⟨hafter, fun g hg => hafter.trans (hl g hg)⟩
      rw [List.foldl_cons, logView_own, foldl_logView_of_after held k _ _ hrest, foldl_logView_of_after held k _ _ hrest]

/-- Effects logged are applied last in the view of the reaction that logs them. -/
theorem view_log (st : Store) (lid stamp : Nat) (es : List Eff) (held : Bool) (k : Nat) (h : st.logs.Pairwise RLog.before) :
    (st.log lid stamp es).view lid stamp held k = es.foldl (secEff k) (st.view lid stamp held k) := by
  rw [Store.log]
  split_ifs with hes
  · rw [hes]; rfl
  · exact foldl_logView_logPush lid stamp es held k st.logs _ h

/-! A sector's value keeps at least its 32 bytes under every effect. -/

theorem length_le_patch (bs : List Byte) (off : Nat) (new : List Byte) (h : off ≤ bs.length) :
    bs.length ≤ (patch bs off new).length := by
  simp only [patch, List.length_append, List.length_take, List.length_drop]
  omega

theorem length_le_secEff (k : Nat) (x : SecVal) (e : Eff) (h : 32 ≤ x.1.length) : 32 ≤ (secEff k x e).1.length := by
  have stored : ∀ key new taint, 32 ≤ (secStore x (key % 32) new taint).1.length := fun key new _ =>
    h.trans (length_le_patch x.1 (key % 32) new (by have := Nat.mod_lt key (by omega : 32 > 0); omega))
  cases e with
  | store key bytes taint isSet ms who =>
    rw [secEff]
    split_ifs
    · exact stored _ _ _
    · exact h
  | msop op key t p taint =>
    rw [secEff]
    split_ifs
    · exact stored _ _ _
    · exact h
  | add ctr n tainted => exact h
  | cmd core id => exact h

theorem length_le_foldl_secEff (k : Nat) (x : SecVal) (es : List Eff) (h : 32 ≤ x.1.length) :
    32 ≤ (es.foldl (secEff k) x).1.length :=
  List.foldlRecOn es (secEff k) h fun x hx e _ => length_le_secEff k x e hx

theorem length_le_logView (lid stamp : Nat) (held : Bool) (k : Nat) (x : SecVal) (l : RLog) (h : 32 ≤ x.1.length) :
    32 ≤ (logView lid stamp held k x l).1.length := by
  rw [logView]
  split_ifs
  · exact h
  · exact length_le_foldl_secEff k x _ h
  · exact length_le_foldl_secEff k x _ h
  · exact h

theorem length_le_view (st : Store) (lid stamp : Nat) (held : Bool) (k : Nat) :
    32 ≤ (st.view lid stamp held k).1.length :=
  List.foldlRecOn st.logs _ (by simp [Store.sector]) fun x hx l _ => length_le_logView lid stamp held k x l hx

/-- Bytes put at an offset are read back there. -/
theorem take_drop_patch (bs : List Byte) (off : Nat) (new : List Byte) (h : off ≤ bs.length) :
    ((patch bs off new).drop off).take new.length = new := by
  have hoff : (bs.take off).length = off := by rw [List.length_take]; omega
  rw [patch, List.append_assoc, List.drop_left' hoff, List.take_left]

theorem readPiece_versioned (s : State) (x : CtxRef) {v : Viewer} {p : Piece} (hv : v.versioned p.page = true)
    (hr : ∀ d r m, p.page ≠ .remote d r m) :
    (s.readPiece x v p).1 =
      ((s.store.view v.lid v.stamp (v.holds (sectorOf p.key)) (sectorOf p.key)).1.drop (p.key % 32)).take p.n := by
  rw [State.readPiece]
  cases hpage : p.page with
  | remote d r m => exact absurd hpage (hr d r m)
  | _ => rw [hpage] at hv; simp [hv]

/-- Without a victim no wound is made. -/
@[simp] theorem State.wound_nil (s : State) (lid : Nat) (o : Origin) : s.wound lid o [] = s := by
  rw [State.wound]
  generalize s.woundFuel + ([] : List WoundJob).length = fuel
  cases fuel <;> rfl

/-- Logging changes no lease, so a write wounds the same readers. -/
theorem leaseJobs_log (st : Store) (lid stamp : Nat) (es : List Eff) (l w line : Nat) :
    (st.log lid stamp es).leaseJobs l w line = st.leaseJobs l w line := by
  rw [Store.log]
  split_ifs <;> rfl

/-- The effect by which a reaction's store to a piece stands in its log. -/
def Viewer.storeEff (v : Viewer) (p : Piece) (bytes : List Byte) (taint : Bool) : Eff :=
  .store p.key bytes taint (v.holds (sectorOf p.key)) p.page.memSide ((v.agent.map RunRef.entry).getD 0)

/-- A store to a versioned piece of this device that wounds no reader is one more effect in its reaction's log. -/
theorem writePiece_versioned_store (s : State) (x : CtxRef) {v : Viewer} {p : Piece} (bytes : List Byte) (taint : Bool)
    (hv : v.versioned p.page = true) (hr : ∀ d r m, p.page ≠ .remote d r m)
    (hjobs : s.store.leaseJobs v.lid v.stamp (lineOf p.key) = []) :
    (s.writePiece x v p bytes taint).store = s.store.log v.lid v.stamp [v.storeEff p bytes taint] := by
  rw [State.writePiece, Viewer.storeEff]
  cases hpage : p.page with
  | remote d r m => exact absurd hpage (hr d r m)
  | _ => rw [hpage] at hv; simp [hv, leaseJobs_log, hjobs]

/-- A store to a versioned piece is read back by its own reaction. -/
theorem readPiece_writePiece_versioned (s : State) (x : CtxRef) {v : Viewer} {p : Piece} (bytes : List Byte) (taint : Bool)
    (hv : v.versioned p.page = true) (hr : ∀ d r m, p.page ≠ .remote d r m) (hlen : bytes.length = p.n)
    (hjobs : s.store.leaseJobs v.lid v.stamp (lineOf p.key) = []) (hlogs : s.store.logs.Pairwise RLog.before) :
    ((s.writePiece x v p bytes taint).readPiece x v p).1 = bytes := by
  rw [readPiece_versioned _ x hv hr, writePiece_versioned_store s x bytes taint hv hr hjobs,
    view_log _ _ _ _ _ _ hlogs]
  have hoff : p.key % 32 ≤ (s.store.view v.lid v.stamp (v.holds (sectorOf p.key)) (sectorOf p.key)).1.length :=
    (Nat.mod_lt _ (by omega)).le.trans (length_le_view _ _ _ _ _)
  simp only [Viewer.storeEff, List.foldl_cons, List.foldl_nil, secEff, if_true, secStore]
  rw [← hlen, take_drop_patch _ _ _ hoff]

/-! ### What the end of a launch leaves alone

State.memStatus holds all that says what a launch's end does to memory: memory itself, and where each launch wants its
status record. Every operation of a clearing, but for the commit of effects, leaves it. -/

/-- Memory, and each launch's number and STATUS address. -/
def State.memStatus (s : State) : List Host.Cell × List (Nat × Nat) :=
  (s.store.mem, s.launches.map fun l => (l.lid, l.record.status))

/-- Two states with one memory and one list of launches agree in memStatus. -/
theorem State.memStatus_congr {s t : State} (hm : t.store.mem = s.store.mem) (hl : t.launches = s.launches) :
    t.memStatus = s.memStatus := by
  rw [State.memStatus, hm, hl, State.memStatus]

/-- Operations in turn that leave memStatus leave it together. -/
theorem State.foldl_memStatus {α : Type} (f : State → α → State) (h : ∀ s a, (f s a).memStatus = s.memStatus) (l : List α)
    (s : State) : (l.foldl f s).memStatus = s.memStatus :=
  List.foldlRecOn (motive := fun t => t.memStatus = s.memStatus) l f rfl fun t ht a _ => (h t a).trans ht

/-- A choice of operations that leave memStatus leaves it. -/
theorem State.ite_memStatus {c : Prop} [Decidable c] {s a b : State} (ha : a.memStatus = s.memStatus)
    (hb : b.memStatus = s.memStatus) : (if c then a else b).memStatus = s.memStatus := by
  split
  · exact ha
  · exact hb

/-- A change to a launch that leaves its number and its STATUS leaves memStatus. -/
theorem State.updLaunch_memStatus (s : State) (lid : Nat) (f : Launch → Launch)
    (hlid : ∀ l, (f l).lid = l.lid := by intro l; rfl)
    (hst : ∀ l, (f l).record.status = l.record.status := by intro l; rfl) : (s.updLaunch lid f).memStatus = s.memStatus := by
  have hkeep : ∀ l ∈ s.launches, ((fun l => (l.lid, l.record.status)) ∘ fun l => if l.lid = lid then f l else l) l =
      (l.lid, l.record.status) := fun l _ => by
    rw [Function.comp_apply]
    split_ifs
    · rw [hlid, hst]
    · rfl
  rw [State.memStatus, State.memStatus, State.updLaunch_store, State.updLaunch, List.map_map, List.map_congr_left hkeep]

@[simp] theorem State.resetSoon_memStatus (s : State) (core : Nat) : (s.resetSoon core).memStatus = s.memStatus := by
  rw [State.resetSoon]
  split <;> rfl

@[simp] theorem State.sendFor_memStatus (s : State) (core ctx : Nat) (cmd : Option Nat) (fk dev sid addr : Nat)
    (data : List Byte) (mask stamp : Nat) :
    (s.sendFor core ctx cmd fk dev sid addr data mask stamp).memStatus = s.memStatus := by
  rw [State.sendFor]
  exact State.ite_memStatus (State.resetSoon_memStatus s core) rfl

@[simp] theorem State.sendFlit_memStatus (s : State) (core fk dev sid addr : Nat) (data : List Byte) (mask stamp : Nat) :
    (s.sendFlit core fk dev sid addr data mask stamp).memStatus = s.memStatus := State.sendFor_memStatus ..

@[simp] theorem State.tellPeers_memStatus (s : State) (l : Launch) (m : ClearMsg) :
    (s.tellPeers l m).memStatus = s.memStatus := by
  rw [State.tellPeers]
  exact State.ite_memStatus rfl (State.foldl_memStatus _ (fun s p => State.sendFlit_memStatus ..) _ _)

@[simp] theorem State.seal_memStatus (s : State) : s.seal.memStatus = s.memStatus := by
  rw [State.seal]
  exact State.ite_memStatus rfl rfl

@[simp] theorem State.record_memStatus (s : State) (r : Nat) : (s.record r).memStatus = s.memStatus := by
  rw [State.record]
  exact State.ite_memStatus (State.seal_memStatus _) rfl

@[simp] theorem State.traceCtx_memStatus (s : State) (x : CtxRef) (bit kind : Nat) (taint : Bool) (payload : Nat) :
    (s.traceCtx x bit kind taint payload).memStatus = s.memStatus := by
  rw [State.traceCtx]
  exact State.ite_memStatus (State.record_memStatus ..) rfl

@[simp] theorem State.dropFreeze_memStatus (s : State) (core : Nat) : (s.dropFreeze core).memStatus = s.memStatus := by
  rw [State.dropFreeze]
  split
  · rfl
  · dsimp only
    split
    · exact State.ite_memStatus (State.traceCtx_memStatus ..) rfl
    · rfl

@[simp] theorem State.releaseCtx_memStatus (s : State) (x : CtxRef) (keep : Bool) :
    (s.releaseCtx x keep).memStatus = s.memStatus := by
  rw [State.releaseCtx]
  exact (State.memStatus_congr rfl rfl).trans (State.ite_memStatus (State.dropFreeze_memStatus s x.core) rfl)

@[simp] theorem State.releaseReact_memStatus (s : State) (r : Reaction) (keep : Bool) :
    (s.releaseReact r keep).memStatus = s.memStatus := by
  rw [State.releaseReact]
  refine State.foldl_memStatus _ (fun t p => ?_) _ _
  exact State.releaseCtx_memStatus t p.1 keep

@[simp] theorem State.applyAdd_memStatus (s : State) (x : CtxRef) (c : Sel) (n : Word) :
    (s.applyAdd x c n).memStatus = s.memStatus := by
  cases c with
  | bad => rfl
  | loc i => rfl
  | gang i => rw [State.applyAdd]; split <;> rfl
  | die d i => rfl
  | remote v d i => exact State.sendFor_memStatus ..

@[simp] theorem State.raiseDone_memStatus (s : State) (l : Launch) : (s.raiseDone l).memStatus = s.memStatus := by
  rw [State.raiseDone]
  exact State.ite_memStatus rfl
    ((State.applyAdd_memStatus ..).trans (State.updLaunch_memStatus _ _ _))

/-- A launch has no STATUS page: its STATUS lies beyond every address (R232). -/
def State.noStatusPage (s : State) (lid : Nat) : Prop := ∀ l, s.launch? lid = some l → 2 ^ 55 ≤ l.record.status

theorem State.status_of_launch? (s : State) (lid : Nat) :
    (s.launch? lid).map (fun l => l.record.status) = alGet s.memStatus.2 lid := by
  simp only [State.launch?, alGet, State.memStatus, List.find?_map, Option.map_map]
  rfl

theorem State.noStatusPage_congr {s t : State} {lid : Nat} (h : t.memStatus.2 = s.memStatus.2) (hs : s.noStatusPage lid) :
    t.noStatusPage lid := by
  intro l hl
  have same : (s.launch? lid).map (fun l => l.record.status) = some l.record.status := by
    rw [State.status_of_launch?, ← h, ← State.status_of_launch?, hl]; rfl
  obtain ⟨l', hl', heq⟩ := Option.map_eq_some_iff.mp same
  exact heq ▸ hs l' hl'

/-- The last steps of a launch without a STATUS page write nothing. -/
theorem State.finishLaunch_memStatus (s : State) (lid : Nat) (h : s.noStatusPage lid) :
    (s.finishLaunch lid).memStatus = s.memStatus := by
  rw [State.finishLaunch]
  split
  · rfl
  · next l hl =>
    split
    · rw [State.writeStatus, if_pos (h l hl)]
      dsimp only
      rw [State.raiseDone_memStatus, State.tellPeers_memStatus]
      exact State.updLaunch_memStatus _ _ _
    · exact State.raiseDone_memStatus ..
    · rfl

/-- The end of a launch without a STATUS page leaves memory. -/
theorem State.endLaunch_memStatus (s : State) (lid : Nat) (rep : Option Report) (nother : Nat) (h : s.noStatusPage lid) :
    (s.endLaunch lid rep nother).memStatus = s.memStatus := by
  rw [State.endLaunch]
  split
  · rfl
  · next l hl =>
    refine State.ite_memStatus rfl ?_
    have released := State.foldl_memStatus _ (fun s r => State.releaseReact_memStatus s r false) l.reacts s
    have ending : ∀ t : State, t.memStatus = s.memStatus → (t.finishLaunch lid).memStatus = s.memStatus := fun t ht =>
      (State.finishLaunch_memStatus t lid (State.noStatusPage_congr (congrArg Prod.snd ht) h)).trans ht
    exact ending _ ((State.updLaunch_memStatus _ _ _).trans released)

theorem State.checkEnd_memStatus (s : State) (lid : Nat) (h : s.noStatusPage lid) :
    (s.checkEnd lid).memStatus = s.memStatus := by
  rw [State.checkEnd]
  split
  · rfl
  · next l hl =>
    have atEnd := fun rep nother => State.endLaunch_memStatus s lid rep nother h
    refine State.ite_memStatus rfl (State.ite_memStatus (State.ite_memStatus (atEnd _ _) rfl) ?_)
    refine State.ite_memStatus rfl (State.ite_memStatus ?_ rfl)
    split
    · rfl
    · exact atEnd _ _

/-! ### What a clearing leaves in memory (R319) -/

theorem secEff_bytes_congr (k : Nat) {x y : SecVal} (e : Eff) (h : x.1 = y.1) : (secEff k x e).1 = (secEff k y e).1 := by
  cases e with
  | store key bytes taint isSet ms who => simp only [secEff, apply_ite Prod.fst, secStore, h]
  | msop op key t p taint => simp only [secEff, apply_ite Prod.fst, secStore, h]
  | add ctr n tainted => exact h
  | cmd core id => exact h

/-- What a commit leaves in memory depends on memory alone. -/
theorem commit_mem_congr {st st' : Store} (e : Eff) (h : st.mem = st'.mem) : (st.commit e).mem = (st'.commit e).mem := by
  cases e with
  | store key bytes taint isSet ms who => simp only [Store.commit, apply_ite Store.mem, Store.put, h]
  | msop op key t p taint =>
    have hsec : (st.sector (sectorOf key)).1 = (st'.sector (sectorOf key)).1 := by simp only [Store.sector, h]
    simp only [Store.commit, apply_ite Store.mem, Store.setSector, h, secEff_bytes_congr _ _ hsec]
  | add ctr n tainted => exact h
  | cmd core id => exact h

theorem foldl_commit_mem_congr (es : List Eff) :
    ∀ {st st' : Store}, st.mem = st'.mem → (es.foldl Store.commit st).mem = (es.foldl Store.commit st').mem := by
  induction es with
  | nil => exact id
  | cons e es ih => exact fun h => ih (commit_mem_congr e h)

@[simp] theorem State.commitAdd_memStatus (s : State) (core stamp : Nat) (e : Eff) :
    (s.commitAdd core stamp e).memStatus = s.memStatus := by
  cases e with
  | add ctr n tainted =>
    rw [State.commitAdd]
    exact State.ite_memStatus rfl (State.sendFlit_memStatus ..)
  | store => rfl
  | msop => rfl
  | cmd => rfl

/-- One log's part of a clearing leaves the memory that its effects make, in their order of commit. -/
theorem State.commitLog_memStatus (s : State) (core : Nat) (g : RLog) :
    (s.commitLog core g).memStatus = ((g.ordered.foldl Store.commit s.store).mem, s.memStatus.2) := by
  have adds := State.foldl_memStatus _ (fun s e => State.commitAdd_memStatus s core g.stamp e) g.effs
  exact (adds _).trans (Prod.ext (foldl_commit_mem_congr g.ordered rfl) rfl)

/-- The parts of several logs leave the memory that their effects make, log after log. -/
theorem State.foldl_commitLog_memStatus (core : Nat) (gs : List RLog) :
    ∀ s : State, (gs.foldl (fun s g => s.commitLog core g) s).memStatus =
      (((gs.flatMap RLog.ordered).foldl Store.commit s.store).mem, s.memStatus.2) := by
  induction gs with
  | nil => intro s; rfl
  | cons g gs ih =>
    intro s
    have hg := State.commitLog_memStatus s core g
    have hmem : (s.commitLog core g).store.mem = (g.ordered.foldl Store.commit s.store).mem := congrArg Prod.fst hg
    rw [List.foldl_cons, ih, List.flatMap_cons, List.foldl_append, foldl_commit_mem_congr _ hmem, congrArg Prod.snd hg]

/-- The clearing of an instant of a launch without a STATUS page leaves the memory that its logs' effects make. -/
theorem State.commitInstant_mem (s : State) (l : Launch) (gs : List RLog) (hl : s.launch? l.lid = some l)
    (hst : 2 ^ 55 ≤ l.record.status) :
    (s.commitInstant l gs).store.mem = ((gs.flatMap RLog.ordered).foldl Store.commit s.store).mem := by
  have hpage : s.noStatusPage l.lid := fun l' hl' => by
    rw [hl] at hl'
    cases hl'
    exact hst
  have closing : ∀ (t : State) (m : List Host.Cell), t.memStatus = (m, s.memStatus.2) →
      (if l.cleared + 1 = l.record.ninst then t.endLaunch l.lid none 0 else t.checkEnd l.lid).store.mem = m := by
    intro t m ht
    have htpage : t.noStatusPage l.lid := State.noStatusPage_congr (s := s) (by rw [ht]) hpage
    have same := State.ite_memStatus (c := l.cleared + 1 = l.record.ninst)
      (State.endLaunch_memStatus t l.lid none 0 htpage) (State.checkEnd_memStatus t l.lid htpage)
    exact congrArg Prod.fst (same.trans ht)
  refine closing _ _ ?_
  rw [State.tellPeers_memStatus]
  refine (State.updLaunch_memStatus _ _ _).trans ?_
  exact (State.foldl_commitLog_memStatus l.core gs _).trans (Prod.ext (foldl_commit_mem_congr _ rfl) rfl)

/-! ### The obligation -/

/-- Settles O23: reads and writes of plain pieces on memory's cells, a reaction's own version applied last in its view,
logs kept in order by each push, and a clearing that changes memory by its commits alone. -/
theorem memoryHoldsWhatWasStored : Obligations.MemoryHoldsWhatWasStored := by
  unfold Obligations.MemoryHoldsWhatWasStored
  refine ⟨?readPlain, ?frame, ?writeRead, ?version, ?push, ?inst, ?clear, ?commit, fun _ => rfl, leNat_leBytes, leBytes_leNat⟩
  case readPlain => exact fun s x v ps hps => readPieces_plain s x ps hps
  case frame => exact fun s x v ps bytes taint hps a ha => writePieces_plain_frame x taint ps s bytes hps ha
  case writeRead =>
    exact fun s x v ps bytes taint hs hps hlen hapart => cellsRead_writePieces x taint ps s bytes hs hps hlen hapart
  case version =>
    intro s x v p bytes taint _ hv hr hlen hjobs hlogs
    refine ⟨?_, readPiece_writePiece_versioned s x bytes taint hv hr hlen hjobs hlogs⟩
    rw [writePiece_versioned_store s x bytes taint hv hr hjobs, Store.log_mem]
  case push => exact fun lid stamp es logs h => logPush_pairwise lid stamp es logs h
  case inst => exact fun st lid i h => instLogs_pairwise st lid i h
  case clear => exact fun s l gs hl hst => s.commitInstant_mem l gs hl hst
  case commit =>
    intro st key bytes taint b c who
    rw [Store.commit]
    split_ifs <;> rfl

end Sys2Proof.Machine
end

section
/-!
PROOFS of 02_instants: what a completed plain store and a full/empty transfer leave in memory (08_seq_scalar R170-R173), and
how launches, tickets, pre-emption and clearing go on (11_dispatch, 18_clearing).
-/

namespace Sys2Proof.Machine

/-! ### Stores of plain pieces (R36, R172) -/

/-- Two states that differ in their stores and launches alone. -/
def State.sameHardware (s t : State) : Prop := ∃ st ls, t = { s with store := st, launches := ls }

theorem State.sameHardware.refl (s : State) : s.sameHardware s := ⟨s.store, s.launches, rfl⟩

theorem State.sameHardware.trans {s t u : State} (h : s.sameHardware t) (h' : t.sameHardware u) : s.sameHardware u := by
  obtain ⟨st, ls, rfl⟩ := h
  obtain ⟨st', ls', rfl⟩ := h'
  exact ⟨st', ls', rfl⟩

theorem State.sameHardware.cores {s t : State} (h : s.sameHardware t) : t.cores = s.cores := by
  obtain ⟨st, ls, rfl⟩ := h
  rfl

theorem State.sameHardware.counters {s t : State} (h : s.sameHardware t) : t.counters = s.counters := by
  obtain ⟨st, ls, rfl⟩ := h
  rfl

theorem State.sameHardware.regs {s t : State} (h : s.sameHardware t) : t.regs = s.regs := by
  obtain ⟨st, ls, rfl⟩ := h
  rfl

/-- A context stands in its core alone. -/
theorem State.ctx_congr {s t : State} (h : t.cores = s.cores) (x : CtxRef) : t.ctx x = s.ctx x := by
  simp only [State.ctx, State.core, h]

theorem writePiece_plain_sameHardware (s : State) (x : CtxRef) {v : Viewer} {p : Piece} (bytes : List Byte) (taint : Bool)
    (hp : v.plain p) : s.sameHardware (s.writePiece x v p bytes taint) := by
  obtain ⟨-, hv, hr⟩ := hp
  rw [State.writePiece]
  cases hpage : p.page with
  | remote d r m => exact absurd hpage (hr d r m)
  | _ => rw [hpage] at hv; simp only [hv]; exact ⟨_, s.launches, rfl⟩

theorem writePieces_plain_sameHardware (x : CtxRef) {v : Viewer} (taint : Bool) (ps : List Piece) :
    ∀ (s : State) (bytes : List Byte), (∀ p ∈ ps, v.plain p) → s.sameHardware (s.writePieces x v ps bytes taint) := by
  induction ps with
  | nil => exact fun s _ _ => .refl s
  | cons p ps ih =>
    intro s bytes hps
    obtain ⟨hp, hps⟩ := List.forall_mem_cons.mp hps
    exact (writePiece_plain_sameHardware s x _ taint hp).trans (ih _ _ hps)

@[simp] theorem State.irrev_store (s : State) (x : CtxRef) : (s.irrev x).store = s.store := by
  rw [State.irrev]
  split <;> rfl

theorem State.irrev_sameHardware (s : State) (x : CtxRef) : s.sameHardware (s.irrev x) := by
  rw [State.irrev]
  split
  · exact .refl s
  · exact ⟨s.store, _, rfl⟩

@[simp] theorem State.storeIrrev_store (s : State) (p : SpanP) : (s.storeIrrev p).store = s.store := by
  rw [State.storeIrrev]
  split
  · exact s.irrev_store s.cur
  · rfl

theorem State.storeIrrev_sameHardware (s : State) (p : SpanP) : s.sameHardware (s.storeIrrev p) := by
  rw [State.storeIrrev]
  split
  · exact s.irrev_sameHardware s.cur
  · exact .refl s

/-- What a store whose span passed its checks has done if it went on: it wrote its pieces, and no pinned entry stood there. -/
theorem writeSpan_ok {s v : State} {x : CtxRef} {p : SpanP} {bytes : List Byte} {taint : Bool}
    (h : s.writeSpan x p bytes taint = .ok v) :
    v = (s.writePieces x (s.viewer x) p.ps bytes taint).unpoison (s.viewer x) p.ps := by
  rw [State.writeSpan] at h
  split at h
  · split at h <;> cases h
  · cases h; rfl

/-- An operation whose accesses are checked first goes on only from a state in which they have passed. -/
theorem admitThen_ok {s v : State} {l : List Span} {k : State → List SpanP → MoveR} (h : admitThen s l k = .ok v) :
    ∃ u ps, s.passes l u ps ∧ k u ps = .ok v := by
  rw [admitThen] at h
  cases hv : s.vet s.cur l with
  | ok u ps => rw [hv] at h; exact ⟨u, ps, hv, h⟩
  | trap c i => rw [hv] at h; cases h
  | block b => rw [hv] at h; cases h
  | reset => rw [hv] at h; cases h

/-- What a plain store that went on has written: its accesses passed, and memory but for its pieces, the cores, the counters and the
registers are as they were then. -/
theorem storeBytes_frame {va : Nat} {bytes : List Byte} {a : Opnds} {s v : State} (h : storeBytes va bytes a s = .ok v) :
    ∃ u ps, s.passes [⟨va, bytes.length, true⟩] u ps ∧ ∀ p, ps = [p] →
      (∀ q ∈ p.ps, ((u.storeIrrev p).viewer u.cur).plain q) →
      (∀ k, inPieces p.ps k = false → cellGet v.store.mem k = cellGet u.store.mem k) ∧ u.sameHardware v := by
  obtain ⟨u, ps, hpass, hk⟩ := admitThen_ok h
  refine ⟨u, ps, hpass, ?_⟩
  rintro p rfl hplain
  rw [writeSpan_ok hk]
  refine ⟨fun k hk => ?_, (u.storeIrrev_sameHardware p).trans ?_⟩
  · exact (writePieces_plain_frame u.cur _ p.ps _ bytes hplain hk).trans (by rw [u.storeIrrev_store p])
  · exact (writePieces_plain_sameHardware u.cur _ p.ps _ bytes hplain).trans ⟨_, _, rfl⟩

/-- A context shows a program the same as itself. -/
theorem Ctx.sameRegs.refl (c : Ctx) : c.sameRegs c := by
  simp [Ctx.sameRegs]

/-- The frame of a completed trigger whose operation stores some bytes of its operands at its `o` operand. -/
theorem store_trigger_frame {d : Nat} {us : Uses} {bytes : Opnds → List Byte} {a : Src} {g : Guard} {s t : State}
    (h : trigger .ls d us (fun x => storeBytes x.o.word.toNat (bytes x) x) a g s = .next t) (hd : t.last = .done) :
    s.me.guard g = false ∧ t = s.retired ∨
      ∃ u ps, s.passes [⟨(s.operands .ls us a).o.word.toNat, (bytes (s.operands .ls us a)).length, true⟩] u ps ∧
        ∀ p, ps = [p] →
          (∀ q ∈ p.ps, q.key % 32 + q.n ≤ 32 ∧ ((u.storeIrrev p).viewer u.cur).versioned q.page = false ∧
            ∀ e r m, q.page ≠ .remote e r m) →
          (∀ k, inPieces p.ps k = false → cellGet t.store.mem k = cellGet u.store.mem k) ∧
          (∀ x, (t.ctx x).sameRegs (u.ctx x)) ∧ t.counters = u.counters ∧ t.regs = u.regs := by
  obtain hguard | ⟨-, v, hbody, rfl⟩ := trigger_done h hd
  · exact .inl hguard
  · obtain ⟨u, ps, hpass, hframe⟩ := storeBytes_frame hbody
    refine .inr ⟨u, ps, hpass, fun p hp hplain => ?_⟩
    obtain ⟨hmem, same⟩ := hframe p hp hplain
    exact ⟨hmem, fun x => State.ctx_congr (t := v) same.cores x ▸ .refl _, same.counters, same.regs⟩

/-- Settles O25: a completed store has written its pieces alone. -/
theorem storesChangeOnlyTheirBytes : Obligations.StoresChangeOnlyTheirBytes := by
  unfold Obligations.StoresChangeOnlyTheirBytes
  intro i d us n hi a g s t h hd
  simp only [List.mem_cons, List.not_mem_nil, or_false, Prod.mk.injEq] at hi
  obtain ⟨rfl, rfl, rfl, rfl⟩ | ⟨rfl, rfl, rfl, rfl⟩ | ⟨rfl, rfl, rfl, rfl⟩ | ⟨rfl, rfl, rfl, rfl⟩ | ⟨rfl, rfl, rfl, rfl⟩ := hi
  · simpa only [leBytes_length] using store_trigger_frame (bytes := fun x => leBytes 1 x.t.word.toNat) h hd
  · simpa only [leBytes_length] using store_trigger_frame (bytes := fun x => leBytes 2 x.t.word.toNat) h hd
  · simpa only [leBytes_length] using store_trigger_frame (bytes := fun x => leBytes 4 x.t.word.toNat) h hd
  · simpa only [leBytes_length] using store_trigger_frame (bytes := fun x => leBytes 8 x.t.word.toNat) h hd
  · simpa only [leBytes_length, List.length_append] using
      store_trigger_frame (bytes := fun x => leBytes 8 x.t.word.toNat ++ leBytes 8 x.p.word.toNat) h hd

/-! ### What goes to other devices (R111, R392) -/

/-- Two states that differ alone in the fabric's queues and in the partitions due to be reset. -/
def State.sameButFabric (s t : State) : Prop := ∃ f ds, t = { s with fabric := f, resetDue := ds }

theorem State.sameButFabric.refl (s : State) : s.sameButFabric s := ⟨s.fabric, s.resetDue, rfl⟩

theorem State.sameButFabric.trans {s t u : State} (h : s.sameButFabric t) (h' : t.sameButFabric u) : s.sameButFabric u := by
  obtain ⟨f, ds, rfl⟩ := h
  obtain ⟨f', ds', rfl⟩ := h'
  exact ⟨f', ds', rfl⟩

theorem State.sameButFabric.store {s t : State} (h : s.sameButFabric t) : t.store = s.store := by
  obtain ⟨f, ds, rfl⟩ := h
  rfl

theorem State.sameButFabric.launches {s t : State} (h : s.sameButFabric t) : t.launches = s.launches := by
  obtain ⟨f, ds, rfl⟩ := h
  rfl

theorem State.sameButFabric.counters {s t : State} (h : s.sameButFabric t) : t.counters = s.counters := by
  obtain ⟨f, ds, rfl⟩ := h
  rfl

theorem State.resetSoon_sameButFabric (s : State) (core : Nat) : s.sameButFabric (s.resetSoon core) := by
  rw [State.resetSoon]
  split
  · exact ⟨s.fabric, _, rfl⟩
  · exact .refl s

theorem State.sendFor_sameButFabric (s : State) (core ctx : Nat) (cmd : Option Nat) (fk dev sid addr : Nat) (data : List Byte)
    (mask stamp : Nat) : s.sameButFabric (s.sendFor core ctx cmd fk dev sid addr data mask stamp) := by
  rw [State.sendFor]
  dsimp only
  split
  · exact s.resetSoon_sameButFabric core
  · exact ⟨_, s.resetDue, rfl⟩

/-- Operations in turn that reach the fabric alone reach it alone together. -/
theorem State.foldl_sameButFabric {α : Type} (f : State → α → State) (h : ∀ (s : State) a, s.sameButFabric (f s a)) (l : List α) (s : State) :
    s.sameButFabric (l.foldl f s) :=
  List.foldlRecOn (motive := fun t => s.sameButFabric t) l f (.refl s) fun t ht a _ => ht.trans (h t a)

theorem State.askPiece_sameButFabric (s : State) (x : CtxRef) (v : Viewer) (at_ : Nat) (p : Piece) :
    s.sameButFabric (s.askPiece x v at_ p).1 := by
  rw [State.askPiece]
  split
  · exact .trans ⟨_, s.resetDue, rfl⟩ (State.sendFor_sameButFabric ..)
  · exact .refl s

theorem State.askPieces_sameButFabric (s : State) (x : CtxRef) (v : Viewer) (ps : List Piece) :
    s.sameButFabric (s.askPieces x v ps).1 :=
  List.foldlRecOn (motive := fun a : State × List (Option Byte) × List Want => s.sameButFabric a.1) ps _ (.refl s) fun a ha p _ =>
    ha.trans (a.1.askPiece_sameButFabric x v _ p)

theorem State.awaitFor_sameButFabric (s : State) (x : CtxRef) (ps : List Piece) (conv : Conv) (tag : Tag) (taint : Bool) :
    s.sameButFabric (s.awaitFor x ps conv tag taint).1 := by
  rw [State.awaitFor]
  split
  · exact s.askPieces_sameButFabric ..
  · exact .refl s

/-! ### A load's result on its way leaves the store (R77, R382) -/

@[simp] theorem State.event_store (s : State) (x : CtxRef) (ev n : Nat) : (s.event x ev n).store = s.store := by
  rw [State.event]
  dsimp only
  split_ifs <;> rfl

@[simp] theorem State.takeLate_store (s : State) : s.takeLate.1.store = s.store := by
  rw [State.takeLate]
  split <;> rfl

/-- A load's result put on its way leaves memory and its lines as they are. -/
@[simp] theorem State.landLoad_store (s : State) (q : Port) (lat : Nat) (conv : Conv) (bytes : List Byte) (tag : Tag) (taint : Bool)
    (causes : List Nat) (ps : List Piece) : (s.landLoad q lat conv bytes tag taint causes ps).store = s.store := by
  rw [State.landLoad]
  split
  · rfl
  · rw [State.updCtx, State.setCtx_store, (State.awaitFor_sameButFabric ..).store]
    split
    · rw [State.event_store, State.takeLate_store]
    · exact State.takeLate_store s

/-! ### Lines copied, filled and emptied (R44, R87, R173) -/

/-- Sector `i` of a line copied over that of another, as Store.copyLine copies each. -/
def Store.copySector (st : Store) (src dst : Nat) (taint : Bool) (i : Nat) : Store :=
  st.setSector (dst * 4 + i) ((st.sector (src * 4 + i)).1, (st.sector (src * 4 + i)).2 || taint)

/-- The first `n` sectors of a line copied over those of another. -/
def Store.copySectors (st : Store) (src dst : Nat) (taint : Bool) (n : Nat) : Store :=
  (List.range n).foldl (fun st i => st.copySector src dst taint i) st

theorem Store.copyLine_eq (st : Store) (src dst : Nat) (taint : Bool) : st.copyLine src dst taint = st.copySectors src dst taint 4 :=
  rfl

theorem Store.copySectors_succ (st : Store) (src dst : Nat) (taint : Bool) (n : Nat) :
    st.copySectors src dst taint (n + 1) = (st.copySectors src dst taint n).copySector src dst taint n := by
  simp [Store.copySectors, List.range_succ]

theorem Store.copySector_wf (st : Store) (src dst : Nat) (taint : Bool) (i : Nat) (h : Memory.wf st.mem = true) :
    Memory.wf (st.copySector src dst taint i).mem = true := Store.setSector_wf _ _ _ h

theorem Store.copySectors_wf (st : Store) (src dst : Nat) (taint : Bool) (n : Nat) (h : Memory.wf st.mem = true) :
    Memory.wf (st.copySectors src dst taint n).mem = true :=
  foldl_wf _ (fun st i h => st.copySector_wf src dst taint i h) _ st h

/-- A byte of a range that has been read stands at its place in it. -/
theorem getD_cellsRead (m : List Host.Cell) (a n i : Nat) (hi : i < n) : (cellsRead m a n).getD i 0#8 = cellGet m (a + i) := by
  simp [cellsRead, List.getD_eq_getElem?_getD, List.getElem?_range hi]

theorem Store.cellGet_copySector (st : Store) (src dst : Nat) (taint : Bool) (i : Nat) (h : Memory.wf st.mem = true) (k : Nat) :
    cellGet (st.copySector src dst taint i).mem k =
      if 32 * (dst * 4 + i) ≤ k ∧ k < 32 * (dst * 4 + i) + 32 then
        cellGet st.mem (32 * (src * 4 + i) + (k - 32 * (dst * 4 + i)))
      else cellGet st.mem k := by
  rw [Store.copySector, Store.setSector, Store.sector]
  dsimp only
  rw [cellGet_cellsWrite _ _ _ _ h, cellsRead_length]
  exact ite_congr rfl (fun hk => getD_cellsRead _ _ _ _ (by omega)) fun _ => rfl

/-- What memory holds after the first `n` sectors of a line have been copied to another: those of the source as it was, and
every other byte as it was. A line copied to itself is one of the cases. -/
theorem Store.cellGet_copySectors (st : Store) (src dst : Nat) (taint : Bool) (h : Memory.wf st.mem = true) (n : Nat) (hn : n ≤ 4) :
    ∀ k, cellGet (st.copySectors src dst taint n).mem k =
      if dst * 128 ≤ k ∧ k < dst * 128 + 32 * n then cellGet st.mem (src * 128 + (k - dst * 128)) else cellGet st.mem k := by
  induction n with
  | zero => exact fun k => (if_neg (by omega)).symm
  | succ n ih =>
    intro k
    have before := ih (by omega)
    rw [Store.copySectors_succ, Store.cellGet_copySector _ _ _ _ _ (st.copySectors_wf src dst taint n h), before k]
    by_cases hk : 32 * (dst * 4 + n) ≤ k ∧ k < 32 * (dst * 4 + n) + 32
    · have untouched : 32 * (src * 4 + n) + (k - 32 * (dst * 4 + n)) = src * 128 + (k - dst * 128) := by omega
      have source : cellGet (st.copySectors src dst taint n).mem (src * 128 + (k - dst * 128)) =
          cellGet st.mem (src * 128 + (k - dst * 128)) := by
        rw [before, if_neg (by omega)]
      rw [if_pos hk, if_pos (by omega), untouched, source]
    · rw [if_neg hk]
      exact if_congr (by omega) rfl rfl

/-- A line copied: its bytes stand in the other line, and no other byte has changed (R173). -/
theorem Store.cellGet_copyLine (st : Store) (src dst : Nat) (taint : Bool) (h : Memory.wf st.mem = true) (k : Nat) :
    cellGet (st.copyLine src dst taint).mem k =
      if lineOf k = dst then cellGet st.mem (src * 128 + (k - dst * 128)) else cellGet st.mem k := by
  rw [Store.copyLine_eq, st.cellGet_copySectors src dst taint h 4 le_rfl k]
  exact if_congr (by rw [lineOf]; omega) rfl rfl

theorem Store.cellGet_copyLine_at (st : Store) (src dst : Nat) (taint : Bool) (h : Memory.wf st.mem = true) {k : Nat} (hk : k < 128) :
    cellGet (st.copyLine src dst taint).mem (dst * 128 + k) = cellGet st.mem (src * 128 + k) := by
  rw [st.cellGet_copyLine src dst taint h, if_pos (by rw [lineOf]; omega), Nat.add_sub_cancel_left]

theorem Store.full?_setEmpty (st : Store) (line : Nat) : (st.setEmpty line).full? line = none := by
  simp [Store.full?, Store.setEmpty]

theorem Store.full?_setFull (st : Store) (f : FeLine) : (st.setFull f).full? f.line = some f := by
  simp [Store.full?, Store.setFull]

/-- Recording a consumption leaves memory. -/
@[simp] theorem State.consume_mem (s : State) (x : CtxRef) (f : FeLine) : (s.consume x f).store.mem = s.store.mem := by
  rw [State.consume]
  split <;> rfl

/-! ### Full/empty transfers (R173) -/

/-- An operation whose one access has passed its checks goes on from the state that they leave. -/
theorem admitOne_passesOne {s u : State} {l : List Span} {ps : List SpanP} {k : State → List SpanP → MoveR}
    (h : s.passesOne l u ps) : admitOne s l k = k u ps := by
  rw [admitOne, h]

section
variable {a : Opnds} {s u : State} {pf pd : Piece} {lf ld : List Piece} {rf rd : Span}

/-- A transfer out of a line that is not full, or whose turn has not come, waits. -/
theorem ldFeOp_waits (hfault : feFault a.t.word.toNat a.o.word.toNat = none)
    (hpass : s.passesOne [⟨a.t.word.toNat, 128, false⟩, ⟨a.o.word.toNat, 128, true⟩] u [⟨rf, pf :: lf⟩, ⟨rd, pd :: ld⟩])
    (hturn : u.feTurn u.cur (lineOf pf.key) true = false) : ldFeOp a s = .block (.fe (lineOf pf.key) true) := by
  simp only [ldFeOp, hfault, admitOne_passesOne hpass, List.map_cons, List.map_nil, hturn, Bool.not_false, if_true]

/-- A transfer out of a line that a later producer has filled is CHANNEL_FUTURE (R121). -/
theorem ldFeOp_future (hfault : feFault a.t.word.toNat a.o.word.toNat = none)
    (hpass : s.passesOne [⟨a.t.word.toNat, 128, false⟩, ⟨a.o.word.toNat, 128, true⟩] u [⟨rf, pf :: lf⟩, ⟨rd, pd :: ld⟩])
    (hturn : u.feTurn u.cur (lineOf pf.key) true = true) {r : FeLine} (hfull : u.store.full? (lineOf pf.key) = some r)
    (hord : u.me.ord = true) (hlate : u.me.stamp.toNat < r.stamp) : ldFeOp a s = .trap 0x24 5 0 := by
  simp only [ldFeOp, hfault, admitOne_passesOne hpass, List.map_cons, List.map_nil, hturn, Bool.not_true, Bool.false_eq_true, if_false,
    hfull, hord, hlate, decide_true, Bool.and_self, if_true]
  rfl

/-- A transfer out of a full line copies it and empties it. -/
theorem ldFeOp_moves (hfault : feFault a.t.word.toNat a.o.word.toNat = none)
    (hpass : s.passesOne [⟨a.t.word.toNat, 128, false⟩, ⟨a.o.word.toNat, 128, true⟩] u [⟨rf, pf :: lf⟩, ⟨rd, pd :: ld⟩])
    (hturn : u.feTurn u.cur (lineOf pf.key) true = true) {r : FeLine} (hfull : u.store.full? (lineOf pf.key) = some r)
    (hearly : u.me.ord = false ∨ r.stamp ≤ u.me.stamp.toNat) :
    ∃ t, ldFeOp a s = .ok t ∧ t.store =
      ((u.consume u.cur r).store.copyLine (lineOf pf.key) (lineOf pd.key) u.me.ctaint).setEmpty (lineOf pf.key) := by
  have intime : (u.me.ord && decide (u.me.stamp.toNat < r.stamp)) = false := by
    rcases hearly with h | h <;> simp [h]
  simp only [ldFeOp, hfault, admitOne_passesOne hpass, List.map_cons, List.map_nil, hturn, Bool.not_true, Bool.false_eq_true, if_false,
    hfull, intime]
  exact ⟨_, rfl, State.landLoad_store ..⟩

/-- A transfer into a line that is not empty, or whose turn has not come, waits. -/
theorem stFeOp_waits (hfault : feFault a.o.word.toNat a.t.word.toNat = none)
    (hpass : s.passesOne [⟨a.o.word.toNat, 128, true⟩, ⟨a.t.word.toNat, 128, false⟩] u [⟨rf, pf :: lf⟩, ⟨rd, pd :: ld⟩])
    (hturn : u.feTurn u.cur (lineOf pf.key) false = false) : stFeOp a s = .block (.fe (lineOf pf.key) false) := by
  simp only [stFeOp, hfault, admitOne_passesOne hpass, List.map_cons, List.map_nil, hturn, Bool.not_false, if_true]

/-- A transfer into an empty line copies the other line to it and sets it full with the producer's stamp. -/
theorem stFeOp_moves (hfault : feFault a.o.word.toNat a.t.word.toNat = none)
    (hpass : s.passesOne [⟨a.o.word.toNat, 128, true⟩, ⟨a.t.word.toNat, 128, false⟩] u [⟨rf, pf :: lf⟩, ⟨rd, pd :: ld⟩])
    (hturn : u.feTurn u.cur (lineOf pf.key) false = true) :
    ∃ t r, stFeOp a s = .ok t ∧ r.line = lineOf pf.key ∧ r.stamp = u.me.stamp.toNat ∧
      t.store = (u.store.copyLine (lineOf pd.key) (lineOf pf.key) u.me.ctaint).setFull r := by
  simp only [stFeOp, hfault, admitOne_passesOne hpass, List.map_cons, List.map_nil, hturn, Bool.not_true, Bool.false_eq_true, if_false]
  exact ⟨_, _, rfl, rfl, rfl, State.irrev_store ..⟩

end

/-- Settles O26: both transfers copy one line over another, and the state of the channel line decides whether they go on. -/
theorem fullEmptyTransfers : Obligations.FullEmptyTransfers := by
  unfold Obligations.FullEmptyTransfers
  refine ⟨?load, ?store⟩
  case load =>
    intro a g s u pf pd lf ld rf rd hfires x hfault hsound hpass
    have run : exec (.lsLdFe a g) s = finish s (slotOf a 0x10E g) (ldFeOp x s) := trigger_fires hfires
    refine ⟨fun hturn r hfull => ⟨fun hearly => ?_, fun hord hlate => ?_⟩, fun hturn => ?_⟩
    · obtain ⟨t, hop, hst⟩ := ldFeOp_moves hfault hpass hturn hfull hearly
      have hwf : Memory.wf (u.consume u.cur r).store.mem = true := by rw [State.consume_mem]; exact hsound
      refine ⟨t.retired, by rw [run, hop, finish_ok], rfl, ?_, fun k hk => ?_, fun k hk => ?_⟩
      · rw [State.retired_store, hst, Store.full?_setEmpty]
      · rw [State.retired_store, hst, Store.setEmpty, Store.cellGet_copyLine_at _ _ _ _ hwf hk, State.consume_mem]
      · rw [State.retired_store, hst, Store.setEmpty, Store.cellGet_copyLine _ _ _ _ hwf, if_neg hk, State.consume_mem]
    · rw [run, ldFeOp_future hfault hpass hturn hfull hord hlate]
    · rw [run, ldFeOp_waits hfault hpass hturn]
  case store =>
    intro a g s u pf pd lf ld rf rd hfires x hfault hsound hpass
    have run : exec (.lsStFe a g) s = finish s (slotOf a 0x10F g) (stFeOp x s) := trigger_fires hfires
    refine ⟨fun hturn => ?_, fun hturn => ?_⟩
    · obtain ⟨t, r, hop, hline, hstamp, hst⟩ := stFeOp_moves hfault hpass hturn
      refine ⟨t.retired, r, by rw [run, hop, finish_ok], rfl, ?_, hstamp, fun k hk => ?_, fun k hk => ?_⟩
      · rw [State.retired_store, hst, ← hline, Store.full?_setFull]
      · rw [State.retired_store, hst, Store.setFull_mem, Store.cellGet_copyLine_at _ _ _ _ hsound hk]
      · rw [State.retired_store, hst, Store.setFull_mem, Store.cellGet_copyLine _ _ _ _ hsound, if_neg hk]
    · rw [run, stFeOp_waits hfault hpass hturn]

/-! ### Launches and reactions after a change (R22, R49) -/

theorem State.launch?_lid {s : State} {lid : Nat} {l : Launch} (h : s.launch? lid = some l) : l.lid = lid := by
  simpa using List.find?_some h

theorem Launch.react?_stamp {l : Launch} {stamp : Nat} {r : Reaction} (h : l.react? stamp = some r) : r.stamp = stamp := by
  simpa using List.find?_some h

theorem State.react?_stamp {s : State} {id : ReactId} {r : Reaction} (h : s.react? id = some r) : r.stamp = id.stamp := by
  obtain ⟨l, -, hr⟩ := Option.bind_eq_some_iff.mp h
  exact Launch.react?_stamp hr

theorem State.launch?_congr {s t : State} (h : t.launches = s.launches) (lid : Nat) : t.launch? lid = s.launch? lid := by
  rw [State.launch?, State.launch?, h]

theorem State.react?_congr {s t : State} (h : t.launches = s.launches) (id : ReactId) : t.react? id = s.react? id := by
  rw [State.react?, State.react?, State.launch?_congr h]

/-- A launch found after it has been changed, by a change that keeps its number. -/
theorem State.launch?_updLaunch (s : State) (lid : Nat) (f : Launch → Launch) (hf : ∀ l, (f l).lid = l.lid := by intro l; rfl) :
    (s.updLaunch lid f).launch? lid = (s.launch? lid).map f := by
  have samePred : (fun l => decide (Launch.lid l = lid)) ∘ (fun l => if l.lid = lid then f l else l) =
      fun l => decide (Launch.lid l = lid) := by
    funext l
    by_cases h : l.lid = lid <;> simp [h, hf]
  rw [State.launch?, State.launch?, State.updLaunch, List.find?_map, samePred]
  refine Option.map_congr fun l hl => if_pos ?_
  simpa using List.find?_some hl

/-- A reaction found after it has been changed, by a change that keeps its stamp. -/
theorem State.react?_updReact (s : State) (id : ReactId) (f : Reaction → Reaction)
    (hf : ∀ r, (f r).stamp = r.stamp := by intro r; rfl) : (s.updReact id f).react? id = (s.react? id).map f := by
  have samePred : (fun r => decide (Reaction.stamp r = id.stamp)) ∘ (fun r => if r.stamp = id.stamp then f r else r) =
      fun r => decide (Reaction.stamp r = id.stamp) := by
    funext r
    by_cases h : r.stamp = id.stamp <;> simp [h, hf]
  have found : (s.updReact id f).launch? id.lid = _ := State.launch?_updLaunch s id.lid _
  rw [State.react?, State.react?, found]
  cases s.launch? id.lid with
  | none => rfl
  | some l =>
    simp only [Option.map_some, Option.bind_some, Launch.react?, List.find?_map, samePred]
    refine Option.map_congr fun r hr => if_pos ?_
    simpa using List.find?_some hr

/-- A reaction found after a change to its launch that leaves the launch's reactions. -/
theorem State.react?_updLaunch (s : State) (id : ReactId) (f : Launch → Launch) (hf : ∀ l, (f l).lid = l.lid := by intro l; rfl)
    (hr : ∀ l, (f l).reacts = l.reacts := by intro l; rfl) : (s.updLaunch id.lid f).react? id = s.react? id := by
  rw [State.react?, State.react?, State.launch?_updLaunch s id.lid f hf]
  cases s.launch? id.lid with
  | none => rfl
  | some l => simp only [Option.map_some, Option.bind_some, Launch.react?, hr]

/-! ### Ticket counters (R233, R240) -/

theorem State.ticketsOf_eq (s : State) (d p : Nat) : s.ticketsOf d p =
    ((s.tickets.find? fun t => decide (t.1 = d) && decide (t.2.1 = p)).map fun t => t.2.2).getD [] := by
  rw [State.ticketsOf]
  cases s.tickets.find? fun t => decide (t.1 = d) && decide (t.2.1 = p) <;> rfl

/-- The tickets of a counter that has been set. -/
theorem State.ticketsOf_setTickets_same (s : State) (d p : Nat) (l : List ReactId) : (s.setTickets d p l).ticketsOf d p = l := by
  have gone : ((s.tickets.filter fun t => !(decide (t.1 = d) && decide (t.2.1 = p))).find? fun t =>
      decide (t.1 = d) && decide (t.2.1 = p)) = none := by
    rw [List.find?_eq_none]
    intro t ht
    simpa only [Bool.not_eq_true', Bool.not_eq_true] using (List.mem_filter.mp ht).2
  rw [State.ticketsOf_eq, State.setTickets, List.find?_append, gone]
  simp

/-- The tickets of the counters beside one that has been set. -/
theorem State.ticketsOf_setTickets_other (s : State) {d p d' p' : Nat} (l : List ReactId) (h : ¬(d = d' ∧ p = p')) :
    (s.setTickets d p l).ticketsOf d' p' = s.ticketsOf d' p' := by
  have kept : ∀ t : Nat × Nat × List ReactId, decide ((!(decide (t.1 = d) && decide (t.2.1 = p))) = true ∧
      (decide (t.1 = d') && decide (t.2.1 = p')) = true) = (decide (t.1 = d') && decide (t.2.1 = p')) := by
    intro t
    by_cases h1 : t.1 = d' <;> by_cases h2 : t.2.1 = p' <;> simp [h1, h2]
    by_contra hne
    exact h (by omega)
  have unset : ([(d, p, l)] : List (Nat × Nat × List ReactId)).find? (fun t => decide (t.1 = d') && decide (t.2.1 = p')) = none := by
    simpa using h
  rw [State.ticketsOf_eq, State.ticketsOf_eq, State.setTickets, List.find?_append, List.find?_filter, funext kept, unset, Option.or_none]

/-- The tickets of a counter after a reaction's ticket has been taken out of all. -/
theorem State.ticketsOf_dropTicket (s : State) (r : ReactId) (d p : Nat) :
    (s.dropTicket r).ticketsOf d p = (s.ticketsOf d p).filter fun q => q != r := by
  rw [State.ticketsOf_eq, State.ticketsOf_eq, State.dropTicket, List.find?_map]
  change (Option.map _ (Option.map _ (s.tickets.find? fun t => decide (t.1 = d) && decide (t.2.1 = p)))).getD [] = _
  cases s.tickets.find? fun (t : Nat × Nat × List ReactId) => decide (t.1 = d) && decide (t.2.1 = p) <;> rfl

/-- A reaction's ticket put at the tail of its counter, as INSTANT_ENQUEUE does. -/
def State.joinTickets (s : State) (lid : Nat) (r : Reaction) : State :=
  s.setTickets r.die r.prio (s.ticketsOf r.die r.prio ++ [⟨lid, r.stamp⟩])

theorem State.ticketsOf_joinTickets (s : State) (lid : Nat) (r : Reaction) (d p : Nat) :
    (s.joinTickets lid r).ticketsOf d p = s.ticketsOf d p ++ if r.die = d ∧ r.prio = p then [⟨lid, r.stamp⟩] else [] := by
  rw [State.joinTickets]
  split_ifs with h
  · obtain ⟨rfl, rfl⟩ := h
    rw [State.ticketsOf_setTickets_same]
  · rw [State.ticketsOf_setTickets_other _ _ h, List.append_nil]

/-- The tickets of a counter after reactions have joined theirs in turn: those of the counter, in order, at its tail. -/
theorem State.ticketsOf_foldl_joinTickets (lid d p : Nat) (rs : List Reaction) :
    ∀ s : State, (rs.foldl (fun s r => s.joinTickets lid r) s).ticketsOf d p =
      s.ticketsOf d p ++ (rs.filter fun r => decide (r.die = d ∧ r.prio = p)).map fun r => ⟨lid, r.stamp⟩ := by
  induction rs with
  | nil => intro s; simp
  | cons r rs ih =>
    intro s
    rw [List.foldl_cons, ih, State.ticketsOf_joinTickets, List.filter_cons, List.append_assoc]
    split_ifs with h <;> simp_all

theorem State.foldl_joinTickets_launches (lid : Nat) (rs : List Reaction) (s : State) :
    (rs.foldl (fun s r => s.joinTickets lid r) s).launches = s.launches :=
  List.foldlRecOn (motive := fun t : State => t.launches = s.launches) rs _ rfl fun _ ht _ _ => ht

/-! ### A reaction queued again (R49, R234, R240) -/

section
variable {s : State} {id : ReactId} {r : Reaction}

/-- A reaction queued again stands once in its counter, at its head. -/
theorem State.ticketsOf_requeue (h : s.react? id = some r) :
    (s.requeue id).ticketsOf r.die r.prio = id :: (s.ticketsOf r.die r.prio).filter fun q => q != id := by
  rw [State.requeue, h]
  dsimp only
  rw [State.ticketsOf_setTickets_same, State.ticketsOf_dropTicket]
  rfl

/-- A reaction queued again keeps its stamp and the tokens it holds. -/
theorem State.react?_requeue (h : s.react? id = some r) : ∃ q, (s.requeue id).react? id = some q ∧ q.st = .queued ∧
    q.places = [] ∧ q.tok = r.tokens s.timebase.toNat ∧ q.since = s.timebase.toNat ∧ q.stamp = r.stamp := by
  rw [State.requeue, h]
  dsimp only
  refine ⟨_, (State.react?_congr rfl id).trans ((State.react?_updReact s id _).trans (by rw [h, Option.map_some])), ?_⟩
  exact ⟨rfl, rfl, rfl, rfl, rfl⟩

end

/-! ### Instants enqueued (R25, R233) -/

/-- Every reaction that an instant brings is of a sub-program whose phase the instant has (R25). -/
theorem Launch.present_phase {l : Launch} {i e w : Nat} {k : List Nat} (h : (e, k, w) ∈ l.present i) :
    ∃ q, l.entries[e]? = some q ∧ i % q.period = q.phase := by
  rw [Launch.present] at h
  obtain ⟨⟨q, n⟩, hq, hmem⟩ := List.mem_flatMap.mp h
  have hentry : l.entries[n]? = some q := by simpa using List.mem_zipIdx_iff_getElem?.mp hq
  dsimp only at hmem
  split at hmem
  · cases hmem
  · next hphase =>
    have hn : e = n := by
      split at hmem
      · split at hmem
        · simp only [List.mem_singleton, Prod.mk.injEq] at hmem
          exact hmem.1
        · cases hmem
      · obtain ⟨v, -, hv⟩ := List.mem_map.mp hmem
        exact (congrArg Prod.fst hv).symm
    exact ⟨q, hn ▸ hentry, not_not.mp hphase⟩

/-- The instants of an ordered launch are cleared, never closed (R43). -/
theorem State.closeInstant_ordered {s : State} {lid : Nat} {l : Launch} (h : s.launch? lid = some l)
    (hopen : l.record.open_ = false) : s.closeInstant lid = s := by
  simp [State.closeInstant, h, hopen]

/-- The reactions of the next instant of a launch, as they are enqueued. -/
def State.nextReacts (s : State) (l : Launch) : List Reaction :=
  (l.present l.nextInst).zipIdx.map fun p => l.newReaction l.nextInst s.timebase.toNat p.2 p.1

theorem State.nextReacts_queued {s : State} {l : Launch} {r : Reaction} (h : r ∈ s.nextReacts l) :
    r.st = .queued ∧ r.inst = l.nextInst := by
  obtain ⟨p, -, rfl⟩ := List.mem_map.mp h
  exact ⟨rfl, rfl⟩

/-- An ordered launch's instant that may be enqueued joins the launch and the ticket counters. -/
theorem State.instantEnqueue_joins {s : State} {lid : Nat} {l : Launch} (h : s.launch? lid = some l) (hmay : l.mayEnqueue = true)
    (hopen : l.record.open_ = false) :
    let l' := { l with reacts := l.reacts ++ s.nextReacts l, nextInst := l.nextInst + 1 }
    (s.instantEnqueue lid).launch? lid = some l' ∧
      ∀ d p, (s.instantEnqueue lid).ticketsOf d p = s.ticketsOf d p ++
        ((s.nextReacts l).filter fun r => decide (r.die = d ∧ r.prio = p)).map fun r => ⟨lid, r.stamp⟩ := by
  intro l'
  let t := (s.nextReacts l).foldl (fun s r => s.joinTickets lid r)
    (s.updLaunch lid fun q => { q with reacts := q.reacts ++ s.nextReacts l, nextInst := q.nextInst + 1 })
  have found : t.launch? lid = some l' := by
    refine (State.launch?_congr (State.foldl_joinTickets_launches ..) lid).trans ((State.launch?_updLaunch s lid _).trans ?_)
    rw [h]
    rfl
  have run : s.instantEnqueue lid = t := by
    rw [State.instantEnqueue, h]
    simp only [hmay, Bool.not_true, Bool.false_eq_true, if_false]
    exact State.closeInstant_ordered (s := t) found hopen
  rw [run]
  exact ⟨found, fun d p => State.ticketsOf_foldl_joinTickets lid d p _ _⟩

theorem Launch.mayEnqueue_of_ordered {l : Launch} (hrun : l.phase = .running) (hab : l.aborting = false)
    (hn : l.nextInst < l.record.ninst) (hopen : l.record.open_ = false) (h4 : l.nextInst < l.cleared + 4) : l.mayEnqueue = true := by
  simp [Launch.mayEnqueue, hrun, hab, hn, hopen, h4]

theorem State.instantEnqueue_spent {s : State} {lid : Nat} {l : Launch} (h : s.launch? lid = some l)
    (hn : l.record.ninst ≤ l.nextInst) : s.instantEnqueue lid = s := by
  have hmay : l.mayEnqueue = false := by simp [Launch.mayEnqueue, Nat.not_lt.mpr hn]
  simp [State.instantEnqueue, h, hmay]

/-! ### Tickets taken (R35, R235) -/

@[simp] theorem State.start_took (s : State) (l : Launch) (r : Reaction) (ps : List (CtxRef × Nat)) : (s.start l r ps).took = s.took := by
  rw [State.start, State.updReact_took]
  refine List.foldlRecOn (motive := fun t : State => t.took = s.took) ps _ rfl fun t ht p _ => ?_
  dsimp only
  split
  · exact ht
  · exact ht

/-- A context in which a reaction's one member has started stands in its entry state. -/
theorem State.ctx_start {s : State} {l : Launch} {r : Reaction} {x : CtxRef} {k : Nat} {e : Entry} (h : l.entries[k]? = some e) :
    ∃ c alloc, (s.start l r [(x, k)]).ctx x = startCtx c l r e k alloc := by
  rw [State.start]
  simp only [List.foldl_cons, List.foldl_nil, h]
  rw [State.ctx_congr (State.updReact_cores ..)]
  generalize ((s.takeTicket _).ctrDrop _).dropOld _ = t
  generalize allocOf e _ _ = alloc
  have placed := State.ctx_updCtx t x fun c => startCtx c l r e k alloc
  exact ⟨t.ctx x, alloc, placed ▸ State.ctx_congr rfl x⟩

/-- A core's own die comes first among those whose heads it considers (R235). -/
theorem dies_from (n : Nat) (hn : n < 512) :
    ∃ ds, ((List.range 8).map fun i => (dieOf n + i) % 8) = dieOf n :: ds := by
  have hd : (dieOf n + 0) % 8 = dieOf n := by rw [dieOf, if_pos hn]; omega
  exact ⟨_, by rw [List.range_succ_eq_map, List.map_cons, hd]⟩

/-- A core, of whatever kind, has its turn at the tickets. -/
theorem exec_ticketTake {n : Nat} (hn : n < 529) (s : State) : exec (.ticketTake n) s = .next (s.ticketTake n) :=
  event_ok (decide_eq_true hn) _

section
variable {s : State} {n : Nat} {l : Launch} {r : Reaction}

/-- A head whose thresholds are met starts in the places that a core has for it. -/
theorem State.consider_starts {ps : List (CtxRef × Nat)} {k : Nat} (hopen : s.coreOpen l n = true) (hab : l.aborting = false)
    (hfree : s.freeCtx n ⟨l.lid, r.stamp⟩ = some k) (hthr : s.thresholds l r n = .met) (hheld : l.heldBack r n = false)
    (hps : s.placesFor l r n = some ps) (hslots : r.slots = []) : s.consider n (l, r) = some (s.start l r ps) := by
  simp [State.consider, hopen, ticketLive, hab, hfree, hthr, hheld, State.place, hslots, hps]

/-- A core takes the first head of its die if nothing is reserved on it and the head can start there. -/
theorem State.ticketTake_first {t : State} {rest : List (Launch × Reaction)} (hn : n < 512) (htook : n ∉ s.took)
    (hnew : s.newcomersOf n = []) (hheads : s.heads (dieOf n) = (l, r) :: rest) (hcon : s.consider n (l, r) = some t) :
    s.ticketTake n = { t with took := n :: t.took } := by
  obtain ⟨ds, hds⟩ := dies_from n hn
  have hfree : ¬(512 ≤ n ∨ s.took.contains n = true) := by simpa [htook] using hn
  simp only [State.ticketTake, if_neg hfree, hds, hnew, List.flatMap_cons, hheads, List.nil_append, List.cons_append,
    List.findSome?_cons, hcon]

theorem State.ticketTake_none (h : 512 ≤ n ∨ n ∈ s.took) : s.ticketTake n = s := by
  rw [State.ticketTake, if_pos (by simpa using h)]

end

/-! ### Needs (R345, R347) -/

/-- Needs that are all nothing come to nothing together. -/
theorem foldl_needAdd_none (l : List Need) (h : ∀ n ∈ l, n = .none) : l.foldl Need.add .none = .none :=
  List.foldlRecOn (motive := fun n => n = Need.none) l Need.add rfl fun n hn m hm => by rw [hn, h m hm]; rfl

/-! ### A launch checked (R230, R231) -/

@[simp] theorem State.dropDisp_launches (s : State) (lid : Nat) : (s.dropDisp lid).launches = s.launches :=
  List.foldlRecOn (motive := fun t : State => t.launches = s.launches) (List.range 8) _ rfl fun _ ht _ _ => ht

@[simp] theorem State.setupChannels_launches (s : State) (l : Launch) : (s.setupChannels l).launches = s.launches := rfl

/-- The entries of a launch as its check reads them from the bytes of its table. -/
def State.entriesRead (s : State) (l : Launch) (bs : List Byte) : List (EntryRaw × Need) :=
  (List.range (min l.record.nsub 32)).map fun i => s.readEntry l ((bs.drop (128 * i)).take 128)

/-- The field that the first pass rejects a launch for. -/
def State.shapeField (s : State) (l : Launch) (qs : List EntryRaw) : Option Nat :=
  firstField (recordShape s.devid (leNat l.raw) l.record (entriesOf qs)) (qs.map (s.entryShape l))

/-- The leases of a launch's entries as the dispatch engines of its dies walk them. -/
def State.leaseWalks (s : State) (l : Launch) (qs : List EntryRaw) : List (List (List PageR)) :=
  (diesOf l.record.diemask).map fun d => s.leaseWalk l d (entriesOf qs)

/-- The field that the second pass rejects a launch for. -/
def State.resourceField (s : State) (l : Launch) (qs : List EntryRaw) : Option Nat :=
  firstField (s.recordResource l (entriesOf qs)) (qs.zipIdx.map fun q =>
    s.entryResource l q.1 (l.record.gangOf q.2).isSome ++ if leaseFails (s.leaseWalks l qs) q.2 then [832] else [])

section
variable {s : State} {lid : Nat} {l : Launch} {bs : List Byte} {qs : List EntryRaw}

/-- A launch whose records are all at hand is judged by its shape first, then by its resources. -/
theorem State.launchCheck_judges (h : s.launch? lid = some l) (hsub : l.phase = .submitted)
    (hread : s.dispRead l l.record.entries (128 * min l.record.nsub 32) = .ok bs) (hneed : ∀ q ∈ s.entriesRead l bs, q.2 = .none)
    (hqs : qs = (s.entriesRead l bs).map Prod.fst) :
    s.launchCheck lid = (s.shapeField l qs).elim (s.launchPass2 l qs false) ((s.dropDisp lid).reject lid cLaunchShape) := by
  have nothing : (((s.entriesRead l bs).map Prod.snd).foldl Need.add .none).any = false := by
    rw [foldl_needAdd_none _ (List.forall_mem_map.mpr hneed)]
    rfl
  subst hqs
  rw [State.shapeField]
  rw [State.entriesRead] at nothing ⊢
  simp only [State.launchCheck, h, hsub, ne_eq, not_true_eq_false, if_false, hread, reduceCtorEq, decide_false, DispR.bytes, nothing,
    Bool.false_eq_true]
  split <;> simp only [*, Option.elim]

/-- The launch as an accepting check leaves it. -/
def State.accepted (s : State) (l : Launch) (qs : List EntryRaw) (q : Launch) : Launch :=
  { q with
    phase := .running, entries := entriesOf qs
    pins := ((s.leaseWalks l qs).flatMap fun w => w.flatMap fun ps => ps.flatMap PageR.read).eraseDups
    maps := s.launchMaps l (entriesOf qs) (diesOf l.record.diemask) (s.leaseWalks l qs) }

/-- The second pass of a launch whose pages have all been walked rejects it for a field or lets it run. -/
theorem State.launchPass2_judges (hneed : s.pass2Need l (entriesOf qs) (diesOf l.record.diemask) (s.leaseWalks l qs) = .none) :
    s.launchPass2 l qs false = (s.resourceField l qs).elim
      (((s.dropDisp l.lid).updLaunch l.lid (s.accepted l qs)).setupChannels l) ((s.dropDisp l.lid).reject l.lid cLaunchResource) := by
  have nothing : (s.pass2Need l (entriesOf qs) (diesOf l.record.diemask) (s.leaseWalks l qs)).any = false := by
    rw [hneed]
    rfl
  rw [State.resourceField]
  rw [State.leaseWalks] at nothing ⊢
  simp only [State.launchPass2, nothing, Bool.false_eq_true, if_false, List.append_nil]
  split
  · simp only [*, Option.elim]
  · simp only [*, Option.elim]
    rfl

/-- A launch that the second pass accepts runs with its entries and pins, and has lost nothing else. -/
theorem State.launch?_accepted (h : s.launch? lid = some l) :
    (((s.dropDisp lid).updLaunch lid (s.accepted l qs)).setupChannels l).launch? lid = some (s.accepted l qs l) := by
  refine (State.launch?_congr (State.setupChannels_launches ..) lid).trans
    ((State.launch?_updLaunch _ lid (s.accepted l qs)).trans ?_)
  rw [State.launch?_congr (s.dropDisp_launches lid), h, Option.map_some]

end

/-! ### A victim chosen and killed (R238-R240) -/

/-- At a multiple of 4,096 a die that has chosen no victim yet marks the one it finds and reserves its contexts. -/
theorem State.preemptChoice_marks {s : State} {d : Nat} {h : Launch × Reaction} {l : Launch} {r : Reaction} {a : Action}
    (htime : s.timebase.toNat % 4096 = 0) (hchose : d ∉ s.chose) (hnew : s.newcomer d = some h) (hvic : s.victim d h = some (l, r))
    (hact : s.choose l r = some a) :
    s.preemptChoice d = { s.updReact ⟨l.lid, r.stamp⟩ fun r => { r with action := some a } with
      chose := d :: s.chose
      reserved := s.reserved ++ r.places.map fun p => (p.1, ⟨h.1.lid, h.2.stamp⟩) } := by
  have hgo : ¬(s.timebase.toNat % 4096 ≠ 0 ∨ s.chose.contains d = true) := by simp [htime, hchose]
  simp only [State.preemptChoice, if_neg hgo, hnew, hvic, hact]
  rfl

theorem State.preemptChoice_none {s : State} {d : Nat} (h : s.timebase.toNat % 4096 ≠ 0 ∨ d ∈ s.chose) : s.preemptChoice d = s := by
  rw [State.preemptChoice, if_pos (by simpa using h)]

theorem State.kill_marked {s : State} {id : ReactId} {r : Reaction} (h : s.react? id = some r) (hact : r.action = some .kill)
    (hrun : r.st = .running) (hbound : s.atBoundary r = true) : s.kill id = (s.killReact id.lid r).checkEnd id.lid := by
  simp only [State.kill, h, hact, hrun, hbound, and_self, if_true]

theorem State.kill_unmarked {s : State} {id : ReactId} {r : Reaction} (h : s.react? id = some r) (hact : r.action ≠ some .kill) :
    s.kill id = s := by
  simp only [State.kill, h, hact, false_and, if_false]

/-! ### What leaves the launches as they are -/

@[simp] theorem State.seal_launches (s : State) : s.seal.launches = s.launches := by
  rw [State.seal]
  dsimp only
  split <;> rfl

@[simp] theorem State.record_launches (s : State) (r : Nat) : (s.record r).launches = s.launches := by
  rw [State.record]
  dsimp only
  split
  · exact State.seal_launches _
  · rfl

@[simp] theorem State.traceCtx_launches (s : State) (x : CtxRef) (bit kind : Nat) (taint : Bool) (payload : Nat) :
    (s.traceCtx x bit kind taint payload).launches = s.launches := by
  rw [State.traceCtx]
  split
  · exact State.record_launches ..
  · rfl

@[simp] theorem State.dropFreeze_launches (s : State) (core : Nat) : (s.dropFreeze core).launches = s.launches := by
  rw [State.dropFreeze]
  split
  · rfl
  · dsimp only
    split
    · split
      · exact State.traceCtx_launches ..
      · rfl
    · rfl

@[simp] theorem State.releaseCtx_launches (s : State) (x : CtxRef) (keep : Bool) : (s.releaseCtx x keep).launches = s.launches := by
  rw [State.releaseCtx]
  change (if _ then _ else _ : State).launches = _
  split
  · exact State.dropFreeze_launches ..
  · rfl

@[simp] theorem State.sysStore_launches (core : Nat) (ps : List Piece) :
    ∀ (s : State) (bs : List Byte), (s.sysStore core ps bs).launches = s.launches := by
  induction ps with
  | nil => exact fun _ _ => rfl
  | cons p ps ih =>
    intro s bs
    rw [State.sysStore]
    refine (ih _ _).trans ?_
    split
    · exact (State.sendFor_sameButFabric ..).launches
    · rfl

theorem State.sysWrite_launches {s t : State} {l : Launch} {die va : Nat} {bs : List Byte} (h : s.sysWrite l die va bs = some t) :
    t.launches = s.launches := by
  rw [State.sysWrite] at h
  split at h
  · split at h
    · cases h
    · cases h
      exact State.sysStore_launches ..
  · cases h

@[simp] theorem State.saveMember_launches (s : State) (l : Launch) (x : CtxRef) (entry slot : Nat) :
    (s.saveMember l x entry slot).1.launches = s.launches := by
  rw [State.saveMember]
  split
  · rfl
  · dsimp only
    rw [State.releaseCtx_launches]
    cases hw : State.sysWrite _ l l.checkDie (l.slotAddr slot) _ with
    | none => exact State.traceCtx_launches ..
    | some t => exact (State.sysWrite_launches hw).trans (State.traceCtx_launches ..)

/-! ### A checkpoint taken (R214, R240, R244) -/

/-- A context with nothing of its own under way is drained already. -/
theorem State.drain_drained {s : State} {x : CtxRef} (h : s.drained x = true) (hb : ∀ b ∈ (s.ctx x).blocks, b.filled = true) :
    s.drain x = s := by
  simp only [State.drained, Bool.and_eq_true, Bool.not_eq_true', List.any_append, Bool.or_eq_false_iff] at h
  obtain ⟨⟨⟨hcp, hmx⟩, -⟩, -⟩ := h
  have none_started : ∀ q : List Cmd, (q.any fun c => c.started && decide (c.ctx = x.ctx)) = false →
      (q.filter fun c => c.started && decide (c.ctx = x.ctx)) = [] := fun q hq =>
    List.filter_eq_nil_iff.mpr fun c hc => by simpa using List.any_eq_false.mp hq c hc
  have filled : ((s.ctx x).blocks.filter fun b => !b.filled) = [] :=
    List.filter_eq_nil_iff.mpr fun b hm => by simp [hb b hm]
  simp only [State.drain, none_started _ hcp, none_started _ hmx, List.foldl_nil, filled]

/-- The members of a reaction saved one after another. -/
def State.saveMembers (s : State) (l : Launch) (ps : List ((CtxRef × Nat) × Nat)) : State × List Saved :=
  ps.foldl (fun (a : State × List Saved) p =>
    let m := a.1.saveMember l p.1.1 p.1.2 p.2
    (m.1, a.2 ++ m.2.toList)) (s, [])

theorem State.saveMembers_launches (s : State) (l : Launch) (ps : List ((CtxRef × Nat) × Nat)) :
    (s.saveMembers l ps).1.launches = s.launches :=
  List.foldlRecOn (motive := fun a : State × List Saved => a.1.launches = s.launches) ps _ rfl fun a ha p _ =>
    (a.1.saveMember_launches l p.1.1 p.1.2 p.2).trans ha

/-- A reaction as it stands once it has been saved to slots. -/
def Reaction.checkpointed (now : Nat) (slots : List Nat) (saved : List Saved) (r : Reaction) : Reaction :=
  { r with st := .queued, since := now, places := [], action := none, slots := slots, saved := saved }

theorem State.saveReact_eq (s : State) (l : Launch) (r : Reaction) (slots : List Nat) :
    let id : ReactId := ⟨l.lid, r.stamp⟩
    let m := s.saveMembers l (r.places.zip slots)
    let t := m.1.updLaunch l.lid fun l => { l with slots := l.slots ++ slots }
    let u := ((t.updReact id (Reaction.checkpointed t.timebase.toNat slots m.2)).dropAsked l.agent).dropTicket id
    s.saveReact l r slots = u.setTickets r.die r.prio (id :: u.ticketsOf r.die r.prio) := rfl

/-- A reaction that has been saved is queued at the head of its counter, without places and with its slots. -/
theorem State.saveReact_queued {s : State} {l : Launch} {r : Reaction} (slots : List Nat)
    (h : s.react? ⟨l.lid, r.stamp⟩ = some r) :
    ∃ q, (s.saveReact l r slots).react? ⟨l.lid, r.stamp⟩ = some q ∧ q.st = .queued ∧ q.places = [] ∧ q.slots = slots ∧
      ((s.saveReact l r slots).ticketsOf r.die r.prio).head? = some ⟨l.lid, r.stamp⟩ := by
  rw [State.saveReact_eq]
  have launches := s.saveMembers_launches l (r.places.zip slots)
  generalize s.saveMembers l (r.places.zip slots) = m at launches
  generalize ht : m.1.updLaunch l.lid (fun l => { l with slots := l.slots ++ slots }) = t
  have still : t.react? ⟨l.lid, r.stamp⟩ = some r := by
    rw [← ht]
    exact (State.react?_updLaunch m.1 ⟨l.lid, r.stamp⟩ _).trans ((State.react?_congr launches _).trans h)
  have found := State.react?_updReact t ⟨l.lid, r.stamp⟩ (Reaction.checkpointed t.timebase.toNat slots m.2)
  rw [still, Option.map_some] at found
  exact ⟨_, (State.react?_congr rfl _).trans found, rfl, rfl, rfl, by rw [State.ticketsOf_setTickets_same, List.head?_cons]⟩

/-- A reaction marked for a checkpoint, at a boundary with nothing under way and with slots at hand, is saved to the lowest of
them. -/
theorem State.checkpoint_saves {s : State} {id : ReactId} {l : Launch} {r : Reaction} (hl : s.launch? id.lid = some l)
    (hr : s.react? id = some r) (hact : r.action = some .checkpoint) (hrun : r.st = .running) (hbound : s.atBoundary r = true)
    (hhand : s.inHandler r = false)
    (hdone : ∀ p ∈ r.places, s.drained p.1 = true ∧ ∀ b ∈ (s.ctx p.1).blocks, b.filled = true)
    (hroom : r.places.length ≤ (s.freeSlots l).length)
    (hneed : ∀ k ∈ (s.freeSlots l).take r.places.length, (s.slotPages l k).need = .none) :
    s.checkpoint id = s.saveReact l r ((s.freeSlots l).take r.places.length) := by
  have drained : r.places.foldl (fun s p => s.drain p.1) s = s :=
    List.foldlRecOn (motive := fun t => t = s) r.places _ rfl fun t ht p hp => by
      obtain ⟨hp, hb⟩ := hdone p hp
      rw [ht, State.drain_drained hp hb]
  have all : (r.places.all fun p => s.drained p.1) = true := List.all_eq_true.mpr fun p hp => (hdone p hp).1
  have nothing : ((((s.freeSlots l).take r.places.length).map fun k => (s.slotPages l k).need).foldl Need.add .none).any = false := by
    rw [foldl_needAdd_none _ (List.forall_mem_map.mpr hneed)]
    rfl
  have enough : ¬((s.freeSlots l).take r.places.length).length < r.places.length := by
    rw [List.length_take]
    omega
  simp only [State.checkpoint, hr, hact, hrun, hbound, hhand, drained, hl, all, enough, nothing, ne_eq, not_true_eq_false,
    Bool.not_true, Bool.false_eq_true, or_self, if_false]

/-! ### Messages to the devices of a launch (R114) -/

theorem State.tellPeers_sameButFabric (s : State) (l : Launch) (m : ClearMsg) : s.sameButFabric (s.tellPeers l m) := by
  rw [State.tellPeers]
  split
  · exact .refl s
  · exact .trans ⟨_, s.resetDue, rfl⟩ (State.foldl_sameButFabric _ (fun s p => State.sendFor_sameButFabric ..) _ _)

/-! ### An instant judged as it clears (R319-R321) -/

/-- No record is to be written, so no page of a taint log is waited for. -/
theorem State.taintNeed_nil (s : State) (l : Launch) : s.taintNeed l [] = .none :=
  List.foldlRecOn (motive := fun n => n = Need.none) (List.range 8) _ rfl fun n hn d _ => by
    simp only [List.filter_nil, List.length_nil, List.range_zero, List.foldl_nil, ite_self, hn]

theorem Need.any_none : Need.none.any = false := rfl

theorem Need.poison_none : Need.none.poison = false := rfl

theorem Launch.mayClear_of_finished {l : Launch} (hrun : l.phase = .running) (hopen : l.record.open_ = false)
    (hnext : l.cleared < l.nextInst) (hfin : ∀ r ∈ l.reacts, r.inst = l.cleared → r.st = .finished)
    (hpeers : ∀ p ∈ l.peers, l.cleared < p.fin ∧ l.cleared ≤ p.clr) : l.mayClear = true := by
  have reacts : (l.reacts.all fun r => decide (r.inst ≠ l.cleared) || decide (r.st = .finished)) = true := by
    simpa [Decidable.imp_iff_not_or] using hfin
  have peers : (l.peers.all fun p => decide (l.cleared < p.fin) && decide (l.cleared ≤ p.clr)) = true := by
    simpa using hpeers
  simp only [Launch.mayClear, hrun, hopen, hnext, reacts, peers, decide_true, Bool.not_false, Bool.and_self]

section
variable {s : State} {lid : Nat} {l : Launch} (h : s.launch? lid = some l) (hmay : l.mayClear = true)
include h hmay

/-- A conflict within an instant ends its launch, once the page of its record has been walked. -/
theorem State.clearInstant_conflict {k : Nat}
    (hbad : lowestConflict (s.launchAddr lid) (wroteOf (s.store.instLogs lid l.cleared)) = some k)
    (hneed : s.taintNeed l [homeDie (32 * k)] = .none) :
    s.clearInstant lid = (s.dropDisp lid).conflict l (wroteOf (s.store.instLogs lid l.cleared)) k := by
  simp [State.clearInstant, h, hmay, hbad, hneed, Need.any_none, Need.poison_none]

section
variable (hgood : lowestConflict (s.launchAddr lid) (wroteOf (s.store.instLogs lid l.cleared)) = none)
  (hclean : s.store.taintEvents (s.store.instLogs lid l.cleared) (s.store.instLogs lid l.cleared) = [])
include hgood hclean

/-- A store of an instant to a pinned entry ends its launch. -/
theorem State.clearInstant_pinned {p : Nat × Nat} (hpin : s.pinCommit (s.store.instLogs lid l.cleared) = some p) :
    s.clearInstant lid = (s.dropDisp lid).pinConflict l p.1 p.2 := by
  simp [State.clearInstant, h, hmay, hgood, hclean, hpin, s.taintNeed_nil, Need.any_none, Need.poison_none]

/-- An instant that nothing stands against commits once the other devices have found as much, and until then tells them so. -/
theorem State.clearInstant_clean (hpin : s.pinCommit (s.store.instLogs lid l.cleared) = none) :
    s.clearInstant lid =
      if l.allChecked then ((s.dropDisp lid).tellChecked l).commitInstant l (s.store.instLogs lid l.cleared) else s.tellChecked l := by
  simp [State.clearInstant, h, hmay, hgood, hclean, hpin, s.taintNeed_nil, Need.any_none, Need.poison_none]

end

end

/-! ### What an instant's commit leaves (R315, R319) -/

@[simp] theorem State.commitAdd_launches (s : State) (core stamp : Nat) (e : Eff) :
    (s.commitAdd core stamp e).launches = s.launches := by
  cases e with
  | add ctr n tainted =>
    rw [State.commitAdd]
    split
    · rfl
    · exact (State.sendFor_sameButFabric ..).launches
  | store => rfl
  | msop => rfl
  | cmd => rfl

@[simp] theorem State.commitLog_launches (s : State) (core : Nat) (g : RLog) : (s.commitLog core g).launches = s.launches :=
  List.foldlRecOn (motive := fun t : State => t.launches = s.launches) g.effs _ rfl fun t ht e _ =>
    (t.commitAdd_launches core g.stamp e).trans ht

/-- The logs of an instant committed in turn, as State.commitInstant begins. -/
def State.logsCommitted (s : State) (l : Launch) (gs : List RLog) : State :=
  gs.foldl (fun s g => s.commitLog l.core g)
    { s with
      store := s.store.clearPoison (s.store.wholePoisoned gs)
      clearedNow := l.lid :: s.clearedNow }

theorem State.logsCommitted_launches (s : State) (l : Launch) (gs : List RLog) : (s.logsCommitted l gs).launches = s.launches :=
  List.foldlRecOn (motive := fun t : State => t.launches = s.launches) gs _ rfl fun t ht g _ => (t.commitLog_launches l.core g).trans ht

/-- An instant's one held add is made to its counter (R193). -/
theorem State.logsCommitted_add (s : State) (l : Launch) {c : Nat} (n : Word) (b : Bool) (st : Nat) (hc : c < 2 ^ 24) :
    (s.logsCommitted l [⟨l.lid, st, [.add c n b]⟩]).ctr c = satAdd (s.ctr c) n := by
  have add : ∀ t : State, t.commitAdd l.core st (.add c n b) = t.ctrAdd c n := fun t => if_pos hc
  rw [State.logsCommitted, List.foldl_cons, List.foldl_nil, State.commitLog, List.foldl_cons, List.foldl_nil, add]
  simp only [State.ctrAdd, State.ctr, alGet_alPut_same, Option.getD_some]
  rfl

/-- The gang counters of the reactions of a launch's lowest uncleared instant. -/
def Launch.gangKeys (l : Launch) : List Nat :=
  (l.reacts.filter fun r => decide (r.inst = l.cleared)).flatMap fun r => (List.range 16).map fun n => gangKey ⟨l.lid, r.stamp⟩ n

/-- The state of an instant that has been committed, before its launch ends or goes on. -/
def State.committed (s : State) (l : Launch) (gs : List RLog) : State :=
  let t := s.logsCommitted l gs
  let st := t.store.retire l.lid l.cleared
  let u : State := { t with
    store := { st with unmerged := st.unmerged ++ (versionLines gs).map fun k => (k, l.lid, l.cleared) }
    fabric := t.fabric.forget }
  let v := (u.ctrDrop l.gangKeys).updLaunch l.lid fun q => q.dropInstant l.cleared
  v.tellPeers l (.cleared v.devid l.record.status l.cleared)

theorem State.commitInstant_eq (s : State) (l : Launch) (gs : List RLog) :
    s.commitInstant l gs =
      if l.cleared + 1 = l.record.ninst then (s.committed l gs).endLaunch l.lid none 0 else (s.committed l gs).checkEnd l.lid := rfl

/-- A value found by its key in a list from which other keys have been taken out. -/
theorem alGet_filter_keys {α : Type} (m : List (Nat × α)) {keys : List Nat} {k : Nat} (h : keys.contains k = false) :
    alGet (m.filter fun p => !keys.contains p.1) k = alGet m k := by
  have same : ∀ p : Nat × α, decide ((!keys.contains p.1) = true ∧ decide (p.1 = k) = true) = decide (p.1 = k) := by
    intro p
    by_cases hp : p.1 = k
    · simp only [hp, h]
      rfl
    · simp [hp]
  rw [alGet, alGet, List.find?_filter, funext same]

section
variable {s : State} {l : Launch} {gs : List RLog}

/-- The launch of an instant that has been committed has it behind it. -/
theorem State.launch?_committed (h : s.launch? l.lid = some l) :
    (s.committed l gs).launch? l.lid = some (l.dropInstant l.cleared) := by
  rw [State.committed, State.launch?_congr (State.tellPeers_sameButFabric ..).launches]
  refine (State.launch?_updLaunch _ l.lid fun q => q.dropInstant l.cleared).trans ?_
  exact congrArg (Option.map _) ((State.launch?_congr (s.logsCommitted_launches l gs) l.lid).trans h)

/-- The logs of an instant that has been committed are gone. -/
theorem State.instLogs_committed : (s.committed l gs).store.instLogs l.lid l.cleared = [] := by
  rw [State.committed, (State.tellPeers_sameButFabric ..).store]
  refine List.filter_eq_nil_iff.mpr fun g hg => ?_
  have kept := (List.mem_filter.mp hg).2
  by_cases hlid : g.lid = l.lid <;> simp_all

/-- A counter that is no gang's stands, once an instant has been committed, as its logs have left it. -/
theorem State.ctr_committed {c : Nat} (hc : c < 2 ^ 32) : (s.committed l gs).ctr c = (s.logsCommitted l gs).ctr c := by
  have notGang : l.gangKeys.contains c = false := by
    rw [← Bool.not_eq_true, List.contains_iff_mem]
    intro hmem
    obtain ⟨r, -, hr⟩ := List.mem_flatMap.mp hmem
    obtain ⟨n, -, hn⟩ := List.mem_map.mp hr
    rw [gangKey] at hn
    omega
  rw [State.committed, State.ctr, (State.tellPeers_sameButFabric ..).counters, State.updLaunch_counters, State.ctr]
  congr 1
  exact alGet_filter_keys _ notGang

/-- A launch with no trapped reaction in its lowest uncleared instant does not end. -/
theorem State.checkEnd_untrapped {t : State} {lid : Nat} {q : Launch} (h : t.launch? lid = some q) (hrun : q.phase = .running)
    (hopen : q.record.open_ = false) (hfail : ∀ r ∈ q.reacts, r.inst = q.cleared → r.st ≠ .failed) : t.checkEnd lid = t := by
  have untrapped : (q.reacts.filter fun r => decide (r.inst = q.cleared)).filter (fun r => decide (r.st = .failed)) = [] := by
    rw [List.filter_filter, List.filter_eq_nil_iff]
    intro r hr
    by_cases hinst : r.inst = q.cleared
    · simp [hfail r hr hinst]
    · simp [hinst]
  simp [State.checkEnd, h, hrun, hopen, untrapped]

/-- A commit that is neither the launch's last nor followed by an instant with a trapped reaction leaves the launch running. -/
theorem State.commitInstant_goes_on (h : s.launch? l.lid = some l) (hopen : l.record.open_ = false) (hrun : l.phase = .running)
    (hmore : l.cleared + 1 ≠ l.record.ninst) (hfail : ∀ r ∈ l.reacts, r.inst = l.cleared + 1 → r.st ≠ .failed) :
    s.commitInstant l gs = s.committed l gs := by
  rw [State.commitInstant_eq, if_neg hmore]
  exact State.checkEnd_untrapped (State.launch?_committed h) hrun hopen fun r hr => hfail r (List.mem_filter.mp hr).1

end

/-! ### Versions merged and sets acquired (R315, R323) -/

section
variable {s : State} {x : CtxRef} {rs : List Range} (h : (s.ctx x).status = .blocked (.set rs))
include h

theorem State.setAcquire_ok {u : State} (ht : s.touch x rs = .ok u) : s.setAcquire x = u.setStatus x .ready := by
  simp only [State.setAcquire, h, ht]

theorem State.setAcquire_irrev {a : Nat} (ht : s.touch x rs = .irrev a) : s.setAcquire x = s.setStatus x .ready := by
  simp only [State.setAcquire, h, ht]

theorem State.setAcquire_wait {w : List Range} (ht : s.touch x rs = .wait w) : s.setAcquire x = s.touchAgain x rs := by
  simp only [State.setAcquire, h, ht]

end

/-! ### The obligation -/

/-- Settles O51: each event's row is a case of its operation, with what the operation leaves read by the lemmas above. -/
theorem dispatchPreemptionAndClearing : Obligations.DispatchPreemptionAndClearing := by
  unfold Obligations.DispatchPreemptionAndClearing
  refine ⟨?check, ?notSubmitted, ?enqueue, ?phase, ?spent, ?take, ?took, ?noTickets, ?start, ?token, ?choice, ?noChoice, ?kill, ?noKill,
    ?requeueTickets, ?requeued, ?checkpoint, ?clear, ?commit, ?notEnqueued, ?merge, ?acquire⟩
  case check =>
    intro s lid l bs h hsub hread rd hrd qs es dies ws shape resource
    obtain rfl := State.launch?_lid h
    have judged := State.launchCheck_judges h hsub hread hrd (qs := qs) rfl
    refine ⟨fun f hf => ?_, fun hshape hneed => ?_⟩
    · exact congrArg Host.Outcome.next (judged.trans (by rw [show s.shapeField l qs = some f from hf]; rfl))
    · rw [show s.shapeField l qs = none from hshape, Option.elim_none, State.launchPass2_judges hneed] at judged
      refine ⟨fun f hf => ?_, fun hres => ?_⟩
      · exact congrArg Host.Outcome.next (judged.trans (by rw [show s.resourceField l qs = some f from hf]; rfl))
      · rw [show s.resourceField l qs = none from hres, Option.elim_none] at judged
        exact ⟨_, _, congrArg Host.Outcome.next judged, State.launch?_accepted h, rfl, rfl, rfl, rfl⟩
  case notSubmitted => exact fun s lid l h hsub => congrArg Host.Outcome.next (by simp [State.launchCheck, h, hsub])
  case enqueue =>
    intro s lid l h hrun hab hn hopen h4 new
    obtain ⟨found, tickets⟩ := State.instantEnqueue_joins h (Launch.mayEnqueue_of_ordered hrun hab hn hopen h4) hopen
    exact ⟨_, _, rfl, found, rfl, rfl, fun r hr => State.nextReacts_queued hr, tickets⟩
  case phase => exact fun l i e k w h => Launch.present_phase h
  case spent => exact fun s lid l h hn => congrArg Host.Outcome.next (State.instantEnqueue_spent h hn)
  case take =>
    intro n s l r rest ps k hn htook hnew hheads hopen hab hfree hthr hheld hps hslots
    have starts := State.consider_starts hopen hab hfree hthr hheld hps hslots
    rw [exec_ticketTake (by omega), State.ticketTake_first hn htook hnew hheads starts, State.start_took]
  case took => exact fun n s hn htook => by rw [exec_ticketTake (by omega), State.ticketTake_none (.inr htook)]
  case noTickets => exact fun n s h512 hn => by rw [exec_ticketTake hn, State.ticketTake_none (.inl h512)]
  case start =>
    intro s l r x k e h c
    obtain ⟨old, alloc, hc⟩ := State.ctx_start (s := s) (r := r) (x := x) h
    rw [show c = startCtx old l r e k alloc from hc]
    exact ⟨rfl, rfl, rfl, rfl, rfl, rfl, rfl, rfl, rfl, rfl, rfl, rfl, rfl, rfl, rfl⟩
  case token => exact fun r s hr => event_ok hr _
  case choice =>
    intro d s h l r a hd htime hchose hnew hvic hact
    refine ⟨_, (event_ok (decide_eq_true hd) _).trans (congrArg _ (State.preemptChoice_marks htime hchose hnew hvic hact)), ?_⟩
    exact ⟨rfl, rfl, rfl, rfl⟩
  case noChoice =>
    exact fun d s hd h => (event_ok (decide_eq_true hd) _).trans (congrArg _ (State.preemptChoice_none h))
  case kill =>
    exact fun id s r hid h hact hrun hbound => (event_ok hid _).trans (congrArg _ (State.kill_marked h hact hrun hbound))
  case noKill => exact fun id s r hid h hact => (event_ok hid _).trans (congrArg _ (State.kill_unmarked h hact))
  case requeueTickets => exact fun id s r h => State.ticketsOf_requeue h
  case requeued => exact fun id s r h => State.react?_requeue h
  case checkpoint =>
    intro id s l r hid hl hr hact hrun hbound hhand hdone hroom hneed
    have hname : (⟨l.lid, r.stamp⟩ : ReactId) = id := by
      rw [State.launch?_lid hl, State.react?_stamp hr]
    have saved := State.saveReact_queued (s := s) (l := l) ((s.freeSlots l).take r.places.length) (hname.symm ▸ hr)
    rw [hname] at saved
    obtain ⟨q, found, rest⟩ := saved
    have run := State.checkpoint_saves hl hr hact hrun hbound hhand hdone hroom hneed
    exact ⟨_, q, (event_ok hid _).trans (congrArg _ run), found, rest⟩
  case clear =>
    intro lid s l h hrun hopen hnext hfin hpeers gs ws u
    obtain rfl := State.launch?_lid h
    have hmay := Launch.mayClear_of_finished hrun hopen hnext hfin hpeers
    refine ⟨fun hgood hclean => ⟨fun hpin => ?_, fun st e hpin => ?_⟩, fun k hbad hneed => ?_⟩
    · have clean := State.clearInstant_clean h hmay hgood hclean hpin
      refine ⟨fun hall => ?_, fun ⟨p, hp, hlate⟩ => ?_⟩
      · have all : l.allChecked = true := by simpa [Launch.allChecked] using hall
        rw [if_pos all] at clean
        exact congrArg Host.Outcome.next clean
      · have notAll : ¬l.allChecked = true := by
          simp only [Launch.allChecked, List.all_eq_true, decide_eq_true_eq]
          exact fun hall => absurd (hall p hp) (by omega)
        rw [if_neg notAll] at clean
        exact congrArg Host.Outcome.next clean
    · refine congrArg Host.Outcome.next ((State.clearInstant_pinned h hmay hgood hclean hpin).trans ?_)
      rw [State.pinConflict]
      rfl
    · refine congrArg Host.Outcome.next ((State.clearInstant_conflict h hmay hbad hneed).trans ?_)
      rw [State.conflict]
      rfl
  case commit =>
    intro s l gs h hopen hrun hmore hfail
    rw [State.commitInstant_goes_on h hopen hrun hmore hfail]
    refine ⟨_, State.launch?_committed h, rfl, rfl, rfl, State.instLogs_committed, ?_⟩
    rintro c n b st hc rfl
    rw [State.ctr_committed (by omega), State.logsCommitted_add s l n b st hc]
  case notEnqueued =>
    intro lid s l h hle
    have notMay : l.mayClear = false := by simp [Launch.mayClear, Nat.not_lt.mpr hle]
    exact congrArg Host.Outcome.next (by simp [State.clearInstant, h, notMay])
  case merge => exact fun line lid inst s => ⟨_, rfl, rfl, rfl, rfl, rfl, rfl⟩
  case acquire =>
    intro x s rs hx h
    have run : exec (.setAcquire x) s = .next (s.setAcquire x) := event_ok hx _
    rw [run]
    exact ⟨fun u ht => congrArg _ (State.setAcquire_ok h ht), fun a ht => congrArg _ (State.setAcquire_irrev h ht),
      fun w ht => congrArg _ (State.setAcquire_wait h ht)⟩

end Sys2Proof.Machine
end

section
/-!
PROOF. The encoding of moves (03_bundles R56-R58, R67, R68, R70): each field's decoder and encoder are inverse to each
other, and so are the decoder and the encoder of a slot.
-/

namespace Sys2Proof

/-! ### The fields of a slot -/

theorem Guard.ofCode_code (g : Guard) : Guard.ofCode g.code = some g := by
  cases g with
  | always => rfl
  | clk n => simp [Guard.code, Guard.ofCode]
  | pred n => simp [Guard.code, Guard.ofCode]

theorem Guard.code_of_ofCode {n : Nat} {g : Guard} (h : Guard.ofCode n = some g) : g.code = n := by
  unfold Guard.ofCode at h
  split_ifs at h with h0 h1 h2 <;> cases h <;> simp only [Guard.code] <;> omega

theorem Guard.code_lt (g : Guard) : g.code < 12 := by
  cases g <;> simp only [Guard.code] <;> omega

theorem Guard.ofCode_reserved {n : Nat} (h : 12 ≤ n) : Guard.ofCode n = none := by
  simp only [Guard.ofCode]
  rw [if_neg (by omega), dif_neg (by omega), dif_neg (by omega)]

theorem Guard.ofCode_some {n : Nat} (h : n < 12) : ∃ g, Guard.ofCode n = some g := by
  unfold Guard.ofCode
  split_ifs
  all_goals first | exact ⟨_, rfl⟩ | omega

theorem Port.ofCode_code (p : Port) : Port.ofCode p.code = some p := by
  cases p <;> rfl

theorem Port.code_of_ofCode {n : Nat} {p : Port} (h : Port.ofCode n = some p) : p.code = n := by
  obtain ⟨hn, rfl⟩ := List.getElem?_eq_some_iff.mp h
  have hn : n < 12 := hn
  interval_cases n <;> rfl

theorem Port.code_lt (p : Port) : p.code < 12 := by
  cases p <;> decide

theorem Src.code_lt (a : Src) : a.code < 512 := by
  cases a with
  | port p => have := p.code_lt; simp only [Src.code]; omega
  | _ => simp only [Src.code]; omega

theorem Src.ofCode_g {n : Nat} (h : n < 64) : Src.ofCode n = some (.g ⟨n, h⟩) := by
  rw [Src.ofCode, dif_pos h]

theorem Src.ofCode_v {n : Nat} (lo : 0x40 ≤ n) (h : n - 0x40 < 32) : Src.ofCode n = some (.v ⟨n - 0x40, h⟩) := by
  rw [Src.ofCode, dif_neg (by omega), dif_pos h]

theorem Src.ofCode_k {n : Nat} (lo : 0x60 ≤ n) (h : n - 0x60 < 16) : Src.ofCode n = some (.k ⟨n - 0x60, h⟩) := by
  rw [Src.ofCode, dif_neg (by omega), dif_neg (by omega), dif_pos h]

theorem Src.ofCode_port {n : Nat} (lo : 0x80 ≤ n) (h : n < 0x100) :
    Src.ofCode n = (Port.ofCode (n - 0x80)).map .port := by
  rw [Src.ofCode, dif_neg (by omega), dif_neg (by omega), dif_neg (by omega), if_neg (by omega), if_neg (by omega),
    if_neg (by omega), if_pos h]

theorem Src.ofCode_short {n : Nat} (lo : 0x100 ≤ n) (h : n < 0x200) :
    Src.ofCode n = some (.short (BitVec.ofNat 8 (n - 0x100))) := by
  rw [Src.ofCode, dif_neg (by omega), dif_neg (by omega), dif_neg (by omega), if_neg (by omega), if_neg (by omega),
    if_neg (by omega), if_neg (by omega), if_pos h]

/-- The undefined and reserved source addresses (R70). -/
theorem Src.ofCode_undefined {n : Nat} (h : 0x72 ≤ n ∧ n ≤ 0x7F ∨ 0x8C ≤ n ∧ n ≤ 0xFF ∨ 0x200 ≤ n) :
    Src.ofCode n = none := by
  by_cases port : 0x80 ≤ n ∧ n < 0x100
  · have past : Port.ofCode (n - 0x80) = none := List.getElem?_eq_none (show 12 ≤ n - 0x80 by omega)
    rw [Src.ofCode_port port.1 port.2, past, Option.map_none]
  · rw [Src.ofCode, dif_neg (by omega), dif_neg (by omega), dif_neg (by omega), if_neg (by omega), if_neg (by omega)]
    split_ifs
    · rfl
    · omega
    · omega
    · rfl

theorem Src.ofCode_code (a : Src) : Src.ofCode a.code = some a := by
  cases a with
  | g n => exact Src.ofCode_g n.isLt
  | v n =>
    rw [Src.code, Src.ofCode_v (by omega) (by omega)]
    simp
  | k n =>
    rw [Src.code, Src.ofCode_k (by omega) (by omega)]
    simp
  | imm => rfl
  | immZ => rfl
  | port p =>
    have := p.code_lt
    rw [Src.code, Src.ofCode_port (by omega) (by omega), Nat.add_sub_cancel_left, Port.ofCode_code, Option.map_some]
  | short b =>
    rw [Src.code, Src.ofCode_short (by omega) (by omega), Nat.add_sub_cancel_left, BitVec.ofNat_toNat,
      BitVec.setWidth_eq]

theorem Src.code_of_ofCode {n : Nat} {a : Src} (h : Src.ofCode n = some a) : a.code = n := by
  by_cases port : 0x80 ≤ n ∧ n < 0x100
  · rw [Src.ofCode_port port.1 port.2] at h
    obtain ⟨p, hp, rfl⟩ := Option.map_eq_some_iff.mp h
    have := Port.code_of_ofCode hp
    simp only [Src.code]
    omega
  · by_cases short : 0x100 ≤ n ∧ n < 0x200
    · rw [Src.ofCode_short short.1 short.2] at h
      obtain rfl := Option.some.inj h
      simp only [Src.code, BitVec.toNat_ofNat]
      omega
    · have low : n < 0x72 := by
        by_contra high
        rw [Src.ofCode_undefined (by omega)] at h
        cases h
      rw [Src.ofCode, if_pos (show n < 0x80 by omega)] at h
      split_ifs at h
      all_goals
        obtain rfl := Option.some.inj h
        simp only [Src.code] <;> omega

/-! ### Destinations (R67, R68) -/

/-- The blocks of the units fill the addresses 0x080 to 0x2FF in order. -/
theorem unitAt_base {d : Nat} (lo : 0x80 ≤ d) : (unitAt d).1.base + (unitAt d).2 = d := by
  unfold unitAt
  split_ifs <;> simp only [Unit11.base] <;> omega

/-- The trigger ports of a unit stand in its block from offset 2, in card order. -/
theorem parts_unitOps (u : Unit11) (s : Src) (g : Guard) :
    (unitOps u).map (fun f => (f s g).parts) =
      (List.range (unitOps u).length).map fun k => some (s, u.base + (k + 2), g) := by
  cases u <;> rfl

theorem parts_of_unitOps {u : Unit11} {k : Nat} {f : Src → Guard → Instr} (h : (unitOps u)[k]? = some f) (s : Src)
    (g : Guard) : (f s g).parts = some (s, u.base + (k + 2), g) := by
  obtain ⟨hk, rfl⟩ := List.getElem?_eq_some_iff.mp h
  have entry := congrArg (·[k]?) (parts_unitOps u s g)
  simpa [hk] using entry

theorem parts_of_unitMove {u : Unit11} {k : Nat} {s : Src} {g : Guard} {i : Instr} (h : unitMove u k s g = .ok i) :
    i.parts = some (s, u.base + k, g) := by
  unfold unitMove at h
  split_ifs at h with h0 h1
  · cases h; rw [h0]; rfl
  · cases h; rw [h1]; rfl
  · split at h
    · next f hf =>
      cases h
      rw [parts_of_unitOps hf, Nat.sub_add_cancel (by omega)]
    · cases h

/-- The destination address that names a move is the one it has in its word. -/
theorem parts_of_moveTo {d : Nat} {s : Src} {g : Guard} {i : Instr} (h : moveTo d s g = .ok i) :
    i.parts = some (s, d, g) := by
  unfold moveTo at h
  split_ifs at h with hg hv hk hgap hunit
  · cases h; rfl
  · cases h; simp only [Instr.parts, Dst.code]; congr; omega
  · cases h; simp only [Instr.parts, Dst.code]; congr; omega
  · rw [parts_of_unitMove h, unitAt_base (by omega)]

theorem Dst.code_lt (d : Dst) : d.code < 0x300 := by
  cases d with
  | o u => cases u <;> decide
  | p u => cases u <;> decide
  | _ => simp only [Dst.code]; omega

theorem moveTo_dst (d : Dst) (s : Src) (g : Guard) : moveTo d.code s g = .ok (.move s d g) := by
  cases d with
  | g n => rw [Dst.code, moveTo, dif_pos n.isLt]
  | v n =>
    rw [Dst.code, moveTo, dif_neg (by omega), dif_pos (by omega)]
    simp
  | k n =>
    rw [Dst.code, moveTo, dif_neg (by omega), dif_neg (by omega), dif_pos (by omega)]
    simp
  | o u => cases u <;> rfl
  | p u => cases u <;> rfl

/-- Decoding the fields of a move gives the move: one case for each of the 222 trigger ports. -/
theorem moveTo_of_parts {i : Instr} {s : Src} {d : Nat} {g : Guard} (h : i.parts = some (s, d, g)) :
    moveTo d s g = .ok i := by
  cases i
  case move a e g' =>
    cases h
    exact moveTo_dst _ _ _
  all_goals cases h <;> rfl

theorem moveTo_undefined {d : Nat} (h : 0x70 ≤ d ∧ d ≤ 0x7F ∨ 0x300 ≤ d) (s : Src) (g : Guard) :
    moveTo d s g = .error .undefDestination := by
  rw [moveTo, dif_neg (by omega), dif_neg (by omega), dif_neg (by omega)]
  split_ifs
  · rfl
  · omega
  · rfl

/-- Every row that has an encoding is well formed by its types. -/
theorem wf_of_parts {i : Instr} {p : Src × Nat × Guard} (h : i.parts = some p) : i.wf = true := by
  cases i <;> cases h <;> rfl

theorem dst_lt_of_parts {i : Instr} {s : Src} {d : Nat} {g : Guard} (h : i.parts = some (s, d, g)) : d < 0x300 := by
  by_contra high
  have bad := moveTo_of_parts h
  rw [moveTo_undefined (by omega)] at bad
  cases bad

/-! ### The slot (R56) -/

/-- The word of a slot with fields `a`, `d` and `g`. -/
def slotWord (a d g : Nat) : BitVec 24 := BitVec.ofNat 24 (a * 2 ^ 14 + d * 2 ^ 4 + g)

theorem encode_of_parts {i : Instr} {s : Src} {d : Nat} {g : Guard} (h : i.parts = some (s, d, g)) :
    encode i = some (slotWord s.code d g.code) := by
  rw [encode, h]
  rfl

theorem slotWord_fields {a d g : Nat} (ha : a < 2 ^ 10) (hd : d < 2 ^ 10) (hg : g < 2 ^ 4) :
    bitsOf (slotWord a d g).toNat 0 4 = g ∧ bitsOf (slotWord a d g).toNat 4 10 = d ∧
      bitsOf (slotWord a d g).toNat 14 10 = a := by
  simp only [slotWord, bitsOf, BitVec.toNat_ofNat]
  omega

/-- A slot is its three fields and nothing else. -/
theorem slotWord_bitsOf (w : BitVec 24) :
    slotWord (bitsOf w.toNat 14 10) (bitsOf w.toNat 4 10) (bitsOf w.toNat 0 4) = w := by
  apply BitVec.eq_of_toNat_eq
  have := w.isLt
  simp only [slotWord, bitsOf, BitVec.toNat_ofNat]
  omega

theorem bitsOf_lt (v lo width : Nat) : bitsOf v lo width < 2 ^ width := Nat.mod_lt _ (Nat.two_pow_pos _)

/-- A slot whose guard and source are defined is decoded by its destination. -/
theorem decodeSlot_fields {w : BitVec 24} {g : Guard} {s : Src} (hg : Guard.ofCode (bitsOf w.toNat 0 4) = some g)
    (hs : Src.ofCode (bitsOf w.toNat 14 10) = some s) : decodeSlot w = moveTo (bitsOf w.toNat 4 10) s g := by
  have guard : bitsOf w.toNat 0 4 ≠ 15 := by
    have := Guard.code_of_ofCode hg
    have := g.code_lt
    omega
  simp only [decodeSlot, if_neg guard, hg, hs]

theorem decodeSlot_undefSource {w : BitVec 24} (hg : bitsOf w.toNat 0 4 < 12)
    (hs : Src.ofCode (bitsOf w.toNat 14 10) = none) : decodeSlot w = .error .undefSource := by
  obtain ⟨g, guard⟩ := Guard.ofCode_some hg
  simp only [decodeSlot, if_neg (show bitsOf w.toNat 0 4 ≠ 15 by omega), guard, hs]

theorem decodeSlot_reservedGuard {w : BitVec 24} (lo : 12 ≤ bitsOf w.toNat 0 4) (hi : bitsOf w.toNat 0 4 < 15) :
    decodeSlot w = .error .reservedGuard := by
  simp only [decodeSlot, if_neg (show bitsOf w.toNat 0 4 ≠ 15 by omega), Guard.ofCode_reserved lo]

theorem decodeSlot_empty {w : BitVec 24} (hg : bitsOf w.toNat 0 4 = 15) :
    decodeSlot w = .error (if w = 0xF#24 then .emptySlot else .emptyNonzero) := by
  have fields : (bitsOf w.toNat 14 10 = 0 ∧ bitsOf w.toNat 4 10 = 0) ↔ w = 0xF#24 := by
    constructor
    · intro ⟨ha, hd⟩
      rw [← slotWord_bitsOf w, ha, hd, hg]
      rfl
    · rintro rfl
      decide
  simp only [decodeSlot, if_pos hg, fields]
  split_ifs <;> rfl

/-- What a slot that decodes holds: the codes of its guard and source, and a destination that names the move. -/
theorem fields_of_decodeSlot {w : BitVec 24} {i : Instr} (h : decodeSlot w = .ok i) :
    ∃ s g, bitsOf w.toNat 14 10 = s.code ∧ bitsOf w.toNat 0 4 = g.code ∧
      moveTo (bitsOf w.toNat 4 10) s g = .ok i := by
  by_cases guard : bitsOf w.toNat 0 4 < 12
  · obtain ⟨g, hg⟩ := Guard.ofCode_some guard
    cases hs : Src.ofCode (bitsOf w.toNat 14 10) with
    | none => rw [decodeSlot_undefSource guard hs] at h; cases h
    | some s =>
      rw [decodeSlot_fields hg hs] at h
      exact ⟨s, g, (Src.code_of_ofCode hs).symm, (Guard.code_of_ofCode hg).symm, h⟩
  · by_cases empty : bitsOf w.toNat 0 4 = 15
    · rw [decodeSlot_empty empty] at h; cases h
    · have := bitsOf_lt w.toNat 0 4
      rw [decodeSlot_reservedGuard (by omega) (by omega)] at h
      cases h

/-! ### The obligations -/

/-- Settles O2: the fields of an encoded move are read back, and each names what it was made from. -/
theorem encodedInstructionDecodes : Obligations.EncodedInstructionDecodes := by
  unfold Obligations.EncodedInstructionDecodes
  intro i w _ henc
  obtain ⟨⟨s, d, g⟩, parts, -⟩ := Option.map_eq_some_iff.mp henc
  obtain rfl : slotWord s.code d g.code = w := Option.some.inj ((encode_of_parts parts).symm.trans henc)
  have ha := s.code_lt
  have hd := dst_lt_of_parts parts
  have hg := g.code_lt
  obtain ⟨fg, fd, fs⟩ := slotWord_fields (a := s.code) (d := d) (g := g.code) (by omega) (by omega) (by omega)
  rw [decodeSlot_fields (g := g) (s := s) (by rw [fg, Guard.ofCode_code]) (by rw [fs, Src.ofCode_code]), fd]
  exact moveTo_of_parts parts

/-- Settles O3: the decoded move has the fields of the word, and a word is its fields. -/
theorem decodedWordEncodesBack : Obligations.DecodedWordEncodesBack := by
  unfold Obligations.DecodedWordEncodesBack
  intro w i h
  obtain ⟨s, g, hs, hg, hd⟩ := fields_of_decodeSlot h
  have parts := parts_of_moveTo hd
  refine ⟨?_, wf_of_parts parts⟩
  rw [encode_of_parts parts, ← hs, ← hg, slotWord_bitsOf]

/-- Settles O4, a field at a time, in the order in which the decoder looks at them. -/
theorem reservedEncodingsRefused : Obligations.ReservedEncodingsRefused := by
  unfold Obligations.ReservedEncodingsRefused
  refine ⟨fun w => decodeSlot_reservedGuard, fun w hg hw => ?_, ?_, fun w hg hs => ?_, fun w hg hs hd => ?_⟩
  · rw [decodeSlot_empty hg, if_neg hw]
  · exact decodeSlot_empty (by decide)
  · exact decodeSlot_undefSource hg (Src.ofCode_undefined hs)
  · obtain ⟨g, guard⟩ := Guard.ofCode_some hg
    obtain ⟨s, source⟩ := Option.ne_none_iff_exists'.mp hs
    rw [decodeSlot_fields guard source, moveTo_undefined hd]

/-- Settles O1: each word is read by the decoder. -/
theorem decodedWords : Obligations.DecodedWords := by
  unfold Obligations.DecodedWords
  decide

end Sys2Proof
end

section
/-!
PROOF. What every move shares (03_bundles R57, R63, R67, R69, R71, R73): its encoding names the trigger that gives it its
meaning, and with it the checks made before it, the guard and the tags.
-/

namespace Sys2Proof.Machine

/-! ### The meaning of an encoded move -/

/-- Every move that is no plain move is a trigger of the unit whose block holds its port. -/
theorem exec_of_parts {i : Instr} {a : Src} {d : Nat} {g : Guard} (h : i.parts = some (a, d, g)) :
    (∃ e : Dst, d = e.code ∧ i = .move a e g) ∨
      ∃ us body, ∀ s, exec i s = trigger (unitAt d).1 d us body a g s := by
  cases i
  case move => cases h; exact .inl ⟨_, rfl, rfl⟩
  all_goals
    cases h <;> simp only [exec]
  all_goals exact .inr ⟨_, _, fun _ => rfl⟩

theorem trigger_malformed {u : Unit11} {d : Nat} {us : Uses} {body : Opnds → State → MoveR} {a : Src} {g : Guard}
    {s : State} {c : Byte} (h : modeCheck s.sup a d (s.me.src s.issue.limm a) = some c) :
    trigger u d us body a g s = finish s (slotOf a d g) (.trap c 1 0) := by
  simp only [trigger, h]

theorem trigger_noUnit {u : Unit11} {d : Nat} {us : Uses} {body : Opnds → State → MoveR} {a : Src} {g : Guard}
    {s : State} (h : formed d a s = true) (hg : s.me.guard g = true) (hu : s.hasUnit u = false) :
    trigger u d us body a g s = finish s (slotOf a d g) (.trap cUndefOp 3 0) := by
  have formed := Option.isNone_iff_eq_none.mp h
  have missing : (s.sup && (decide (u = .ve) || decide (u = .mx) || decide (u = .cp))) = true :=
    by rwa [State.hasUnit, Bool.not_eq_false'] at hu
  simp only [trigger, formed, hg, missing, Bool.not_true, Bool.false_eq_true, if_false, if_true]

theorem trigger_untagged {u : Unit11} {d : Nat} {us : Uses} {body : Opnds → State → MoveR} {a : Src} {g : Guard}
    {s : State} {c : Byte} (h : formed d a s = true) (hg : s.me.guard g = true) (hu : s.hasUnit u = true)
    (ht : tagCheck s.me ((us.vals (s.me.latchO u) (s.me.latchP u) (s.me.src s.issue.limm a)).map Value.tag) = some c) :
    trigger u d us body a g s = finish s (slotOf a d g) (.trap c 4 0) := by
  have formed := Option.isNone_iff_eq_none.mp h
  have present : (s.sup && (decide (u = .ve) || decide (u = .mx) || decide (u = .cp))) = false :=
    by rwa [State.hasUnit, Bool.not_eq_true'] at hu
  simp only [trigger, formed, hg, present, Bool.not_true, Bool.false_eq_true, if_false, Ctx.opnds, ht]

theorem execMove_malformed {a : Src} {e : Dst} {g : Guard} {s : State} {c : Byte}
    (h : modeCheck s.sup a e.code (s.me.src s.issue.limm a) = some c) :
    exec (.move a e g) s = finish s (slotOf a e.code g) (.trap c 1 0) := by
  simp only [exec, execMove, h]

theorem execMove_formed {a : Src} {e : Dst} {g : Guard} {s : State} (h : formed e.code a s = true) :
    exec (.move a e g) s =
      .next (if s.me.guard g then s.updCtx s.cur fun c => c.moveTo e (s.me.src s.issue.limm a) else s).retired := by
  simp only [exec, execMove, Option.isNone_iff_eq_none.mp h, finish_ok]

/-- A move that fails a check of class 1 traps, whatever its guard. -/
theorem exec_malformed {i : Instr} {a : Src} {d : Nat} {g : Guard} {s : State} {c : Byte} (h : i.parts = some (a, d, g))
    (hm : modeCheck s.sup a d (s.me.src s.issue.limm a) = some c) :
    exec i s = finish s (slotOf a d g) (.trap c 1 0) := by
  rcases exec_of_parts h with ⟨e, rfl, rfl⟩ | ⟨us, body, run⟩
  · exact execMove_malformed hm
  · rw [run, trigger_malformed hm]

/-- A move with a false guard leaves the state as it is. -/
theorem exec_guarded {i : Instr} {a : Src} {d : Nat} {g : Guard} {s : State} (h : i.parts = some (a, d, g))
    (hf : formed d a s = true) (hg : s.me.guard g = false) : exec i s = .next s.retired := by
  rcases exec_of_parts h with ⟨e, rfl, rfl⟩ | ⟨us, body, run⟩
  · rw [execMove_formed hf, if_neg (by simp [hg])]
  · rw [run, trigger_guarded hf hg]

/-! ### The checks of class 1 (R67, R69, R71) -/

theorem modeCheck_priv {a : Src} {d : Nat} {v : Value} (h : 0x2C0 ≤ d ∧ d < 0x300 ∨ a = .port .svq) :
    modeCheck false a d v = some cPriv := by
  simp [modeCheck, h]

theorem modeCheck_vectorName {a : Src} {d : Nat} {v : Value} (h : (∃ n, a = .v n) ∨ 0x40 ≤ d ∧ d < 0x60) :
    modeCheck true a d v = some cUndefMove := by
  have named : (srcIsV a || decide (0x40 ≤ d ∧ d < 0x60)) = true := by
    rcases h with ⟨n, rfl⟩ | hd
    · rfl
    · simp [hd]
  simp only [modeCheck, named, Bool.not_true, Bool.false_and, Bool.true_and, Bool.false_eq_true, if_false, if_true]

theorem modeCheck_vectorToScalar {sup : Bool} {a : Src} {d : Nat} {v : Value} (hv : v.isVec = true)
    (hd : ¬(0x40 ≤ d ∧ d < 0x60))
    (hu : sup = false → ¬(0x1A0 ≤ d ∧ d < 0x220) ∧ d < 0x2C0 ∧ a ≠ .port .svq) :
    modeCheck sup a d v = some cUndefMove := by
  cases sup with
  | true => simp [modeCheck, hv, hd]
  | false =>
    obtain ⟨hve, hsv, hq⟩ := hu rfl
    simp [modeCheck, hv, hd, hve, hq, show ¬(0x2C0 ≤ d ∧ d < 0x300) by omega]

theorem modeCheck_supervisor {a : Src} {d : Nat} {v : Value} (ha : ∀ n, a ≠ .v n) (hd : ¬(0x40 ≤ d ∧ d < 0x60))
    (hv : v.isVec = false) : modeCheck true a d v = none := by
  have scalar : srcIsV a = false := by
    cases a with
    | v n => exact absurd rfl (ha n)
    | _ => rfl
  simp [modeCheck, scalar, hd, hv]

/-! ### Destinations written (R67, R71, R183) -/

theorem getLsbD_clockBit {n i : Nat} (hi : i < 16) : (BitVec.ofNat 16 (2 ^ n)).getLsbD i = decide (i = n) := by
  rw [BitVec.getLsbD_ofNat, Nat.testBit_two_pow]
  simp [hi, eq_comm]

theorem defClock_pres (c : Ctx) {n : Nat} (h0 : n ≠ 0) (h15 : n < 15) (b : Bool) :
    ∃ kd kp, c.defClock n b = { c with kdef := kd, kpres := kp } ∧
      ∀ i < 16, kp.getLsbD i = if i = n then b else c.kpres.getLsbD i := by
  refine ⟨_, _, by rw [Ctx.defClock, if_neg (by omega)], fun i hi => ?_⟩
  have bit := getLsbD_clockBit (n := n) hi
  cases b with
  | true =>
    rw [if_pos rfl, BitVec.getLsbD_or, bit]
    by_cases hin : i = n <;> simp [hin]
  | false =>
    rw [if_neg (by simp), BitVec.getLsbD_and, BitVec.getLsbD_not, bit]
    by_cases hin : i = n <;> simp [hin, hi]

theorem moveTo_discarded (c : Ctx) (v : Value) :
    c.moveTo (.g 0) v = c ∧ c.moveTo (.k 0) v = c ∧ c.moveTo (.k 15) v = c := by
  simp [Ctx.moveTo, Ctx.defClock]

theorem getElem_lanesOf (f : Nat → Lane) (i : Fin 64) : (lanesOf f)[i] = f i := by
  simp [lanesOf]

/-! ### Tags of operands (R73) -/

theorem mem_named {tags : List Tag} {x : Tag} : x ∈ (tags.filter fun t => t != Tag.any) ↔ x ∈ tags ∧ x ≠ 0xF#4 := by
  simp [List.mem_filter, Tag.any]

theorem tagCheck_mismatch (c : Ctx) {tags : List Tag} (h : ∃ x ∈ tags, ∃ y ∈ tags, x ≠ 0xF#4 ∧ y ≠ 0xF#4 ∧ x ≠ y) :
    tagCheck c tags = some cClockMismatch := by
  obtain ⟨x, hx, y, hy, hxF, hyF, hxy⟩ := h
  have differ : ((tags.filter fun t => t != Tag.any).any fun t =>
      (tags.filter fun t => t != Tag.any).any fun u => t != u) = true :=
    List.any_eq_true.mpr ⟨x, mem_named.mpr ⟨hx, hxF⟩,
      List.any_eq_true.mpr ⟨y, mem_named.mpr ⟨hy, hyF⟩, bne_iff_ne.mpr hxy⟩⟩
  simp only [tagCheck, differ, if_true]

theorem tagCheck_agree (c : Ctx) {tags : List Tag} (h : ∀ x ∈ tags, ∀ y ∈ tags, x ≠ 0xF#4 → y ≠ 0xF#4 → x = y) :
    tagCheck c tags = if (tags.filter fun t => t != Tag.any).any fun t => !c.pres t.toNat then some cAbsentRead
      else none := by
  have agree : ((tags.filter fun t => t != Tag.any).any fun t =>
      (tags.filter fun t => t != Tag.any).any fun u => t != u) = false := by
    refine List.any_eq_false.mpr fun x hx => ?_
    rw [Bool.not_eq_true]
    refine List.any_eq_false.mpr fun y hy => ?_
    obtain ⟨hx, hxF⟩ := mem_named.mp hx
    obtain ⟨hy, hyF⟩ := mem_named.mp hy
    simp [h x hx y hy hxF hyF]
  simp only [tagCheck, agree, Bool.false_eq_true, if_false]

theorem tagCheck_absent (c : Ctx) {tags : List Tag} (h : ∀ x ∈ tags, ∀ y ∈ tags, x ≠ 0xF#4 → y ≠ 0xF#4 → x = y)
    (ha : ∃ x ∈ tags, x ≠ 0xF#4 ∧ c.pres x.toNat = false) : tagCheck c tags = some cAbsentRead := by
  obtain ⟨x, hx, hxF, absent⟩ := ha
  rw [tagCheck_agree c h, if_pos (List.any_eq_true.mpr ⟨x, mem_named.mpr ⟨hx, hxF⟩, by simp [absent]⟩)]

theorem tagCheck_present (c : Ctx) {tags : List Tag} (h : ∀ x ∈ tags, ∀ y ∈ tags, x ≠ 0xF#4 → y ≠ 0xF#4 → x = y)
    (hp : ∀ x ∈ tags, x ≠ 0xF#4 → c.pres x.toNat = true) : tagCheck c tags = none := by
  rw [tagCheck_agree c h, if_neg]
  rw [List.any_eq_true]
  rintro ⟨x, hx, absent⟩
  obtain ⟨hx, hxF⟩ := mem_named.mp hx
  simp [hp x hx hxF] at absent

theorem commonTag_any {tags : List Tag} (h : ∀ x ∈ tags, x = 0xF#4) : commonTag tags = 0xF#4 := by
  rw [commonTag, List.find?_eq_none.mpr (fun x hx => by simp [h x hx])]
  rfl

theorem commonTag_of_mem {tags : List Tag} (h : ∀ x ∈ tags, ∀ y ∈ tags, x ≠ 0xF#4 → y ≠ 0xF#4 → x = y) {x : Tag}
    (hx : x ∈ tags) (hxF : x ≠ 0xF#4) : commonTag tags = x := by
  have some : (tags.find? fun t => t != Tag.any).isSome = true :=
    List.find?_isSome.mpr ⟨x, hx, by simpa using hxF⟩
  obtain ⟨y, hy⟩ := Option.isSome_iff_exists.mp some
  have hyF : y ≠ 0xF#4 := by simpa using List.find?_some hy
  rw [commonTag, hy]
  exact h y (List.mem_of_find?_eq_some hy) x hx hyF hxF

/-! ### The obligations -/

/-- Settles O14: a plain move by its destinations, and the check of class 1 that keeps a vector from a scalar one. -/
theorem moveCopiesValueTagAndTaint : Obligations.MoveCopiesValueTagAndTaint := by
  unfold Obligations.MoveCopiesValueTagAndTaint
  refine ⟨fun a d g s hf hg => ?_, moveTo_discarded, fun c n w hn => if_neg hn, fun c n w => rfl, fun c n w => ⟨Value.toVVal (.sc w), rfl, rfl, rfl, fun i => ?_⟩,
    fun c u v => ⟨rfl, rfl⟩, fun c n v h0 h15 => ?_, fun i a d g s h hv hd hu => ?_⟩
  · rw [execMove_formed hf, if_pos hg]
  · exact (getElem_lanesOf _ i).trans (BitVec.ofNat_toNat 32 w.w)
  · have low : n.val ≠ 0 := fun h => h0 (Fin.ext h)
    have high : n.val ≠ 15 := fun h => h15 (Fin.ext h)
    exact defClock_pres c low (by omega) _
  · exact exec_malformed h (modeCheck_vectorToScalar hv hd hu)

/-- Settles O15: the guards by their definition, and every move by the two forms its meaning can have. -/
theorem falseGuardDoesNothing : Obligations.FalseGuardDoesNothing := by
  unfold Obligations.FalseGuardDoesNothing
  refine ⟨fun _ => rfl, fun c n => ?_, fun _ _ => rfl, fun i a d g s h hf hg => exec_guarded h hf hg⟩
  have low : n.val + 1 ≠ 15 := by omega
  simp [Ctx.guard, Ctx.pres, low]

/-- The units that supervisor and management cores have not got are those of these blocks (R69). -/
theorem hasUnit_missing {s : State} {d : Nat} (hs : s.sup = true)
    (hd : 0x1A2 ≤ d ∧ d < 0x220 ∨ 0x222 ≤ d ∧ d < 0x260 ∨ 0x262 ≤ d ∧ d < 0x2A0) : s.hasUnit (unitAt d).1 = false := by
  have unit : (unitAt d).1 = .ve ∨ (unitAt d).1 = .mx ∨ (unitAt d).1 = .cp := by
    unfold unitAt
    split_ifs <;> simp <;> omega
  rcases unit with h | h | h <;> simp [State.hasUnit, hs, h]

/-- A plain move writes no trigger port. -/
theorem dst_code_not_trigger (e : Dst) :
    ¬(0x1A2 ≤ e.code ∧ e.code < 0x220 ∨ 0x222 ≤ e.code ∧ e.code < 0x260 ∨ 0x262 ≤ e.code ∧ e.code < 0x2A0) := by
  cases e with
  | o u => cases u <;> decide
  | p u => cases u <;> decide
  | _ => simp only [Dst.code]; omega

/-- Settles O16: the checks of class 1 by the mode, and the missing units by the blocks of their ports. -/
theorem privilegeAndMissingUnits : Obligations.PrivilegeAndMissingUnits := by
  unfold Obligations.PrivilegeAndMissingUnits
  refine ⟨fun i a d g s h hs hd => exec_malformed h (hs ▸ modeCheck_priv hd),
    fun i a d g s h hs hd => exec_malformed h (hs ▸ modeCheck_vectorName hd),
    fun i a d g s h hs hg hd ha hv => ?_, fun a u g s w hs hu hg ha hw => ?_⟩
  · have well : formed d a s = true := by
      rw [formed, hs, modeCheck_supervisor ha (by omega) hv]
      rfl
    rcases exec_of_parts h with ⟨e, rfl, rfl⟩ | ⟨us, body, run⟩
    · exact absurd hd (dst_code_not_trigger e)
    · rw [run]
      exact trigger_noUnit well hg (hasUnit_missing hs hd)
  · have latch (e : Dst) (he : ¬(0x40 ≤ e.code ∧ e.code < 0x60)) :
        exec (.move a e g) s = .next (s.updCtx s.cur fun c => c.moveTo e (.sc w)).retired := by
      have well : formed e.code a s = true := by
        rw [formed, hs, hw, modeCheck_supervisor ha he rfl]
        rfl
      rw [execMove_formed well, if_pos hg, hw]
    rcases hu with rfl | rfl | rfl <;> exact ⟨latch _ (by decide), latch _ (by decide)⟩

/-- Settles O17: the check of the tags, case by case, and what a trigger does with it. -/
theorem operandTagsAreChecked : Obligations.OperandTagsAreChecked := by
  unfold Obligations.OperandTagsAreChecked
  refine ⟨fun u d us body a g s => ?_, fun c => rfl, fun a g s v hf hg hv hvF hoF hov => ?_, fun a g s v hf hg hv hvF => ?_⟩
  · intro tags hf hg hu
    refine ⟨fun differ => trigger_untagged hf hg hu (tagCheck_mismatch s.me differ), fun agree => ⟨fun absent =>
      trigger_untagged hf hg hu (tagCheck_absent s.me agree absent), fun present => ⟨?_, fun x hx hxF =>
      commonTag_of_mem agree hx hxF, commonTag_any, rfl⟩⟩⟩
    have clocked : clocked u us a s = true := Option.isNone_iff_eq_none.mpr (tagCheck_present s.me agree present)
    exact trigger_fires (by simp only [fires, hf, hg, hu, clocked, Bool.and_self])
  · refine trigger_untagged hf hg (by simp [State.hasUnit]) (tagCheck_mismatch s.me ?_)
    refine ⟨(s.me.latchO .x0).tag, ?_, v.tag, ?_, hoF, hvF, hov⟩ <;> simp [Uses.vals, hv, Value.tag]
  · have any : ∀ x ∈ ((Uses.t.vals (s.me.latchO .x0) (s.me.latchP .x0) (s.me.src s.issue.limm a)).map Value.tag),
        x = 0xF#4 := by
      simp [Uses.vals, hv, Value.tag, hvF]
    have clocked : clocked .x0 .t a s = true := Option.isNone_iff_eq_none.mpr (tagCheck_present s.me
      (fun x hx y hy _ _ => (any x hx).trans (any y hy).symm) fun x hx hxF => absurd (any x hx) hxF)
    exact ⟨_, trigger_fires (by simp [fires, hf, hg, clocked, State.hasUnit]), rfl⟩

end Sys2Proof.Machine
end

section
/-!
PROOF. Control transfers and the order of fetch (03_bundles R64, 09_seq_control R176, R178, R181).
-/

namespace Sys2Proof.Machine

/-! ### A transfer's checks and its effect -/

/-- The bundle that issues is the end bundle of no armed loop (R181). -/
def State.offLoops (s : State) : Prop :=
  s.me.armedEnd 0 s.issue.bundle = false ∧ s.me.armedEnd 1 s.issue.bundle = false

/-- A target set for the end of the second delay bundle (R64, R178). -/
def State.jumpTo (s : State) (d : Word) : State :=
  s.updCtx s.cur fun c => { c with delay := some ⟨s.issue.bundle, some d⟩ }

theorem State.armed_of_not_offLoops {s : State} (h : ¬s.offLoops) :
    (s.me.armedEnd 0 s.issue.bundle || s.me.armedEnd 1 s.issue.bundle) = true := by
  by_contra off
  rw [Bool.not_eq_true, Bool.or_eq_false_iff] at off
  exact h off

theorem transferTo_ok {s : State} {dest : Word} (taken : Bool) (k : State → State) (off : s.offLoops)
    (aligned : dest.toNat % 32 = 0) : transferTo s dest taken k = .ok (k (if taken then s.jumpTo dest else s)) := by
  obtain ⟨off0, off1⟩ := off
  simp only [transferTo, off0, off1, aligned, Bool.or_self, Bool.false_eq_true, if_false, ne_eq, not_true_eq_false]
  rfl

theorem transferTo_loopForm {s : State} (dest : Word) (taken : Bool) (k : State → State) (armed : ¬s.offLoops) :
    transferTo s dest taken k = .trap 0x0B 5 0 := by
  simp only [transferTo, State.armed_of_not_offLoops armed, if_true]
  rfl

theorem transferTo_misaligned {s : State} {dest : Word} (taken : Bool) (k : State → State) (off : s.offLoops)
    (misaligned : dest.toNat % 32 ≠ 0) : transferTo s dest taken k = .trap 0x0C 5 0 := by
  obtain ⟨off0, off1⟩ := off
  simp only [transferTo, off0, off1, misaligned, Bool.or_self, Bool.false_eq_true, if_false, if_true, ne_eq,
    not_false_eq_true]
  rfl

/-- A trigger whose operation is a control transfer, with the target `dest`, taken or not, and `after` on its effect: what
it leaves, and its two traps. -/
theorem transfer_trigger {d : Nat} {us : Uses} {i : Src → Guard → Instr} {dest : Opnds → State → Word}
    {taken : Opnds → State → Bool} {after : Opnds → State → State} {k : Opnds → State → State}
    (run : ∀ a g s, exec (i a g) s = trigger .br d us (fun x s => transferTo s (dest x s) (taken x s) (after x)) a g s)
    (effect : ∀ x s, after x (if taken x s then s.jumpTo (dest x s) else s) = k x s) :
    completesIf .br d us i (fun x s => s.offLoops ∧ (dest x s).toNat % 32 = 0) k ∧
      trapsIf .br d us i (fun _ s => ¬s.offLoops) 0x0B (fun _ => 0) ∧
      trapsIf .br d us i (fun x s => s.offLoops ∧ (dest x s).toNat % 32 ≠ 0) 0x0C (fun _ => 0) := by
  refine ⟨fun a g s hf h => ?_, fun a g s hf h => ?_, fun a g s hf h => ?_⟩
  · rw [run, trigger_fires hf, transferTo_ok _ _ h.1 h.2, effect, finish_ok]
  · rw [run, trigger_fires hf, transferTo_loopForm _ _ _ h]
  · rw [run, trigger_fires hf, transferTo_misaligned _ _ h.1 h.2]

/-! ### Fetch (R64, R176) -/

theorem Ctx.advance_within (c : Ctx) (a : Word) {i : Nat} (h : i < 7) : c.advance a i = { c with pc := a, first := i + 1 } :=
  if_pos h

theorem Ctx.advance_jumps {c : Ctx} {b d : Word} (h : c.delay = some ⟨b, some d⟩) :
    c.advance (b + 64#64) 7 = { c with pc := d, first := 0, delay := none } := by
  rw [Ctx.advance, if_neg (by omega)]
  simp only [h, if_true]

/-- The bundle after a transfer's own is followed by the second delay bundle. -/
theorem Ctx.advance_delay {c : Ctx} {b : Word} {d : Option Word} (h : c.delay = some ⟨b, d⟩)
    (h0 : c.armedEnd 0 (b + 32#64) = false) (h1 : c.armedEnd 1 (b + 32#64) = false) :
    c.advance (b + 32#64) 7 = { c with pc := b + 64#64, first := 0 } := by
  have first : b + 32#64 ≠ b + 64#64 := by bv_omega
  have next : b + 32#64 + 32#64 = b + 64#64 := by bv_omega
  rw [Ctx.advance, if_neg (by omega)]
  cases d <;> simp only [h, first, h0, h1, next, Bool.false_eq_true, if_false]

/-! ### The obligation -/

/-- Settles O28: each transfer is one use of `transferTo`, and fetch goes on as `Ctx.advance` says. -/
theorem controlTransfers : Obligations.ControlTransfers := by
  unfold Obligations.ControlTransfers
  refine ⟨transfer_trigger (taken := fun _ _ => true) (after := fun _ => id) (fun _ _ _ => rfl) fun _ _ => rfl,
    transfer_trigger (taken := fun x _ => decide (x.o.word = 0#64)) (after := fun x s => s.judge x.o.taint)
      (fun _ _ _ => rfl) fun x s => ?_,
    transfer_trigger (taken := fun x _ => decide (x.o.word ≠ 0#64)) (after := fun x s => s.judge x.o.taint)
      (fun _ _ _ => rfl) fun x s => ?_,
    transfer_trigger (taken := fun _ _ => true) (after := fun x s => s.judge x.t.taint) (fun _ _ _ => rfl) fun _ _ => rfl,
    transfer_trigger (taken := fun _ _ => true)
      (after := fun x s => s.land .brq 1 (.scalar (s.issue.bundle + 96#64) x.tag x.taint) 0#6) (fun _ _ _ => rfl)
      fun x s => ?_,
    fun c b d h => ?_, fun c a i h => ?_, fun c b d h h0 h1 => ?_⟩
  · simp only [decide_eq_true_eq]
    rfl
  · simp only [decide_eq_true_eq]
    rfl
  · simp only [if_true, State.jumpTo, State.updCtx_issue]
    rfl
  · rw [Ctx.advance_jumps h]
    exact ⟨rfl, rfl, rfl⟩
  · rw [Ctx.advance_within c a h]
    exact ⟨rfl, rfl⟩
  · rw [Ctx.advance_delay h h0 h1]
    exact ⟨rfl, h⟩

end Sys2Proof.Machine
end

section
/-!
PROOF. When a result lands (03_bundles R74, R75): what landing does to ports and to what is still on its way, and what
a context's schedule cycles make of one result.
-/

namespace Sys2Proof.Machine

/-! ### One result landing -/

theorem portIdx_val (p : Port) : (portIdx p).val = p.code := by
  cases p <;> rfl

theorem portIdx_inj {p q : Port} (h : portIdx p = portIdx q) : p = q := by
  have codes : p.code = q.code := by rw [← portIdx_val, ← portIdx_val, h]
  exact Option.some.inj (by rw [← Port.ofCode_code p, codes, Port.ofCode_code])

theorem Ctx.setLoop_port (c : Ctx) (n : Nat) (l : Loop) (q : Port) : (c.setLoop n l).port q = c.port q := by
  unfold Ctx.setLoop
  split <;> rfl

theorem Ctx.defClock_port (c : Ctx) (n : Nat) (b : Bool) (q : Port) : (c.defClock n b).port q = c.port q := by
  unfold Ctx.defClock
  split <;> rfl

theorem Ctx.writeReg_port (c : Ctx) (n : Nat) (v : Value) (q : Port) : (c.writeReg n v).port q = c.port q := by
  unfold Ctx.writeReg
  split <;> rfl

theorem Ctx.landOne_port_other {c : Ctx} {p : Pend} {q : Port} (h : p.dest ≠ .port q) :
    (c.landOne p).port q = c.port q := by
  unfold Ctx.landOne
  split
  case h_1 r hr =>
    have other : (portIdx r).val ≠ (portIdx q).val := fun same => h (hr.trans (congrArg _ (portIdx_inj (Fin.ext same))))
    simp [Ctx.port, Ctx.orFlags, other]
  case h_6 => split <;> [rfl; exact Ctx.setLoop_port _ _ _ _]
  all_goals simp only [Ctx.writeReg_port, Ctx.defClock_port, Ctx.setLoop_port] <;> rfl

theorem Ctx.landOne_port_same {c : Ctx} {p : Pend} {q : Port} (h : p.dest = .port q) :
    (c.landOne p).port q = p.val.orTaint c.ctaint := by
  simp [Ctx.landOne, h, Ctx.port, Ctx.orFlags]

/-- Landing changes neither control taint nor what is still on its way. -/
theorem Ctx.landOne_keeps (c : Ctx) (p : Pend) : (c.landOne p).ctaint = c.ctaint ∧ (c.landOne p).pend = c.pend := by
  unfold Ctx.landOne
  split
  case h_2 => unfold Ctx.writeReg; split <;> exact ⟨rfl, rfl⟩
  case h_4 => unfold Ctx.defClock; split <;> exact ⟨rfl, rfl⟩
  case h_5 => unfold Ctx.setLoop; split <;> exact ⟨rfl, rfl⟩
  case h_6 => unfold Ctx.setLoop; split_ifs <;> exact ⟨rfl, rfl⟩
  all_goals exact ⟨rfl, rfl⟩

theorem Ctx.foldl_landOne_keeps (l : List Pend) :
    ∀ c : Ctx, (l.foldl Ctx.landOne c).ctaint = c.ctaint ∧ (l.foldl Ctx.landOne c).pend = c.pend := by
  induction l with
  | nil => exact fun c => ⟨rfl, rfl⟩
  | cons p l ih =>
    intro c
    obtain ⟨taint, pend⟩ := c.landOne_keeps p
    obtain ⟨taint', pend'⟩ := ih (c.landOne p)
    exact ⟨taint'.trans taint, pend'.trans pend⟩

theorem Ctx.foldl_landOne_port_other {q : Port} (l : List Pend) (h : ∀ p ∈ l, p.dest ≠ .port q) :
    ∀ c : Ctx, (l.foldl Ctx.landOne c).port q = c.port q := by
  induction l with
  | nil => exact fun c => rfl
  | cons p l ih =>
    intro c
    rw [List.foldl_cons, ih (fun r hr => h r (List.mem_cons_of_mem _ hr)),
      Ctx.landOne_port_other (h p List.mem_cons_self)]

/-! ### All due results landing -/

theorem mem_of_mem_keepDue {p : Pend} {l : List Pend} (h : p ∈ keepDue l) : p ∈ l := by
  induction l with
  | nil => exact h
  | cons r l ih =>
    rw [keepDue] at h
    split at h
    · exact List.mem_cons_of_mem _ (ih h)
    · rcases List.mem_cons.mp h with rfl | h
      · exact List.mem_cons_self
      · exact List.mem_cons_of_mem _ (ih h)

/-- A later result for a port of its own takes no earlier one's place (R75). -/
theorem keepDue_concat {r : Pend} (l : List Pend) (h : ∀ p ∈ l, p.dest ≠ r.dest) : keepDue (l ++ [r]) = keepDue l ++ [r] := by
  induction l with
  | nil =>
    have alone : lostBy r [] = false := by unfold lostBy; split <;> rfl
    simp [keepDue, alone]
  | cons p l ih =>
    have same : lostBy p (l ++ [r]) = lostBy p l := by
      unfold lostBy
      split
      · next q hq =>
        have other : ¬r.dest = .port q := fun hr => h p List.mem_cons_self (hq.trans hr.symm)
        simp [other]
      · rfl
    rw [List.cons_append, keepDue, keepDue, same, ih fun p hp => h p (List.mem_cons_of_mem _ hp)]
    split <;> rfl

theorem Ctx.landDue_pend (c : Ctx) : c.landDue.pend = c.pend.filter fun p => !p.due := by
  rw [Ctx.landDue, (Ctx.foldl_landOne_keeps _ _).2, (Ctx.foldl_landOne_keeps _ _).2]

theorem Ctx.landDue_ctaint (c : Ctx) : c.landDue.ctaint = c.ctaint := by
  rw [Ctx.landDue, (Ctx.foldl_landOne_keeps _ _).1, (Ctx.foldl_landOne_keeps _ _).1]

theorem Ctx.landDue_port_other {c : Ctx} {q : Port} (h : ∀ p ∈ c.pend, p.due = true → p.dest ≠ .port q) :
    c.landDue.port q = c.port q := by
  have kept {f : Pend → Bool} : ∀ p ∈ (keepDue (c.pend.filter Pend.due)).filter f, p.dest ≠ .port q := fun p hp =>
    have due := List.mem_filter.mp (mem_of_mem_keepDue (List.mem_filter.mp hp).1)
    h p due.1 due.2
  rw [Ctx.landDue, Ctx.foldl_landOne_port_other _ kept, Ctx.foldl_landOne_port_other _ kept]
  rfl

/-! ### A result on its way to a port, with no other for it -/

/-- A result of fixed latency on its way, due in `n` schedule cycles. -/
def Pend.inFlight (n : Nat) (dest : Land) (v : Value) (f : Num.Flags) : Pend := ⟨n, dest, v, f, false, [], 0#64, none, none⟩

/-- The last result of a context is due at a port in `n` cycles and is the only one for it; the port still holds `old`. -/
structure Ctx.Awaits (c : Ctx) (q : Port) (n : Nat) (v : Value) (f : Num.Flags) (old : Value) (taint : Bool) : Prop where
  pend : ∃ ps, c.pend = ps ++ [Pend.inFlight n (.port q) v f] ∧ ∀ p ∈ ps, p.dest ≠ .port q
  port : c.port q = old
  ctaint : c.ctaint = taint

section
variable {c : Ctx} {q : Port} {v old : Value} {f : Num.Flags} {taint : Bool}

theorem Ctx.Awaits.schedule {lat : Nat} (h : ∀ p ∈ c.pend, p.dest ≠ .port q) :
    (c.schedule (.port q) lat v f).tick.Awaits q (lat - 1) v f (c.port q) c.ctaint where
  pend := by
    refine ⟨c.pend.map fun p => { p with left := p.left - 1 }, by simp [Ctx.tick, Ctx.schedule, Pend.inFlight], ?_⟩
    intro p hp
    obtain ⟨r, hr, rfl⟩ := List.mem_map.mp hp
    exact h r hr
  port := rfl
  ctaint := rfl

theorem Ctx.Awaits.landDue_port {n : Nat} (h : c.Awaits q (n + 1) v f old taint) : c.landDue.port q = old := by
  obtain ⟨⟨ps, pend, other⟩, port, -⟩ := h
  rw [Ctx.landDue_port_other, port]
  intro p hp hdue
  rw [pend, List.mem_append, List.mem_singleton] at hp
  rcases hp with hp | rfl
  · exact other p hp
  · simp [Pend.due, Pend.inFlight] at hdue

theorem Ctx.Awaits.cycle {n : Nat} (h : c.Awaits q (n + 1) v f old taint) : c.landDue.tick.Awaits q n v f old taint where
  pend := by
    obtain ⟨⟨ps, pend, other⟩, -, -⟩ := h
    refine ⟨(ps.filter fun p => !p.due).map fun p => { p with left := p.left - 1 }, ?_, ?_⟩
    · simp [Ctx.tick, Ctx.landDue_pend, pend, Pend.inFlight, Pend.due]
    · intro p hp
      obtain ⟨r, hr, rfl⟩ := List.mem_map.mp hp
      exact other r (List.mem_filter.mp hr).1
  port := h.landDue_port
  ctaint := (Ctx.landDue_ctaint c).trans h.ctaint

theorem Ctx.Awaits.cycles {n : Nat} (k : Nat) : ∀ {c : Ctx}, c.Awaits q (n + k) v f old taint →
    (c.cycles k).Awaits q n v f old taint := by
  induction k with
  | zero => exact fun h => h
  | succ k ih => exact fun h => ih h.cycle

theorem Ctx.Awaits.lands (h : c.Awaits q 0 v f old taint) : c.landDue.port q = v.orTaint taint := by
  obtain ⟨⟨ps, pend, other⟩, -, rfl⟩ := h
  have due : keepDue (c.pend.filter Pend.due) = keepDue (ps.filter Pend.due) ++ [Pend.inFlight 0 (.port q) v f] := by
    rw [pend, List.filter_append, show [Pend.inFlight 0 (.port q) v f].filter Pend.due = [Pend.inFlight 0 (.port q) v f] from rfl]
    exact keepDue_concat _ fun p hp => other p (List.mem_filter.mp hp).1
  have last : ∀ l : List Pend, (l ++ [Pend.inFlight 0 (.port q) v f]).filter (fun p => !p.isReg) =
      (l.filter fun p => !p.isReg) ++ [Pend.inFlight 0 (.port q) v f] := fun l => by simp [Pend.isReg, Pend.inFlight]
  rw [Ctx.landDue, due, last, List.foldl_append, List.foldl_cons, List.foldl_nil,
    Ctx.landOne_port_same (q := q) rfl, (Ctx.foldl_landOne_keeps _ _).1, (Ctx.foldl_landOne_keeps _ _).1]
  rfl

end

/-! ### A result that is the only one on its way -/

theorem Ctx.landDue_alone_early {c : Ctx} {n : Nat} {dest : Land} {v : Value} (hf : c.ffPre = none) :
    ({ c with pend := [Pend.inFlight (n + 1) dest v 0#6] } : Ctx).landDue =
      { c with pend := [Pend.inFlight (n + 1) dest v 0#6] } := by
  have notDue : (Pend.inFlight (n + 1) dest v 0#6).due = false := rfl
  simp only [Ctx.landDue, List.filter_cons, notDue, List.filter_nil, keepDue, List.foldl_nil, Bool.not_false,
    Bool.false_eq_true, if_false, if_true, hf]

theorem Ctx.landDue_alone_due {c : Ctx} {dest : Land} {v : Value} (hp : c.pend = []) (hf : c.ffPre = none) :
    ({ c with pend := [Pend.inFlight 0 dest v 0#6] } : Ctx).landDue = c.landOne (Pend.inFlight 0 dest v 0#6) := by
  have due : (Pend.inFlight 0 dest v 0#6).due = true := rfl
  have alone : keepDue [Pend.inFlight 0 dest v 0#6] = [Pend.inFlight 0 dest v 0#6] := keepDue_concat [] (by simp)
  have flags : (Pend.inFlight 0 dest v 0#6).flags = 0#6 := rfl
  have same : ({ c with pend := [], ffPre := none } : Ctx) = c := by rw [← hp, ← hf]
  cases reg : (Pend.inFlight 0 dest v 0#6).isReg <;>
    simp only [Ctx.landDue, List.filter_cons, List.filter_nil, due, alone, reg, flags, List.foldl_cons, List.foldl_nil,
      Bool.not_true, Bool.not_false, Bool.false_eq_true, if_false, if_true, BitVec.or_self, hf, same]

theorem Ctx.cycles_alone {c : Ctx} {dest : Land} {v : Value} (hf : c.ffPre = none) (n k : Nat) :
    ({ c with pend := [Pend.inFlight (n + k) dest v 0#6] } : Ctx).cycles k =
      { c with pend := [Pend.inFlight n dest v 0#6] } := by
  induction k with
  | zero => rfl
  | succ k ih =>
    have tick : ({ c with pend := [Pend.inFlight (n + k + 1) dest v 0#6] } : Ctx).tick =
        { c with pend := [Pend.inFlight (n + k) dest v 0#6] } := by
      simp only [Ctx.tick, List.map_cons, List.map_nil, hf]
      rfl
    rw [← Nat.add_assoc, Ctx.cycles, Ctx.landDue_alone_early hf, tick, ih]

/-! ### The obligation -/

/-- Settles O13, by induction on the schedule cycles: what is said of the result on its way holds in each of them. -/
theorem resultLandsAfterItsLatency : Obligations.ResultLandsAfterItsLatency := by
  unfold Obligations.ResultLandsAfterItsLatency
  refine ⟨fun c q lat v f hlat hother => ?_, fun c dest lat v hlat hp hf => ?_⟩
  · have start := Ctx.Awaits.schedule (lat := lat) (v := v) (f := f) hother
    refine ⟨(Ctx.Awaits.cycles (n := 0) (lat - 1) (by rwa [Nat.zero_add])).lands, fun k hk => ?_⟩
    obtain ⟨n, hn⟩ : ∃ n, lat - 1 = n + 1 + k := ⟨lat - 1 - k - 1, by omega⟩
    exact (Ctx.Awaits.cycles k (hn ▸ start)).landDue_port
  · have start : (c.schedule dest lat v 0#6).tick = { c with pend := [Pend.inFlight (lat - 1) dest v 0#6] } := by
      simp only [Ctx.tick, Ctx.schedule, hp, List.nil_append, List.map_cons, List.map_nil, hf]
      rfl
    have after (n k : Nat) (h : lat - 1 = n + k) :
        (c.schedule dest lat v 0#6).tick.cycles k = { c with pend := [Pend.inFlight n dest v 0#6] } := by
      rw [start, h, Ctx.cycles_alone hf]
    refine ⟨?_, fun k hk => ?_⟩
    · rw [after 0 (lat - 1) (by omega), Ctx.landDue_alone_due hp hf]
      rfl
    · obtain ⟨n, hn⟩ : ∃ n, lat - 1 - k = n + 1 := ⟨lat - 1 - k - 1, by omega⟩
      rw [after (n + 1) k (by omega), Ctx.landDue_alone_early hf, hn]
      rfl

end Sys2Proof.Machine
end

section
/-!
PROOF. A group's moves executed slot by slot, and the step that issues a group (03_bundles R59, R60, R63, 10_seq_traps R205).
-/

namespace Sys2Proof.Machine

/-! ### One slot -/

theorem rawMove_of_decodeSlot {w : BitVec 24} {i : Instr} (h : decodeSlot w = .ok i) : rawMove w = true := by
  obtain ⟨s, g, -, guard, -⟩ := fields_of_decodeSlot h
  have := g.code_lt
  exact decide_eq_true (by omega)

section
variable {ex : Exec} {x : CtxRef} {c0 : Ctx} {pre : Before} {f : Fold} {e : GSlot} {i : Instr} {t : State}

/-- A slot that decodes is its move, where the emulation handler has carried none out. -/
theorem Fold.slot_decoded (hgone : f.gone = false) (hidle : e.idleTransfer c0 = false) (hemu : c0.emuDone = [])
    (hi : decodeSlot e.raw = .ok i) : f.slot ex x c0 pre e = f.move ex x c0 pre e i := by
  have emulated : (if c0.emu then none else c0.emuDone.find? fun m => decide (m.slot = e.slot)) = none := by
    rw [hemu, List.find?_nil, ite_self]
  simp only [Fold.slot, hgone, rawMove_of_decodeSlot hi, hidle, emulated, hi, Bool.not_true, Bool.or_self,
    Bool.false_eq_true, if_false]

theorem Fold.slot_empty (h : rawMove e.raw = false) : f.slot ex x c0 pre e = .ok f := by
  simp only [Fold.slot, h, Bool.not_false, Bool.or_true, if_true]

/-- A move that meets no data of its own group's commands is taken into account as it ended. -/
theorem Fold.move_next (hex : ex i (f.st.atSlot e pre) = .next t) (hown : (f.st.atSlot e pre).metOwn x t = false) :
    f.move ex x c0 pre e i = .ok (f.take x c0 e t) := by
  simp only [Fold.move, hex, hown, Bool.not_false, if_true]

theorem State.metOwn_done {s : State} (h : t.last = .done) : s.metOwn x t = false := by
  simp only [State.metOwn, h]

theorem State.metOwn_trapped {s : State} {tr : Trap} (h : t.last = .trapped tr) : s.metOwn x t = false := by
  simp only [State.metOwn, h]

theorem State.metOwn_noCmds {s : State} (h : s.ownCmds x.core = []) : s.metOwn x t = false := by
  unfold State.metOwn
  split
  · rw [h]; rfl
  · rfl

theorem Fold.take_done (h : t.last = .done) (hrun : sameRun c0 (t.ctx x) = true) :
    f.take x c0 e t = { f with st := t, gone := false } := by
  simp only [Fold.take, h, hrun, Bool.not_true]

end

/-! ### A group all of whose moves complete -/

/-- Moves that complete one after the other leave the state they come to. -/
theorem foldSlots_of_runsAll {x : CtxRef} {c0 : Ctx} {pre : Before} (hemu : c0.emuDone = []) (l : List GSlot) :
    ∀ {s t : State}, runsAll x c0 pre l s t →
      foldSlots exec x c0 pre ⟨s, none, none, false, false⟩ l = .ok ⟨t, none, none, false, false⟩ := by
  induction l with
  | nil => rintro s t rfl; rfl
  | cons e l ih =>
    rintro s t (⟨empty, rest⟩ | ⟨hidle, i, u, hi, hex, hdone, hrun, rest⟩)
    · rw [foldSlots, Fold.slot_empty empty]
      exact ih rest
    · rw [foldSlots, Fold.slot_decoded rfl hidle hemu hi, Fold.move_next hex (State.metOwn_done hdone),
        Fold.take_done hdone hrun]
      exact ih rest

/-- A group that passes its checks ends as its slots do. -/
theorem State.issueGroup_checked {ex : Exec} {s : State} {x : CtxRef} {gr : Group} {f : Fold}
    (hcheck : gr.check (isSup x.core) (s.ctx x) = none) (hfail : gr.fail = none)
    (hfold : foldSlots ex x (s.ctx x) (s.before x.core) ⟨s, none, none, false, false⟩ (execOrder gr.slots) = .ok f) :
    s.issueGroup ex x gr = .next (f.close x s gr.slots) := by
  simp only [State.issueGroup, hcheck, hfail, hfold]

/-- Settles O6, by induction over the slots. -/
theorem groupRunsItsMovesTogether : Obligations.GroupRunsItsMovesTogether := by
  unfold Obligations.GroupRunsItsMovesTogether
  intro s t x gr hcheck hfail hemu hruns
  exact State.issueGroup_checked hcheck hfail (foldSlots_of_runsAll hemu _ hruns)

/-! ### The turn of a context that issues -/

theorem execOrder_single (e : GSlot) : execOrder [e] = [e] := by
  unfold execOrder
  cases h : decide (0x60 ≤ rawDst e.raw ∧ rawDst e.raw < 0x70) <;> simp only [List.filter_cons, List.filter_nil, h] <;> rfl

theorem foldSlots_single {ex : Exec} {x : CtxRef} {c0 : Ctx} {pre : Before} {f f' : Fold} {e : GSlot}
    (h : f.slot ex x c0 pre e = .ok f') : foldSlots ex x c0 pre f [e] = .ok f' := by
  rw [foldSlots, h]
  rfl

/-- The turn of context `k` of core `n` is `issueAct` of that context. -/
theorem State.act_issueTurn {n k : Nat} (hn : n < 529) (hk : k < 4) (ex : Exec) (s : State) :
    s.act ex (issueTurn n k) = s.issueAct ex ⟨n, k⟩ := by
  have core : (10000 + 4 * n + k) % 10000 / 4 = n := by omega
  have ctx : (10000 + 4 * n + k) % 4 = k := by omega
  unfold State.act issueTurn
  simp only [core, ctx]
  rw [if_neg (by omega), if_neg (by omega), if_neg (by omega), if_neg (by omega), if_neg (by omega), if_neg (by omega),
    if_neg (by omega), if_pos (by omega)]

/-- A step in which the agenda is empty and the machine has booted is the turn at the head of the list. -/
theorem step_turn {s : State} {a : Nat} {rest : List Nat} (ha : s.agenda = []) (hb : s.boot ≠ .pending)
    (ht : s.turn = a :: rest) : step s = ({ s with turn := rest } : State).act exec a := by
  simp only [step, State.stepWith, ha, if_neg hb, ht]

theorem State.issueAct_ready {ex : Exec} {s : State} {x : CtxRef} (hrun : (s.core x.core).running = some x.ctx)
    (hready : (s.ctx x).status = .ready) (hstand : s.standing x.core = false) : s.issueAct ex x = s.issue1 ex x := by
  rw [State.issueAct, if_pos ⟨hrun, hready, by rw [hstand]; rfl⟩]

/-- A context whose fetch succeeds issues the group formed. -/
theorem State.issue1_fetched {ex : Exec} {s q t : State} {x : CtxRef} {b : Bundle}
    (hq : q = ({ s with cur := x } : State).updCtx x Ctx.landDue) (hlate : (s.ctx x).lateNow = [])
    (hbreak : q.breakHit x = false) (hfetch : q.fetch x (q.ctx x).pc = .ok b)
    (hissue : q.issueGroup ex x (q.form x b) = .next t) : s.issue1 ex x = .next (t.rehalt x) := by
  have late : (({ s with cur := x } : State).ctx x).lateNow = [] := hlate
  subst hq
  simp only [State.issue1, late, ne_eq, not_true_eq_false, if_false, hbreak, Bool.false_eq_true, hfetch, hissue]

/-- Settles O5: the step is the turn at the head of the list, the turn is the group, and the group is its one move. -/
theorem stepRunsTheDecodedInstruction : Obligations.StepRunsTheDecodedInstruction := by
  unfold Obligations.StepRunsTheDecodedInstruction
  refine ⟨fun s i rest h => by simp only [step, State.stepWith, h], ?_⟩
  intro s q t n k rest b e i ha hb hn hk ht hrun hready hstand hlate hq hbreak hfetch hform hcheck hidle hemu hi hex
  have acts : step s = ({ s with turn := rest } : State).issue1 exec ⟨n, k⟩ := by
    rw [step_turn ha hb ht, State.act_issueTurn hn hk]
    exact State.issueAct_ready hrun hready hstand
  have ends (f : Fold) (h : (⟨q, none, none, false, false⟩ : Fold).move exec ⟨n, k⟩ (q.ctx ⟨n, k⟩) (q.before n) e i = .ok f) :
      step s = .next ((f.close ⟨n, k⟩ q [e]).rehalt ⟨n, k⟩) := by
    have slots : foldSlots exec ⟨n, k⟩ (q.ctx ⟨n, k⟩) (q.before n) ⟨q, none, none, false, false⟩ (execOrder [e]) = .ok f := by
      rw [execOrder_single]
      exact foldSlots_single ((Fold.slot_decoded rfl hidle hemu hi).trans h)
    have issues : q.issueGroup exec ⟨n, k⟩ (q.form ⟨n, k⟩ b) = .next (f.close ⟨n, k⟩ q [e]) := by
      rw [hform]
      exact State.issueGroup_checked hcheck rfl slots
    rw [acts]
    exact State.issue1_fetched hq hlate hbreak hfetch issues
  refine ⟨fun hdone hsame => ?_, fun bl hblock hown => ?_, fun tr htrap => ?_⟩
  · rw [ends ⟨t, none, none, false, false⟩ (by rw [Fold.move_next hex (State.metOwn_done hdone), Fold.take_done hdone hsame])]
    rfl
  · rw [ends ⟨q, none, some bl, false, false⟩ (by rw [Fold.move_next hex (State.metOwn_noCmds hown), Fold.take, hblock]; rfl)]
    rfl
  · rw [ends ⟨q, some (tr, e.limm), none, false, false⟩
      (by rw [Fold.move_next hex (State.metOwn_trapped htrap), Fold.take, htrap]; rfl)]
    rfl

end Sys2Proof.Machine
end

section
/-!
PROOF. Results that land late, held adds, load-blocks filled and a `sy.tend` retired (03_bundles R74, R77, 10_seq_traps R203,
R206, 05_ordering R116, 04_memory R89, 09_seq_control R198).
-/

namespace Sys2Proof.Machine

/-! ### Contexts after a change -/

theorem CtxRef.apart {x y : CtxRef} (hx : x.wf = true) (hy : y.ctx < 4) (h : y ≠ x) :
    y.core ≠ x.core ∨ x.ctx % 4 ≠ y.ctx % 4 := by
  obtain ⟨n, k⟩ := x
  obtain ⟨m, j⟩ := y
  simp only [CtxRef.wf, Bool.and_eq_true, decide_eq_true_eq] at hx
  simp only [ne_eq, CtxRef.mk.injEq, not_and] at h ⊢
  simp only at hy
  by_cases hm : m = n
  · exact .inr fun same => h hm (by omega)
  · exact .inl hm

/-- A context changed to what it was leaves every context as it was. -/
theorem State.ctx_updCtx_id {s : State} {x : CtxRef} {f : Ctx → Ctx} (h : f (s.ctx x) = s.ctx x) (y : CtxRef) :
    (s.updCtx x f).ctx y = s.ctx y := by
  have core : (s.core x.core).setCtx x.ctx (s.ctx x) = s.core x.core := by
    simp [Core.setCtx, State.ctx, Core.ctx]
  by_cases hy : y.core = x.core
  · simp only [State.ctx, State.updCtx, State.setCtx, hy, State.core_updCore] at h ⊢
    rw [h]
    exact congrArg (·.ctx y.ctx) core
  · exact State.ctx_updCtx_other _ _ _ _ (.inl hy)

theorem Core.ctx_mapCtx (k : Core) (f : Ctx → Ctx) (n : Nat) : (k.mapCtx f).ctx n = f (k.ctx n) := by
  simp [Core.ctx, Core.mapCtx]

theorem State.ctx_updCore (s : State) (n : Nat) (f : Core → Core) (k : Nat) :
    (s.updCore n f).ctx ⟨n, k⟩ = (f (s.core n)).ctx k := by
  rw [State.ctx, State.core_updCore]

/-! ### A trace record changes the observation engine alone (R373) -/

theorem State.seal_obs (s : State) : ∃ o, s.seal = { s with obs := o } := by
  unfold State.seal
  dsimp only
  split
  · exact ⟨s.obs, rfl⟩
  · exact ⟨_, rfl⟩

theorem State.record_obs (s : State) (r : Nat) : ∃ o, s.record r = { s with obs := o } := by
  unfold State.record
  dsimp only
  split
  · obtain ⟨o, sealed⟩ := State.seal_obs { s with obs := { s.obs with
      open_ := s.obs.open_ ++ [leBytes 64 r], tb0 := if s.obs.open_ = [] then s.timebase.toNat else s.obs.tb0 } }
    exact ⟨o, by rw [sealed]⟩
  · exact ⟨_, rfl⟩

theorem State.traceCtx_obs (s : State) (x : CtxRef) (bit kind : Nat) (taint : Bool) (payload : Nat) :
    ∃ o, s.traceCtx x bit kind taint payload = { s with obs := o } := by
  unfold State.traceCtx
  dsimp only
  split
  · exact State.record_obs ..
  · exact ⟨s.obs, rfl⟩

/-- A core whose freeze line has dropped, halted where a halt has waited for it (R204). -/
def Core.unfrozen (due : Bool) (k : Core) : Core :=
  if due then Core.halt { k with freeze := none } else { k with freeze := none }

theorem Core.unfrozen_freeze (due : Bool) (k : Core) : (k.unfrozen due).freeze = none := by
  cases due <;> rfl

theorem Core.unfrozen_ctx (due : Bool) (k : Core) (n : Nat) :
    (k.unfrozen due).ctx n = k.ctx n ∨ (k.unfrozen due).ctx n = (k.ctx n).halt := by
  cases due with
  | false => exact .inl rfl
  | true => exact .inr (Core.ctx_mapCtx _ _ _)

/-- A freeze dropped: the core stands in none, and only its halts, its record and the halts due change besides. -/
theorem State.dropFreeze_eq (s : State) (n : Nat) :
    s.dropFreeze n = s ∧ (s.core n).freeze = none ∨
      ∃ o hs, s.dropFreeze n =
        { s with cores := (s.updCore n (Core.unfrozen (s.haltDue.contains n))).cores, obs := o, haltDue := hs } := by
  cases hf : (s.core n).freeze with
  | none => exact .inl ⟨by rw [State.dropFreeze, hf], rfl⟩
  | some z =>
    right
    rw [State.dropFreeze, hf]
    dsimp only
    split
    · split
      · next k _ _ =>
        obtain ⟨o, traced⟩ := State.traceCtx_obs (({ s with haltDue := numDel s.haltDue n } : State).updCore n
          (Core.unfrozen (s.haltDue.contains n))) ⟨n, k⟩ 2 0x102 false
            (z.last + z.cmask.toNat * 2 ^ 8 + min (2 ^ 32 - 1) (s.timebase.toNat - z.since) * 2 ^ 32 +
              z.addr.toNat % 2 ^ 56 * 2 ^ 64)
        exact ⟨o, numDel s.haltDue n, traced⟩
      · exact ⟨s.obs, numDel s.haltDue n, rfl⟩
    · exact ⟨s.obs, numDel s.haltDue n, rfl⟩

@[simp] theorem State.dropFreeze_store (s : State) (n : Nat) : (s.dropFreeze n).store = s.store := by
  rcases s.dropFreeze_eq n with ⟨same, -⟩ | ⟨o, hs, dropped⟩
  · rw [same]
  · rw [dropped]

theorem State.core_congr {s t : State} (h : t.cores = s.cores) (n : Nat) : t.core n = s.core n := by
  rw [State.core, State.core, h]

theorem State.dropFreeze_cores (s : State) (n : Nat) :
    s.dropFreeze n = s ∧ (s.core n).freeze = none ∨
      (s.dropFreeze n).cores = (s.updCore n (Core.unfrozen (s.haltDue.contains n))).cores :=
  (s.dropFreeze_eq n).imp id fun ⟨_, _, dropped⟩ => by rw [dropped]

theorem State.dropFreeze_freeze (s : State) (n : Nat) : ((s.dropFreeze n).core n).freeze = none := by
  rcases s.dropFreeze_cores n with ⟨same, none⟩ | dropped
  · rw [same, none]
  · rw [State.core_congr dropped, State.core_updCore, Core.unfrozen_freeze]

theorem Ctx.halt_pend (c : Ctx) : c.halt.pend = c.pend := by
  unfold Ctx.halt
  split <;> rfl

/-- Dropping a freeze leaves each context of the core as it was, or halts it. -/
theorem State.dropFreeze_ctx (s : State) (n : Nat) (y : CtxRef) :
    (s.dropFreeze n).ctx y = s.ctx y ∨ (s.dropFreeze n).ctx y = (s.ctx y).halt := by
  rcases s.dropFreeze_cores n with ⟨same, -⟩ | dropped
  · exact .inl (by rw [same])
  · rw [State.ctx_congr dropped, State.ctx]
    by_cases hy : y.core = n
    · rw [← hy, State.core_updCore]
      exact Core.unfrozen_ctx _ _ _
    · exact .inl (by rw [State.core_updCore_other _ _ _ _ hy]; rfl)

theorem State.dropFreeze_lateNow (s : State) (n : Nat) (y : CtxRef) :
    ((s.dropFreeze n).ctx y).lateNow = (s.ctx y).lateNow := by
  rcases s.dropFreeze_ctx n y with same | halted
  · rw [same]
  · rw [halted, Ctx.lateNow, Ctx.halt_pend]
    rfl

/-! ### Late data that come (R77, R203) -/

theorem State.frozenLate_some {s : State} {n k : Nat} (hf : (s.core n).freeze.isSome = true)
    (hr : (s.core n).running = some k) (hl : (s.ctx ⟨n, k⟩).lateNow ≠ []) : s.frozenLate n = some k := by
  obtain ⟨z, hz⟩ := Option.isSome_iff_exists.mp hf
  simp only [State.frozenLate, hz, hr, if_neg hl]

theorem State.frozenLate_none {s : State} {n : Nat} (hf : (s.core n).freeze = none) : s.frozenLate n = none := by
  simp only [State.frozenLate, hf]

section
variable {s : State} {n k : Nat} {f : Pend → Pend} {late : List Pend}

/-- The pending results of a core's contexts changed as data come, with the last of them noted in the core's freeze. -/
def State.dataNoted (s : State) (n k : Nat) (f : Pend → Pend) : State :=
  (s.updCore n fun c => c.mapCtx fun c => c.mapPend f).updCore n fun c => { c with freeze := c.freeze.map fun z =>
    { z with last := (((s.ctx ⟨n, k⟩).lateNow.filter fun p => !(f p).late).flatMap Pend.fcause).getLast?.getD z.last } }

theorem State.dataCome_frozen (h : s.frozenLate n = some k) :
    s.dataCome n f = if ((s.dataNoted n k f).ctx ⟨n, k⟩).lateNow = [] then (s.dataNoted n k f).dropFreeze n
      else s.dataNoted n k f := by
  simp only [State.dataCome, h]
  rfl

theorem State.dataNoted_freeze : ((s.dataNoted n k f).core n).freeze.isSome = (s.core n).freeze.isSome := by
  simp only [State.dataNoted, State.core_updCore, Option.isSome_map]
  rfl

theorem State.dataNoted_lateNow : ((s.dataNoted n k f).ctx ⟨n, k⟩).lateNow =
    ((s.ctx ⟨n, k⟩).pend.map f).filter fun p => decide (p.left = 0) && p.late := by
  have ctx : (s.dataNoted n k f).ctx ⟨n, k⟩ = (s.ctx ⟨n, k⟩).mapPend f := by
    rw [State.dataNoted, State.ctx_updCore, State.core_updCore]
    exact Core.ctx_mapCtx _ _ _
  rw [ctx]
  rfl

/-- Of the late results of a frozen core's running context, data coming leaves those that `f` leaves late, and the
freeze stands as long as there is one. -/
theorem State.dataCome_late (h : s.frozenLate n = some k) (hz : (s.core n).freeze.isSome = true)
    (hlate : (((s.ctx ⟨n, k⟩).pend.map f).filter fun p => decide (p.left = 0) && p.late) = late) :
    (s.dataCome n f).store = s.store ∧ ((s.dataCome n f).ctx ⟨n, k⟩).lateNow = late ∧
      ((s.dataCome n f).core n).freeze.isSome = !decide (late = []) := by
  have noted : ((s.dataNoted n k f).ctx ⟨n, k⟩).lateNow = late := State.dataNoted_lateNow.trans hlate
  rw [State.dataCome_frozen h, noted]
  split
  · next none =>
    refine ⟨State.dropFreeze_store _ _, by rw [State.dropFreeze_lateNow, noted], ?_⟩
    rw [State.dropFreeze_freeze, none]
    rfl
  · next some =>
    refine ⟨rfl, noted, ?_⟩
    rw [State.dataNoted_freeze, hz, decide_eq_false some]
    rfl

end

/-- Late results that have no event of their own come; the others stay late. -/
theorem State.lateNow_arrive (s : State) (n : Nat) (ps : List Pend) :
    ((ps.map fun p => if p.left = 0 then s.arrive n p else p).filter fun p => decide (p.left = 0) && p.late) =
      (ps.filter fun p => decide (p.left = 0) && p.late).filter (s.awaitsMore n) := by
  induction ps with
  | nil => rfl
  | cons p ps ih =>
    have arrived : s.arrive n p = if s.awaitsMore n p then p else { p with late := false, fill := none } := rfl
    by_cases hl : p.left = 0 <;> cases hw : s.awaitsMore n p <;> cases hp : p.late <;>
      simp [arrived, hl, hw, hp, ih]

theorem State.awaitsMore_iff (s : State) (n : Nat) (p : Pend) : s.awaitsMore n p = true ↔ p.await.isSome = true ∨
    ∃ k base, p.fill = some (k, base) ∧ ∃ b ∈ (s.ctx ⟨n, k⟩).blocks, b.base = base ∧ b.filled = false := by
  simp only [State.awaitsMore, Bool.or_eq_true, Option.any_eq_true, List.any_eq_true, Bool.and_eq_true, decide_eq_true_eq,
    Bool.not_eq_true', Prod.exists]

/-! ### Implicit yields (R206) -/

theorem State.mem_readySiblings (s : State) (x : CtxRef) (k : Nat) :
    k ∈ s.readySiblings x ↔ k < 4 ∧ k ≠ x.ctx ∧ (s.ctx ⟨x.core, k⟩).status = .ready := by
  simp only [State.readySiblings, List.mem_filter, List.mem_range, Bool.and_eq_true, decide_eq_true_eq]

theorem State.yieldTo_siblings {s : State} {x : CtxRef} (h : s.readySiblings x ≠ []) :
    s.yieldTo x = s.setStatus x (.blocked (.yield (s.readySiblings x))) := by
  unfold State.yieldTo
  split
  · next none => exact absurd none h
  · rfl

end Sys2Proof.Machine
end

section
/-!
PROOF. Held adds, load-blocks filled and a `sy.tend` retired (05_ordering R116, 04_memory R89, 09_seq_control R198), and what
is said of results, adds and retirement together.
-/

namespace Sys2Proof.Machine

/-! ### Held adds (R116) -/

theorem State.sameButFabric.cores {s t : State} (h : s.sameButFabric t) : t.cores = s.cores := by
  obtain ⟨f, ds, rfl⟩ := h
  rfl

/-- A local counter of a context raised (R192). -/
def Ctx.addLocal (i : Nat) (n : Word) (c : Ctx) : Ctx :=
  { c with lctr := c.lctr.set (Fin.ofNat 16 i) (satAdd c.lctr[Fin.ofNat 16 i] n) }

/-- Of the cores, an add to a counter changes at most a local counter of its context. -/
theorem State.applyAdd_cores (s : State) (x : CtxRef) (c : Sel) (n : Word) :
    (s.applyAdd x c n).cores = s.cores ∨ ∃ i, (s.applyAdd x c n).cores = (s.updCtx x (Ctx.addLocal i n)).cores := by
  unfold State.applyAdd
  split
  · exact .inl rfl
  · next i => exact .inr ⟨i, rfl⟩
  · split <;> exact .inl rfl
  · exact .inl rfl
  · exact .inl (State.sendFor_sameButFabric ..).cores

theorem State.applyAdd_adds (s : State) (x : CtxRef) (c : Sel) (n : Word) (m : Nat) :
    ((s.applyAdd x c n).core m).adds = (s.core m).adds := by
  rcases s.applyAdd_cores x c n with same | ⟨i, raised⟩
  · rw [State.core_congr same]
  · rw [State.core_congr raised]
    exact (State.core_updCtx s x _ m).2.2.2

section
variable {s : State} {x : CtxRef} {a : HeldAdd}

theorem State.nextAdds_single (h : ((s.core x.core).adds.filter fun b => decide (b.ctx = x.ctx)) = [a]) :
    s.nextAdds x = [a] := by
  simp only [State.nextAdds, h]
  cases (s.ctx x).bank with
  | none => rfl
  | some b => cases ho : b.owns a <;> simp [ho]

theorem State.nextAdds_none (h : ((s.core x.core).adds.filter fun b => decide (b.ctx = x.ctx)) = []) :
    s.nextAdds x = [] := by
  simp only [State.nextAdds, h]
  cases (s.ctx x).bank <;> rfl

theorem State.applyHeld_none (h : (s.nextAdds x).find? (s.addReady x.core) = none) (n : Nat) : s.applyHeld x n = s := by
  cases n with
  | zero => rfl
  | succ n => simp only [State.applyHeld, h]

/-- A context's only held add, once its condition is met, is taken from the list and raises its counter. -/
theorem State.applyHeld_single (h : ((s.core x.core).adds.filter fun b => decide (b.ctx = x.ctx)) = [a])
    (hr : s.addReady x.core a = true) (n : Nat) :
    let u := s.updCore x.core fun k => { k with adds := k.adds.erase a }
    s.applyHeld x (n + 1) = u.applyAdd x (u.sel x (BitVec.ofNat 64 a.ctr)) a.n := by
  intro u
  have found : (s.nextAdds x).find? (s.addReady x.core) = some a := by
    rw [State.nextAdds_single h, List.find?_cons_of_pos hr]
  have gone : (u.core x.core).adds.filter (fun b => decide (b.ctx = x.ctx)) = [] := by
    rw [State.core_updCore]
    change ((s.core x.core).adds.erase a).filter _ = []
    rw [← List.erase_filter, h, List.erase_cons_head]
  simp only [State.applyHeld, found]
  refine State.applyHeld_none ?_ n
  rw [State.nextAdds_none, List.find?_nil]
  rw [State.applyAdd_adds]
  exact gone

/-- The first held add of a context outside a handler waits until its condition is met. -/
theorem State.applyHeld_waits (hb : (s.ctx x).bank = none)
    (h : ((s.core x.core).adds.find? fun b => decide (b.ctx = x.ctx)) = some a) (hr : s.addReady x.core a = false) (n : Nat) :
    s.applyHeld x n = s := by
  have first : ((s.core x.core).adds.filter fun b => decide (b.ctx = x.ctx)).head? = some a := by
    rw [List.head?_filter, h]
  obtain ⟨rest, mine⟩ := List.head?_eq_some_iff.mp first
  refine State.applyHeld_none ?_ n
  simp only [State.nextAdds, hb, mine]
  simp [hr]

end

/-! ### Load-blocks filled (R89, R174) -/

theorem State.blockFilled_first {s : State} {x : CtxRef} {i : Nat} {b : LoadBlock} (hi : (s.ctx x).blocks[i]? = some b)
    (hb : b.filled = false) (hbefore : ∀ j (c : LoadBlock), j < i → (s.ctx x).blocks[j]? = some c →
      ¬(c.base = b.base ∧ c.filled = false)) :
    let u := s.completionAdd x (s.ctx x).react b.sel (BitVec.ofNat 64 (128 * b.lines)) b.tainted
    let w := u.updCtx x fun c =>
      { c with blocks := if b.evict then c.blocks.eraseIdx i else c.blocks.set i { b with filled := true } }
    s.blockFilled x b.base = if (w.ctx x).blocks.any fun c => decide (c.base = b.base) && !c.filled then w
      else w.dataCome x.core (Pend.filledBy x.ctx b.base) := by
  obtain ⟨hlt, hget⟩ := List.getElem?_eq_some_iff.mp hi
  have first : ((s.ctx x).blocks.findIdx? fun c => decide (c.base = b.base) && !c.filled) = some i := by
    rw [List.findIdx?_eq_some_iff_getElem]
    refine ⟨hlt, by simp [hget, hb], fun j hj => ?_⟩
    have := hbefore j _ hj (List.getElem?_eq_getElem (by omega))
    simpa using this
  simp only [State.blockFilled, first, hi]

end Sys2Proof.Machine
end

section
/-!
PROOF. A `sy.tend` retired (09_seq_control R198, 11_dispatch R37, R48): the contexts it frees stay free through what a finished
reaction brings about; and what is said of results, held adds and retirement together.
-/

namespace Sys2Proof.Machine

/-! ### Contexts that stay free -/

/-- Every context that is idle in `s` is idle in `t`. -/
structure State.IdleStays (s t : State) : Prop where
  idle : ∀ y, (s.ctx y).status = .idle → (t.ctx y).status = .idle

section
variable {s t u : State}

theorem State.IdleStays.refl (s : State) : s.IdleStays s := ⟨fun _ hy => hy⟩

theorem State.IdleStays.trans (h : s.IdleStays t) (h' : t.IdleStays u) : s.IdleStays u :=
  ⟨fun y hy => h'.idle y (h.idle y hy)⟩

theorem State.idleStays_of_cores (h : t.cores = s.cores) : s.IdleStays t := ⟨fun y hy => by rwa [State.ctx_congr h]⟩

theorem State.IdleStays.congr (h : s.IdleStays t) (hu : u.cores = t.cores) : s.IdleStays u :=
  h.trans (State.idleStays_of_cores hu)

theorem State.idleStays_foldl {α : Type} (f : State → α → State) (h : ∀ (s : State) a, s.IdleStays (f s a)) (l : List α)
    (s : State) : s.IdleStays (l.foldl f s) :=
  List.foldlRecOn (motive := fun t => s.IdleStays t) l f (.refl s) fun t ht a _ => ht.trans (h t a)

end

theorem Ctx.halt_idle {c : Ctx} (h : c.status = .idle) : c.halt.status = .idle := by
  simp only [Ctx.halt, h]

theorem State.dropFreeze_idleStays (s : State) (n : Nat) : s.IdleStays (s.dropFreeze n) := by
  refine ⟨fun y hy => ?_⟩
  rcases s.dropFreeze_ctx n y with same | halted
  · rwa [same]
  · rw [halted, Ctx.halt_idle hy]

theorem State.updCtx_idleStays (s : State) (x : CtxRef) {f : Ctx → Ctx} (hf : ∀ c, c.status = .idle → (f c).status = .idle) :
    s.IdleStays (s.updCtx x f) := by
  refine ⟨fun y hy => ?_⟩
  by_cases h : y.core ≠ x.core ∨ x.ctx % 4 ≠ y.ctx % 4
  · rwa [State.ctx_updCtx_other _ _ _ _ h]
  · push Not at h
    have same (t : State) : t.ctx y = t.ctx x := by
      have slot : Fin.ofNat 4 y.ctx = Fin.ofNat 4 x.ctx := Fin.ext h.2.symm
      simp only [State.ctx, Core.ctx, h.1, slot]
    rw [same, State.ctx_updCtx]
    exact hf _ (same s ▸ hy)

theorem State.applyAdd_idleStays (s : State) (x : CtxRef) (c : Sel) (n : Word) : s.IdleStays (s.applyAdd x c n) := by
  rcases s.applyAdd_cores x c n with same | ⟨i, raised⟩
  · exact State.idleStays_of_cores same
  · exact (State.updCtx_idleStays s x (f := Ctx.addLocal i n) fun c hc => hc).congr raised

/-! ### A context released (R204) -/

/-- A state in which the freeze of a running context has ended. -/
def State.thawed (s : State) (x : CtxRef) : State :=
  if (s.core x.core).running = some x.ctx then s.dropFreeze x.core else s

theorem State.thawed_idleStays (s : State) (x : CtxRef) : s.IdleStays (s.thawed x) := by
  unfold State.thawed
  split
  · exact s.dropFreeze_idleStays x.core
  · exact .refl s

@[simp] theorem State.thawed_store (s : State) (x : CtxRef) : (s.thawed x).store = s.store := by
  unfold State.thawed
  split
  · exact s.dropFreeze_store x.core
  · rfl

/-- A core from which context `x` is released, its started commands and held adds kept or not. -/
def Core.release (x : Nat) (keep : Bool) (k : Core) : Core :=
  let stays (q : List Cmd) : List Cmd := q.filter fun c => c.ctx != x || (keep && c.started)
  { k.setCtx x ((k.ctx x).idle) with
    mxq := stays k.mxq, cpq := stays k.cpq, msq := stays k.msq
    adds := k.adds.filter fun a => a.ctx != x || keep
    ended := k.ended || decide (k.running = some x) }

theorem State.releaseCtx_eq (s : State) (x : CtxRef) (keep : Bool) : ∃ w f, s.releaseCtx x keep =
    { (s.thawed x).updCore x.core (Core.release x.ctx keep) with walks := w, fabric := f } := ⟨_, _, rfl⟩

theorem State.releaseCtx_cores (s : State) (x : CtxRef) (keep : Bool) :
    (s.releaseCtx x keep).cores = ((s.thawed x).updCore x.core (Core.release x.ctx keep)).cores := by
  obtain ⟨w, f, released⟩ := s.releaseCtx_eq x keep
  rw [released]

@[simp] theorem State.releaseCtx_store (s : State) (x : CtxRef) (keep : Bool) : (s.releaseCtx x keep).store = s.store := by
  obtain ⟨w, f, released⟩ := s.releaseCtx_eq x keep
  rw [released, State.updCore_store, State.thawed_store]

/-- Of the contexts, a release makes its own idle and changes no other. -/
theorem State.releaseCtx_ctx (s : State) (x : CtxRef) (keep : Bool) (y : CtxRef) :
    (s.releaseCtx x keep).ctx y = ((s.thawed x).updCtx x Ctx.idle).ctx y := by
  rw [State.ctx_congr (s.releaseCtx_cores x keep)]
  by_cases hy : y.core = x.core
  · rw [State.ctx, State.ctx, State.updCtx, State.setCtx, hy, State.core_updCore, State.core_updCore]
    rfl
  · rw [State.ctx, State.core_updCore_other _ _ _ _ hy, State.ctx_updCtx_other _ _ _ _ (.inl hy)]
    rfl

theorem State.releaseCtx_self (s : State) (x : CtxRef) (keep : Bool) :
    (s.releaseCtx x keep).ctx x = ((s.thawed x).ctx x).idle := by
  rw [State.releaseCtx_ctx, State.ctx_updCtx]

theorem State.releaseCtx_idleStays (s : State) (x : CtxRef) (keep : Bool) : s.IdleStays (s.releaseCtx x keep) :=
  (s.thawed_idleStays x).trans ⟨fun y hy => by
    rw [State.releaseCtx_ctx]
    exact (State.updCtx_idleStays _ x fun c _ => rfl).idle y hy⟩

theorem State.releaseReact_idleStays (s : State) (r : Reaction) (keep : Bool) : s.IdleStays (s.releaseReact r keep) :=
  State.idleStays_foldl _ (fun s (p : CtxRef × Nat) => s.releaseCtx_idleStays p.1 keep) r.places s

/-- Every context of a reaction that is released is idle. -/
theorem State.releaseReact_idle (s : State) (r : Reaction) (keep : Bool) :
    ∀ p ∈ r.places, ((s.releaseReact r keep).ctx p.1).status = .idle := by
  suffices h : ∀ (l : List (CtxRef × Nat)) (s : State), ∀ p ∈ l,
      ((l.foldl (fun s p => s.releaseCtx p.1 keep) s).ctx p.1).status = .idle from h r.places s
  intro l
  induction l with
  | nil => simp
  | cons q l ih =>
    intro s p hp
    rcases List.mem_cons.mp hp with rfl | hp
    · refine (State.idleStays_foldl _ (fun s (p : CtxRef × Nat) => s.releaseCtx_idleStays p.1 keep) l _).idle p.1 ?_
      rw [State.releaseCtx_self]
      rfl
    · exact ih _ p hp

/-! ### What a finished reaction brings about (R37, R43, R114, R211) -/

theorem State.raiseDone_idleStays (s : State) (l : Launch) : s.IdleStays (s.raiseDone l) := by
  unfold State.raiseDone
  split
  · exact .refl s
  · refine State.IdleStays.trans ?_ (State.applyAdd_idleStays _ _ _ _)
    exact State.idleStays_of_cores rfl

theorem State.putStatus_cores (s : State) (l : Launch) (p : Piece) (v : Nat) : (s.putStatus l p v).cores = s.cores := by
  unfold State.putStatus
  dsimp only
  split
  · split <;> rfl
  · exact ((State.sendFor_sameButFabric ..).trans (State.sendFor_sameButFabric ..)).cores
  · rfl

theorem State.writeStatus_cores {s t : State} {l : Launch} {v : Nat} (h : s.writeStatus l v = .ok t) : t.cores = s.cores := by
  unfold State.writeStatus at h
  dsimp only at h
  split at h
  · cases h; rfl
  · split at h <;> cases h
    · exact s.putStatus_cores ..
    · rfl
    · exact (s.resetSoon_sameButFabric l.core).cores

theorem State.ask_sameButFabric (s : State) (core sid stamp : Nat) (q : RemoteReq) : s.sameButFabric (s.ask core sid stamp q) := by
  unfold State.ask
  split
  · exact .refl s
  · dsimp only
    split <;> exact .trans ⟨_, s.resetDue, rfl⟩ (State.sendFor_sameButFabric ..)

theorem State.noteWalk_cores (s : State) (x : CtxRef) (die : Nat) : (s.noteWalk x die).cores = s.cores := by
  unfold State.noteWalk
  split <;> rfl

theorem State.finishLaunch_idleStays (s : State) (lid : Nat) : s.IdleStays (s.finishLaunch lid) := by
  unfold State.finishLaunch
  split
  · exact .refl s
  · split
    · dsimp only
      split
      · exact State.idleStays_of_cores (State.ask_sameButFabric ..).cores
      · exact State.idleStays_of_cores (State.noteWalk_cores ..)
      · next ht =>
        refine State.IdleStays.trans (State.idleStays_of_cores ?_) (State.raiseDone_idleStays _ _)
        refine (State.tellPeers_sameButFabric ..).cores.trans (Eq.trans ?_ (State.writeStatus_cores ht))
        rfl
    · exact s.raiseDone_idleStays _
    · exact .refl s

theorem State.endLaunch_idleStays (s : State) (lid : Nat) (rep : Option Report) (nother : Nat) :
    s.IdleStays (s.endLaunch lid rep nother) := by
  unfold State.endLaunch
  split
  · exact .refl s
  · split
    · exact .refl s
    · next l _ _ =>
      have released := State.idleStays_foldl _ (fun s r => s.releaseReact_idleStays r false) l.reacts s
      refine State.IdleStays.trans (released.trans ?_) (State.finishLaunch_idleStays _ _)
      exact State.idleStays_of_cores rfl

theorem State.checkEnd_idleStays (s : State) (lid : Nat) : s.IdleStays (s.checkEnd lid) := by
  unfold State.checkEnd
  have stay := State.IdleStays.refl s
  split
  · exact stay
  · split
    · exact stay
    · split
      · split <;> [exact s.endLaunch_idleStays _ _ _; exact stay]
      · dsimp only
        split
        · exact stay
        · split
          · split <;> [exact stay; exact s.endLaunch_idleStays _ _ _]
          · exact stay

theorem State.closeInstant_idleStays (s : State) (lid : Nat) : s.IdleStays (s.closeInstant lid) := by
  unfold State.closeInstant
  have stay := State.IdleStays.refl s
  split
  · exact stay
  · split
    · exact stay
    · dsimp only
      split
      · refine State.IdleStays.trans ?_ (State.endLaunch_idleStays _ _ _ _)
        exact State.idleStays_of_cores rfl
      · exact stay.congr rfl

theorem State.afterFinish_idleStays (s : State) (lid inst : Nat) : s.IdleStays (s.afterFinish lid inst) := by
  unfold State.afterFinish
  split
  · exact .refl s
  · split
    · exact (s.closeInstant_idleStays lid).trans (State.checkEnd_idleStays _ _)
    · dsimp only
      split
      · exact (State.idleStays_of_cores (State.tellPeers_sameButFabric ..).cores).trans (State.checkEnd_idleStays _ _)
      · exact s.checkEnd_idleStays lid

theorem State.leaseMsg_sameButFabric (s : State) (l : Launch) (dev stamp : Nat) (m : LeaseMsg) :
    s.sameButFabric (s.leaseMsg l dev stamp m) :=
  .trans ⟨_, s.resetDue, rfl⟩ (State.sendFor_sameButFabric ..)

theorem State.tellRelease_sameButFabric (s : State) (lid stamp : Nat) (trapped : Bool) :
    s.sameButFabric (s.tellRelease lid stamp trapped) := by
  unfold State.tellRelease
  split
  · exact .refl s
  · exact State.foldl_sameButFabric _ (fun s d => s.leaseMsg_sameButFabric ..) _ s

/-! ### A `sy.tend` retired (R37, R48, R198) -/

/-- A member of a reaction that has tended, on a core. -/
def Reaction.tend (entry core : Nat) (r : Reaction) : Reaction := { r with tended := r.tended ++ [entry], lastCore := core }

section
variable {s : State} {x : CtxRef} {r : RunRef} {q : Reaction}

theorem State.tendRetire_waits (h : s.tendReady x = false) : s.tendRetire x = s := by
  simp only [State.tendRetire, h, Bool.not_false, if_true]

theorem State.tendRetire_alone (h : s.tendReady x = true) (hr : (s.ctx x).react = none) :
    s.tendRetire x = s.releaseCtx x true := by
  simp only [State.tendRetire, h, hr, Bool.not_true, Bool.false_eq_true, if_false]

/-- What the retirement of a reaction's member leaves, by what is known of the reaction. -/
theorem State.tendRetire_member (h : s.tendReady x = true) (hr : (s.ctx x).react = some r) :
    s.tendRetire x = match (s.react? r.id).map (Reaction.tend r.entry x.core) with
      | some q =>
        if q.members.all fun e => q.tended.contains e then
          ((((s.updReact r.id (Reaction.tend r.entry x.core)).releaseReact q true).updReact r.id Reaction.finish).tellRelease
            r.lid r.stamp false).afterFinish r.lid q.inst
        else s.updReact r.id (Reaction.tend r.entry x.core)
      | none => (s.updReact r.id (Reaction.tend r.entry x.core)).releaseCtx x true := by
  rw [← State.react?_updReact s r.id (Reaction.tend r.entry x.core)]
  simp only [State.tendRetire, h, hr, Bool.not_true, Bool.false_eq_true, if_false]
  rfl

theorem Reaction.all_tended_iff (entry core : Nat) (q : Reaction) :
    ((q.tend entry core).members.all fun e => (q.tend entry core).tended.contains e) = true ↔
      ∀ e ∈ q.members, e = entry ∨ e ∈ q.tended := by
  simp only [Reaction.tend, List.all_eq_true, List.contains_iff_mem, List.mem_append, List.mem_singleton, or_comm]

theorem State.tendRetire_lone (h : s.tendReady x = true) (hr : (s.ctx x).react = some r) (hq : s.react? r.id = none) :
    s.tendRetire x = (s.updReact r.id (Reaction.tend r.entry x.core)).releaseCtx x true := by
  rw [State.tendRetire_member h hr, hq]
  rfl

theorem State.tendRetire_first (h : s.tendReady x = true) (hr : (s.ctx x).react = some r) (hq : s.react? r.id = some q)
    (hm : ∃ e ∈ q.members, e ≠ r.entry ∧ e ∉ q.tended) :
    s.tendRetire x = s.updReact r.id (Reaction.tend r.entry x.core) := by
  rw [State.tendRetire_member h hr, hq]
  refine if_neg fun all => ?_
  obtain ⟨e, he, other, left⟩ := hm
  rcases (Reaction.all_tended_iff _ _ q).mp all e he with rfl | tended
  · exact other rfl
  · exact left tended

theorem State.tendRetire_last (h : s.tendReady x = true) (hr : (s.ctx x).react = some r) (hq : s.react? r.id = some q)
    (hm : ∀ e ∈ q.members, e = r.entry ∨ e ∈ q.tended) :
    ∀ p ∈ q.places, ((s.tendRetire x).ctx p.1).status = .idle := by
  intro p hp
  rw [State.tendRetire_member h hr, hq]
  simp only [Option.map_some]
  rw [if_pos ((Reaction.all_tended_iff _ _ q).mpr hm)]
  refine (State.afterFinish_idleStays _ _ _).idle p.1 ?_
  rw [State.ctx_congr (State.tellRelease_sameButFabric ..).cores, State.ctx_congr (State.updReact_cores ..)]
  exact State.releaseReact_idle _ (q.tend r.entry x.core) true p hp

end

/-! ### The obligation -/

/-- Settles O49, event by event. -/
theorem resultsAddsAndRetirement : Obligations.ResultsAddsAndRetirement := by
  unfold Obligations.ResultsAddsAndRetirement
  refine ⟨fun x s hx hl => ?land, fun x s hx hl => ?late, Ctx.landDue_pend, fun n s k hn hz hr hl => ?arrive,
    State.awaitsMore_iff, fun n s hn hz => ?unfrozen, fun x s hx hready hr hstand hrun hsib => ?yield,
    fun x s hx hrun => ?noYield, fun x s k => s.mem_readySiblings x k, fun x s a hx ha hr => ?add,
    fun x s a hx hb ha hr => ?addWaits, fun x s i b base hx hi hbase hb hbefore => ?filled,
    fun x s hx h hr => ?alone, fun x s r hx h hr hq => ?lone, fun x s r q hx h hr hq hm => ?first,
    fun x s r q hx h hr hq hm => ?last, fun x s hx h => ?tendWaits⟩
  case land =>
    refine ⟨_, event_ok hx _, ?_, fun y hy hne => State.ctx_updCtx_other _ _ _ _ (CtxRef.apart hx hy hne)⟩
    rw [State.resultLand, State.ctx_updCtx, if_pos hl]
  case late => exact ⟨_, event_ok hx _, State.ctx_updCtx_id (if_neg hl)⟩
  case arrive =>
    have frozen := State.frozenLate_some hz hr hl
    obtain ⟨store, late, freeze⟩ := State.dataCome_late frozen hz (s.lateNow_arrive n (s.ctx ⟨n, k⟩).pend)
    refine ⟨_, event_ok (decide_eq_true hn) _, ?_⟩
    simp only [State.lateArrive, frozen]
    refine ⟨store, fun none => ?_, fun ⟨p, hp, more⟩ => ⟨?_, late⟩⟩
    · have gone : (s.ctx ⟨n, k⟩).lateNow.filter (s.awaitsMore n) = [] :=
        List.filter_eq_nil_iff.mpr fun p hp => by simp [none p hp]
      refine ⟨?_, late.trans gone⟩
      unfold Ctx.lateNow at gone
      rw [← Option.not_isSome_iff_eq_none, freeze, decide_eq_true gone]
      simp
    · have left : (s.ctx ⟨n, k⟩).lateNow.filter (s.awaitsMore n) ≠ [] :=
        List.ne_nil_of_mem (List.mem_filter.mpr ⟨hp, more⟩)
      unfold Ctx.lateNow at left
      rw [freeze, decide_eq_false left]
      rfl
  case unfrozen =>
    refine (event_ok (decide_eq_true hn) _).trans ?_
    rw [State.lateArrive, State.frozenLate_none hz]
  case yield =>
    have must : s.mustYield x = true := by
      simp only [State.mustYield, hready, hr, hstand, decide_true, Bool.not_false, Bool.and_true]
      exact decide_eq_true hrun
    refine (event_ok hx _).trans ?_
    rw [State.implicitYield, if_pos must, State.yieldTo_siblings hsib]
  case noYield =>
    have not : s.mustYield x = false := by
      have few : ¬Config.yieldGroups ≤ (s.ctx x).run := Nat.not_le.mpr hrun
      simp only [State.mustYield, few, decide_false, Bool.false_and]
    refine (event_ok hx _).trans ?_
    rw [State.implicitYield, not]
    rfl
  case add => exact (event_ok hx _).trans (congrArg _ (State.applyHeld_single ha hr _))
  case addWaits => exact (event_ok hx _).trans (congrArg _ (State.applyHeld_waits hb ha hr _))
  case filled =>
    subst hbase
    refine (event_ok hx _).trans (congrArg _ ((State.blockFilled_first hi hb hbefore).trans ?_))
    simp only [List.any_eq_true, Bool.and_eq_true, decide_eq_true_eq, Bool.not_eq_true']
    rfl
  case alone =>
    refine ⟨_, (event_ok hx _).trans (congrArg _ (State.tendRetire_alone h hr)), ?_, State.releaseCtx_store ..⟩
    rw [State.releaseCtx_self]
    rfl
  case lone =>
    refine ⟨_, (event_ok hx _).trans (congrArg _ (State.tendRetire_lone h hr hq)), ?_⟩
    rw [State.releaseCtx_self]
    exact ⟨rfl, rfl⟩
  case first =>
    refine ⟨_, q.tend r.entry x.core, (event_ok hx _).trans (congrArg _ (State.tendRetire_first h hr hq hm)),
      State.updReact_cores .., State.updReact_store .., ?_, ?_, rfl⟩
    · rw [State.react?_updReact s r.id (Reaction.tend r.entry x.core), hq]
      rfl
    · simp [Reaction.tend]
  case last => exact ⟨_, event_ok hx _, State.tendRetire_last h hr hq hm⟩
  case tendWaits => exact (event_ok hx _).trans (congrArg _ (State.tendRetire_waits h))

end Sys2Proof.Machine
end

section
/-!
PROOF. What leaves memory as it is (O60): a lemma for each function that a step may run and that writes no byte of memory. It
changes other fields of the state, or other parts of the store alone.
-/

namespace Sys2Proof.Machine

/-- A fold of steps that each leave memory as it is leaves memory as it is. -/
theorem State.mem_foldl {α : Type} (f : State → α → State) (h : ∀ s a, (f s a).store.mem = s.store.mem) (l : List α)
    (s : State) : (l.foldl f s).store.mem = s.store.mem :=
  List.foldlRecOn (motive := fun t => t.store.mem = s.store.mem) l f rfl fun t ht a _ => (h t a).trans ht

/-! ### Records and freezes -/

@[simp] theorem State.releaseSup_mem (s : State) (core : Nat) : (s.releaseSup core).store.mem = s.store.mem := rfl

@[simp] theorem State.seal_mem (s : State) : (s.seal).store.mem = s.store.mem := by
  unfold State.seal
  dsimp only
  (repeat' split) <;> simp

@[simp] theorem State.record_mem (s : State) (r : Nat) : (s.record r).store.mem = s.store.mem := by
  unfold State.record
  dsimp only
  (repeat' split) <;> simp

@[simp] theorem State.traceCtx_mem (s : State) (x : CtxRef) (bit kind : Nat) (taint : Bool) (payload : Nat) :
    (s.traceCtx x bit kind taint payload).store.mem = s.store.mem := by
  unfold State.traceCtx
  split <;> simp

@[simp] theorem State.dataCome_mem (s : State) (core : Nat) (f : Pend → Pend) :
    (s.dataCome core f).store.mem = s.store.mem := by
  unfold State.dataCome
  dsimp only
  (repeat' split) <;> simp

@[simp] theorem State.lateArrive_mem (s : State) (core : Nat) : (s.lateArrive core).store.mem = s.store.mem := by
  unfold State.lateArrive
  split <;> simp

@[simp] theorem State.tilesFree_mem (s : State) (core : Nat) : (s.tilesFree core).store.mem = s.store.mem := by
  unfold State.tilesFree
  refine State.mem_foldl _ (fun s i => ?_) _ s
  split
  · split <;> simp
  · rfl

/-! ### Flits, requests, counters and commands -/

@[simp] theorem State.dropAsked_mem (s : State) (x : CtxRef) : (s.dropAsked x).store.mem = s.store.mem := rfl

@[simp] theorem State.settle_mem (s t : State) (core : Nat) (keep : Bool) (c : Cmd) :
    (s.settle t core keep c).store.mem = t.store.mem := by
  unfold State.settle
  split
  · rfl
  · dsimp only
    split <;> rfl

@[simp] theorem State.resetSoon_mem (s : State) (core : Nat) : (s.resetSoon core).store.mem = s.store.mem := by
  unfold State.resetSoon
  split <;> simp

@[simp] theorem State.sendFor_mem (s : State) (core ctx : Nat) (cmd : Option Nat) (fk : Nat) (dev : Nat)
    (sid addr : Nat) (data : List Byte) (mask : Nat) (stamp : Nat) :
    (s.sendFor core ctx cmd fk dev sid addr data mask stamp).store.mem = s.store.mem := by
  unfold State.sendFor
  dsimp only
  (repeat' split) <;> simp

@[simp] theorem State.applyAdd_mem (s : State) (x : CtxRef) (c : Sel) (n : Word) :
    (s.applyAdd x c n).store.mem = s.store.mem := by
  unfold State.applyAdd
  dsimp only
  (repeat' split) <;> simp

@[simp] theorem State.releaseAdd_mem (s : State) (x : CtxRef) (sel : Nat) (n : Word) (tainted : Bool) :
    (s.releaseAdd x sel n tainted).store.mem = s.store.mem := by
  unfold State.releaseAdd
  split <;> simp

@[simp] theorem State.completionAdd_mem (s : State) (x : CtxRef) (react : Option RunRef) (sel : Nat) (n : Word)
    (tainted : Bool) : (s.completionAdd x react sel n tainted).store.mem = s.store.mem := by
  unfold State.completionAdd
  dsimp only
  split
  · split <;> simp
  · split
    · split
      · simp
      · exact Store.log_mem ..
    · simp

@[simp] theorem State.complete_mem (s : State) (x : CtxRef) (c : Cmd) : (s.complete x c).store.mem = s.store.mem := by
  unfold State.complete
  split <;> simp

@[simp] theorem State.cmdEnd_mem (s t : State) (core ev n : Nat) (c : Cmd) :
    (s.cmdEnd t core ev n c).store.mem = t.store.mem := by
  unfold State.cmdEnd
  dsimp only
  split <;> simp

@[simp] theorem State.sendFlit_mem (s : State) (core : Nat) (fk : Nat) (dev : Nat) (sid addr : Nat) (data : List Byte)
    (mask : Nat) (stamp : Nat) :
    (s.sendFlit core fk dev sid addr data mask stamp).store.mem = s.store.mem := by
  simp [State.sendFlit]

@[simp] theorem State.ask_mem (s : State) (core sid stamp : Nat) (q : RemoteReq) :
    (s.ask core sid stamp q).store.mem = s.store.mem := by
  unfold State.ask
  dsimp only
  (repeat' split) <;> simp

@[simp] theorem State.askSources_mem (s : State) (core : Nat) (c : Cmd) :
    (s.askSources core c).store.mem = s.store.mem := by
  unfold State.askSources
  refine State.mem_foldl _ (fun t p => ?_) _ s
  split <;> simp

/-! ### Launches, reactions and lease messages -/

@[simp] theorem State.releaseReact_mem (s : State) (r : Reaction) (keepStarted : Bool) :
    (s.releaseReact r keepStarted).store.mem = s.store.mem := by
  simp [State.releaseReact, State.mem_foldl]

@[simp] theorem State.note_mem (s : State) (agent : Option RunRef) (isSet : Bool) (sectors : List Nat) :
    (s.note agent isSet sectors).store.mem = s.store.mem := rfl

@[simp] theorem State.noteWalk_mem (s : State) (x : CtxRef) (die : Nat) : (s.noteWalk x die).store.mem = s.store.mem := by
  unfold State.noteWalk
  split <;> simp

@[simp] theorem State.raiseDone_mem (s : State) (l : Launch) : (s.raiseDone l).store.mem = s.store.mem := by
  unfold State.raiseDone
  split <;> simp

@[simp] theorem State.tellPeers_mem (s : State) (l : Launch) (m : ClearMsg) :
    (s.tellPeers l m).store.mem = s.store.mem := by
  unfold State.tellPeers
  split <;> simp [State.mem_foldl]

@[simp] theorem State.resetFields_mem (s : State) (p : Nat) : (s.resetFields p).store.mem = s.store.mem := rfl

@[simp] theorem State.engTrap_mem (s : State) (x : CtxRef) (c : Cmd) (va : Nat) :
    (s.engTrap x c va).store.mem = s.store.mem := by
  unfold State.engTrap
  split <;> simp

@[simp] theorem State.cmdPinned_mem (s : State) (x : CtxRef) (c : Cmd) (va : Nat) :
    (s.cmdPinned x c va).store.mem = s.store.mem := by
  simp [State.cmdPinned]

@[simp] theorem Store.clearPoison_mem (st : Store) (lines : List Nat) : (st.clearPoison lines).mem = st.mem := rfl

@[simp] theorem State.unpoison_mem (s : State) (v : Viewer) (ps : List Piece) :
    (s.unpoison v ps).store.mem = s.store.mem := rfl

@[simp] theorem State.leaseMsg_mem (s : State) (l : Launch) (dev stamp : Nat) (m : LeaseMsg) :
    (s.leaseMsg l dev stamp m).store.mem = s.store.mem := by
  simp [State.leaseMsg]

@[simp] theorem State.countWound_mem (s : State) (die : Nat) : (s.countWound die).store.mem = s.store.mem := rfl

@[simp] theorem State.tellWound_mem (s : State) (l : Launch) (j : WoundJob) :
    (s.tellWound l j).store.mem = s.store.mem := by
  unfold State.tellWound
  split <;> simp

@[simp] theorem State.tellDiscard_mem (s : State) (lid stamp : Nat) :
    (s.tellDiscard lid stamp).store.mem = s.store.mem := by
  unfold State.tellDiscard
  split <;> simp [State.mem_foldl]

@[simp] theorem Store.setEmpty_mem (st : Store) (line : Nat) : (st.setEmpty line).mem = st.mem := rfl

@[simp] theorem State.dropTicket_mem (s : State) (r : ReactId) : (s.dropTicket r).store.mem = s.store.mem := rfl

@[simp] theorem State.setTickets_mem (s : State) (die prio : Nat) (l : List ReactId) :
    (s.setTickets die prio l).store.mem = s.store.mem := rfl

@[simp] theorem State.requeue_mem (s : State) (id : ReactId) : (s.requeue id).store.mem = s.store.mem := by
  unfold State.requeue
  split <;> simp

@[simp] theorem State.stepEffect_mem (s : State) (x : CtxRef) (c : Cmd) : (s.stepEffect x c).store.mem = s.store.mem := by
  simp [State.stepEffect]

@[simp] theorem State.cmdLease_mem (s : State) (c : Cmd) : (s.cmdLease c).store.mem = s.store.mem :=
  foldl_mem _ (fun st p => st.lease_mem _ _ p) _ s.store

/-! ### Engines, turns and blocked contexts -/

@[simp] theorem State.markerRetire_mem (s : State) (core id : Nat) :
    (s.markerRetire core id).store.mem = s.store.mem := by
  grind [State.markerRetire, State.updCore_store]

@[simp] theorem State.applyHeld_mem (s : State) (x : CtxRef) (fuel : Nat) :
    (s.applyHeld x fuel).store.mem = s.store.mem := by
  induction fuel generalizing s with
  | zero => rfl
  | succ fuel ih =>
    unfold State.applyHeld
    split
    · rfl
    · simp [ih]

@[simp] theorem State.cpStart_mem (s : State) (core : Nat) : (s.cpStart core).store.mem = s.store.mem := by
  unfold State.cpStart
  dsimp only
  (repeat' split) <;> simp

@[simp] theorem State.mxStart_mem (s : State) (core : Nat) : (s.mxStart core).store.mem = s.store.mem := by
  unfold State.mxStart
  dsimp only
  (repeat' split) <;> simp

@[simp] theorem State.yieldTo_mem (s : State) (x : CtxRef) : (s.yieldTo x).store.mem = s.store.mem := by
  unfold State.yieldTo
  split <;> simp

@[simp] theorem State.implicitYield_mem (s : State) (x : CtxRef) : (s.implicitYield x).store.mem = s.store.mem := by
  unfold State.implicitYield
  split <;> simp

@[simp] theorem State.yieldIfDue_mem (s : State) (n : Nat) : (s.yieldIfDue n).store.mem = s.store.mem := by
  unfold State.yieldIfDue
  split <;> simp

@[simp] theorem State.giveTurn_mem (s : State) (a : Nat) : (s.giveTurn a).store.mem = s.store.mem := rfl

@[simp] theorem State.giveSets_mem (s : State) (n : Nat) : (s.giveSets n).store.mem = s.store.mem :=
  State.mem_foldl _ (fun t _ => t.giveTurn_mem _) _ s

@[simp] theorem State.wakeIf_mem (s : State) (x : CtxRef) (p : Block → Bool) :
    (s.wakeIf x p).store.mem = s.store.mem := by
  grind [State.wakeIf, State.setStatus_store]

@[simp] theorem State.queueSpace_mem (s : State) (x : CtxRef) : (s.queueSpace x).store.mem = s.store.mem := by
  simp [State.queueSpace]

@[simp] theorem State.holdRelease_mem (s : State) (x : CtxRef) : (s.holdRelease x).store.mem = s.store.mem := by
  simp [State.holdRelease]

@[simp] theorem State.askWait_mem (s : State) (x : CtxRef) : (s.askWait x).store.mem = s.store.mem := by
  grind [State.askWait, State.ask_mem]

@[simp] theorem State.waitSatisfied_mem (s : State) (x : CtxRef) : (s.waitSatisfied x).store.mem = s.store.mem := by
  simp [State.waitSatisfied]

@[simp] theorem State.fenceComplete_mem (s : State) (x : CtxRef) : (s.fenceComplete x).store.mem = s.store.mem := by
  simp [State.fenceComplete]

@[simp] theorem State.yieldRelease_mem (s : State) (x : CtxRef) : (s.yieldRelease x).store.mem = s.store.mem := by
  simp [State.yieldRelease]

@[simp] theorem State.feServed_mem (s : State) (x : CtxRef) :
    (s.feServed x).store.mem = s.store.mem := by simp [State.feServed]

@[simp] theorem State.versionFree_mem (s : State) (x : CtxRef) : (s.versionFree x).store.mem = s.store.mem := by
  simp [State.versionFree]

@[simp] theorem State.waitbDone_mem (s : State) (x : CtxRef) : (s.waitbDone x).store.mem = s.store.mem := by
  simp [State.waitbDone]

@[simp] theorem State.drainDone_mem (s : State) (x : CtxRef) : (s.drainDone x).store.mem = s.store.mem := by
  simp [State.drainDone]

@[simp] theorem State.msFenceDone_mem (s : State) (x : CtxRef) : (s.msFenceDone x).store.mem = s.store.mem := by
  simp [State.msFenceDone]

@[simp] theorem State.settleLate_mem (s : State) (x : CtxRef) : (s.settleLate x).store.mem = s.store.mem := rfl

@[simp] theorem State.handlerReady_mem (s : State) (x : CtxRef) : (s.handlerReady x).store.mem = s.store.mem := by
  simp [State.handlerReady]

@[simp] theorem State.ptmcDecide_mem (s : State) (p : Ptmc) (pinned : Bool) :
    (s.ptmcDecide p pinned).store.mem = s.store.mem := rfl

@[simp] theorem State.relay_mem (s : State) (core die a : Nat) (v : Word) :
    (s.relay core die a v).store.mem = s.store.mem := by
  simp [State.relay, State.mem_foldl]

@[simp] theorem State.tinvDone_mem (s : State) (x : CtxRef) : (s.tinvDone x).store.mem = s.store.mem := by
  unfold State.tinvDone
  split <;> simp

@[simp] theorem State.idleWake_mem (s : State) (x : CtxRef) : (s.idleWake x).store.mem = s.store.mem := by
  grind [State.idleWake, State.updCtx_store]

@[simp] theorem State.walkOver_mem (s : State) (w : WalkWait) (expired : Bool) :
    (s.walkOver w expired).store.mem = s.store.mem := by
  unfold State.walkOver
  dsimp only
  (repeat' split) <;> simp

@[simp] theorem State.walkTimeout_mem (s : State) (id : Nat) : (s.walkTimeout id).store.mem = s.store.mem := by
  unfold State.walkTimeout
  split
  · rfl
  · next w _ =>
    rw [apply_ite State.store, apply_ite Store.mem, State.walkOver_mem, ite_self]

@[simp] theorem State.walkRestart_mem (s : State) (id : Nat) : (s.walkRestart id).store.mem = s.store.mem := by
  grind [State.walkRestart, State.walkOver_mem]

@[simp] theorem State.switchTo_mem (s : State) (n k : Nat) (on : Bool) : (s.switchTo n k on).store.mem = s.store.mem := by
  unfold State.switchTo
  dsimp only
  (repeat' split) <;> simp

/-! ### Placing, clearing and preemption -/

@[simp] theorem State.askNeed_mem (s : State) (l : Launch) (n : Need) : (s.askNeed l n).store.mem = s.store.mem := by
  unfold State.askNeed
  split <;> simp [State.mem_foldl]

@[simp] theorem State.askResumes_mem (s : State) (d : Nat) : (s.askResumes d).store.mem = s.store.mem := by
  unfold State.askResumes
  exact State.mem_foldl _ (fun s _ => by dsimp only; split <;> simp) _ _

@[simp] theorem State.askThresholds_mem (s : State) (d : Nat) : (s.askThresholds d).store.mem = s.store.mem := by
  unfold State.askThresholds
  refine State.mem_foldl _ (fun s h => State.mem_foldl _ (fun t c => ?_) _ s) _ s
  split
  · split <;> simp
  · rfl

@[simp] theorem State.dropOld_mem (s : State) (keys : List Nat) : (s.dropOld keys).store.mem = s.store.mem := rfl

@[simp] theorem State.takeTicket_mem (s : State) (id : ReactId) : (s.takeTicket id).store.mem = s.store.mem := rfl

@[simp] theorem Store.allocate_mem (st : Store) (r : Range) : (st.allocate r).mem = st.mem := by
  unfold Store.allocate
  split <;> simp

@[simp] theorem Store.allocateFor_mem (st : Store) (x : CtxRef) (e : Entry) (grvOwner grb : Nat) :
    (st.allocateFor x e grvOwner grb).mem = st.mem := by
  unfold Store.allocateFor
  dsimp only
  split <;> simp [foldl_mem]

@[simp] theorem State.start_mem (s : State) (l : Launch) (r : Reaction) (ps : List (CtxRef × Nat)) :
    (s.start l r ps).store.mem = s.store.mem := by
  unfold State.start
  exact State.mem_foldl _ (fun s _ => by dsimp only; split <;> simp) _ _

@[simp] theorem Store.renumber_mem (st : Store) (lid stamp core : Nat) (old : List Cmd) (dst head : Nat) :
    (st.renumber lid stamp core old dst head).mem = st.mem := rfl

@[simp] theorem State.dropDisp_mem (s : State) (lid : Nat) : (s.dropDisp lid).store.mem = s.store.mem := rfl

@[simp] theorem State.commitAdd_mem (s : State) (core stamp : Nat) (e : Eff) :
    (s.commitAdd core stamp e).store.mem = s.store.mem := by
  unfold State.commitAdd
  split
  · split <;> simp
  · rfl

@[simp] theorem Store.retire_mem (st : Store) (lid inst : Nat) : (st.retire lid inst).mem = st.mem := rfl

@[simp] theorem State.tellChecked_mem (s : State) (l : Launch) : (s.tellChecked l).store.mem = s.store.mem := by
  unfold State.tellChecked
  split <;> simp

@[simp] theorem State.versionMerge_mem (s : State) (line lid inst : Nat) :
    (s.versionMerge line lid inst).store.mem = s.store.mem := rfl

@[simp] theorem State.setupChannels_mem (s : State) (l : Launch) : (s.setupChannels l).store.mem = s.store.mem := by
  unfold State.setupChannels
  dsimp only
  split <;> split <;> simp [foldl_mem]

@[simp] theorem State.preemptChoice_mem (s : State) (die : Nat) : (s.preemptChoice die).store.mem = s.store.mem := by
  unfold State.preemptChoice
  dsimp only
  (repeat' split) <;> simp

/-! ### The package and the storage port -/

@[simp] theorem State.parkGate_mem (s : State) (core : Nat) : (s.parkGate core).store.mem = s.store.mem := by
  unfold State.parkGate
  dsimp only
  (repeat' split) <;> simp

@[simp] theorem State.mapCores_mem (s : State) (p : Nat) (f : Core → Core) :
    (s.mapCores p f).store.mem = s.store.mem := rfl

@[simp] theorem State.returnToActive_mem (s : State) : (s.returnToActive).store.mem = s.store.mem := by
  unfold State.returnToActive
  exact State.mem_foldl _ (fun s _ => by dsimp only; split <;> simp) _ _

@[simp] theorem State.moveStep_mem (s : State) (die : Nat) : (s.moveStep die).store.mem = s.store.mem := by
  unfold State.moveStep
  split <;> simp

@[simp] theorem State.resetComplete_mem (s : State) (p : Nat) : (s.resetComplete p).store.mem = s.store.mem := by
  unfold State.resetComplete
  split
  · rfl
  · dsimp only
    split
    · rfl
    · exact State.mem_foldl _ (fun t i => t.releaseSup_mem _) _ _

@[simp] theorem State.ptmcComplete_mem (s : State) (id : Nat) : (s.ptmcComplete id).store.mem = s.store.mem := by
  unfold State.ptmcComplete
  dsimp only
  (repeat' split) <;> simp

@[simp] theorem State.tellGuests_mem (s : State) (l : Launch) (x : Nat) (lines : List Range) :
    (s.tellGuests l x lines).store.mem = s.store.mem := by
  simp [State.tellGuests, State.mem_foldl]

@[simp] theorem State.sendCmd_mem (s : State) (q : Nat) (e data : List Byte) :
    (s.sendCmd q e data).store.mem = s.store.mem := rfl

@[simp] theorem State.segmentWrite_mem (s : State) : (s.segmentWrite).store.mem = s.store.mem := by
  unfold State.segmentWrite
  dsimp only
  (repeat' split) <;> simp

@[simp] theorem State.sealTimer_mem (s : State) : (s.sealTimer).store.mem = s.store.mem := by
  unfold State.sealTimer
  split <;> simp

@[simp] theorem State.pinRead_mem (s : State) (dev : Nat) (read : List Nat) :
    (s.pinRead dev read).store.mem = s.store.mem := by
  unfold State.pinRead
  dsimp only
  (repeat' split) <;> simp

@[simp] theorem State.answerWalk_mem (s : State) (die dev va e lvl cause : Nat) :
    (s.answerWalk die dev va e lvl cause).store.mem = s.store.mem := by
  simp [State.answerWalk]

@[simp] theorem State.continueWalk_mem (s : State) (die dev sid va e lvl : Nat) :
    (s.continueWalk die dev sid va e lvl).store.mem = s.store.mem := by
  unfold State.continueWalk
  dsimp only
  (repeat' split) <;> simp

@[simp] theorem State.retryWalks_mem (s : State) : s.retryWalks.store.mem = s.store.mem := by
  unfold State.retryWalks
  refine State.mem_foldl _ (fun t q => ?_) _ s
  split <;> simp

@[simp] theorem State.wakeDie_mem (s : State) (die : Nat) : (s.wakeDie die).store.mem = s.store.mem := rfl

@[simp] theorem State.queueFault_mem (s : State) (die : Nat) (r : FaultRec) :
    (s.queueFault die r).1.store.mem = s.store.mem := by
  unfold State.queueFault
  dsimp only
  (repeat' split) <;> simp

@[simp] theorem State.hold_mem (s : State) (q : Nat) (kind : HeldKind) (data : List Byte) (die : Nat) (tag : BitVec 16) :
    (s.hold q kind data die tag).store.mem = s.store.mem := rfl

@[simp] theorem State.askPort_mem (s : State) (n : Need) : (s.askPort n).store.mem = s.store.mem := by
  simp [State.askPort, State.mem_foldl]

@[simp] theorem State.freeBytes_mem (s : State) (n : Nat) : (s.freeBytes n).1.store.mem = s.store.mem := rfl

@[simp] theorem State.cselAdd_mem (s : State) (q : Nat) : (s.cselAdd q).store.mem = s.store.mem := by
  unfold State.cselAdd
  split <;> simp

@[simp] theorem State.cselRelease_mem (s : State) (q : Nat) : (s.cselRelease q).store.mem = s.store.mem := by
  unfold State.cselRelease
  split <;> simp

@[simp] theorem State.cqDone_mem (s : State) (q : Nat) : (s.cqDone q).store.mem = s.store.mem := by simp [State.cqDone]

@[simp] theorem State.dropSent_mem (s : State) (q : Nat) (e : List Byte) : (s.dropSent q e).store.mem = s.store.mem := by
  unfold State.dropSent
  split <;> simp

@[simp] theorem State.scrubRead_mem (s : State) : (s.scrubRead).store.mem = s.store.mem := by
  unfold State.scrubRead
  split <;> simp

/-! ### Traps, handlers and the end of a group -/

@[simp] theorem State.dropWaiting_mem (s : State) (x : CtxRef) : (s.dropWaiting x).store.mem = s.store.mem := rfl

@[simp] theorem State.endCtx_mem (s : State) (x : CtxRef) : (s.endCtx x).store.mem = s.store.mem := by
  unfold State.endCtx
  split <;> simp

@[simp] theorem State.tellRelease_mem (s : State) (lid stamp : Nat) (trapped : Bool) :
    (s.tellRelease lid stamp trapped).store.mem = s.store.mem := by
  unfold State.tellRelease
  split <;> simp [State.mem_foldl]

@[simp] theorem Store.dropVersion_mem (st : Store) (lid stamp : Nat) : (st.dropVersion lid stamp).mem = st.mem := rfl

@[simp] theorem State.freezeFor_mem (s : State) (core : Nat) (late : List Pend) :
    (s.freezeFor core late).store.mem = s.store.mem := rfl

@[simp] theorem State.recordTrap_mem (s : State) (x : CtxRef) (limm : BitVec 32) (t : Trap) :
    (s.recordTrap x limm t).store.mem = s.store.mem := by
  simp [State.recordTrap]

@[simp] theorem State.haltPartition_mem (s : State) (p : Nat) : (s.haltPartition p).store.mem = s.store.mem := rfl

@[simp] theorem State.haltOf_mem (s : State) (core : Nat) : (s.haltOf core).store.mem = s.store.mem := by
  unfold State.haltOf
  split <;> simp

@[simp] theorem State.haltAtEntry0_mem (s : State) (x : CtxRef) : (s.haltAtEntry0 x).store.mem = s.store.mem := by
  unfold State.haltAtEntry0
  split <;> simp

@[simp] theorem State.askLines_mem (s : State) (l : Launch) (x : Nat) (lines : List Range) :
    (s.askLines l x lines).store.mem = s.store.mem := by
  unfold State.askLines
  refine State.mem_foldl _ (fun t q => ?_) _ s
  split <;> simp

@[simp] theorem State.afterGroup_mem (s : State) : (s.afterGroup).store.mem = s.store.mem := rfl

@[simp] theorem State.markStart_mem (s : State) (x : CtxRef) : (s.markStart x).store.mem = s.store.mem := rfl

@[simp] theorem State.marker_mem (s : State) (x : CtxRef) (e : GSlot) : (s.marker x e).store.mem = s.store.mem := by
  unfold State.marker
  dsimp only
  (repeat' split) <;> simp

@[simp] theorem State.leaveHandler_mem (s : State) (x : CtxRef) : (s.leaveHandler x).store.mem = s.store.mem := by
  unfold State.leaveHandler
  dsimp only
  (repeat' split) <;> simp

@[simp] theorem State.rehalt_mem (s : State) (x : CtxRef) : (s.rehalt x).store.mem = s.store.mem := by
  grind [State.rehalt, State.updCtx_store]

@[simp] theorem State.touchAgain_mem (s : State) (x : CtxRef) (rs : List Range) :
    (s.touchAgain x rs).store.mem = s.store.mem := by
  grind [State.touchAgain, State.tellGuests_mem]

/-! ### A core cycle -/

@[simp] theorem State.staticEnergy_mem (s : State) (n : Nat) : (s.staticEnergy n).store.mem = s.store.mem := by
  unfold State.staticEnergy
  dsimp only
  split
  · rfl
  · exact State.mem_foldl _ (fun t k => congrArg Store.mem (t.updCtx_store ⟨n, k⟩ _)) _ s

@[simp] theorem State.cycleEvents_mem (s : State) (n : Nat) : (s.cycleEvents n).store.mem = s.store.mem := by
  unfold State.cycleEvents
  rw [State.mem_foldl]
  · split
    · exact congrArg Store.mem (s.event_store ..)
    · rfl
  · intro t k
    split
    · exact congrArg Store.mem (t.event_store ..)
    · rfl

@[simp] theorem State.coreCycle_mem (s : State) : (s.coreCycle).store.mem = s.store.mem := by
  simp [State.coreCycle, State.mem_foldl]

/-! ### Operations -/

@[simp] theorem State.watchOne_mem (s : State) (x : CtxRef) (l : List Watched) :
    (s.watchOne x l).1.store.mem = s.store.mem := by
  grind [State.watchOne, State.updCtx_store]

@[simp] theorem State.watchAll_mem (s : State) (x : CtxRef) (l : List (List Watched)) :
    (s.watchAll x l).1.store.mem = s.store.mem := by
  induction l generalizing s with
  | nil => rfl
  | cons a l ih =>
    have first := s.watchOne_mem x a
    unfold State.watchAll
    split
    · next t ht => rw [ih, ← first, ht]
    · exact first

@[simp] theorem State.askPieces_mem (s : State) (x : CtxRef) (v : Viewer) (ps : List Piece) :
    (s.askPieces x v ps).1.store.mem = s.store.mem :=
  congrArg Store.mem (State.askPieces_sameButFabric s x v ps).store

@[simp] theorem State.awaitFor_mem (s : State) (x : CtxRef) (ps : List Piece) (conv : Conv) (tag : Tag) (taint : Bool) :
    (s.awaitFor x ps conv tag taint).1.store.mem = s.store.mem := by
  unfold State.awaitFor
  split <;> simp

@[simp] theorem State.landCell_mem (s : State) (p : SpanP) (bytes : List Byte) (secTaint : Bool) (alt : Word)
    (altTaint : Bool) (tag : Tag) (taint : Bool) :
    (s.landCell p bytes secTaint alt altTaint tag taint).store.mem = s.store.mem := by
  simp [State.landCell]

@[simp] theorem State.peekAway_mem (s : State) (x : CtxRef) (tag : Tag) (v key : Nat) :
    (s.peekAway x tag v key).store.mem = s.store.mem := by
  simp [State.peekAway]

@[simp] theorem State.landVar_mem (s : State) (dest : Land) (lat : Nat) (v : Value) (f : Num.Flags) (fcause : Nat)
    (addr : Nat) :
    (s.landVar dest lat v f fcause addr).store.mem = s.store.mem := by
  simp [State.landVar]

@[simp] theorem State.freeWord_mem (s : State) : (s.freeWord).1.store.mem = s.store.mem := rfl

@[simp] theorem State.vland_mem (s : State) (r : Lanes) (lat : Nat) (a : Opnds) (f : Num.Flags) :
    (s.vland r lat a f).store.mem = s.store.mem := rfl

@[simp] theorem State.sland_mem (s : State) (w : Word) (lat : Nat) (a : Opnds) (f : Num.Flags) :
    (s.sland w lat a f).store.mem = s.store.mem := rfl

@[simp] theorem State.recordLate_mem (s : State) (addr : Nat) : (s.recordLate addr).store.mem = s.store.mem := by
  unfold State.recordLate
  dsimp only
  (repeat' split) <;> simp

@[simp] theorem State.msIssued_mem (s : State) : (s.msIssued).store.mem = s.store.mem := by simp [State.msIssued]

@[simp] theorem State.submit_mem (s : State) (sid : BitVec 16) (done core : Nat) (raw : List Byte) :
    (s.submit sid done core raw).store.mem = s.store.mem := rfl

/-! ### Registers -/

@[simp] theorem State.bpWrite_mem (s : State) (x : CtxRef) (off : Nat) (v : Word) :
    (s.bpWrite x off v).store.mem = s.store.mem := by
  unfold State.bpWrite
  dsimp only
  (repeat' split) <;> simp

@[simp] theorem State.h2dheadWrite_mem (s : State) (v : Word) : (s.h2dheadWrite v).store.mem = s.store.mem := by
  unfold State.h2dheadWrite
  dsimp only
  (repeat' split) <;> simp

@[simp] theorem State.assignWrite_mem (s : State) (die off : Nat) (v : Word) :
    (s.assignWrite die off v).store.mem = s.store.mem := by
  unfold State.assignWrite
  dsimp only
  (repeat' split) <;> simp

@[simp] theorem State.haltreq_mem (s : State) (x : CtxRef) : (s.haltreq x).store.mem = s.store.mem :=
  State.mem_foldl _ State.haltPartition_mem _ s

@[simp] theorem State.takeSteps_mem (s : State) : s.takeSteps.store.mem = s.store.mem := by
  unfold State.takeSteps
  split
  · rfl
  · exact State.mem_foldl _ (fun t d => congrArg Store.mem (t.updDie_store d _)) _ s

@[simp] theorem State.resumePartition_mem (s : State) (p : Nat) : (s.resumePartition p).store.mem = s.store.mem := by
  unfold State.resumePartition
  split <;> simp

@[simp] theorem State.resume_mem (s : State) (x : CtxRef) : (s.resume x).store.mem = s.store.mem := by
  simp [State.resume, State.mem_foldl]

@[simp] theorem State.stepCtx_mem (s : State) (x y : CtxRef) : (s.stepCtx x y).store.mem = s.store.mem := by
  grind [State.stepCtx, State.updCtx_store]

@[simp] theorem State.obsCommand_mem (s : State) (x : CtxRef) (v : Word) :
    (s.obsCommand x v).store.mem = s.store.mem := by
  unfold State.obsCommand
  dsimp only
  (repeat' split) <;> simp

@[simp] theorem State.perfConfigWrite_mem (s : State) (die off : Nat) (v : Word) :
    (s.perfConfigWrite die off v).store.mem = s.store.mem := by
  unfold State.perfConfigWrite
  split <;> simp

@[simp] theorem State.perfCounterWrite_mem (s : State) (die off : Nat) (v : Word) :
    (s.perfCounterWrite die off v).store.mem = s.store.mem := by
  unfold State.perfCounterWrite
  split <;> simp

@[simp] theorem State.routeWrite_mem (s : State) (die off : Nat) (v : Word) :
    (s.routeWrite die off v).store.mem = s.store.mem := by
  unfold State.routeWrite
  split <;> simp

@[simp] theorem State.accessWrite_mem (s : State) (x : CtxRef) (die off : Nat) (v : Word) :
    (s.accessWrite x die off v).store.mem = s.store.mem := by
  unfold State.accessWrite
  split <;> simp

@[simp] theorem State.dbgWrite_mem (s : State) (v : Word) : (s.dbgWrite v).store.mem = s.store.mem := by
  unfold State.dbgWrite
  dsimp only
  (repeat' split) <;> simp [State.mem_foldl]

@[simp] theorem State.parkPartition_mem (s : State) (x : CtxRef) (p : Nat) :
    (s.parkPartition x p).store.mem = s.store.mem := by
  unfold State.parkPartition
  split <;> simp

@[simp] theorem State.unpark_mem (s : State) (p : Nat) : (s.unpark p).store.mem = s.store.mem := rfl

@[simp] theorem State.unparkPartition_mem (s : State) (x : CtxRef) (p : Nat) :
    (s.unparkPartition x p).store.mem = s.store.mem := by
  unfold State.unparkPartition
  split <;> simp

@[simp] theorem State.standbyEnter_mem (s : State) (x : CtxRef) : (s.standbyEnter x).store.mem = s.store.mem := by
  unfold State.standbyEnter
  split <;> simp

@[simp] theorem State.wakeAll_mem (s : State) : (s.wakeAll).store.mem = s.store.mem := rfl

@[simp] theorem State.standbyExit_mem (s : State) (x : CtxRef) : (s.standbyExit x).store.mem = s.store.mem := by
  unfold State.standbyExit
  split <;> simp

@[simp] theorem State.parkWrite_mem (s : State) (x : CtxRef) (v : Word) : (s.parkWrite x v).store.mem = s.store.mem := by
  unfold State.parkWrite
  have parked := State.mem_foldl (fun (t : State) p =>
      if v.getLsbD p && !s.park.getLsbD p then t.parkPartition x p
      else if !v.getLsbD p && s.park.getLsbD p then t.unparkPartition x p
      else t) (fun t p => by (repeat' split) <;> simp) (List.range 8) s
  dsimp only
  (repeat' split) <;> simp only [State.standbyEnter_mem, State.standbyExit_mem, parked]

@[simp] theorem State.popFault_mem (s : State) (die : Nat) : (s.popFault die).store.mem = s.store.mem := by
  grind [State.popFault, State.updDie_store, State.wakeDie_mem]

/-! ### Events -/

@[simp] theorem State.resultLand_mem (s : State) (x : CtxRef) : (s.resultLand x).store.mem = s.store.mem := rfl

@[simp] theorem State.tokenGain_mem (s : State) (id : ReactId) : (s.tokenGain id).store.mem = s.store.mem := rfl

@[simp] theorem State.hostUnpoison_mem (s : State) (off n : Nat) : (s.hostUnpoison off n).store.mem = s.store.mem := rfl

@[simp] theorem State.hostDoorbell_mem (s : State) (v : Word) : (s.hostDoorbell v).store.mem = s.store.mem := by
  unfold State.hostDoorbell
  dsimp only
  (repeat' split) <;> simp

@[simp] theorem State.d2hheadWrite_mem (s : State) (v : Word) : (s.d2hheadWrite v).store.mem = s.store.mem := by
  unfold State.d2hheadWrite
  dsimp only
  (repeat' split) <;> simp

@[simp] theorem State.flitError_mem (s : State) (die : Nat) (f : Flit) (why : Byte) :
    (s.flitError die f why).store.mem = s.store.mem := by
  simp [State.flitError]

@[simp] theorem State.flitDenied_mem (s : State) (f : Flit) : (s.flitDenied f).store.mem = s.store.mem := by
  unfold State.flitDenied
  dsimp only
  (repeat' split) <;> simp [State.mem_foldl]

@[simp] theorem State.learnCtr_mem (s : State) (dev : Nat) (f : Flit) : (s.learnCtr dev f).store.mem = s.store.mem := by
  unfold State.learnCtr
  split <;> simp

@[simp] theorem State.arrived_mem (s : State) (x : CtxRef) : (s.arrived x).store.mem = s.store.mem := by
  unfold State.arrived
  dsimp only
  (repeat' split) <;> simp

@[simp] theorem State.answered_mem (s : State) (f : Flit) (q : RemoteReq) : (s.answered f q).store.mem = s.store.mem := by
  unfold State.answered
  dsimp only
  (repeat' split) <;> simp

@[simp] theorem State.flitResponse_mem (s : State) (f : Flit) : (s.flitResponse f).store.mem = s.store.mem := by
  grind [State.flitResponse, State.answered_mem, State.flitDenied_mem]

@[simp] theorem State.flitAdd_mem (s : State) (die : Nat) (f : Flit) : (s.flitAdd die f).store.mem = s.store.mem := by
  unfold State.flitAdd
  split <;> simp

@[simp] theorem State.peer_mem (s : State) (lid dev fin chk clr : Nat) :
    (s.peer lid dev fin chk clr).store.mem = s.store.mem := rfl

@[simp] theorem State.unpinFor_mem (s : State) (dev : Nat) : (s.unpinFor dev).store.mem = s.store.mem := rfl

@[simp] theorem State.meetsPeer_mem (s : State) (l : Launch) (dev : Nat) :
    (s.meetsPeer l dev).store.mem = s.store.mem := by
  unfold State.meetsPeer
  split <;> simp

@[simp] theorem State.flitCredit_mem (s : State) (link : Nat) : (s.flitCredit link).store.mem = s.store.mem := rfl

@[simp] theorem State.flitWalk_mem (s : State) (die : Nat) (f : Flit) : (s.flitWalk die f).store.mem = s.store.mem := by
  unfold State.flitWalk
  dsimp only
  (repeat' split) <;> simp

@[simp] theorem State.flitUnknown_mem (s : State) (link : Nat) : (s.flitUnknown link).store.mem = s.store.mem := by
  unfold State.flitUnknown
  split <;> simp

@[simp] theorem State.popCmd_mem (s : State) (q : Nat) : (s.popCmd q).store.mem = s.store.mem := by
  unfold State.popCmd
  split <;> simp

@[simp] theorem State.sendPlain_mem (s : State) (q : Nat) (k : NvmeKind) : (s.sendPlain q k).store.mem = s.store.mem := by
  unfold State.sendPlain
  split <;> simp

@[simp] theorem State.keepAliveTimer_mem (s : State) (conn : Nat) : (s.keepAliveTimer conn).store.mem = s.store.mem := by
  unfold State.keepAliveTimer
  split <;> simp

@[simp] theorem State.rocePacket_mem (s : State) (q : Nat) (psn : BitVec 24) (good : Bool) :
    (s.rocePacket q psn good).store.mem = s.store.mem := rfl

@[simp] theorem State.pfcPause_mem (s : State) (conn : Nat) (pause : Bool) :
    (s.pfcPause conn pause).store.mem = s.store.mem := rfl

@[simp] theorem State.respond_mem (s : State) (r : MgmtResp) : (s.respond r).store.mem = s.store.mem := rfl

@[simp] theorem State.redfish_mem (s : State) (status : Nat) : (s.redfish status).store.mem = s.store.mem := rfl

/-- What the management firmware serves leaves memory as it is, if the service does. -/
theorem State.served_mem (s : State) (k : State → State) (h : ∀ t, (k t).store.mem = t.store.mem) :
    (s.served k).store.mem = s.store.mem := by
  unfold State.served
  split
  · exact h s
  · rfl

@[simp] theorem State.redfishGet_mem (s : State) (res : RedfishRes) : (s.redfishGet res).store.mem = s.store.mem := by
  unfold State.redfishGet
  split
  · exact s.redfish_mem 200
  · exact s.served_mem _ fun t => t.redfish_mem 200

@[simp] theorem State.refuse_mem (s : State) : (s.refuse).store.mem = s.store.mem := rfl

@[simp] theorem State.updateService_mem (s : State) (u : UpdateObj) : (s.updateService u).store.mem = s.store.mem := by
  unfold State.updateService
  dsimp only
  (repeat' split) <;> simp

@[simp] theorem State.deviceIdSetting_mem (s : State) (v : Nat) : (s.deviceIdSetting v).store.mem = s.store.mem := by
  refine s.served_mem _ fun t => ?_
  simp

@[simp] theorem State.provision_mem (s : State) (o : SignedObj) : (s.provision o).store.mem = s.store.mem := by
  refine s.served_mem _ fun t => ?_
  split <;> simp

@[simp] theorem State.revoke_mem (s : State) (o : SignedObj) : (s.revoke o).store.mem = s.store.mem := by
  refine s.served_mem _ fun t => ?_
  split <;> simp

@[simp] theorem State.debugUnlock_mem (s : State) (o : SignedObj) : (s.debugUnlock o).store.mem = s.store.mem := by
  refine s.served_mem _ fun t => ?_
  split <;> simp

@[simp] theorem State.spdm_mem (s : State) (code : Nat) : (s.spdm code).store.mem = s.store.mem := rfl

@[simp] theorem State.spdmServed_mem (s : State) (code : Nat) : (s.spdmServed code).store.mem = s.store.mem :=
  s.served_mem _ fun t => t.spdm_mem code

@[simp] theorem State.challenge_mem (s : State) : (s.challenge).store.mem = s.store.mem := by
  refine s.served_mem _ fun t => ?_
  split <;> simp

@[simp] theorem State.getMeasurements_mem (s : State) (idx : Nat) : (s.getMeasurements idx).store.mem = s.store.mem := by
  refine s.served_mem _ fun t => ?_
  split <;> simp

@[simp] theorem State.spdmUnsupported_mem (s : State) : (s.spdmUnsupported).store.mem = s.store.mem :=
  s.served_mem _ fun t => t.respond_mem _

@[simp] theorem State.sramSingle_mem (s : State) (die : Nat) : (s.sramSingle die).store.mem = s.store.mem := rfl

@[simp] theorem State.hbmError_mem (s : State) (stack off : Nat) : (s.hbmError stack off).store.mem = s.store.mem := rfl

@[simp] theorem State.managementWake_mem (s : State) (p : Nat) : (s.managementWake p).store.mem = s.store.mem :=
  s.served_mem _ fun t => t.unpark_mem p

end Sys2Proof.Machine
end

section
/-!
PROOF. What writes memory keeps it canonical (O60): each function that a step may run and that writes bytes, from `cellsWrite_wf`
up, in the order in which they call each other.
-/

namespace Sys2Proof.Machine

/-- A fold of steps that each keep memory canonical keeps it so. -/
theorem State.wf_foldl {α : Type} (f : State → α → State)
    (hf : ∀ s a, Memory.wf s.store.mem → Memory.wf (f s a).store.mem) (l : List α) (s : State)
    (h : Memory.wf s.store.mem) : Memory.wf (l.foldl f s).store.mem :=
  List.foldlRecOn (motive := fun t => Memory.wf t.store.mem) l f h fun t ht a _ => hf t a ht

theorem State.each_wf {α : Type} (s : State) (l : List α) (f : State → α → State)
    (hf : ∀ s a, Memory.wf s.store.mem → Memory.wf (f s a).store.mem) (h : Memory.wf s.store.mem) :
    Memory.wf (s.each l f).store.mem := State.wf_foldl f hf l s h

/-! ### Resets and the end of a launch -/

@[simp] theorem State.afterReset_wf (s : State) : Memory.wf s.afterReset.store.mem := reset_memory_wf

@[simp] theorem State.packageReset_wf (s : State) : Memory.wf s.packageReset.store.mem := by
  unfold State.packageReset
  dsimp only
  split
  · exact State.wf_foldl _ (fun t i ht => by simpa using ht) _ _ s.afterReset_wf
  · exact s.afterReset_wf

@[simp] theorem State.putStatus_wf (s : State) (l : Launch) (p : Piece) (v : Nat) (h : Memory.wf s.store.mem) :
    Memory.wf (s.putStatus l p v).store.mem := by
  unfold State.putStatus
  dsimp only
  split
  · split
    · exact h
    · exact Store.put_wf _ _ _ _ (Store.put_wf _ _ _ _ h)
  · simpa using h
  · exact h

theorem State.writeStatus_wf (s : State) (l : Launch) (v : Nat) (h : Memory.wf s.store.mem) {t : State}
    (ht : s.writeStatus l v = .ok t) : Memory.wf t.store.mem := by
  unfold State.writeStatus at ht
  dsimp only at ht
  split at ht
  · cases ht; exact h
  · split at ht <;> cases ht
    · exact s.putStatus_wf l _ v h
    · exact h
    · simpa using h

@[simp] theorem State.finishLaunch_wf (s : State) (lid : Nat) (h : Memory.wf s.store.mem) :
    Memory.wf (s.finishLaunch lid).store.mem := by
  unfold State.finishLaunch
  split
  · exact h
  · split
    · dsimp only
      split
      · simpa using h
      · simpa using h
      · next ht => simpa using s.writeStatus_wf _ _ h ht
    · simpa using h
    · exact h

@[simp] theorem State.endLaunch_wf (s : State) (lid : Nat) (rep : Option Report) (nother : Nat)
    (h : Memory.wf s.store.mem) :
    Memory.wf (s.endLaunch lid rep nother).store.mem := by
  unfold State.endLaunch
  dsimp only
  (repeat' split) <;> simp [State.wf_foldl, h]

@[simp] theorem State.endRaised_wf (s : State) (lid core : Nat) (rep : Report) (h : Memory.wf s.store.mem) :
    Memory.wf (s.endRaised lid core rep).store.mem := by
  unfold State.endRaised
  split <;> simp [h]

@[simp] theorem State.resetPartition_wf (s : State) (p : Nat) (h : Memory.wf s.store.mem) :
    Memory.wf (s.resetPartition p).store.mem := by
  unfold State.resetPartition
  rw [State.resetFields_mem]
  exact State.wf_foldl _ (fun t l ht => t.endRaised_wf _ _ _ ht) _ s h

@[simp] theorem State.resetOf_wf (s : State) (core : Nat) (h : Memory.wf s.store.mem) :
    Memory.wf (s.resetOf core).store.mem := by
  unfold State.resetOf
  split <;> simp [h]

theorem State.cmdFinish_wf (s : State) (core : Nat) (effect : State → Cmd → Option State) (ev n : Nat) (c : Cmd)
    (he : ∀ t, effect s c = some t → Memory.wf t.store.mem) (h : Memory.wf s.store.mem) :
    Memory.wf (s.cmdFinish core effect ev n c).store.mem := by
  unfold State.cmdFinish
  dsimp only
  split
  · split <;> simp [h]
  · split
    · simpa using h
    · split
      · exact s.resetOf_wf core h
      · split
        · exact h
        · next t ht =>
          have kept := he t ht
          split
          · exact kept
          · split <;> simp [kept]

/-! ### Wounds -/

@[simp] theorem State.woundOne_wf (s : State) (lid : Nat) (o : Origin) (gone : List Nat) (j : WoundJob) (r : Reaction)
    (h : Memory.wf s.store.mem) : Memory.wf (s.woundOne lid o gone j r).store.mem := by
  unfold State.woundOne
  have told := State.mem_foldl (fun t (p : CtxRef × Nat) => t.event p.1 0x0B 1)
    (fun t p => congrArg Store.mem (t.event_store ..)) r.places s
  simp only [State.requeue_mem, State.updReact_store, State.updLaunch_store]
  refine Store.discard_wf _ _ _ _ ?_
  rw [State.tellDiscard_mem, State.releaseReact_mem]
  split <;> split <;> simpa [told] using h

@[simp] theorem State.woundLoop_wf (s : State) (lid : Nat) (o : Origin) (fuel : Nat) (gone : List Nat)
    (js : List WoundJob)
    (h : Memory.wf s.store.mem) : Memory.wf (s.woundLoop lid o fuel gone js).store.mem := by
  induction fuel generalizing s gone js with
  | zero => exact h
  | succ fuel ih =>
    cases js with
    | nil => exact h
    | cons j js =>
      unfold State.woundLoop
      split
      · exact h
      · split
        · exact ih _ _ _ (by simpa using h)
        · split
          · exact ih _ _ _ h
          · exact ih _ _ _ (s.woundOne_wf _ _ _ _ _ h)

@[simp] theorem State.wound_wf (s : State) (lid : Nat) (o : Origin) (js : List WoundJob) (h : Memory.wf s.store.mem) :
    Memory.wf (s.wound lid o js).store.mem := s.woundLoop_wf lid o _ _ js h

/-! ### Bytes written, and room for versions -/

@[simp] theorem State.writePiece_wf (s : State) (x : CtxRef) (v : Viewer) (p : Piece) (bytes : List Byte) (taint : Bool)
    (h : Memory.wf s.store.mem) : Memory.wf (s.writePiece x v p bytes taint).store.mem := by
  unfold State.writePiece
  dsimp only
  split
  · split <;> simp [h, Store.log_mem]
  · split <;> simp [h, Store.put_wf]

@[simp] theorem State.writePieces_wf (s : State) (x : CtxRef) (v : Viewer) (ps : List Piece) (bytes : List Byte)
    (taint : Bool) (h : Memory.wf s.store.mem) : Memory.wf (s.writePieces x v ps bytes taint).store.mem := by
  induction ps generalizing s bytes with
  | nil => exact h
  | cons p ps ih => exact ih _ _ (s.writePiece_wf x v p _ taint h)

theorem State.makeRoom_wf (s : State) (x : CtxRef) (v : Viewer) (before : List Piece) (p : Piece) (fuel : Nat)
    (h : Memory.wf s.store.mem) {t : State} (ht : s.makeRoom x v before p fuel = some t) : Memory.wf t.store.mem := by
  induction fuel generalizing s with
  | zero => cases ht
  | succ fuel ih =>
    unfold State.makeRoom at ht
    split at ht
    · cases ht; exact h
    · split at ht
      · cases ht
      · exact ih _ (s.wound_wf _ _ _ h) ht

theorem State.roomAfter_wf (s : State) (x : CtxRef) (v : Viewer) (before ps : List Piece)
    (h : Memory.wf s.store.mem) {t : State} (ht : s.roomAfter x v before ps = some t) : Memory.wf t.store.mem := by
  induction ps generalizing s before with
  | nil => cases ht; exact h
  | cons p ps ih =>
    unfold State.roomAfter at ht
    split at ht
    · exact ih _ _ h ht
    · split at ht
      · obtain ⟨u, hu, rest⟩ := Option.bind_eq_some_iff.mp ht
        exact ih _ _ (s.makeRoom_wf _ _ _ _ _ h hu) rest
      · cases ht

theorem State.roomFor_wf (s : State) (x : CtxRef) (v : Viewer) (ps : List Piece) (h : Memory.wf s.store.mem) {t : State}
    (ht : s.roomFor x v ps = some t) : Memory.wf t.store.mem := s.roomAfter_wf x v [] ps h ht

/-! ### Commands of the engines -/

theorem State.cmdWrite_wf (s : State) (x : CtxRef) (c : Cmd) (bytes : List Byte) (taint : Bool)
    (h : Memory.wf s.store.mem) {t : State} (ht : s.cmdWrite x c bytes taint = some t) : Memory.wf t.store.mem := by
  unfold State.cmdWrite at ht
  split at ht
  · cases ht; simpa using h
  · obtain ⟨u, hu, rfl⟩ := Option.map_eq_some_iff.mp ht
    simp [s.roomFor_wf _ _ _ h hu]

@[simp] theorem State.cmdRead_mem (s : State) (x : CtxRef) (c : Cmd) : (s.cmdRead x c).1.store.mem = s.store.mem :=
  s.cmdLease_mem c

theorem State.mxEffect_wf (s : State) (core : Nat) (c : Cmd) (h : Memory.wf s.store.mem) {t : State}
    (ht : s.mxEffect core c = some t) : Memory.wf t.store.mem := by
  unfold State.mxEffect at ht
  dsimp only at ht
  split at ht
  · exact s.cmdWrite_wf _ _ _ _ h ht
  · cases ht; split <;> simp [h]
  · cases ht; split <;> simp [h]
  · split at ht <;> cases ht <;> simp [h]

@[simp] theorem State.mxComplete_wf (s : State) (core : Nat) (array : Bool) (h : Memory.wf s.store.mem) :
    Memory.wf (s.mxComplete core array).store.mem := by
  unfold State.mxComplete
  dsimp only
  split
  · exact h
  · split
    · exact h
    · rw [State.tilesFree_mem]
      exact s.cmdFinish_wf _ _ _ _ _ (fun t ht => s.mxEffect_wf core _ h ht) h

@[simp] theorem State.fillBlocks_wf (s : State) (x : CtxRef) (v : Viewer) (r : FmtRec) (c : Cmd) (l : List (Nat × Nat))
    (ps : List Piece) (h : Memory.wf s.store.mem) : Memory.wf (s.fillBlocks x v r c l ps).store.mem := by
  induction l generalizing s ps with
  | nil => exact h
  | cons q l ih => exact ih _ _ (s.fillBlock_wf _ _ _ _ _ _ h)

@[simp] theorem State.canopyEffect_wf (s : State) (x : CtxRef) (c : Cmd) (h : Memory.wf s.store.mem) :
    Memory.wf (s.canopyEffect x c).store.mem := by
  unfold State.canopyEffect
  rw [State.cmdLease_mem]
  exact s.fillBlocks_wf _ _ _ _ _ _ h

theorem State.cpEffect_wf (s : State) (core : Nat) (c : Cmd) (h : Memory.wf s.store.mem) {t : State}
    (ht : s.cpEffect core c = some t) : Memory.wf t.store.mem := by
  unfold State.cpEffect at ht
  dsimp only at ht
  split at ht
  · cases ht; simpa using h
  · cases ht; split <;> simp [h]
  · exact s.cmdWrite_wf _ _ _ _ h ht
  · exact State.cmdWrite_wf _ _ _ _ _ (by simpa using h) ht

@[simp] theorem State.cpComplete_wf (s : State) (core id : Nat) (h : Memory.wf s.store.mem) :
    Memory.wf (s.cpComplete core id).store.mem := by
  unfold State.cpComplete
  split
  · exact h
  · split
    · exact h
    · exact s.cmdFinish_wf _ _ _ _ _ (fun t ht => s.cpEffect_wf core _ h ht) h

@[simp] theorem State.redStep_wf (s : State) (x : CtxRef) (v : Viewer) (c : Cmd) (b : RedBlock) (taint : Bool)
    (h : Memory.wf s.store.mem) : Memory.wf (s.redStep x v c b taint).1.store.mem := by
  unfold State.redStep
  refine List.foldlRecOn (motive := fun (a : State × Bool) => Memory.wf a.1.store.mem) _ _ h fun a ha e _ => ?_
  dsimp only
  split
  · exact ha
  · split <;> simp [ha]

@[simp] theorem State.msUpdate_wf (s : State) (x : CtxRef) (v : Viewer) (op : MsUpd) (ps : List Piece) (t p : Word)
    (taint : Bool) (h : Memory.wf s.store.mem) : Memory.wf (s.msUpdate x v op ps t p taint).1.store.mem :=
  s.writePieces_wf x v ps _ taint h

@[simp] theorem State.msApply_wf (s : State) (x : CtxRef) (v : Viewer) (c : Cmd) (h : Memory.wf s.store.mem) :
    Memory.wf (s.msApply x v c).store.mem := by
  unfold State.msApply
  dsimp only
  (repeat' split) <;> simp [h]

@[simp] theorem State.msPerform_wf (s : State) (core : Nat) (c : Cmd) (h : Memory.wf s.store.mem) :
    Memory.wf (s.msPerform core c).store.mem := by
  unfold State.msPerform
  dsimp only
  (repeat' split) <;> simp [h]

@[simp] theorem State.msDone_wf (s : State) (core : Nat) (c : Cmd) (h : Memory.wf s.store.mem) :
    Memory.wf (s.msDone core c).store.mem := by
  grind [State.msDone, State.msPerform_wf, State.resetSoon_mem, State.settle_mem, State.updCore_store]

@[simp] theorem State.msArrive_wf (s : State) (core id : Nat) (ports : List Nat) (h : Memory.wf s.store.mem) :
    Memory.wf (s.msArrive core id ports).store.mem := by
  unfold State.msArrive
  dsimp only
  (repeat' split) <;> simp [h]

@[simp] theorem State.msArrivals_wf (s : State) (n : Nat) (h : Memory.wf s.store.mem) :
    Memory.wf (s.msArrivals n).store.mem :=
  s.each_wf _ _ (fun t c ht => t.msArrive_wf n c.id _ ht) h

/-! ### A core's turn -/

@[simp] theorem State.blockFilled_wf (s : State) (x : CtxRef) (base : Nat) (h : Memory.wf s.store.mem) :
    Memory.wf (s.blockFilled x base).store.mem := by
  unfold State.blockFilled
  dsimp only
  (repeat' split) <;> simp [h]

@[simp] theorem State.fillBlocksOf_wf (s : State) (n : Nat) (h : Memory.wf s.store.mem) :
    Memory.wf (s.fillBlocksOf n).store.mem := by
  unfold State.fillBlocksOf
  refine State.each_wf s _ _ (fun t k ht => ?_) h
  exact State.each_wf t _ _ (fun u b hu => u.blockFilled_wf ⟨n, k⟩ b.base hu) ht

@[simp] theorem State.enginesAct_wf (s : State) (n : Nat) (h : Memory.wf s.store.mem) :
    Memory.wf (s.enginesAct n).store.mem := by
  unfold State.enginesAct
  dsimp only
  rw [State.cpStart_mem, State.mxStart_mem]
  refine State.each_wf _ _ _ (fun t k ht => by simpa using ht) (State.msArrivals_wf _ n (State.fillBlocksOf_wf _ n ?_))
  refine State.each_wf _ _ _ (fun t c ht => by simpa using ht) (State.each_wf _ _ _ (fun t c ht => ?_) ?_)
  · exact t.cpComplete_wf n c.id ht
  · exact State.mxComplete_wf _ n true (s.mxComplete_wf n false h)

@[simp] theorem State.checkEnd_wf (s : State) (lid : Nat) (h : Memory.wf s.store.mem) :
    Memory.wf (s.checkEnd lid).store.mem := by
  unfold State.checkEnd
  dsimp only
  (repeat' split) <;> simp [h]

@[simp] theorem State.endingDone_wf (s : State) (x : CtxRef) (h : Memory.wf s.store.mem) :
    Memory.wf (s.endingDone x).store.mem := by
  unfold State.endingDone
  dsimp only
  (repeat' split) <;> simp [h]

@[simp] theorem State.writeEntry_wf (s : State) (a : Nat) (v : Word) (h : Memory.wf s.store.mem) :
    Memory.wf (s.writeEntry a v).store.mem := by
  have written : Memory.wf (s.store.put a (leBytes 8 v.toNat) false).mem := Store.put_wf _ _ _ _ h
  unfold State.writeEntry
  dsimp only
  split
  · exact State.wf_foldl _ (fun t d ht => by simpa using ht) _ _ written
  · exact written

@[simp] theorem State.ptmcOrdered_wf (s : State) (id : Nat) (h : Memory.wf s.store.mem) :
    Memory.wf (s.ptmcOrdered id).store.mem := by
  unfold State.ptmcOrdered
  dsimp only
  (repeat' split) <;> simp [h]

@[simp] theorem State.pollBlock_wf (s : State) (x : CtxRef) (b : Block) (h : Memory.wf s.store.mem) :
    Memory.wf (s.pollBlock x b).store.mem := by
  unfold State.pollBlock
  split
  case h_16 => split <;> simp [h]
  case h_19 => split <;> simp [h]
  all_goals simp [h]

@[simp] theorem State.poll_wf (s : State) (x : CtxRef) (h : Memory.wf s.store.mem) : Memory.wf (s.poll x).store.mem := by
  unfold State.poll
  split <;> simp [h]

@[simp] theorem State.coreAct_wf (s : State) (n : Nat) (h : Memory.wf s.store.mem) :
    Memory.wf (s.coreAct n).store.mem := by
  have ran : Memory.wf ((s.enginesAct n).lateArrive n).store.mem := by simpa using s.enginesAct_wf n h
  have polled (t : State) (ht : Memory.wf t.store.mem) :
      Memory.wf (((t.yieldIfDue n).each (List.range 4) fun s k => s.poll ⟨n, k⟩).giveSets n).store.mem := by
    rw [State.giveSets_mem]
    exact State.each_wf _ _ _ (fun u k hu => u.poll_wf _ hu) (by simpa using ht)
  unfold State.coreAct
  dsimp only
  split
  · exact ran
  · split
    · exact polled _ ran
    · split
      · exact polled _ ran
      · rw [State.giveTurn_mem, State.switchTo_mem]
        exact polled _ ran

/-! ### Tickets and placing -/

@[simp] theorem State.resumeMember_wf (s : State) (l : Launch) (r : Reaction) (owner gb : Nat) (x : CtxRef) (sv : Saved)
    (slot : Nat) (h : Memory.wf s.store.mem) : Memory.wf (s.resumeMember l r owner gb x sv slot).store.mem := by
  unfold State.resumeMember
  split
  · exact h
  · simp only [State.traceCtx_mem, State.updCore_store, State.dropOld_mem, Store.renumber_mem]
    exact State.restoreAlloc_wf _ _ _ _ _ (by simpa [State.sound] using h)

@[simp] theorem State.resumeReact_wf (s : State) (l : Launch) (r : Reaction) (ps : List (CtxRef × Nat))
    (h : Memory.wf s.store.mem) : Memory.wf (s.resumeReact l r ps).store.mem := by
  unfold State.resumeReact
  simp only [State.updReact_store, State.dropAsked_mem, State.updLaunch_store]
  refine State.wf_foldl _ (fun t i ht => ?_) _ _ (by simpa using h)
  split
  · exact t.resumeMember_wf _ _ _ _ _ _ _ ht
  · exact ht

theorem State.place_wf (s : State) (core : Nat) (l : Launch) (r : Reaction) (h : Memory.wf s.store.mem) {t : State}
    (ht : s.place core l r = some t) : Memory.wf t.store.mem := by
  unfold State.place at ht
  split at ht
  · obtain ⟨ps, _, rfl⟩ := Option.map_eq_some_iff.mp ht
    simpa using h
  · split at ht
    · cases ht
    · obtain ⟨ps, _, rfl⟩ := Option.map_eq_some_iff.mp ht
      exact s.resumeReact_wf l r ps h

theorem State.consider_wf (s : State) (core : Nat) (q : Launch × Reaction) (h : Memory.wf s.store.mem) {t : State}
    (ht : s.consider core q = some t) : Memory.wf t.store.mem := by
  unfold State.consider at ht
  dsimp only at ht
  split at ht
  · cases ht
  · split at ht
    · cases ht; exact s.endRaised_wf _ _ _ h
    · cases ht
    · split at ht
      · obtain ⟨y, _, placed⟩ := Option.bind_eq_some_iff.mp ht
        split at placed
        · exact s.place_wf _ _ _ h placed
        · cases placed
      · exact s.place_wf _ _ _ h ht

@[simp] theorem State.ticketTake_wf (s : State) (core : Nat) (h : Memory.wf s.store.mem) :
    Memory.wf (s.ticketTake core).store.mem := by
  unfold State.ticketTake
  split
  · exact h
  · dsimp only
    split
    · next ht =>
      obtain ⟨_, q, _, _, taken, _⟩ := List.findSome?_eq_some_iff.mp ht
      exact (s.consider_wf core q h taken :)
    · exact h

/-! ### Clearing -/

@[simp] theorem Store.commit_wf (st : Store) (e : Eff) (h : Memory.wf st.mem) : Memory.wf (st.commit e).mem := by
  unfold Store.commit
  split
  · split
    · exact Store.put_wf _ _ _ _ h
    · exact h
  · split
    · exact Store.setSector_wf _ _ _ h
    · exact h
  · exact h
  · exact h

@[simp] theorem State.sysStore_wf (s : State) (core : Nat) (ps : List Piece) (bs : List Byte)
    (h : Memory.wf s.store.mem) : Memory.wf (s.sysStore core ps bs).store.mem := by
  induction ps generalizing s bs with
  | nil => exact h
  | cons p ps ih =>
    refine ih _ _ ?_
    split
    · simpa using h
    · exact Store.put_wf _ _ _ _ h

theorem State.sysWrite_wf (s : State) (l : Launch) (die va : Nat) (bs : List Byte) (h : Memory.wf s.store.mem) {t : State}
    (ht : s.sysWrite l die va bs = some t) : Memory.wf t.store.mem := by
  unfold State.sysWrite at ht
  split at ht
  · split at ht
    · cases ht
    · cases ht
      simpa using s.sysStore_wf _ _ bs h
  · cases ht

@[simp] theorem State.taintLog_wf (s : State) (die : Nat) (l : Launch) (kind stamp addr stamp2 : Nat)
    (h : Memory.wf s.store.mem) : Memory.wf (s.taintLog die l kind stamp addr stamp2).store.mem := by
  unfold State.taintLog
  dsimp only
  split
  · simpa using h
  · split
    · next ht => simpa using s.sysWrite_wf _ _ _ _ h ht
    · simpa using h

@[simp] theorem State.conflict_wf (s : State) (l : Launch) (ws : List Wrote) (k : Nat) (h : Memory.wf s.store.mem) :
    Memory.wf (s.conflict l ws k).store.mem := by
  simp [State.conflict, h]

@[simp] theorem State.pinConflict_wf (s : State) (l : Launch) (stamp e : Nat) (h : Memory.wf s.store.mem) :
    Memory.wf (s.pinConflict l stamp e).store.mem := by
  simp [State.pinConflict, h]

@[simp] theorem State.logEvent_wf (s : State) (l : Launch) (t : TaintEv) (h : Memory.wf s.store.mem) :
    Memory.wf (s.logEvent l t).store.mem := by
  unfold State.logEvent
  split <;> simp [h]

@[simp] theorem State.taintCommit_wf (s : State) (l : Launch) (t : TaintEv) (h : Memory.wf s.store.mem) :
    Memory.wf (s.taintCommit l t).store.mem := by
  simp [State.taintCommit, h]

@[simp] theorem State.commitLog_wf (s : State) (core : Nat) (g : RLog) (h : Memory.wf s.store.mem) :
    Memory.wf (s.commitLog core g).store.mem :=
  State.wf_foldl _ (fun t e ht => by simpa using ht) _ _ (foldl_wf _ Store.commit_wf g.ordered _ h)

@[simp] theorem State.commitInstant_wf (s : State) (l : Launch) (gs : List RLog) (h : Memory.wf s.store.mem) :
    Memory.wf (s.commitInstant l gs).store.mem := by
  have committed := State.wf_foldl (fun t g => t.commitLog l.core g) (fun t g ht => t.commitLog_wf l.core g ht) gs
    { s with store := s.store.clearPoison (s.store.wholePoisoned gs), clearedNow := l.lid :: s.clearedNow } h
  unfold State.commitInstant
  dsimp only
  split <;> simp [committed]

theorem State.foldl_logEvent_wf (s : State) (l : Launch) (ts : List TaintEv) (h : Memory.wf s.store.mem) :
    Memory.wf (ts.foldl (fun t e => t.logEvent l e) s).store.mem :=
  State.wf_foldl _ (fun t e ht => t.logEvent_wf l e ht) ts s h

@[simp] theorem State.clearInstant_wf (s : State) (lid : Nat) (h : Memory.wf s.store.mem) :
    Memory.wf (s.clearInstant lid).store.mem := by
  unfold State.clearInstant
  dsimp only
  (repeat' split) <;> simp [State.foldl_logEvent_wf, h]

@[simp] theorem State.dieAct_wf (s : State) (d : Nat) (h : Memory.wf s.store.mem) :
    Memory.wf (s.dieAct d).store.mem := by
  have asked : Memory.wf ((s.askThresholds d).askResumes d).store.mem := by simpa using h
  have taken (l : List Nat) := State.each_wf _ l (fun (t : State) n =>
    if t.tickets.all (fun q => decide (q.2.2 = [])) then t else t.ticketTake n)
    (fun t n ht => by split <;> simp [ht]) asked
  have cleared (l : List Nat) (t : State) (ht : Memory.wf t.store.mem) := t.each_wf l _ State.clearInstant_wf ht
  unfold State.dieAct
  dsimp only
  refine State.each_wf _ _ _ (fun t u ht => by simpa using ht) ?_
  exact cleared _ _ (taken _)

/-! ### Launches -/

@[simp] theorem State.dispWait_wf (s : State) (l : Launch) (n : Need) (h : Memory.wf s.store.mem) :
    Memory.wf (s.dispWait l n).store.mem := by
  unfold State.dispWait
  split <;> simp [h]

@[simp] theorem State.reject_wf (s : State) (lid : Nat) (cause : Byte) (field : Nat) (h : Memory.wf s.store.mem) :
    Memory.wf (s.reject lid cause field).store.mem := by
  simp [State.reject, h]

@[simp] theorem State.launchPass2_wf (s : State) (l : Launch) (qs : List EntryRaw) (bad : Bool)
    (h : Memory.wf s.store.mem) :
    Memory.wf (s.launchPass2 l qs bad).store.mem := by
  unfold State.launchPass2
  dsimp only
  (repeat' split) <;> simp [h]

@[simp] theorem State.launchCheck_wf (s : State) (lid : Nat) (h : Memory.wf s.store.mem) :
    Memory.wf (s.launchCheck lid).store.mem := by
  unfold State.launchCheck
  dsimp only
  (repeat' split) <;> simp [h]

@[simp] theorem State.closeInstant_wf (s : State) (lid : Nat) (h : Memory.wf s.store.mem) :
    Memory.wf (s.closeInstant lid).store.mem := by
  unfold State.closeInstant
  dsimp only
  (repeat' split) <;> simp [h]

@[simp] theorem State.instantEnqueue_wf (s : State) (lid : Nat) (h : Memory.wf s.store.mem) :
    Memory.wf (s.instantEnqueue lid).store.mem := by
  unfold State.instantEnqueue
  split
  · exact h
  · split
    · exact h
    · exact State.closeInstant_wf _ _ (State.wf_foldl _ (fun t r ht => by simpa using ht) _ _ (by simpa using h))

@[simp] theorem State.enqueueAct_wf (s : State) (h : Memory.wf s.store.mem) : Memory.wf s.enqueueAct.store.mem := by
  unfold State.enqueueAct
  refine s.each_wf _ _ (fun t d ht => State.each_wf _ _ _ State.instantEnqueue_wf (t.each_wf _ _ (fun u l hu => ?_) ht)) h
  exact State.finishLaunch_wf _ l (u.launchCheck_wf l hu)

/-! ### Preemption -/

@[simp] theorem State.drain_wf (s : State) (x : CtxRef) (h : Memory.wf s.store.mem) : Memory.wf
    (s.drain x).store.mem := by
  unfold State.drain
  refine State.wf_foldl _ (fun t b ht => t.blockFilled_wf x b.base ht) _ _ ?_
  refine State.wf_foldl _ (fun t c ht => t.mxComplete_wf _ _ ht) _ _ ?_
  exact State.wf_foldl _ (fun t c ht => t.cpComplete_wf _ _ ht) _ s h

@[simp] theorem State.saveMember_wf (s : State) (l : Launch) (x : CtxRef) (entry slot : Nat) (h : Memory.wf s.store.mem) :
    Memory.wf (s.saveMember l x entry slot).1.store.mem := by
  unfold State.saveMember
  split
  · exact h
  · simp only [State.releaseCtx_store]
    cases hw : State.sysWrite _ l l.checkDie (l.slotAddr slot) _ with
    | none => simpa using h
    | some t => exact State.sysWrite_wf _ _ _ _ _ (by simpa using h) hw

@[simp] theorem State.saveReact_wf (s : State) (l : Launch) (r : Reaction) (slots : List Nat)
    (h : Memory.wf s.store.mem) :
    Memory.wf (s.saveReact l r slots).store.mem := by
  unfold State.saveReact
  simp only [State.setTickets_mem, State.dropTicket_mem, State.dropAsked_mem, State.updReact_store, State.updLaunch_store]
  exact List.foldlRecOn (motive := fun (a : State × List Saved) => Memory.wf a.1.store.mem) _ _ h
    fun a ha p _ => a.1.saveMember_wf _ _ _ _ ha

@[simp] theorem State.checkpoint_wf (s : State) (id : ReactId) (h : Memory.wf s.store.mem) :
    Memory.wf (s.checkpoint id).store.mem := by
  unfold State.checkpoint
  split
  · exact h
  · next r _ =>
    split
    · exact h
    · have drained := State.wf_foldl (fun t (p : CtxRef × Nat) => t.drain p.1)
        (fun t p ht => t.drain_wf p.1 ht) r.places s h
      dsimp only
      (repeat' split) <;> simp [drained]

@[simp] theorem State.killReact_wf (s : State) (lid : Nat) (r : Reaction) (h : Memory.wf s.store.mem) :
    Memory.wf (s.killReact lid r).store.mem := by
  unfold State.killReact
  refine State.woundLoop_wf _ _ _ _ _ _ ?_
  simp only [State.requeue_mem, State.updReact_store, State.updLaunch_store]
  exact Store.discard_wf _ _ _ _ (by simpa using h)

@[simp] theorem State.kill_wf (s : State) (id : ReactId) (h : Memory.wf s.store.mem) : Memory.wf
    (s.kill id).store.mem := by
  unfold State.kill
  split
  · exact h
  · split
    · exact State.checkEnd_wf _ _ (s.killReact_wf _ _ h)
    · exact h

@[simp] theorem State.boundaryAct_wf (s : State) (h : Memory.wf s.store.mem) : Memory.wf s.boundaryAct.store.mem :=
  State.each_wf _ _ _ State.kill_wf (s.each_wf _ _ State.checkpoint_wf h)

/-! ### The package -/

@[simp] theorem State.takeResets_wf (s : State) (h : Memory.wf s.store.mem) : Memory.wf s.takeResets.store.mem :=
  State.each_wf _ _ _ State.resetPartition_wf h

@[simp] theorem State.settleGuest_wf (s : State) (lid : Nat) (g : Guest) (h : Memory.wf s.store.mem) :
    Memory.wf (s.settleGuest lid g).store.mem := by
  unfold State.settleGuest
  dsimp only
  (repeat' split) <;> simp [h]

@[simp] theorem State.settleGuests_wf (s : State) (h : Memory.wf s.store.mem) : Memory.wf s.settleGuests.store.mem :=
  State.wf_foldl _ (fun t l ht => State.wf_foldl _ (fun u g hu => u.settleGuest_wf l.lid g hu) _ t ht) _ s h

/-! ### The storage port -/

/-- The state that a request of the storage port leaves, answered, held or failed. -/
@[simp] def PortDone.state : PortDone → State
  | .done s => s
  | .held s => s
  | .failed s => s

section
variable {s : State} {q va n : Nat} {kind : HeldKind} {data bs : List Byte} {acc : Acc} {r : PortDone}
  {k : State → List Piece → PortDone}

theorem State.withPort_wf (hk : ∀ t ps, Memory.wf t.store.mem → Memory.wf (k t ps).state.store.mem)
    (h : Memory.wf s.store.mem) (hr : s.withPort q kind data acc va n k = r) : Memory.wf r.state.store.mem := by
  subst hr
  unfold State.withPort
  dsimp only
  split
  · next ps _ =>
    have kept := hk s ps h
    split <;> next done => rw [done] at kept; simpa [PortDone.state] using kept
  all_goals simp [PortDone.state, State.mem_foldl, h]

theorem State.portWrite_wf (h : Memory.wf s.store.mem) (hr : s.portWrite q kind data va bs = r) :
    Memory.wf r.state.store.mem := by
  refine State.withPort_wf (fun t ps ht => ?_) h hr
  split <;> simp [PortDone.state, ht]

end

@[simp] theorem State.cqWrite_wf (s : State) (q : Nat) (entry : List Byte) (h : Memory.wf s.store.mem) :
    Memory.wf (s.cqWrite q entry).store.mem := by
  unfold State.cqWrite
  dsimp only
  split <;> next done => simpa using State.portWrite_wf h done

@[simp] theorem State.localComplete_wf (s : State) (q : Nat) (e : List Byte) (status : Nat) (h : Memory.wf s.store.mem) :
    Memory.wf (s.localComplete q e status).store.mem := by
  simp [State.localComplete, h]

@[simp] theorem State.failEntry_wf (s : State) (q : Nat) (h : Memory.wf s.store.mem) :
    Memory.wf (s.failEntry q).store.mem := by
  simp [State.failEntry, h]

@[simp] theorem State.fetchEntries_wf (s : State) (q fuel : Nat) (h : Memory.wf s.store.mem) :
    Memory.wf (s.fetchEntries q fuel).store.mem := by
  induction fuel generalizing s with
  | zero => exact h
  | succ fuel ih =>
    unfold State.fetchEntries
    dsimp only
    split
    · exact h
    · split <;> next t done =>
        have kept : Memory.wf t.store.mem := State.withPort_wf (fun t ps ht => by split <;> simpa using ht) h done
        simp [ih, kept]

@[simp] theorem State.moveIn_wf (s : State) (q : Nat) (e data : List Byte) (h : Memory.wf s.store.mem) :
    Memory.wf (s.moveIn q e data).store.mem := by
  unfold State.moveIn
  dsimp only
  split <;> next t done =>
    have kept : Memory.wf t.store.mem := State.portWrite_wf h done
    simp [kept]

@[simp] theorem State.moveOut_wf (s : State) (q : Nat) (e : List Byte) (h : Memory.wf s.store.mem) :
    Memory.wf (s.moveOut q e).store.mem := by
  unfold State.moveOut
  dsimp only
  split <;> next t done =>
    have kept : Memory.wf t.store.mem := State.withPort_wf (fun t ps ht => by split <;> simpa using ht) h done
    simp [kept]

@[simp] theorem State.retryHeld_wf (s : State) (r : HeldReq) (h : Memory.wf s.store.mem) :
    Memory.wf (s.retryHeld r).store.mem := by
  unfold State.retryHeld
  dsimp only
  split
  · exact State.fetchEntries_wf _ _ _ h
  · exact State.moveIn_wf _ _ _ _ h
  · exact State.moveOut_wf _ _ _ h
  · exact State.cqWrite_wf _ _ _ h
  · simpa using h

@[simp] theorem State.retryWaiting_wf (s : State) (h : Memory.wf s.store.mem) : Memory.wf s.retryWaiting.store.mem :=
  State.wf_foldl _ State.retryHeld_wf _ s h

theorem State.awake_wf (s : State) (k : State → State) (hk : ∀ t, Memory.wf t.store.mem → Memory.wf (k t).store.mem)
    (h : Memory.wf s.store.mem) : Memory.wf (s.awake k).store.mem := by
  unfold State.awake
  split
  · exact h
  · exact hk s h

@[simp] theorem State.packageAct_wf (s : State) (h : Memory.wf s.store.mem) : Memory.wf s.packageAct.store.mem := by
  have scrubbed {c : Prop} [Decidable c] {t : State} (ht : Memory.wf t.store.mem) :
      Memory.wf (if c then t.scrubRead else t).store.mem := by split <;> simp [ht]
  unfold State.packageAct
  dsimp only
  refine scrubbed (State.awake_wf _ _ (fun t ht => by simp [ht]) (State.settleGuests_wf _ ?_))
  refine State.each_wf _ _ _ (fun t id ht => by simp [ht]) (State.each_wf _ _ _ (fun t id ht => by simpa using ht) ?_)
  refine State.takeResets_wf _ (State.each_wf _ _ _ (fun t p ht => by simpa using ht) ?_)
  refine State.each_wf _ _ _ (fun t d ht => by simpa using ht) ?_
  rw [State.returnToActive_mem]
  exact s.each_wf _ _ (fun t n ht => by simpa using ht) h

/-! ### Traps, blocks and the end of a group -/

@[simp] theorem State.failReact_wf (s : State) (x : CtxRef) (cause : Byte) (info : Word) (h : Memory.wf s.store.mem) :
    Memory.wf (s.failReact x cause info).store.mem := by
  unfold State.failReact
  dsimp only
  (repeat' split) <;> simp [State.wf_foldl, h]

@[simp] theorem State.takeEngTrap_wf (s : State) (t : EngTrap) (h : Memory.wf s.store.mem) :
    Memory.wf (s.takeEngTrap t).store.mem := by
  unfold State.takeEngTrap
  dsimp only
  (repeat' split) <;> simp [h]

@[simp] theorem State.afterFinish_wf (s : State) (lid : Nat) (inst : Nat) (h : Memory.wf s.store.mem) :
    Memory.wf (s.afterFinish lid inst).store.mem := by
  unfold State.afterFinish
  dsimp only
  (repeat' split) <;> simp [h]

@[simp] theorem State.tendRetire_wf (s : State) (x : CtxRef) (h : Memory.wf s.store.mem) :
    Memory.wf (s.tendRetire x).store.mem := by
  unfold State.tendRetire
  dsimp only
  (repeat' split) <;> simp [h]

@[simp] theorem State.retireAct_wf (s : State) (h : Memory.wf s.store.mem) : Memory.wf s.retireAct.store.mem :=
  State.each_wf _ _ _ State.tendRetire_wf (State.each_wf _ _ _ State.takeEngTrap_wf h)

@[simp] theorem State.enterHandler_wf (s : State) (x : CtxRef) (addr : Word) (h : Memory.wf s.store.mem) :
    Memory.wf (s.enterHandler x addr).store.mem := by
  unfold State.enterHandler
  dsimp only
  (repeat' split) <;> simp [h]

@[simp] theorem State.takeTrap_wf (s : State) (x : CtxRef) (t : Trap) (h : Memory.wf s.store.mem) :
    Memory.wf (s.takeTrap x t).store.mem := by
  unfold State.takeTrap
  dsimp only
  (repeat' split) <;> simp [h]

@[simp] theorem State.trapWith_wf (s : State) (x : CtxRef) (limm : BitVec 32) (t : Trap) (h : Memory.wf s.store.mem) :
    Memory.wf (s.trapWith x limm t).store.mem := by
  simp [State.trapWith, h]

@[simp] theorem State.touchWounds_wf (s : State) (x : CtxRef) (rs : List Range) (h : Memory.wf s.store.mem) :
    Memory.wf (s.touchWounds x rs).store.mem := by
  unfold State.touchWounds
  dsimp only
  (repeat' split) <;> simp [h]

@[simp] theorem State.enterBlock_wf (s : State) (x : CtxRef) (b : Block) (h : Memory.wf s.store.mem) :
    Memory.wf (s.enterBlock x b).store.mem := by
  unfold State.enterBlock
  split <;> simp [h]

@[simp] theorem State.fetchFail_wf (s : State) (x : CtxRef) (f : FetchR) (h : Memory.wf s.store.mem) :
    Memory.wf (s.fetchFail x f).store.mem := by
  unfold State.fetchFail
  split <;> simp [h]

@[simp] theorem State.emuReturn_wf (s : State) (x : CtxRef) (w : Word) (h : Memory.wf s.store.mem) :
    Memory.wf (s.emuReturn x w).store.mem := by
  unfold State.emuReturn
  dsimp only
  (repeat' split) <;> simp [h]

@[simp] theorem State.handlerEnd_wf (s : State) (x : CtxRef) (h : Memory.wf s.store.mem) :
    Memory.wf (s.handlerEnd x).store.mem := by
  unfold State.handlerEnd
  dsimp only
  (repeat' split) <;> simp [h]

@[simp] theorem State.commitGroup_wf (s : State) (x : CtxRef) (slots : List GSlot) (h : Memory.wf s.store.mem) :
    Memory.wf (s.commitGroup x slots).store.mem := by
  unfold State.commitGroup
  dsimp only
  (repeat' split) <;> simp [h]

/-! ### Sets, drains and reads -/

/-- The state that a touch of sets leaves, if they are held. -/
theorem State.touch_wf (s : State) (x : CtxRef) (rs : List Range) (h : Memory.wf s.store.mem) {t : State}
    (ht : s.touch x rs = .ok t) : Memory.wf t.store.mem := by
  unfold State.touch at ht
  split at ht
  · cases ht; exact h
  · split at ht
    · dsimp only at ht
      (repeat' split at ht) <;> cases ht <;> simp [h]
    · cases ht; exact h

@[simp] theorem State.setAcquire_wf (s : State) (x : CtxRef) (h : Memory.wf s.store.mem) :
    Memory.wf (s.setAcquire x).store.mem := by
  unfold State.setAcquire
  split
  · split
    · next ht => simpa using s.touch_wf _ _ h ht
    · simpa using h
    · simpa using h
  · exact h

@[simp] theorem State.msDrain_wf (s : State) (x : CtxRef) (stack : Nat) (h : Memory.wf s.store.mem) :
    Memory.wf (s.msDrain x stack).store.mem :=
  State.wf_foldl _ (fun t c ht => t.msDone_wf x.core c ht) _ s h

@[simp] theorem State.readSpan_mem (s : State) (x : CtxRef) (a : SpanP) : (s.readSpan x a).1.store.mem = s.store.mem :=
  foldl_mem _ (fun st p => st.lease_mem _ _ p) _ s.store

@[simp] theorem State.readSpans_mem (s : State) (l : List SpanP) : (s.readSpans l).1.store.mem = s.store.mem :=
  List.foldlRecOn (motive := fun (a : State × List (List Byte) × Bool) => a.1.store.mem = s.store.mem) l _ rfl
    fun a ha p _ => (a.1.readSpan_mem _ p).trans ha

/-- Of the state as it stood before the group, a read of it leaves nothing behind. -/
@[simp] theorem State.readBefore_mem (s : State) (a : SpanP) : (s.readBefore a).1.store.mem = s.store.mem :=
  foldl_mem _ (fun st p => st.lease_mem _ _ p) _ s.store

@[simp] theorem State.msLog_wf (s : State) (x : CtxRef) (v : Viewer) (op : MsUpd) (key : Nat) (t p : Word) (taint : Bool)
    (h : Memory.wf s.store.mem) : Memory.wf (s.msLog x v op key t p taint).store.mem :=
  State.wound_wf _ _ _ _ ((congrArg Memory.wf (Store.log_mem ..)).trans h)

@[simp] theorem State.redWhole_wf (s : State) (x : CtxRef) (v : Viewer) (b : RedBlock) (rd wr : List Piece) (taint : Bool)
    (h : Memory.wf s.store.mem) : Memory.wf (s.redWhole x v b rd wr taint).store.mem :=
  State.wf_foldl _ (fun t _ ht => t.writePieces_wf _ _ _ _ _ ht) _ s h

/-! ### Aborts and registers -/

@[simp] theorem State.abort_wf (s : State) (status : Nat) (h : Memory.wf s.store.mem) :
    Memory.wf (s.abort status).store.mem := by
  unfold State.abort
  split
  · exact h
  · dsimp only
    split
    · exact s.endLaunch_wf _ _ _ h
    · exact State.checkEnd_wf _ _ (State.wf_foldl _ (fun t r ht => t.killReact_wf _ r ht) _ _ h)

@[simp] theorem State.performAll_wf (s : State) (x : CtxRef) (h : Memory.wf s.store.mem) :
    Memory.wf (s.performAll x).store.mem :=
  State.wf_foldl _ (fun t c ht => t.msDone_wf x.core c ht) _ s h

@[simp] theorem State.d2htailWrite_wf (s : State) (x : CtxRef) (v : Word) (h : Memory.wf s.store.mem) :
    Memory.wf (s.d2htailWrite x v).store.mem := by
  unfold State.d2htailWrite
  dsimp only
  (repeat' split) <;> simp [h]

@[simp] theorem State.windowWrite_wf (s : State) (x : CtxRef) (i : Nat) (v : Word) (h : Memory.wf s.store.mem) :
    Memory.wf (s.windowWrite x i v).store.mem := by
  unfold State.windowWrite
  split <;> simp [h]

@[simp] theorem State.plainWrite_wf (s : State) (x : CtxRef) (r : RegAddr) (v : Word) (h : Memory.wf s.store.mem) :
    Memory.wf (s.plainWrite x r v).store.mem := by
  unfold State.plainWrite
  dsimp only
  (repeat' split) <;> simp [h]

@[simp] theorem State.sqDoorbell_wf (s : State) (q : Nat) (tail : Word) (h : Memory.wf s.store.mem) :
    Memory.wf (s.sqDoorbell q tail).store.mem := by
  unfold State.sqDoorbell
  dsimp only
  split
  · exact h
  · exact State.fetchEntries_wf _ _ _ h

@[simp] theorem State.regWrite_wf (s : State) (x : CtxRef) (r : RegAddr) (v : Word) (h : Memory.wf s.store.mem) :
    Memory.wf (s.regWrite x r v).store.mem := by
  unfold State.regWrite
  dsimp only
  (repeat' split) <;> simp [h]

@[simp] theorem State.failHeld_wf (s : State) (r : HeldReq) (h : Memory.wf s.store.mem) :
    Memory.wf (s.failHeld r).store.mem := by
  unfold State.failHeld
  dsimp only
  split <;> simp [h]

@[simp] theorem State.resolveFault_wf (s : State) (die : Nat) (tag : BitVec 16) (fail : Bool)
    (h : Memory.wf s.store.mem) :
    Memory.wf (s.resolveFault die tag fail).store.mem := by
  unfold State.resolveFault
  split
  · exact h
  · split
    · exact s.failHeld_wf _ h
    · exact s.retryHeld_wf _ h

/-! ### The host, the fabric and errors -/

@[simp] theorem State.hostByte_wf (s : State) (off : Nat) (b : Byte) (h : Memory.wf s.store.mem) :
    Memory.wf (s.hostByte off b).store.mem := by
  unfold State.hostByte
  dsimp only
  split
  · split
    · exact Store.put_wf _ _ _ _ h
    · exact h
  · (repeat' split) <;> exact h

@[simp] theorem State.hostBytes_wf (s : State) (off : Nat) (bs : List Byte) (h : Memory.wf s.store.mem) :
    Memory.wf (s.hostBytes off bs).store.mem := by
  induction bs generalizing s off with
  | nil => exact h
  | cons b bs ih => exact ih _ _ (s.hostByte_wf off b h)

@[simp] theorem State.hostWrite_wf (s : State) (off : Nat) (bs : List Byte) (h : Memory.wf s.store.mem) :
    Memory.wf (s.hostWrite off bs).store.mem := by
  simpa [State.hostWrite] using s.hostBytes_wf off bs h

@[simp] theorem State.flitStore_wf (s : State) (die : Nat) (f : Flit) (h : Memory.wf s.store.mem) :
    Memory.wf (s.flitStore die f).store.mem := by
  unfold State.flitStore
  dsimp only
  split
  · simpa using h
  · split
    · simpa using h
    · refine State.wf_foldl _ (fun t p ht => ?_) _ s h
      exact Store.put_wf _ _ _ _ ht

@[simp] theorem State.flitLoad_mem (s : State) (die : Nat) (f : Flit) : (s.flitLoad die f).store.mem = s.store.mem := by
  unfold State.flitLoad
  dsimp only
  (repeat' split) <;> simp [Store.lease_mem]

@[simp] theorem State.flitTable_wf (s : State) (die : Nat) (f : Flit) (h : Memory.wf s.store.mem) :
    Memory.wf (s.flitTable die f).store.mem := by
  unfold State.flitTable
  dsimp only
  (repeat' split) <;> simp [h]

@[simp] theorem State.flitClearing_wf (s : State) (m : ClearMsg) (h : Memory.wf s.store.mem) :
    Memory.wf (s.flitClearing m).store.mem := by
  unfold State.flitClearing
  dsimp only
  (repeat' split) <;> simp [h]

@[simp] theorem State.guestStore_wf (s : State) (die : Nat) (f : Flit) (l : Launch) (stamp addr : Nat) (data : List Byte)
    (taint ms : Bool) (h : Memory.wf s.store.mem) : Memory.wf
    (s.guestStore die f l stamp addr data taint ms).store.mem := by
  unfold State.guestStore
  dsimp only
  split
  · simpa using h
  · split
    · simpa using h
    · exact State.wound_wf _ _ _ _ ((congrArg Memory.wf (Store.log_mem ..)).trans h)

@[simp] theorem State.woundedAway_wf (s : State) (die : Nat) (l : Launch) (stamp by_ key kind : Nat)
    (h : Memory.wf s.store.mem) :
    Memory.wf (s.woundedAway die l stamp by_ key kind).store.mem := by
  unfold State.woundedAway
  dsimp only
  (repeat' split) <;> simp [h]

@[simp] theorem State.guestDiscard_wf (s : State) (die : Nat) (l : Launch) (stamp : Nat) (h : Memory.wf s.store.mem) :
    Memory.wf (s.guestDiscard die l stamp).store.mem :=
  State.woundLoop_wf _ _ _ _ _ _ (Store.discard_wf _ _ _ _ h)

@[simp] theorem State.guestTouch_wf (s : State) (die dev : Nat) (l : Launch) (stamp : Nat) (q : Range)
    (h : Memory.wf s.store.mem) :
    Memory.wf (s.guestTouch die dev l stamp q).store.mem := by
  unfold State.guestTouch
  dsimp only
  (repeat' split) <;> simp [h]

@[simp] theorem State.guestRelease_wf (s : State) (die : Nat) (l : Launch) (stamp : Nat) (trapped : Bool)
    (h : Memory.wf s.store.mem) :
    Memory.wf (s.guestRelease die l stamp trapped).store.mem := by
  unfold State.guestRelease
  split <;> simp [h]

@[simp] theorem State.flitLease_wf (s : State) (die : Nat) (f : Flit) (m : LeaseMsg) (h : Memory.wf s.store.mem) :
    Memory.wf (s.flitLease die f m).store.mem := by
  unfold State.flitLease
  dsimp only
  split
  · exact h
  · split <;> simp [Store.lease_mem, h]

@[simp] theorem State.linkDown_wf (s : State) (link : Nat) (h : Memory.wf s.store.mem) :
    Memory.wf (s.linkDown link).store.mem := by
  unfold State.linkDown
  refine State.wf_foldl _ State.resetPartition_wf _ _ ?_
  rw [State.mem_foldl _ (fun t d => congrArg Store.mem (t.updDie_store d _))]
  exact h

@[simp] theorem State.crcFail_wf (s : State) (link : Nat) (h : Memory.wf s.store.mem) :
    Memory.wf (s.crcFail link).store.mem := by
  unfold State.crcFail
  dsimp only
  (repeat' split) <;> simp [h]

@[simp] theorem State.sendOut_wf (s : State) (q : Nat) (k : NvmeKind) (h : Memory.wf s.store.mem) :
    Memory.wf (s.sendOut q k).store.mem := by
  unfold State.sendOut
  split <;> simp [h]

@[simp] theorem State.sendIn_wf (s : State) (q : Nat) (k : NvmeKind) (h : Memory.wf s.store.mem) :
    Memory.wf (s.sendIn q k).store.mem := by
  unfold State.sendIn
  split <;> simp [h]

@[simp] theorem State.nvmeRead_wf (s : State) (q : Nat) (data : List Byte) (h : Memory.wf s.store.mem) :
    Memory.wf (s.nvmeRead q data).store.mem := by
  unfold State.nvmeRead
  split <;> simp [h]

@[simp] theorem State.invalidOpcode_wf (s : State) (q : Nat) (h : Memory.wf s.store.mem) :
    Memory.wf (s.invalidOpcode q).store.mem := by
  unfold State.invalidOpcode
  split <;> simp [h]

@[simp] theorem State.nvmeComplete_wf (s : State) (q : Nat) (entry : List Byte) (h : Memory.wf s.store.mem) :
    Memory.wf (s.nvmeComplete q entry).store.mem := by
  unfold State.nvmeComplete
  dsimp only
  (repeat' split) <;> simp [h]

@[simp] theorem State.sramDouble_wf (s : State) (die : Nat) (p : SramPlace) (h : Memory.wf s.store.mem) :
    Memory.wf (s.sramDouble die p).store.mem := by
  unfold State.sramDouble
  split <;> simp [h]

@[simp] theorem State.thermal_wf (s : State) (die : Nat) (temp : Byte) (h : Memory.wf s.store.mem) :
    Memory.wf (s.thermal die temp).store.mem := by
  unfold State.thermal
  dsimp only
  split
  · simpa using h
  · exact State.wf_foldl _ State.resetPartition_wf _ _ (by simpa using h)

@[simp] theorem State.throttle_wf (s : State) (die : Nat) (temp : Byte) (power : Nat) (h : Memory.wf s.store.mem) :
    Memory.wf (s.throttle die temp power).store.mem := by
  simp [State.throttle, h]

end Sys2Proof.Machine
end

section
/-!
PROOF. What an operation does keeps memory canonical (O60): the checks of an access, the rest of an operation after its checks,
and each operation of the units.
-/

namespace Sys2Proof.Machine

/-! ### What a move leaves -/

/-- Memory is canonical in the state that a move leaves, where it completes. -/
def MoveR.sound : MoveR → Prop
  | .ok t => Memory.wf t.store.mem
  | _ => True

@[simp] theorem MoveR.sound_ok (t : State) : (MoveR.ok t).sound ↔ Memory.wf t.store.mem := Iff.rfl
@[simp] theorem MoveR.sound_trap (c : Byte) (k i : Nat) : (MoveR.trap c k i).sound := trivial
@[simp] theorem MoveR.sound_block (b : Block) : (MoveR.block b).sound := trivial
@[simp] theorem MoveR.sound_reset : MoveR.reset.sound := trivial
@[simp] theorem fault5_sound (c : Byte) (i : Nat) : (fault5 c i).sound := trivial
@[simp] theorem faultRead_sound (c : Byte) (i : Nat) : (faultRead c i).sound := trivial

@[simp] theorem MoveR.lateAs_sound (why : Nat) (r : MoveR) : (r.lateAs why).sound ↔ r.sound := by
  unfold MoveR.lateAs
  split <;> simp

/-- Memory is canonical in the state that the checks of an access leave, where it may proceed. -/
def AdmitR.sound : AdmitR → Prop
  | .ok t _ => Memory.wf t.store.mem
  | _ => True

@[simp] theorem AdmitR.sound_ok (t : State) (ps : List SpanP) : (AdmitR.ok t ps).sound ↔ Memory.wf t.store.mem := Iff.rfl

theorem AdmitR.failed_sound {r : AdmitR} (h : r.sound) : r.failed.sound := by
  cases r <;> exact h

theorem State.watchOne_wf {s t : State} {x : CtxRef} {l : List Watched} {o : Option Nat} (h : Memory.wf s.store.mem)
    (ht : s.watchOne x l = (t, o)) : Memory.wf t.store.mem := by
  have kept := s.watchOne_mem x l
  rw [ht] at kept
  exact (congrArg Memory.wf kept).trans h

theorem State.resolveSpans_sound {s : State} {x : CtxRef} {l : List Span} {r : AdmitR}
    (hr : s.resolveSpans x l = .error r) :
    r.sound := by
  induction l with
  | nil => cases hr
  | cons a l ih =>
    unfold State.resolveSpans at hr
    split at hr
    · cases rest : s.resolveSpans x l with
      | ok q => rw [rest] at hr; cases hr
      | error q => rw [rest] at hr; cases hr; exact ih rest
    all_goals cases hr; trivial

theorem State.admitFor_sound {s : State} (x : CtxRef) (what : AccFor) (l : List SpanP) (h : Memory.wf s.store.mem) :
    (s.admitFor x what l).sound := by
  unfold State.admitFor
  dsimp only
  split
  · trivial
  · trivial
  · next t ht =>
    have touched := s.touch_wf x _ h ht
    split
    · trivial
    · split
      · trivial
      · split
        · trivial
        · next u hu =>
          split
          · trivial
          · exact State.wf_foldl _ (fun v k hv => v.msDrain_wf x k hv) _ u (t.roomFor_wf _ _ _ touched hu)

theorem State.vetFor_sound {s : State} (x : CtxRef) (what : AccFor) (l : List (List Span)) (h : Memory.wf s.store.mem) :
    (s.vetFor x what l).sound := by
  unfold State.vetFor
  split
  · trivial
  · next t ht =>
    have kept := s.watchAll_mem x (l.map fun a => a.map Span.watched)
    rw [ht] at kept
    split
    · next hr => exact State.resolveSpans_sound hr
    · exact State.admitFor_sound _ _ _ ((congrArg Memory.wf kept).trans h)

theorem State.vetLevel_sound {s : State} (level : Byte) (what : AccFor) (gate : Option Byte) (watched l : List Span)
    (h : Memory.wf s.store.mem) : (s.vetLevel level what gate watched l).sound := by
  unfold State.vetLevel
  split
  · trivial
  · next t ht =>
    split
    · next hr => exact State.resolveSpans_sound hr
    · split
      · trivial
      · exact State.admitFor_sound _ _ _ (State.watchOne_wf h ht)

/-! ### The rest of an operation after its checks -/

section
variable {s : State} {k : State → List SpanP → MoveR}

theorem admitThen_sound (l : List Span) (h : Memory.wf s.store.mem)
    (hk : ∀ t ps, Memory.wf t.store.mem → (k t ps).sound) : (admitThen s l k).sound := by
  have vetted := State.vetFor_sound s.cur .plain (l.map fun a => [a]) h
  unfold admitThen State.vet
  split
  · next ht => rw [ht] at vetted; exact hk _ _ vetted
  · exact AdmitR.failed_sound vetted

theorem admitOne_sound (l : List Span) (h : Memory.wf s.store.mem)
    (hk : ∀ t ps, Memory.wf t.store.mem → (k t ps).sound) : (admitOne s l k).sound := by
  have vetted := State.vetFor_sound s.cur .plain [l] h
  unfold admitOne
  split
  · next ht => rw [ht] at vetted; exact hk _ _ vetted
  · exact AdmitR.failed_sound vetted

theorem admitLevel_sound (level : Byte) (what : AccFor) (gate : Option Byte) (watched l : List Span)
    (h : Memory.wf s.store.mem) (hk : ∀ t ps, Memory.wf t.store.mem → (k t ps).sound) :
    (admitLevel level what gate s watched l k).sound := by
  have vetted := State.vetLevel_sound level what gate watched l h
  unfold admitLevel
  split
  · next ht => rw [ht] at vetted; exact hk _ _ vetted
  · exact AdmitR.failed_sound vetted

theorem veAdmit_sound (watched l : List Span) (h : Memory.wf s.store.mem)
    (hk : ∀ t ps, Memory.wf t.store.mem → (k t ps).sound) : (veAdmit s watched l k).sound :=
  admitLevel_sound _ _ _ _ _ h hk

theorem sliceThen_sound (offs : Lanes) (write : Bool) (h : Memory.wf s.store.mem)
    (hk : ∀ t ps, Memory.wf t.store.mem → (k t ps).sound) : (sliceThen s offs write k).sound := by
  unfold sliceThen
  split
  · simp
  · exact veAdmit_sound _ _ h hk

theorem lanesThen_sound (acts : List (Nat × Nat)) (write : Bool) (h : Memory.wf s.store.mem)
    (hk : ∀ t ps, Memory.wf t.store.mem → (k t ps).sound) : (lanesThen s acts write k).sound := by
  unfold lanesThen
  split
  · simp
  · exact veAdmit_sound _ _ h hk

theorem msAdmit_sound (watched : List Watched) (l : List Span) (h : Memory.wf s.store.mem)
    (hk : ∀ t ps, Memory.wf t.store.mem → (k t ps).sound) : (msAdmit s watched l k).sound := by
  unfold msAdmit
  split
  · simp
  · next t ht =>
    have kept := State.watchOne_wf h ht
    split
    · next hr => exact AdmitR.failed_sound (State.resolveSpans_sound hr)
    · split
      · simp
      · split
        · simp
        · next hu =>
          split
          · simp
          · exact hk _ _ (t.roomFor_wf _ _ _ kept hu)

end

theorem admitData_sound {s : State} {k : State → List Piece → List Piece → MoveR} (level : Byte) (gate : Option Byte)
    (l : List Span) (h : Memory.wf s.store.mem) (hk : ∀ t rd wr, Memory.wf t.store.mem → (k t rd wr).sound) :
    (admitData level gate l s k).sound :=
  admitLevel_sound _ _ _ _ _ h fun t _ ht => hk t _ _ ht

theorem readRecord_sound {s : State} {k : State → List Byte → Bool → MoveR} (level : Byte) (va n : Nat)
    (h : Memory.wf s.store.mem) (hk : ∀ t bs taint, Memory.wf t.store.mem → (k t bs taint).sound) :
    (readRecord level va n s k).sound := by
  have vetted := State.vetLevel_sound (s := s) level .record none [⟨va, n, false⟩] [⟨va, n, false⟩] h
  unfold readRecord
  split
  · next ht => rw [ht] at vetted; exact hk _ _ _ (by simpa using vetted)
  · next ht => rw [ht] at vetted; exact hk _ _ _ vetted
  · rw [MoveR.lateAs_sound]
    exact AdmitR.failed_sound vetted

theorem mxRecord_sound {s : State} {k : State → FmtRec → List Byte → Bool → MoveR} (a : Opnds) (late ok : FmtRec → Bool)
    (h : Memory.wf s.store.mem) (hk : ∀ t r bs taint, Memory.wf t.store.mem → (k t r bs taint).sound) :
    (mxRecord a late ok s k).sound := by
  unfold mxRecord
  refine readRecord_sound _ _ _ h fun t bs taint ht => ?_
  dsimp only
  split
  · simp
  · split
    · simp
    · exact hk _ _ _ _ ht

theorem redRead_sound {s : State} {k : State → SpanP → List Byte → Bool → MoveR} (va : Nat) (h : Memory.wf s.store.mem)
    (hk : ∀ t p bs taint, Memory.wf t.store.mem → (k t p bs taint).sound) : (redRead va s k).sound := by
  unfold redRead
  split
  · simp
  · next t ht =>
    have kept := State.watchOne_wf h ht
    split
    · split
      · simp
      · exact hk _ _ _ _ (by simpa using kept)
    · exact kept
    · next hr => exact AdmitR.failed_sound (State.resolveSpans_sound hr)

theorem State.inPlain_sound {s : State} {k : State → MoveR} (x : CtxRef) (va n : Nat) (cause : Byte) (hk : (k s).sound) :
    (s.inPlain x va n cause k).sound := by
  unfold State.inPlain
  (repeat' split) <;> simp [hk]

theorem State.inCell_sound {s : State} {k : State → MoveR} (va : Nat) (hk : (k s).sound) : (s.inCell va k).sound := by
  unfold State.inCell
  rw [MoveR.lateAs_sound]
  split
  · simp
  · exact State.inPlain_sound _ _ _ _ hk

theorem withSel_sound {k : Option Byte → MoveR} (read : Bool) (s : State) (sel : Option Nat) (hk : ∀ c, (k c).sound) :
    (withSel read s sel k).sound := by
  unfold withSel
  (repeat' split) <;> simp [hk]

theorem withReg_sound {k : RegAddr → MoveR} (w : Word) (write : Bool) (s : State) (hk : ∀ r, (k r).sound) :
    (withReg w write s k).sound := by
  unfold withReg
  (repeat' split) <;> simp [hk]

theorem withTiles_sound {us : Uses} {tags : State → List Tag} {body : Opnds → State → MoveR} {s : State} (a : Opnds)
    (hb : ∀ b, (body b s).sound) : (withTiles us tags body a s).sound := by
  unfold withTiles
  dsimp only
  split
  · simp
  · exact hb _

@[simp] theorem scalarOnly_sound {k : MoveR} (vs : List Value) (hk : k.sound) : (scalarOnly vs k).sound := by
  unfold scalarOnly
  split <;> simp [hk]

@[simp] theorem laneIndex_sound {k : MoveR} (t : Value) (hk : k.sound) : (laneIndex t k).sound := by
  unfold laneIndex
  split <;> simp [hk]

@[simp] theorem mxForm_sound {k : MoveR} (bad : Bool) (hk : k.sound) : (mxForm bad k).sound := by
  unfold mxForm
  split <;> simp [hk]

@[simp] theorem cpForm_sound {k : MoveR} (bad : Bool) (hk : k.sound) : (cpForm bad k).sound := by
  unfold cpForm
  split <;> simp [hk]

theorem transferTo_sound {s : State} {k : State → State} (dest : Word) (taken : Bool) (h : Memory.wf s.store.mem)
    (hk : ∀ t, Memory.wf t.store.mem → Memory.wf (k t).store.mem) : (transferTo s dest taken k).sound := by
  unfold transferTo
  dsimp only
  split
  · simp
  · split
    · simp
    · refine hk _ ?_
      split <;> simp [h]

/-! ### `x0` and `x1` (R165-R168) -/

@[simp] theorem intOp_sound (q : Port) (lat : Nat) (f : Word → Word → Word → Word) (a : Opnds) (s : State)
    (h : Memory.wf s.store.mem) :
    (intOp q lat f a s).sound := by
  simp [intOp, h]

@[simp] theorem fpOp_sound (q : Port) (lat : Nat) (f : Num.Mode → Word → Word → Word → Word × Num.Flags) (a : Opnds)
    (s : State) (h : Memory.wf s.store.mem) :
    (fpOp q lat f a s).sound := by
  simp [fpOp, h]

@[simp] theorem crdOp_sound (q : Port) (a : Opnds) (s : State) (h : Memory.wf s.store.mem) : (crdOp q a s).sound := by
  unfold crdOp
  split <;> simp [h]

@[simp] theorem cwrOp_sound (a : Opnds) (s : State) (h : Memory.wf s.store.mem) : (cwrOp a s).sound := by
  unfold cwrOp
  dsimp only
  (repeat' split) <;> simp [h]

/-! ### `ls` (R169-R174) -/

@[simp] theorem loadOp_sound (w : Nat) (signed : Bool) (a : Opnds) (s : State) (h : Memory.wf s.store.mem) :
    (loadOp w signed a s).sound := by
  refine admitThen_sound _ h fun t ps ht => ?_
  split <;> simp [ht]

@[simp] theorem State.writeSpan_sound (s : State) (x : CtxRef) (a : SpanP) (bytes : List Byte) (taint : Bool)
    (h : Memory.wf s.store.mem) : (s.writeSpan x a bytes taint).sound := by
  unfold State.writeSpan
  split
  · split <;> simp
  · simp [h]

@[simp] theorem storeBytes_sound (va : Nat) (bytes : List Byte) (a : Opnds) (s : State) (h : Memory.wf s.store.mem) :
    (storeBytes va bytes a s).sound := by
  refine admitThen_sound _ h fun t ps ht => ?_
  split <;> simp [ht]

@[simp] theorem storeOp_sound (w : Nat) (a : Opnds) (s : State) (h : Memory.wf s.store.mem) : (storeOp w a s).sound := by
  simp [storeOp, h]

@[simp] theorem store2Op_sound (a : Opnds) (s : State) (h : Memory.wf s.store.mem) :
    (store2Op a s).sound := by simp [store2Op, h]

@[simp] theorem ldFeOp_sound (a : Opnds) (s : State) (h : Memory.wf s.store.mem) : (ldFeOp a s).sound := by
  unfold ldFeOp
  dsimp only
  split
  · simp
  · refine admitOne_sound _ h fun t ps ht => ?_
    split
    · split
      · simp
      · split
        · simp
        · split
          · simp
          · simpa [Store.setEmpty_mem] using Store.copyLine_wf _ _ _ _ (by simpa using ht)
    · exact ht

@[simp] theorem stFeOp_sound (a : Opnds) (s : State) (h : Memory.wf s.store.mem) : (stFeOp a s).sound := by
  unfold stFeOp
  dsimp only
  split
  · simp
  · refine admitOne_sound _ h fun t ps ht => ?_
    split
    · split
      · simp
      · simpa [Store.setFull_mem] using Store.copyLine_wf _ _ _ _ ht
    · exact ht

@[simp] theorem blkOp_sound (a : Opnds) (s : State) (h : Memory.wf s.store.mem) : (blkOp a s).sound := by
  unfold blkOp
  dsimp only
  split
  · simp
  · refine State.inPlain_sound _ _ _ _ ?_
    (repeat' split) <;> simp [h]

@[simp] theorem invOp_sound (a : Opnds) (s : State) (h : Memory.wf s.store.mem) : (invOp a s).sound := by simp [invOp, h]

/-! ### `br` (R176-R182) -/

@[simp] theorem jmpOp_sound (a : Opnds) (s : State) (h : Memory.wf s.store.mem) : (jmpOp a s).sound := by
  exact transferTo_sound _ _ h fun _ ht => ht

@[simp] theorem jzOp_sound (a : Opnds) (s : State) (h : Memory.wf s.store.mem) : (jzOp a s).sound := by
  exact transferTo_sound _ _ h fun t ht => by simpa using ht

@[simp] theorem jnzOp_sound (a : Opnds) (s : State) (h : Memory.wf s.store.mem) : (jnzOp a s).sound := by
  exact transferTo_sound _ _ h fun t ht => by simpa using ht

@[simp] theorem jrOp_sound (a : Opnds) (s : State) (h : Memory.wf s.store.mem) : (jrOp a s).sound := by
  exact transferTo_sound _ _ h fun t ht => by simpa using ht

@[simp] theorem callOp_sound (a : Opnds) (s : State) (h : Memory.wf s.store.mem) : (callOp a s).sound := by
  exact transferTo_sound _ _ h fun t ht => by simpa using ht

@[simp] theorem lpOp_sound (n : Nat) (a : Opnds) (s : State) (h : Memory.wf s.store.mem) : (lpOp n a s).sound := by
  unfold lpOp
  dsimp only
  (repeat' split) <;> simp [h]

@[simp] theorem lpendOp_sound (a : Opnds) (s : State) (h : Memory.wf s.store.mem) : (lpendOp a s).sound := by
  unfold lpendOp
  split <;> simp [h]

@[simp] theorem lcrdOp_sound (a : Opnds) (s : State) (h : Memory.wf s.store.mem) : (lcrdOp a s).sound := by
  unfold lcrdOp
  split <;> simp [h]

@[simp] theorem markOp_sound (a : Opnds) (s : State) (h : Memory.wf s.store.mem) :
    (markOp a s).sound := by simp [markOp, h]

/-! ### `ck` (R186-R189) -/

theorem defineClock_sound (a : Opnds) (s : State) (target : Nat) (present : Bool) (k : State → State)
    (hk : ∀ t, Memory.wf t.store.mem → Memory.wf (k t).store.mem) (h : Memory.wf s.store.mem) :
    (defineClock a s target present k).sound := by
  unfold defineClock
  split
  · simp
  · split
    · simp
    · exact hk _ (by simpa using h)

@[simp] theorem ckDefOp_sound (a : Opnds) (s : State) (h : Memory.wf s.store.mem) : (ckDefOp a s).sound := by
  unfold ckDefOp
  dsimp only
  split
  · split
    · simp
    · exact defineClock_sound _ _ _ _ _ (fun _ ht => ht) h
  · simp

@[simp] theorem ckSubOp_sound (a : Opnds) (s : State) (h : Memory.wf s.store.mem) : (ckSubOp a s).sound := by
  unfold ckSubOp
  split
  · exact defineClock_sound _ _ _ _ _ (fun t ht => by simpa using ht) h
  · simp

@[simp] theorem ckWhenOp_sound (a : Opnds) (s : State) (h : Memory.wf s.store.mem) : (ckWhenOp a s).sound := by
  unfold ckWhenOp
  split <;> simp [h]

@[simp] theorem mergeOp_sound (prio : Bool) (a : Opnds) (s : State) (h : Memory.wf s.store.mem) :
    (mergeOp prio a s).sound := by
  unfold mergeOp
  dsimp only
  (repeat' split) <;> simp [h]

@[simp] theorem ckUnionOp_sound (a : Opnds) (s : State) (h : Memory.wf s.store.mem) : (ckUnionOp a s).sound := by
  unfold ckUnionOp
  split
  · exact defineClock_sound _ _ _ _ _ (fun _ ht => ht) h
  · simp

@[simp] theorem delayOp_sound (va : Nat) (init : Value) (a : Opnds) (s : State) (h : Memory.wf s.store.mem) :
    (delayOp va init a s).sound := by
  refine State.inCell_sound _ (admitOne_sound _ h fun t ps ht => ?_)
  split <;> simp [ht]

@[simp] theorem holdOp_sound (a : Opnds) (s : State) (h : Memory.wf s.store.mem) : (holdOp a s).sound := by
  unfold holdOp
  dsimp only
  split
  · simp
  · refine State.inCell_sound _ ?_
    split
    · refine admitThen_sound _ h fun t ps ht => ?_
      split
      · next w =>
        have written := t.writeSpan_sound t.cur w (cellBytes a.o.word) (a.taint || a.o.taint || t.me.ctaint) ht
        split
        · next hu => rw [hu] at written; simpa using written
        · exact written
      · exact ht
    · refine admitThen_sound _ h fun t ps ht => ?_
      split <;> simp [ht]

@[simp] theorem ckIspOp_sound (a : Opnds) (s : State) (h : Memory.wf s.store.mem) :
    (ckIspOp a s).sound := by simp [ckIspOp, h]

@[simp] theorem ckNotOp_sound (a : Opnds) (s : State) (h : Memory.wf s.store.mem) : (ckNotOp a s).sound := by
  unfold ckNotOp
  split
  · exact defineClock_sound _ _ _ _ _ (fun _ ht => ht) h
  · simp

/-! ### `sy` (R195-R200) -/

@[simp] theorem syAddOp_sound (a : Opnds) (s : State) (h : Memory.wf s.store.mem) : (syAddOp a s).sound := by
  unfold syAddOp
  dsimp only
  (repeat' split) <;> simp [h]

@[simp] theorem syWaitOp_sound (a : Opnds) (s : State) (h : Memory.wf s.store.mem) : (syWaitOp a s).sound := by
  unfold syWaitOp
  dsimp only
  (repeat' split) <;> simp [h]

@[simp] theorem syPeekOp_sound (a : Opnds) (s : State) (h : Memory.wf s.store.mem) : (syPeekOp a s).sound := by
  unfold syPeekOp
  dsimp only
  (repeat' split) <;> simp [h]

@[simp] theorem syFenceOp_sound (a : Opnds) (s : State) (h : Memory.wf s.store.mem) : (syFenceOp a s).sound := by
  unfold syFenceOp
  dsimp only
  (repeat' split) <;> simp [h]

@[simp] theorem syAsdeclOp_sound (a : Opnds) (s : State) (h : Memory.wf s.store.mem) : (syAsdeclOp a s).sound := by
  unfold syAsdeclOp
  dsimp only
  split
  · simp
  · refine State.inPlain_sound _ _ _ _ ?_
    (repeat' split) <;> simp [h]

@[simp] theorem syTendOp_sound (a : Opnds) (s : State) (h : Memory.wf s.store.mem) : (syTendOp a s).sound := by
  unfold syTendOp
  split <;> simp [h]

@[simp] theorem syYieldOp_sound (a : Opnds) (s : State) (h : Memory.wf s.store.mem) : (syYieldOp a s).sound := by
  simp [syYieldOp, h]

@[simp] theorem syStampOp_sound (a : Opnds) (s : State) (h : Memory.wf s.store.mem) : (syStampOp a s).sound := by
  unfold syStampOp
  split <;> simp [h]

@[simp] theorem syTaintOp_sound (a : Opnds) (s : State) (h : Memory.wf s.store.mem) : (syTaintOp a s).sound := by
  simp [syTaintOp, h]

/-! ### `ve` (R250-R266) -/

@[simp] theorem vfpOp_sound (lat : Nat) (f : Num.Mode → Lane → Lane → Lane → Lane × Num.Flags) (a : Opnds) (s : State)
    (h : Memory.wf s.store.mem) :
    (vfpOp lat f a s).sound := by
  simp [vfpOp, h]

@[simp] theorem vcmpOp_sound (lat : Nat) (f : Lane → Lane → Bool) (fl : Lane → Lane → Num.Flags) (a : Opnds) (s : State)
    (h : Memory.wf s.store.mem) :
    (vcmpOp lat f fl a s).sound := by
  simp [vcmpOp, h]

@[simp] theorem bxencOp_sound (a : Opnds) (s : State) (h : Memory.wf s.store.mem) : (bxencOp a s).sound := by
  unfold bxencOp
  dsimp only
  (repeat' split) <;> simp [h]

@[simp] theorem bxdecOp_sound (a : Opnds) (s : State) (h : Memory.wf s.store.mem) : (bxdecOp a s).sound := by
  unfold bxdecOp
  dsimp only
  (repeat' split) <;> simp [h]

@[simp] theorem vintOp_sound (lat : Nat) (f : Lane → Lane → Lane) (a : Opnds) (s : State) (h : Memory.wf s.store.mem) :
    (vintOp lat f a s).sound := by
  simp [vintOp, h]

@[simp] theorem vselOp_sound (a : Opnds) (s : State) (h : Memory.wf s.store.mem) :
    (vselOp a s).sound := by simp [vselOp, h]

@[simp] theorem vlidOp_sound (a : Opnds) (s : State) (h : Memory.wf s.store.mem) :
    (vlidOp a s).sound := by simp [vlidOp, h]

@[simp] theorem vredOp_sound (pad : Nat) (node : Num.Mode → Nat → Nat → Nat × Num.Flags) (a : Opnds) (s : State)
    (h : Memory.wf s.store.mem) :
    (vredOp pad node a s).sound := by
  unfold vredOp
  split <;> simp [h]

@[simp] theorem vpermOp_sound (a : Opnds) (s : State) (h : Memory.wf s.store.mem) :
    (vpermOp a s).sound := by simp [vpermOp, h]

@[simp] theorem vlrotOp_sound (a : Opnds) (s : State) (h : Memory.wf s.store.mem) :
    (vlrotOp a s).sound := by simp [vlrotOp, h]

@[simp] theorem vlextOp_sound (a : Opnds) (s : State) (h : Memory.wf s.store.mem) :
    (vlextOp a s).sound := by simp [vlextOp, h]

@[simp] theorem vlinsOp_sound (a : Opnds) (s : State) (h : Memory.wf s.store.mem) :
    (vlinsOp a s).sound := by simp [vlinsOp, h]

@[simp] theorem vffsOp_sound (a : Opnds) (s : State) (h : Memory.wf s.store.mem) :
    (vffsOp a s).sound := by simp [vffsOp, h]

@[simp] theorem vldOp_sound (n al : Nat) (a : Opnds) (s : State) (h : Memory.wf s.store.mem) :
    (vldOp n al a s).sound := by
  refine scalarOnly_sound _ ?_
  dsimp only
  split
  · simp
  · exact veAdmit_sound _ _ h fun t ps ht => by simp [ht]

@[simp] theorem State.writeSpans_sound (s : State) (taint : Bool) (l : List (SpanP × List Byte))
    (h : Memory.wf s.store.mem) : (s.writeSpans taint l).sound := by
  induction l generalizing s with
  | nil => exact h
  | cons q l ih =>
    have written := s.writeSpan_sound s.cur q.1 q.2 taint h
    unfold State.writeSpans
    split
    · next ht => rw [ht] at written; exact ih _ written
    · exact written

@[simp] theorem vstOp_sound (a : Opnds) (s : State) (h : Memory.wf s.store.mem) : (vstOp a s).sound := by
  refine scalarOnly_sound _ ?_
  dsimp only
  split
  · simp
  · exact veAdmit_sound _ _ h fun t ps ht => by simp [ht]

@[simp] theorem vldlOp_sound (a : Opnds) (s : State) (h : Memory.wf s.store.mem) : (vldlOp a s).sound := by
  exact sliceThen_sound _ _ h fun t ps ht => by simp [ht]

@[simp] theorem vstlOp_sound (a : Opnds) (s : State) (h : Memory.wf s.store.mem) : (vstlOp a s).sound := by
  exact sliceThen_sound _ _ h fun t ps ht => by simp [ht]

@[simp] theorem vgathOp_sound (a : Opnds) (s : State) (h : Memory.wf s.store.mem) : (vgathOp a s).sound := by
  exact scalarOnly_sound _ (lanesThen_sound _ _ h fun t ps ht => by simp [ht])

@[simp] theorem vscatOp_sound (a : Opnds) (s : State) (h : Memory.wf s.store.mem) : (vscatOp a s).sound := by
  exact scalarOnly_sound _ (lanesThen_sound _ _ h fun t ps ht => by simp [ht])

/-! ### `mx` (R278-R290) -/

@[simp] theorem State.enqueue_sound (s : State) (u : Unit11) (c : Cmd) (h : Memory.wf s.store.mem) :
    (s.enqueue u c).sound := by
  unfold State.enqueue
  dsimp only
  split
  · simp
  · (repeat' split) <;> simp [Store.log_mem, h]

theorem State.enqueue_wf {s t : State} {u : Unit11} {c : Cmd} (h : Memory.wf s.store.mem) (ht : s.enqueue u c = .ok t) :
    Memory.wf t.store.mem := by
  have queued := s.enqueue_sound u c h
  rwa [ht] at queued

@[simp] theorem State.mxEnqueue_sound (s : State) (c : Cmd) (h : Memory.wf s.store.mem) : (s.mxEnqueue c).sound := by
  unfold State.mxEnqueue
  dsimp only
  (repeat' split) <;> simp [h]

@[simp] theorem tldOp_sound (a : Opnds) (s : State) (h : Memory.wf s.store.mem) : (tldOp a s).sound := by
  refine mxForm_sound _ (mxRecord_sound _ _ _ h fun t r bs taint ht => ?_)
  exact admitData_sound _ _ _ ht fun u rd wr hu => by simp [hu]

@[simp] theorem cldOp_sound (a : Opnds) (s : State) (h : Memory.wf s.store.mem) : (cldOp a s).sound := by
  refine mxForm_sound _ (mxRecord_sound _ _ _ h fun t r bs taint ht => ?_)
  exact admitData_sound _ _ _ ht fun u rd wr hu => by simp [hu]

@[simp] theorem cstOp_sound (a : Opnds) (s : State) (h : Memory.wf s.store.mem) : (cstOp a s).sound := by
  refine mxForm_sound _ (mxRecord_sound _ _ _ h fun t r bs taint ht => ?_)
  exact admitData_sound _ _ _ ht fun u rd wr hu => by simp [hu]

@[simp] theorem zeroOp_sound (a : Opnds) (s : State) (h : Memory.wf s.store.mem) :
    (zeroOp a s).sound := by simp [zeroOp, h]

@[simp] theorem realStepOp_sound (a : Opnds) (s : State) (h : Memory.wf s.store.mem) : (realStepOp a s).sound := by
  unfold realStepOp
  dsimp only
  split
  · simp
  · have queued := s.mxEnqueue_sound { s.mxCmd 0x226 a [] [canopyPiece s.cur (mxBase s.me.mxl + mxCur s.me.mxl)
      (slotsPerStep (mxFmt s.me.mxl))] [] false with slot := mxBase s.me.mxl + mxCur s.me.mxl, sfmt := mxFmt s.me.mxl } h
    split
    · next ht => rw [ht] at queued; simpa using queued
    · exact queued

@[simp] theorem stepOp_sound (a : Opnds) (s : State) (h : Memory.wf s.store.mem) : (stepOp a s).sound := by
  unfold stepOp
  split
  · exact withTiles_sound _ fun b => by simp [h]
  · exact withTiles_sound _ fun b => by simp [h]

@[simp] theorem loopOp_sound (a : Opnds) (s : State) (h : Memory.wf s.store.mem) : (loopOp a s).sound := by
  exact mxForm_sound _ (by simpa using h)

@[simp] theorem offOp_sound (a : Opnds) (s : State) (h : Memory.wf s.store.mem) : (offOp a s).sound := by
  exact mxForm_sound _ (by simpa using h)

@[simp] theorem busyOp_sound (a : Opnds) (s : State) (h : Memory.wf s.store.mem) : (busyOp a s).sound := by
  refine mxForm_sound _ ?_
  split <;> simp [h]

@[simp] theorem xaOp_sound (a : Opnds) (s : State) (h : Memory.wf s.store.mem) : (xaOp a s).sound := by
  refine mxForm_sound _ (mxRecord_sound _ _ _ h fun t r bs taint ht => ?_)
  exact admitData_sound _ _ _ ht fun u rd wr hu => by simp [hu]

@[simp] theorem sclOp_sound (a : Opnds) (s : State) (h : Memory.wf s.store.mem) : (sclOp a s).sound := by
  exact mxForm_sound _ (admitData_sound _ _ _ h fun t rd wr ht => by simp [ht])

@[simp] theorem drainOp_sound (a : Opnds) (s : State) (h : Memory.wf s.store.mem) : (drainOp a s).sound := by
  unfold drainOp
  split <;> simp [h]

/-! ### `cp` (R296-R310) -/

@[simp] theorem State.cpEnqueue_sound (s : State) (port : Nat) (a : Opnds) (recs : List (List Byte)) (taint : Bool)
    (sel : Option Nat) (count : Nat) (rd wr : List Piece) (h : Memory.wf s.store.mem) :
    (s.cpEnqueue port a recs taint sel count rd wr).sound := by
  unfold State.cpEnqueue
  dsimp only
  split
  · next ht =>
    have kept := State.enqueue_wf h ht
    split <;> simp [kept]
  · exact s.enqueue_sound .cp _ h

@[simp] theorem linOp_sound (a : Opnds) (s : State) (h : Memory.wf s.store.mem) : (linOp a s).sound := by
  refine cpForm_sound _ (withSel_sound _ _ _ fun gate => ?_)
  exact admitData_sound _ _ _ h fun t rd wr ht => by simp [ht]

@[simp] theorem strOp_sound (port dims : Nat) (a : Opnds) (s : State) (h : Memory.wf s.store.mem) :
    (strOp port dims a s).sound := by
  refine cpForm_sound _ (readRecord_sound _ _ _ h fun t bs taint ht => ?_)
  dsimp only
  split
  · simp
  · exact withSel_sound _ _ _ fun gate => admitData_sound _ _ _ ht fun u rd wr hu => by simp [hu]

@[simp] theorem cgathOp_sound (a : Opnds) (s : State) (h : Memory.wf s.store.mem) : (cgathOp a s).sound := by
  refine cpForm_sound _ (readRecord_sound _ _ _ h fun t bs taint ht => ?_)
  refine readRecord_sound _ _ _ ht fun u ix ixTaint hu => ?_
  dsimp only
  split
  · simp
  · split
    · simp
    · exact withSel_sound _ _ _ fun gate => admitData_sound _ _ _ hu fun v rd wr hv => by simp [hv]

@[simp] theorem fillOp_sound (a : Opnds) (s : State) (h : Memory.wf s.store.mem) : (fillOp a s).sound := by
  refine cpForm_sound _ (withSel_sound _ _ _ fun gate => ?_)
  exact admitData_sound _ _ _ h fun t rd wr ht => by simp [ht]

@[simp] theorem gridBody_sound (port : Nat) (a : Opnds) (recs : List (List Byte)) (taint : Bool) (fieldFault : Option Nat)
    (add : Bool) (d : GridDesc) (drec : Nat) (s : State) (h : Memory.wf s.store.mem) :
    (gridBody port a recs taint fieldFault add d drec s).sound := by
  unfold gridBody
  split
  · simp
  · refine withSel_sound _ _ _ fun gate => ?_
    dsimp only
    split
    · simp
    · split
      · simp
      · exact admitData_sound _ _ _ h fun t rd wr ht => by simp [ht]

@[simp] theorem cvtOp_sound (a : Opnds) (s : State) (h : Memory.wf s.store.mem) : (cvtOp a s).sound := by
  refine cpForm_sound _ (readRecord_sound _ _ _ h fun t gb tg ht => ?_)
  dsimp only
  split
  · simp
  · refine readRecord_sound _ _ _ ht fun u sb ts hu => readRecord_sound _ _ _ hu fun v db td hv => ?_
    simp [hv]

@[simp] theorem canopyOp_sound (a : Opnds) (s : State) (h : Memory.wf s.store.mem) : (canopyOp a s).sound := by
  refine cpForm_sound _ (readRecord_sound _ _ _ h fun t bs taint ht => withSel_sound _ _ _ fun gate => ?_)
  dsimp only
  split
  · simp
  · split
    · simp
    · exact admitData_sound _ _ _ ht fun u rd wr hu => by simp [hu]

@[simp] theorem stblOp_sound (a : Opnds) (s : State) (h : Memory.wf s.store.mem) : (stblOp a s).sound := by
  refine cpForm_sound _ (readRecord_sound _ _ _ h fun t tb tt ht => ?_)
  dsimp only
  split <;> simp [ht]

@[simp] theorem levelOp_sound (port : Nat) (a : Opnds) (s : State) (h : Memory.wf s.store.mem) :
    (levelOp port a s).sound := by
  refine cpForm_sound _ (readRecord_sound _ _ _ h fun t gb tg ht => ?_)
  dsimp only
  split
  · simp
  · refine readRecord_sound _ _ _ ht fun u tb tt hu => ?_
    split
    · simp
    · refine readRecord_sound _ _ _ hu fun v sb ts hv => readRecord_sound _ _ _ hv fun w db td hw => ?_
      simp [hw]

@[simp] theorem closeOp_sound (a : Opnds) (s : State) (h : Memory.wf s.store.mem) : (closeOp a s).sound := by
  unfold closeOp
  dsimp only
  (repeat' split) <;> simp [h]

@[simp] theorem waitbOp_sound (a : Opnds) (s : State) (h : Memory.wf s.store.mem) : (waitbOp a s).sound := by
  refine cpForm_sound _ ?_
  dsimp only
  (repeat' split) <;> simp [h]

@[simp] theorem cntOp_sound (a : Opnds) (s : State) (h : Memory.wf s.store.mem) : (cntOp a s).sound := by
  unfold cntOp
  split <;> simp [h]

/-! ### `ms` (R329-R333) -/

@[simp] theorem msUpdOp_sound (port : Nat) (a : Opnds) (s : State) (h : Memory.wf s.store.mem) :
    (msUpdOp port a s).sound := by
  unfold msUpdOp
  dsimp only
  split
  · simp
  · refine msAdmit_sound _ _ h fun t ps ht => ?_
    split
    · next hu =>
      have kept := State.enqueue_wf ht hu
      split <;> simp [kept]
    · exact t.enqueue_sound .ms _ ht

@[simp] theorem msSwapOp_sound (port : Nat) (a : Opnds) (s : State) (h : Memory.wf s.store.mem) :
    (msSwapOp port a s).sound := by
  unfold msSwapOp
  dsimp only
  split
  · simp
  · refine msAdmit_sound _ _ h fun t ps ht => ?_
    split
    · split <;> simp
    · have drained (k : Nat) := t.msDrain_wf t.cur k ht
      (repeat' split) <;> simp [foldl_mem, Store.lease_mem, drained]

@[simp] theorem State.redIssue_sound (s : State) (a : Opnds) (b : RedBlock) (bytes : List Byte) (taint : Bool)
    (sel : Option Nat) (ps : List SpanP) (h : Memory.wf s.store.mem) : (s.redIssue a b bytes taint sel ps).sound := by
  unfold State.redIssue
  dsimp only
  split
  · next hu =>
    have kept := State.enqueue_wf h hu
    split <;> simp [foldl_mem, Store.lease_mem, kept]
  · exact s.enqueue_sound .ms _ h

@[simp] theorem msRedOp_sound (a : Opnds) (s : State) (h : Memory.wf s.store.mem) : (msRedOp a s).sound := by
  unfold msRedOp
  dsimp only
  split
  · simp
  · refine redRead_sound _ h fun t bp bytes taint ht => ?_
    split
    · simp
    · split
      · simp
      · refine msAdmit_sound _ _ ht fun u ps hu => ?_
        have admitted := State.admitFor_sound u.cur .plain [bp] hu
        split
        · next hv => rw [State.admitSpans] at hv; rw [hv] at admitted; exact State.redIssue_sound _ _ _ _ _ _ _ admitted
        · rw [MoveR.lateAs_sound]
          exact AdmitR.failed_sound admitted

@[simp] theorem msFenceOp_sound (a : Opnds) (s : State) (h : Memory.wf s.store.mem) : (msFenceOp a s).sound := by
  unfold msFenceOp
  split <;> simp [h]

@[simp] theorem msMarkOp_sound (a : Opnds) (s : State) (h : Memory.wf s.store.mem) : (msMarkOp a s).sound := by
  unfold msMarkOp
  dsimp only
  split
  · simp
  · next t ht =>
    have kept := State.watchOne_wf h ht
    split
    · next hr => exact AdmitR.failed_sound (State.resolveSpans_sound hr)
    · split
      · simp
      · split
        · simp
        · split
          · next hu => simpa using State.enqueue_wf kept hu
          · exact t.enqueue_sound .ms _ kept

/-! ### `sv` (R358-R362) -/

@[simp] theorem launchOp_sound (a : Opnds) (s : State) (h : Memory.wf s.store.mem) : (launchOp a s).sound := by
  unfold launchOp
  dsimp only
  split
  · simp
  · split
    · simp
    · have vetted := State.vetFor_sound s.cur .record [[⟨a.t.word.toNat, 512, false⟩]] h
      split
      · next ht =>
        rw [ht, AdmitR.sound_ok] at vetted
        split <;> simp [vetted]
      · exact AdmitR.failed_sound vetted

@[simp] theorem abortOp_sound (a : Opnds) (s : State) (h : Memory.wf s.store.mem) :
    (abortOp a s).sound := by simp [abortOp, h]

@[simp] theorem srdOp_sound (a : Opnds) (s : State) (h : Memory.wf s.store.mem) : (srdOp a s).sound := by
  exact withReg_sound _ _ _ fun r => by simpa using h

@[simp] theorem swrOp_sound (a : Opnds) (s : State) (h : Memory.wf s.store.mem) : (swrOp a s).sound := by
  unfold swrOp
  split
  · simp
  · split
    · simp
    · exact withReg_sound _ _ _ fun r => by simp [h]

@[simp] theorem spaceOp_sound (a : Opnds) (s : State) (h : Memory.wf s.store.mem) : (spaceOp a s).sound := by
  unfold spaceOp
  split <;> simp [h]

@[simp] theorem walkOp_sound (a : Opnds) (s : State) (h : Memory.wf s.store.mem) : (walkOp a s).sound := by
  unfold walkOp
  dsimp only
  (repeat' split) <;> simp [h]

@[simp] theorem ptmcOp_sound (a : Opnds) (s : State) (h : Memory.wf s.store.mem) : (ptmcOp a s).sound := by
  unfold ptmcOp
  dsimp only
  (repeat' split) <;> simp [h]

@[simp] theorem tinvOp_sound (a : Opnds) (s : State) (h : Memory.wf s.store.mem) : (tinvOp a s).sound := by
  unfold tinvOp
  dsimp only
  (repeat' split) <;> simp [h]

theorem State.pinWalk_sound {s : State} {x : CtxRef} {sid : Nat} {l : List Nat} {r : MoveR}
    (hr : s.pinWalk x sid l = .error r) : r.sound := by
  induction l with
  | nil => cases hr
  | cons va l ih =>
    unfold State.pinWalk at hr
    split at hr
    · cases rest : s.pinWalk x sid l with
      | ok q => rw [rest] at hr; cases hr
      | error q => rw [rest] at hr; cases hr; exact ih rest
    · cases hr; simp
    · cases hr; split <;> simp
    all_goals cases hr; simp

@[simp] theorem pinOp_sound (a : Opnds) (s : State) (h : Memory.wf s.store.mem) : (pinOp a s).sound := by
  unfold pinOp
  dsimp only
  split
  · simp
  · split
    · next hr => exact State.pinWalk_sound hr
    · split <;> simp [h]

@[simp] theorem unpinOp_sound (a : Opnds) (s : State) (h : Memory.wf s.store.mem) : (unpinOp a s).sound := by
  unfold unpinOp
  split <;> simp [h]

@[simp] theorem tfqOp_sound (a : Opnds) (s : State) (h : Memory.wf s.store.mem) : (tfqOp a s).sound := by simp [tfqOp, h]

@[simp] theorem tresOp_sound (a : Opnds) (s : State) (h : Memory.wf s.store.mem) : (tresOp a s).sound := by
  unfold tresOp
  dsimp only
  (repeat' split) <;> simp [h]

@[simp] theorem tentOp_sound (a : Opnds) (s : State) (h : Memory.wf s.store.mem) : (tentOp a s).sound := by
  unfold tentOp
  split <;> simp [h]

@[simp] theorem eretOp_sound (a : Opnds) (s : State) (h : Memory.wf s.store.mem) : (eretOp a s).sound := by
  unfold eretOp
  split <;> simp [h]

@[simp] theorem hirqOp_sound (a : Opnds) (s : State) (h : Memory.wf s.store.mem) : (hirqOp a s).sound := by
  unfold hirqOp
  dsimp only
  (repeat' split) <;> simp [h]

@[simp] theorem idleOp_sound (a : Opnds) (s : State) (h : Memory.wf s.store.mem) :
    (idleOp a s).sound := by simp [idleOp, h]

end Sys2Proof.Machine
end

section
/-!
PROOF. Whatever a step does, memory keeps its canonical form (O60): moves and events, then groups, turns and the step itself.
-/

namespace Sys2Proof.Machine

/-! ### What an instruction leaves -/

/-- Memory is canonical in the state that an outcome answers, where it answers one. -/
def Out.sound : Out → Prop
  | .next t => Memory.wf t.store.mem
  | _ => True

@[simp] theorem Out.sound_next (t : State) : Out.sound (.next t) ↔ Memory.wf t.store.mem := Iff.rfl

theorem finish_sound (s : State) (m : BitVec 24) {r : MoveR} (h : Memory.wf s.store.mem) (hr : r.sound) :
    Out.sound (finish s m r) := by
  unfold finish
  split
  · exact hr
  · exact s.takeTrap_wf _ _ h
  · exact s.enterBlock_wf _ _ h
  · exact s.resetOf_wf _ h

theorem trigger_sound {u : Unit11} {d : Nat} {us : Uses} {body : Opnds → State → MoveR} {a : Src} {g : Guard} {s : State}
    (h : Memory.wf s.store.mem) (hb : ∀ o, (body o s).sound) : Out.sound (trigger u d us body a g s) := by
  have ends (m : BitVec 24) {r : MoveR} (hr : r.sound) : Out.sound (finish s m r) := finish_sound s m h hr
  unfold trigger
  dsimp only
  (repeat' split) <;> refine ends _ ?_
  all_goals simp [h, hb]

theorem execMove_sound (a : Src) (d : Dst) (g : Guard) (s : State) (h : Memory.wf s.store.mem) :
    Out.sound (execMove a d g s) := by
  unfold execMove
  dsimp only
  split
  · exact finish_sound s _ h (by simp)
  · refine finish_sound s _ h ?_
    split <;> simp [h]

theorem event_sound {ok : Bool} {t : State} (h : Memory.wf t.store.mem) : Out.sound (event ok t) := by
  unfold event
  split
  · exact h
  · trivial

theorem State.accept_wf {s : State} {link : Nat} {f : Flit} {k : State → State} (h : Memory.wf s.store.mem)
    (hk : ∀ t, Memory.wf t.store.mem → Memory.wf (k t).store.mem) : Memory.wf (s.accept link f k).store.mem := by
  unfold State.accept
  dsimp only
  (repeat' split)
  · exact h
  · exact h
  · exact hk _ h

/-- Whether an instruction is a move to a port from `lo` up to `hi`. -/
def portIn (lo hi : Nat) (i : Instr) : Bool := i.parts.any fun p => decide (lo ≤ p.2.1 ∧ p.2.1 < hi)

/-- A move to a port of `x0`, `x1`, `ls`, `br`, `ck` or `sy` keeps memory canonical: by what its operation does. -/
theorem exec_scalar_sound (i : Instr) (s : State) (hi : portIn 0 0x1A0 i) (h : Memory.wf s.store.mem) :
    Out.sound (exec i s) := by
  cases i
  case move a d g => exact execMove_sound a d g s h
  case x0Add | x0Sub | x0And | x0Or | x0Xor | x0Shl | x0Shr | x0Sar | x0Ror | x0Ceq | x0CltS64 | x0CltN64 | x0Sel
     | x0MinS64 | x0MaxS64 | x0Clz | x0Popc | x0Bfx | x0Sxt | x0Mul | x0MulhS64 | x0MulhN64 | x0DivS64 | x0DivN64
     | x0RemS64 | x0RemN64 | x1Add | x1Sub | x1And | x1Or | x1Xor | x1Shl | x1Shr | x1Sar | x1Ror | x1Ceq
     | x1CltS64 | x1CltN64 | x1Sel | x1MinS64 | x1MaxS64 | x1Clz | x1Popc | x1Bfx | x1Sxt | x1Mul | x1MulhS64
     | x1MulhN64 | x1DivS64 | x1DivN64 | x1RemS64 | x1RemN64 =>
    exact trigger_sound h fun o => intOp_sound _ _ _ o s h
  case x0AddF32 | x0MulF32 | x0FmaF32 | x0CltF32 | x0ItofS64 | x0FtoiS64 | x1AddF32 | x1MulF32 | x1FmaF32
     | x1CltF32 | x1ItofS64 | x1FtoiS64 =>
    exact trigger_sound h fun o => fpOp_sound _ _ _ o s h
  case x0Crd | x1Crd => exact trigger_sound h fun o => crdOp_sound _ o s h
  case x0Cwr | x1Cwr => exact trigger_sound h fun o => cwrOp_sound o s h
  case lsLdS8 | lsLdN8 | lsLdS16 | lsLdN16 | lsLdS32 | lsLdN32 | lsLdN64 =>
    exact trigger_sound h fun o => loadOp_sound _ _ o s h
  case lsStN8 | lsStN16 | lsStN32 | lsStN64 => exact trigger_sound h fun o => storeOp_sound _ o s h
  case lsSt2B64 => exact trigger_sound h fun o => store2Op_sound o s h
  case lsLdFe => exact trigger_sound h fun o => ldFeOp_sound o s h
  case lsStFe => exact trigger_sound h fun o => stFeOp_sound o s h
  case lsBlk => exact trigger_sound h fun o => blkOp_sound o s h
  case lsInv => exact trigger_sound h fun o => invOp_sound o s h
  case brJmp => exact trigger_sound h fun o => jmpOp_sound o s h
  case brJz => exact trigger_sound h fun o => jzOp_sound o s h
  case brJnz => exact trigger_sound h fun o => jnzOp_sound o s h
  case brJr => exact trigger_sound h fun o => jrOp_sound o s h
  case brCall => exact trigger_sound h fun o => callOp_sound o s h
  case brLp0 | brLp1 => exact trigger_sound h fun o => lpOp_sound _ o s h
  case brLpend => exact trigger_sound h fun o => lpendOp_sound o s h
  case brLcrd => exact trigger_sound h fun o => lcrdOp_sound o s h
  case brMark => exact trigger_sound h fun o => markOp_sound o s h
  case ckDef => exact trigger_sound h fun o => ckDefOp_sound o s h
  case ckSub => exact trigger_sound h fun o => ckSubOp_sound o s h
  case ckWhen => exact trigger_sound h fun o => ckWhenOp_sound o s h
  case ckMerge | ckMergep => exact trigger_sound h fun o => mergeOp_sound _ o s h
  case ckUnion => exact trigger_sound h fun o => ckUnionOp_sound o s h
  case ckFby | ckPre => exact trigger_sound h fun o => delayOp_sound _ _ o s h
  case ckHold => exact trigger_sound h fun o => holdOp_sound o s h
  case ckIsp => exact trigger_sound (us := .none_) h fun o => ckIspOp_sound o s h
  case ckNot => exact trigger_sound h fun o => ckNotOp_sound o s h
  case syAdd => exact trigger_sound h fun o => syAddOp_sound o s h
  case syWait => exact trigger_sound h fun o => syWaitOp_sound o s h
  case syPeek => exact trigger_sound h fun o => syPeekOp_sound o s h
  case syFence => exact trigger_sound h fun o => syFenceOp_sound o s h
  case syAsdecl => exact trigger_sound h fun o => syAsdeclOp_sound o s h
  case syTend => exact trigger_sound (us := .none_) h fun o => syTendOp_sound o s h
  case syYield => exact trigger_sound (us := .none_) h fun o => syYieldOp_sound o s h
  case syStamp => exact trigger_sound h fun o => syStampOp_sound o s h
  case syTaint => exact trigger_sound h fun o => syTaintOp_sound o s h
  all_goals cases hi

/-- A move to a port of `ve`, `mx`, `cp`, `ms` or `sv` keeps memory canonical: by what its operation does. -/
theorem exec_engine_sound (i : Instr) (s : State) (hi : portIn 0x1A0 0x400 i) (h : Memory.wf s.store.mem) :
    Out.sound (exec i s) := by
  cases i
  case move a d g => exact execMove_sound a d g s h
  case veAddF32 | veSubF32 | veMulF32 | veFmaF32 | veMinF32 | veMaxF32 | veDivF32 | veSqrtF32 | veRsqrtF32
     | veExp2F32 | veLog2F32 | veFtoiS32 | veItofS32 | veCvtBf16 | veCvtF16 | veWidBf16 | veWidF16 =>
    exact trigger_sound h fun o => vfpOp_sound _ _ o s h
  case veCeqF32 | veCltF32 | veCeqB32 | veCltS32 => exact trigger_sound h fun o => vcmpOp_sound _ _ _ o s h
  case veBxenc => exact trigger_sound h fun o => bxencOp_sound o s h
  case veBxdec => exact trigger_sound h fun o => bxdecOp_sound o s h
  case veAddS32 | veSubS32 | veMulS32 | veAndB32 | veOrB32 | veXorB32 | veShlB32 | veShrB32 | veSarB32 | veMinS32
     | veMaxS32 | veBeqN8 | veBfindN8 | veBcmpN8 | veCrc32cN8 | veCrc32cB32 | veBurl | veBurlf =>
    exact trigger_sound h fun o => vintOp_sound _ _ o s h
  case veSelB32 => exact trigger_sound h fun o => vselOp_sound o s h
  case veLid => exact trigger_sound h fun o => vlidOp_sound o s h
  case veRsumF32 | veRmaxF32 | veRminF32 => exact trigger_sound h fun o => vredOp_sound _ _ o s h
  case vePerm => exact trigger_sound h fun o => vpermOp_sound o s h
  case veLrot => exact trigger_sound h fun o => vlrotOp_sound o s h
  case veLext => exact trigger_sound h fun o => vlextOp_sound o s h
  case veLins => exact trigger_sound h fun o => vlinsOp_sound o s h
  case veFfs => exact trigger_sound h fun o => vffsOp_sound o s h
  case veLdB32 | veLd16B64 => exact trigger_sound h fun o => vldOp_sound _ _ o s h
  case veStB32 => exact trigger_sound h fun o => vstOp_sound o s h
  case veLdlB32 => exact trigger_sound h fun o => vldlOp_sound o s h
  case veStlB32 => exact trigger_sound h fun o => vstlOp_sound o s h
  case veGathB32 => exact trigger_sound h fun o => vgathOp_sound o s h
  case veScatB32 => exact trigger_sound h fun o => vscatOp_sound o s h
  case mxTld => exact trigger_sound h fun o => tldOp_sound o s h
  case mxCld => exact trigger_sound h fun o => cldOp_sound o s h
  case mxCst => exact trigger_sound (us := .none_) h fun o => withTiles_sound o fun b => cstOp_sound b s h
  case mxScl => exact trigger_sound (us := .none_) h fun o => withTiles_sound o fun b => sclOp_sound b s h
  case mxZero => exact trigger_sound h fun o => zeroOp_sound o s h
  case mxStep => exact trigger_sound (us := .none_) h fun o => stepOp_sound o s h
  case mxLoop => exact trigger_sound h fun o => loopOp_sound o s h
  case mxOff => exact trigger_sound h fun o => offOp_sound o s h
  case mxBusy => exact trigger_sound h fun o => busyOp_sound o s h
  case mxXa => exact trigger_sound h fun o => xaOp_sound o s h
  case mxDrain => exact trigger_sound (us := .none_) h fun o => drainOp_sound o s h
  case cpLin => exact trigger_sound h fun o => linOp_sound o s h
  case cpStr2 | cpStr3 => exact trigger_sound h fun o => strOp_sound _ _ o s h
  case cpGath => exact trigger_sound h fun o => cgathOp_sound o s h
  case cpFill => exact trigger_sound h fun o => fillOp_sound o s h
  case cpCvt => exact trigger_sound h fun o => cvtOp_sound o s h
  case cpCanopy => exact trigger_sound h fun o => canopyOp_sound o s h
  case cpStbl => exact trigger_sound h fun o => stblOp_sound o s h
  case cpRestrict | cpProlong => exact trigger_sound h fun o => levelOp_sound _ o s h
  case cpClose => exact trigger_sound (us := .none_) h fun o => closeOp_sound o s h
  case cpWaitb => exact trigger_sound h fun o => waitbOp_sound o s h
  case cpCnt => exact trigger_sound h fun o => cntOp_sound o s h
  case msAddF32 | msAddS64 | msMaxS64 | msMinS64 | msOrB64 => exact trigger_sound h fun o => msUpdOp_sound _ o s h
  case msSwapB64 | msCasB64 => exact trigger_sound h fun o => msSwapOp_sound _ o s h
  case msRed => exact trigger_sound h fun o => msRedOp_sound o s h
  case msFence => exact trigger_sound (us := .none_) h fun o => msFenceOp_sound o s h
  case msMark => exact trigger_sound h fun o => msMarkOp_sound o s h
  case svLaunch => exact trigger_sound h fun o => launchOp_sound o s h
  case svAbort => exact trigger_sound h fun o => abortOp_sound o s h
  case svSrd => exact trigger_sound h fun o => srdOp_sound o s h
  case svSwr => exact trigger_sound h fun o => swrOp_sound o s h
  case svSpace => exact trigger_sound h fun o => spaceOp_sound o s h
  case svWalk => exact trigger_sound h fun o => walkOp_sound o s h
  case svPtmc => exact trigger_sound h fun o => ptmcOp_sound o s h
  case svTinv => exact trigger_sound h fun o => tinvOp_sound o s h
  case svPin => exact trigger_sound h fun o => pinOp_sound o s h
  case svUnpin => exact trigger_sound h fun o => unpinOp_sound o s h
  case svTfq => exact trigger_sound (us := .none_) h fun o => tfqOp_sound o s h
  case svTres => exact trigger_sound h fun o => tresOp_sound o s h
  case svTent => exact trigger_sound h fun o => tentOp_sound o s h
  case svEret => exact trigger_sound (us := .none_) h fun o => eretOp_sound o s h
  case svHirq => exact trigger_sound h fun o => hirqOp_sound o s h
  case svIdle => exact trigger_sound (us := .none_) h fun o => idleOp_sound o s h
  all_goals cases hi

/-- An event keeps memory canonical: by what it brings about. -/
theorem exec_event_sound (i : Instr) (s : State) (hi : i.parts = none) (h : Memory.wf s.store.mem) :
    Out.sound (exec i s) := by
  cases i <;> cases hi
  case flitStore.refl | flitLoadRequest.refl | flitLoadResponse.refl | flitCounterAdd.refl
     | flitTableMulticast.refl | flitClearingMessage.refl | flitLeaseVersionMessage.refl | flitCredit.refl
     | flitWalkContinuation.refl =>
    exact event_sound (State.accept_wf h fun t ht => by simp [ht])
  case fabricsConnect.refl | propertyGet.refl | propertySet.refl | identify.refl | getLogPage.refl | keepAlive.refl
     | nvmeRead.refl | nvmeWrite.refl | nvmeFlush.refl | invalidCommandOpcode.refl | nvmeCompletion.refl
     | keepAliveTimer.refl | rocePacket.refl | pfcPause.refl =>
    exact event_sound (State.awake_wf _ _ (fun t ht => by simp [ht]) h)
  case registerWrite.refl => exact event_sound (by split <;> simp [h])
  case launchCheck.refl | instantEnqueue.refl | clearInstant.refl | versionMerge.refl | walkRestart.refl
     | walkMigrationTimeout.refl | ptmcOrdered.refl | ptmcComplete.refl | segmentSealTimer.refl | segmentWrite.refl
     | hostDoorbell.refl | d2hheadWrite.refl | redfishGet.refl | updateService.refl | provision.refl | revoke.refl
     | debugUnlock.refl | getVersion.refl | getCapabilities.refl | negotiateAlgorithms.refl | getDigests.refl
     | getCertificate.refl | challenge.refl | unsupportedRequest.refl | packageReset.refl | scrubRead.refl
     | returnToActive.refl | coreCycle.refl =>
    exact event_sound (ok := true) (by simp [h])
  all_goals exact event_sound (by simp [h])

/-- Every instruction keeps memory canonical. -/
theorem exec_sound (i : Instr) (s : State) (h : Memory.wf s.store.mem) : Out.sound (exec i s) := by
  cases hi : i.parts with
  | none => exact exec_event_sound i s hi h
  | some p =>
    have inRange : portIn 0 0x1A0 i ∨ portIn 0x1A0 0x400 i := by
      have hd := dst_lt_of_parts (d := p.2.1) hi
      simp only [portIn, hi, Option.any_some, decide_eq_true_eq]
      omega
    rcases inRange with scalar | engine
    · exact exec_scalar_sound i s scalar h
    · exact exec_engine_sound i s engine h

/-! ### What a group leaves -/

/-- Memory is canonical in the state of a group in progress, or in what cut it short. -/
def foldSound : Except Out Fold → Prop
  | .ok f => Memory.wf f.st.store.mem
  | .error o => Out.sound o

@[simp] theorem foldSound_ok (f : Fold) : foldSound (.ok f) ↔ Memory.wf f.st.store.mem := Iff.rfl

@[simp] theorem Fold.note_st (f : Fold) (t : Trap) (limm : BitVec 32) : (f.note t limm).st = f.st := by
  unfold Fold.note
  (repeat' split) <;> rfl

theorem Fold.take_sound {f : Fold} {t : State} (x : CtxRef) (c0 : Ctx) (e : GSlot) (hf : Memory.wf f.st.store.mem)
    (ht : Memory.wf t.store.mem) : Memory.wf (f.take x c0 e t).st.store.mem := by
  unfold Fold.take
  split
  · exact ht
  · simpa using hf
  · exact hf
  · exact hf

theorem Fold.emulated_sound {f : Fold} (x : CtxRef) (c0 : Ctx) (e : GSlot) (m : EmuSlot) (hf : Memory.wf f.st.store.mem) :
    Memory.wf (f.emulated x c0 e m).st.store.mem := by
  unfold Fold.emulated
  (repeat' split) <;> simp [hf]

theorem State.ownEffect_wf {s t : State} {x : CtxRef} {c : Cmd} (h : Memory.wf s.store.mem)
    (ht : s.ownEffect x c = .ok t) : Memory.wf t.store.mem := by
  unfold State.ownEffect at ht
  dsimp only at ht
  split at ht
  · cases ht
  · split at ht
    · cases ht
    · split at ht
      · cases ht
      · split at ht
        · cases ht
        · next u hu =>
          cases ht
          have kept : Memory.wf u.store.mem := by
            split at hu
            · exact State.cpEffect_wf _ _ _ (by exact h) hu
            · exact State.mxEffect_wf _ _ _ (by exact h) hu
          simpa using kept

theorem State.ownEffects_wf {s t : State} {x : CtxRef} {l : List Cmd} (h : Memory.wf s.store.mem)
    (ht : s.ownEffects x l = .ok t) : Memory.wf t.store.mem := by
  induction l generalizing s with
  | nil => cases ht; exact h
  | cons c l ih =>
    unfold State.ownEffects at ht
    split at ht
    · next hu => exact ih (State.ownEffect_wf h hu) ht
    · next other => exact absurd ht (other t)

theorem Fold.close_wf (x : CtxRef) (f : Fold) (s : State) (slots : List GSlot) (hf : Memory.wf f.st.store.mem)
    (h : Memory.wf s.store.mem) : Memory.wf (f.close x s slots).store.mem := by
  unfold Fold.close
  (repeat' split) <;> simp [h, hf]

section
variable {ex : Exec} (hex : ∀ i s, Memory.wf s.store.mem → Out.sound (ex i s)) (x : CtxRef)
include hex

theorem Fold.move_sound (c0 : Ctx) (pre : Before) (f : Fold) (e : GSlot) (i : Instr) (hf : Memory.wf f.st.store.mem) :
    foldSound (f.move ex x c0 pre e i) := by
  have first := hex i (f.st.atSlot e pre) (by simpa using hf)
  unfold Fold.move
  split
  · next t ht =>
    rw [ht] at first
    split
    · exact Fold.take_sound _ _ _ hf first
    · split
      · exact hf
      · exact hf
      · next u hu =>
        have own : Memory.wf u.store.mem := State.ownEffects_wf (by simpa using hf) hu
        have again := hex i (u.atSlot e pre) (by simpa using own)
        split
        · next v hv => rw [hv] at again; exact Fold.take_sound _ _ _ own again
        · exact again
  · exact first

theorem Fold.slot_sound (c0 : Ctx) (pre : Before) (f : Fold) (e : GSlot) (hf : Memory.wf f.st.store.mem) :
    foldSound (f.slot ex x c0 pre e) := by
  unfold Fold.slot
  split
  · exact hf
  · split
    · simpa using hf
    · split
      · exact Fold.emulated_sound _ _ _ _ hf
      · split
        · split <;> simp [hf]
        · exact Fold.move_sound hex x _ _ _ _ _ hf

theorem foldSlots_sound (c0 : Ctx) (pre : Before) (f : Fold) (l : List GSlot) (hf : Memory.wf f.st.store.mem) :
    foldSound (foldSlots ex x c0 pre f l) := by
  induction l generalizing f with
  | nil => exact hf
  | cons e l ih =>
    have one := Fold.slot_sound hex x c0 pre f e hf
    unfold foldSlots
    split
    · next hg => rw [hg] at one; exact ih _ one
    · next hg => rw [hg] at one; exact one

theorem State.issueGroup_sound (s : State) (gr : Group) (h : Memory.wf s.store.mem) :
    Out.sound (s.issueGroup ex x gr) := by
  unfold State.issueGroup
  dsimp only
  split
  · simp [h]
  · split
    · simp [h]
    · have ran := foldSlots_sound hex x (s.ctx x) (s.before x.core) ⟨s, none, none, false, false⟩ (execOrder gr.slots) h
      split
      · next hf => rw [hf] at ran; exact Fold.close_wf x _ s _ ran h
      · next hf => rw [hf] at ran; exact ran

theorem State.issue1_sound (s : State) (h : Memory.wf s.store.mem) : Out.sound (s.issue1 ex x) := by
  unfold State.issue1
  dsimp only
  split
  · simpa using h
  · split
    · exact State.takeTrap_wf _ _ _ (by simpa using h)
    · split
      · next b _ =>
        have ran := State.issueGroup_sound hex x (({ s with cur := x } : State).updCtx x Ctx.landDue)
          ((({ s with cur := x } : State).updCtx x Ctx.landDue).form x b) (by simpa using h)
        split
        · next ht => rw [ht] at ran; simpa using ran
        · exact ran
      · exact State.fetchFail_wf _ _ _ (by simpa using h)

/-! ### What a turn and a step leave -/

theorem State.act_sound (s : State) (a : Nat) (h : Memory.wf s.store.mem) : Out.sound (s.act ex a) := by
  unfold State.act State.issueAct
  dsimp only
  have issued := State.issue1_sound hex ⟨a % 10000 / 4, a % 4⟩ s h
  have chosen := s.each_wf (List.range 8) State.preemptChoice (fun t d ht => by simpa using ht) h
  (repeat' split) <;> simp [h, issued, chosen]

theorem State.stepWith_sound (s : State) (h : Memory.wf s.store.mem) : Out.sound (s.stepWith ex) := by
  unfold State.stepWith
  split
  · exact hex _ _ h
  · split
    · simp
    · split
      · exact State.act_sound hex _ _ h
      · simpa using h

end

/-- Settles O60: whatever a step writes, it writes byte by byte, and each such write keeps memory canonical. -/
theorem stepKeepsMemoryCanonical : Obligations.StepKeepsMemoryCanonical := by
  unfold Obligations.StepKeepsMemoryCanonical
  intro s t hs run
  have stepped : Out.sound (step s) := State.stepWith_sound exec_sound s hs
  rw [run] at stepped
  exact stepped

end Sys2Proof.Machine
end

section
/-!
PROOFS of 04_memory: what the checks of an access leave (R98, 18_clearing R315, R322), load-blocks (R89, 08_seq_scalar R174), and
the machine after reset (R83).
-/

namespace Sys2Proof.Machine

/-! ### Watchpoints (R375) -/

/-- Where no stop is suppressed, watchpoints looked at change nothing. -/
theorem State.watchOne_state {s : State} {x : CtxRef} (h : (s.ctx x).skipWatch = []) (l : List Watched) :
    (s.watchOne x l).1 = s := by
  rw [State.watchOne, h]
  cases l.findSome? (s.watchHit x) <;> rfl

theorem State.watchAll_state {s : State} {x : CtxRef} (h : (s.ctx x).skipWatch = []) (ls : List (List Watched)) :
    (s.watchAll x ls).1 = s := by
  induction ls with
  | nil => rfl
  | cons l ls ih =>
    have first := State.watchOne_state h l
    rw [State.watchAll]
    cases hw : s.watchOne x l with
    | mk t hit =>
      rw [hw] at first
      subst first
      cases hit with
      | none => exact ih
      | some va => rfl

/-! ### Sets, room and memory-side engines -/

/-- An access that meets no declared set outside those its reaction holds touches nothing (R322). -/
theorem State.touch_holding {s : State} {x : CtxRef} {rs : List Range}
    (h : ∀ r, s.reactOf x = some r → r.unheld rs = []) : s.touch x rs = .ok s := by
  rw [State.touch]
  cases hreact : (s.ctx x).react with
  | none => rfl
  | some ref =>
    cases hl : s.launch? ref.lid with
    | none => simp only [hl]
    | some l =>
      cases hr : s.react? ref.id with
      | none => simp only [hl, hr]
      | some r =>
        have held : r.unheld rs = [] := h r (by rw [State.reactOf, hreact]; exact hr)
        simp only [hl, hr, held, if_true]

/-- A store into no version needs no room (R90, R318). -/
theorem State.roomAfter_unversioned (s : State) (x : CtxRef) {v : Viewer} {ps : List Piece}
    (h : ∀ p ∈ ps, v.versioned p.page = false) (before : List Piece) : s.roomAfter x v before ps = some s := by
  induction ps generalizing before with
  | nil => rfl
  | cons p ps ih =>
    obtain ⟨hp, hps⟩ := List.forall_mem_cons.mp h
    rw [State.roomAfter, if_pos (.inl (by rw [hp]; rfl)), ih hps]

/-- Pieces outside memory-side pages reach no memory-side engine (R117). -/
theorem msStacks_eq_nil {ps : List Piece} (h : ∀ p ∈ ps, p.page ≠ .ms) : msStacks ps = [] := by
  have none_ms : ps.filter (fun p => decide (p.page = .ms)) = [] :=
    List.filter_eq_nil_iff.mpr fun p hp => by simpa using h p hp
  rw [msStacks, none_ms]
  rfl

/-! ### An access outside versions, memory-side pages and atomic sets -/

/-- The checks of spans that touch no set, need no room and wait for no memory-side engine leave the state. -/
theorem State.admitFor_plain {s u : State} {x : CtxRef} {what : AccFor} {l ps : List SpanP}
    (hok : s.admitFor x what l = .ok u ps)
    (hpages : ∀ p ∈ l.flatMap SpanP.ps, p.page ≠ .ms ∧ (s.viewer x).versioned p.page = false)
    (hsets : ∀ r, s.reactOf x = some r →
      r.unheld (rangesOfPieces ((l.flatMap SpanP.ps).filter fun p => decide (p.page ≠ .local_))) = []) : u = s := by
  have room : s.roomFor x (s.viewer x) ((l.filter fun a => a.span.write).flatMap SpanP.ps) = some s := by
    refine s.roomAfter_unversioned x (fun p hp => ?_) []
    obtain ⟨a, ha, hp⟩ := List.mem_flatMap.mp hp
    exact (hpages p (List.mem_flatMap.mpr ⟨a, List.mem_of_mem_filter ha, hp⟩)).2
  have drained := msStacks_eq_nil fun p hp => (hpages p hp).1
  simp only [State.admitFor, State.touch_holding hsets, room, drained, List.foldl_nil] at hok
  (repeat' split at hok) <;> cases hok
  rfl

/-- What admits an access reports the spans that it has checked. -/
theorem State.admitFor_spans {s u : State} {x : CtxRef} {what : AccFor} {l ps : List SpanP}
    (hok : s.admitFor x what l = .ok u ps) : ps = l := by
  unfold State.admitFor at hok
  dsimp only at hok
  (repeat' split at hok) <;> cases hok
  rfl

/-- Spans whose addresses are not good pass no check. -/
theorem State.resolveSpans_error_ne_ok {s u : State} {x : CtxRef} {l : List Span} {ps : List SpanP} :
    s.resolveSpans x l ≠ .error (.ok u ps) := by
  induction l with
  | nil => exact nofun
  | cons a l ih =>
    intro h
    rw [State.resolveSpans] at h
    split at h
    · cases rest : s.resolveSpans x l with
      | ok q => rw [rest] at h; cases h
      | error q => rw [rest] at h; cases h; exact ih rest
    all_goals cases h

/-- Where no stop is suppressed, an access that has passed its checks was admitted from the state before them. -/
theorem State.vet_admitted {s u : State} {x : CtxRef} {l : List Span} {ps : List SpanP} (hok : s.vet x l = .ok u ps)
    (hskip : (s.ctx x).skipWatch = []) : s.admitFor x .plain ps = .ok u ps := by
  have watched := State.watchAll_state hskip ((l.map fun a => [a]).map fun a => a.map Span.watched)
  rw [State.vet, State.vetFor] at hok
  split at hok
  case h_1 => cases hok
  case h_2 t hw =>
    rw [hw] at watched
    subst watched
    split at hok
    case h_1 hr => exact absurd (hok ▸ hr) State.resolveSpans_error_ne_ok
    case h_2 => exact State.admitFor_spans hok ▸ hok

/-- Settles O24: the watchpoints, the sets, the room and the memory-side engines each leave the state of such an access. -/
theorem checksOfPlainAccessesChangeNothing : Obligations.ChecksOfPlainAccessesChangeNothing := by
  unfold Obligations.ChecksOfPlainAccessesChangeNothing
  intro s u x l ps hok hskip hpages hsets
  exact State.admitFor_plain (State.vet_admitted hok hskip) hpages hsets

/-! ### Load-blocks evicted (R89, R174) -/

/-- What evictions have left of a list of blocks: a block that was there, or one of them marked. -/
def LoadBlock.leftOf (l : List LoadBlock) (b : LoadBlock) : Prop :=
  b ∈ l ∨ b.evict = true ∧ { b with evict := false } ∈ l

theorem LoadBlock.leftOf.trans {l l' : List LoadBlock} {b : LoadBlock} (h : b.leftOf l') (hl : ∀ c ∈ l', c.leftOf l) :
    b.leftOf l := by
  obtain h | ⟨hb, h⟩ := h
  · exact hl b h
  · obtain h | ⟨hc, -⟩ := hl _ h
    · exact .inr ⟨hb, h⟩
    · cases hc

/-- A block after an eviction: one that the eviction does not hit, or one that it does, marked. -/
theorem mem_evictBlock {hit : LoadBlock → Bool} {l : List LoadBlock} {b : LoadBlock} (h : b ∈ evictBlock hit l) :
    b ∈ l ∧ hit b = false ∨ ∃ c ∈ l, b = { c with evict := true } := by
  obtain ⟨c, hc, rfl⟩ := List.mem_map.mp h
  have hc := List.mem_of_mem_filter hc
  cases hhit : hit c with
  | false => exact .inl ⟨hc, hhit⟩
  | true => exact .inr ⟨c, hc, rfl⟩

theorem leftOf_of_mem_evictBlock {hit : LoadBlock → Bool} {l : List LoadBlock} {b : LoadBlock} (h : b ∈ evictBlock hit l) :
    b.leftOf l := by
  obtain ⟨hb, -⟩ | ⟨⟨base, lines, ranges, filled, evict, sel, tainted⟩, hc, rfl⟩ := mem_evictBlock h
  · exact .inl hb
  · cases evict with
    | false => exact .inr ⟨rfl, hc⟩
    | true => exact .inl hc

theorem evictBlock_cons (hit : LoadBlock → Bool) (b : LoadBlock) (l : List LoadBlock) :
    evictBlock hit (b :: l) =
      if hit b then (if b.filled then evictBlock hit l else { b with evict := true } :: evictBlock hit l)
      else b :: evictBlock hit l := by
  cases hhit : hit b <;> cases hfilled : b.filled <;> simp [evictBlock, hhit, hfilled]

/-- The live blocks after an eviction are those before it that it does not hit. -/
theorem filter_live_evictBlock (hit : LoadBlock → Bool) (l : List LoadBlock) :
    (evictBlock hit l).filter (fun b => !b.evict) = (l.filter fun b => !b.evict).filter fun b => !hit b := by
  induction l with
  | nil => rfl
  | cons b l ih =>
    rw [List.filter_filter] at ih ⊢
    rw [evictBlock_cons]
    cases hhit : hit b with
    | false => simp [hhit, List.filter_cons, ih]
    | true => cases hfilled : b.filled <;> simp [hhit, ih]

/-- What every eviction keeps, the eviction of the oldest blocks keeps. -/
theorem evictOldest_induction {P : List LoadBlock → Prop} (hP : ∀ l hit, P l → P (evictBlock hit l)) (n fuel : Nat)
    {l : List LoadBlock} (hl : P l) : P (evictOldest n fuel l) := by
  induction fuel generalizing l with
  | zero => exact hl
  | succ fuel ih =>
    rw [evictOldest]
    split
    · exact hl
    · split
      · exact hl
      · exact ih (hP _ _ hl)

/-- Evictions make room for `n` lines: each takes a live block, and blocks that are not live hold no line. -/
theorem liveLines_evictOldest {n : Nat} (hn : n ≤ 256) (fuel : Nat) {l : List LoadBlock}
    (hl : (l.filter fun b => !b.evict).length ≤ fuel) : liveLines (evictOldest n fuel l) + n ≤ 256 := by
  induction fuel generalizing l with
  | zero =>
    have dead : l.filter (fun b => !b.evict) = [] := List.eq_nil_of_length_eq_zero (by omega)
    simpa [evictOldest, liveLines, dead] using hn
  | succ fuel ih =>
    rw [evictOldest]
    split
    case isTrue fits => exact fits
    case isFalse full =>
      split
      case h_1 hnone =>
        have dead : l.filter (fun b => !b.evict) = [] := List.filter_eq_nil_iff.mpr (List.find?_eq_none.mp hnone)
        simpa [liveLines, dead] using hn
      case h_2 b hb =>
        have live : b ∈ l.filter fun c => !c.evict :=
          List.mem_filter.mpr ⟨List.mem_of_find?_eq_some hb, List.find?_some (p := fun c : LoadBlock => !c.evict) hb⟩
        have hits : (decide (b.base = b.base) && !b.evict) = true := by simpa using (List.mem_filter.mp live).2
        have fewer := List.length_filter_lt_length_iff_exists
          (p := fun c : LoadBlock => !(decide (c.base = b.base) && !c.evict)).mpr ⟨b, live, by rw [hits]; exact nofun⟩
        apply ih
        rw [filter_live_evictBlock]
        omega

/-! ### `ls.blk` and `ls.inv` (R174) -/

/-- Whether another block shares a line with a block. -/
def LoadBlock.sharesLine (b c : LoadBlock) : Bool := c.ranges.any fun r => b.ranges.any fun q => r.meetsLine q

/-- What is left of a context's blocks when another joins them: those that share a line with it evicted, then the oldest. -/
def joinBlocks (l : List LoadBlock) (b : LoadBlock) : List LoadBlock :=
  evictOldest b.lines 256 (evictBlock b.sharesLine l)

/-- The block that `ls.blk` makes of its operands. -/
def Opnds.newBlock (a : Opnds) (ps : List Piece) (taint : Bool) : LoadBlock :=
  ⟨a.o.word.toNat, a.t.word.toNat, rangesOfPieces ps, false, false, a.p.word.toNat, taint⟩

/-- A block joined last to those of the context that executes. -/
def State.joinBlock (s : State) (b : LoadBlock) : State :=
  s.updCtx s.cur fun c => { c with blocks := joinBlocks c.blocks b ++ [b] }

theorem liveLines_joinBlocks {l : List LoadBlock} {b : LoadBlock} (hb : b.lines ≤ 256) (hl : l.length ≤ 256) :
    liveLines (joinBlocks l b) + b.lines ≤ 256 := by
  refine liveLines_evictOldest hb 256 ?_
  rw [filter_live_evictBlock]
  exact (List.length_filter_le ..).trans ((List.length_filter_le ..).trans hl)

theorem evict_of_mem_joinBlocks {l : List LoadBlock} {b : LoadBlock} :
    ∀ c ∈ joinBlocks l b, b.sharesLine c = true → c.evict = true := by
  refine evictOldest_induction (P := fun l => ∀ c ∈ l, b.sharesLine c = true → c.evict = true)
    (fun l hit hl c hc hshares => ?_) _ _ fun c hc hshares => ?_
  · obtain ⟨hc, -⟩ | ⟨c, -, rfl⟩ := mem_evictBlock hc
    · exact hl c hc hshares
    · rfl
  · obtain ⟨-, hmisses⟩ | ⟨c, -, rfl⟩ := mem_evictBlock hc
    · rw [hmisses] at hshares; cases hshares
    · rfl

theorem leftOf_of_mem_joinBlocks {l : List LoadBlock} {b : LoadBlock} : ∀ c ∈ joinBlocks l b, c.leftOf l :=
  evictOldest_induction (P := fun k => ∀ c ∈ k, c.leftOf l) (fun _ _ hl _ hc => (leftOf_of_mem_evictBlock hc).trans hl) _ _
    fun _ => leftOf_of_mem_evictBlock

theorem State.inPlain_plain {s : State} {x : CtxRef} {va n : Nat} {cause : Byte} {k : State → MoveR}
    (hrange : sharedRange va n = true) (hms : s.anyMs x (pagesOf va n) = .ok false) : s.inPlain x va n cause k = k s := by
  simp only [State.inPlain, hrange, hms, Bool.not_true, Bool.false_eq_true, if_false]

theorem State.inPlain_misplaced {s : State} {x : CtxRef} {va n : Nat} {cause : Byte} {k : State → MoveR}
    (h : sharedRange va n = false ∨ sharedRange va n = true ∧ s.anyMs x (pagesOf va n) = .ok true) :
    s.inPlain x va n cause k = fault5 cause 0 := by
  obtain hrange | ⟨hrange, hms⟩ := h
  · simp only [State.inPlain, hrange, Bool.not_false, if_true]
  · simp only [State.inPlain, hrange, hms, Bool.not_true, Bool.false_eq_true, if_false]

/-- An operation that may bring its reaction past the irreversible point leaves the store (R327). -/
theorem State.ite_irrev_store (s : State) (x : CtxRef) (b : Bool) : (if b then s.irrev x else s).store = s.store := by
  cases b
  · rfl
  · exact s.irrev_store x

theorem State.ite_irrev_sameHardware (s : State) (x : CtxRef) (b : Bool) :
    s.sameHardware (if b then s.irrev x else s) := by
  cases b
  · exact .refl s
  · exact s.irrev_sameHardware x

theorem State.sameHardware.me {s t : State} (h : s.sameHardware t) : t.me = s.me := by
  obtain ⟨st, ls, rfl⟩ := h
  rfl

section
variable {a : Opnds} {s : State}

/-- A block that is misaligned, has no lines or too many, or lies elsewhere than in plain shared space is LS_FORM. -/
theorem blkOp_misplaced (h : a.o.word.toNat % 128 ≠ 0 ∨ a.t.word.toNat = 0 ∨ 64 < a.t.word.toNat ∨
    sharedRange a.o.word.toNat (128 * a.t.word.toNat) = false ∨ sharedRange a.o.word.toNat (128 * a.t.word.toNat) = true ∧
      s.anyMs s.cur (pagesOf a.o.word.toNat (128 * a.t.word.toNat)) = .ok true) : blkOp a s = .trap 0x0A 5 0 := by
  rw [blkOp]
  dsimp only
  split
  case isTrue => rfl
  case isFalse good => exact State.inPlain_misplaced (by tauto)

variable (halign : a.o.word.toNat % 128 = 0) (hpos : 0 < a.t.word.toNat) (hle : a.t.word.toNat ≤ 64)
  (hrange : sharedRange a.o.word.toNat (128 * a.t.word.toNat) = true)
  (hms : s.anyMs s.cur (pagesOf a.o.word.toNat (128 * a.t.word.toNat)) = .ok false)
include halign hpos hle hrange hms

/-- A block in its place whose counter selector is bad is SY_FORM. -/
theorem blkOp_badSel (hsel : s.sel s.cur a.p.word = .bad) : blkOp a s = .trap 0x25 5 0 := by
  rw [blkOp]
  dsimp only
  rw [if_neg (by omega), State.inPlain_plain hrange hms, State.selFault, hsel]
  rfl

/-- A good block joins those of its context, which may bring its reaction past the irreversible point (R327). -/
theorem blkOp_joins (hsel : s.selFault s.cur a.p.word = none) {ps : List Piece}
    (hps : s.resolve s.cur .r a.o.word.toNat (128 * a.t.word.toNat) = .ok ps) :
    ∃ t, blkOp a s = .ok t ∧ t.store = s.store ∧ (s.joinBlock (a.newBlock ps s.me.ctaint)).sameHardware t := by
  rw [blkOp]
  dsimp only
  rw [if_neg (by omega), State.inPlain_plain hrange hms]
  simp only [hsel, hps]
  exact ⟨_, rfl, State.ite_irrev_store .., State.ite_irrev_sameHardware ..⟩

end

/-- `ls.inv` evicts the live block based at its operand. -/
theorem invOp_ok (a : Opnds) (s : State) : invOp a s = .ok (s.updCtx s.cur fun c =>
    { c with blocks := (c.blocks.filter fun b =>
        !(decide (b.base = a.t.word.toNat) && !b.evict && b.filled)).map fun b =>
          if b.base = a.t.word.toNat ∧ b.evict = false then { b with evict := true } else b }) := by
  simp only [invOp, evictBlock, Bool.and_eq_true, decide_eq_true_eq, Bool.not_eq_true']

/-- Settles O27: a good block joins what the evictions leave, and each misplaced or badly counted one fails its own check. -/
theorem loadBlocks : Obligations.LoadBlocks := by
  unfold Obligations.LoadBlocks
  refine ⟨?joins, ?misplaced, ?badSel, ?inv⟩
  case joins =>
    intro a g s ps hfires x base n halign hpos hle hplace hsel hps
    obtain ⟨hrange, hms⟩ := hplace
    obtain ⟨t, hop, hstore, same⟩ := blkOp_joins halign hpos hle hrange hms hsel hps
    have run : exec (.lsBlk a g) s = .next t.retired := (trigger_fires hfires).trans (congrArg _ hop)
    have me : t.me = { s.me with blocks := joinBlocks s.me.blocks (x.newBlock ps s.me.ctaint) ++ [x.newBlock ps s.me.ctaint] } :=
      same.me.trans (State.ctx_updCtx ..)
    refine ⟨t.retired, _, run, rfl, hstore, same.counters, congrArg Ctx.blocks me, ?_,
      fun hlen => liveLines_joinBlocks (hle.trans (by omega)) hlen, evict_of_mem_joinBlocks, leftOf_of_mem_joinBlocks⟩
    show t.me.sameRegs s.me
    rw [me]
    exact .refl s.me
  case misplaced =>
    intro a g s hfires hbad
    exact (trigger_fires hfires).trans (congrArg _ (blkOp_misplaced hbad))
  case badSel =>
    intro a g s hfires hgood
    obtain ⟨halign, hpos, hle, ⟨hrange, hms⟩, hsel⟩ := hgood
    exact (trigger_fires hfires).trans (congrArg _ (blkOp_badSel halign hpos hle hrange hms hsel))
  case inv =>
    intro a g s hfires _
    exact (trigger_fires hfires).trans (congrArg _ (invOp_ok _ s))

/-! ### The machine after reset (R321, R356, R381, R389, R397, R407) -/

@[simp] theorem State.reset_die (d : Nat) : State.reset.die d = DieRegs.reset :=
  Vector.getElem_replicate ..

/-- At reset a core's contexts differ between kinds of core in their result ports alone. -/
theorem Core.resetAt_status (n k : Nat) : ((Core.resetAt n).ctx k).status = .idle := by
  rw [Core.resetAt]
  split
  · rw [Core.ctx, Core.reset, Fin.getElem_fin, Vector.getElem_replicate]; rfl
  · rw [Core.ctx, Fin.getElem_fin, Vector.getElem_replicate]; rfl

/-- No core is listed at reset, so every context stands as a core's reset gives it. -/
theorem State.reset_ctx_status (x : CtxRef) : (State.reset.ctx x).status = .idle :=
  Core.resetAt_status x.core x.ctx

theorem DieRegs.reset_access {k : Nat} (h : k < 57) : DieRegs.reset.access.toList.getD k 0 = 0x00C00000 := by
  rw [DieRegs.reset, Vector.toList_replicate, List.getD_replicate _ h]
  rfl

/-- The window registers as one number: WMAGIC, with WSTEP above it (R389). -/
theorem HostPort.reset_num : HostPort.reset.num = 0xA1C7A4 := by
  simp only [HostPort.num, HostPort.reset, BitVec.toNat_ofNat, Nat.zero_mod, Nat.zero_mul, Nat.add_zero, Bool.false_eq_true, if_false]
  rfl

/-- Die 0 shows the window registers below the route table, which is empty. -/
theorem State.reset_portNum : State.reset.portNum 0 = 0xA1C7A4 := by
  have host : State.reset.host = HostPort.reset := rfl
  simp only [State.portNum, State.reset_die, host, HostPort.reset_num, DieRegs.reset, BitVec.toNat_ofNat, Nat.zero_mod, Nat.zero_mul,
    Nat.add_zero, if_true, if_neg (show ¬(0 = 7) by omega)]

theorem State.reset_regRead_port {i : Nat} (h : i < 32) : State.reset.regRead ⟨0, 5, 8 * i⟩ = wordAt 0xA1C7A4 i := by
  have inside : 8 * i < 0x100 := by omega
  have word : 8 * i / 8 = i := by omega
  simp only [State.regRead, inside, if_true, word, State.reset_portNum]

/-- A number of one word has no other word. -/
theorem wordAt_eq_zero {v i : Nat} (hv : v < 2 ^ 64) (hi : 0 < i) : wordAt v i = 0#64 := by
  have high : 2 ^ 64 ≤ 2 ^ (64 * i) := Nat.pow_le_pow_right (by omega) (by omega)
  rw [wordAt, Nat.div_eq_of_lt (hv.trans_le high)]
  rfl

/-- Settles O59: each field stands as `State.reset` sets it; the window registers are two constants in the first word. -/
theorem resetState : Obligations.ResetState := by
  unfold Obligations.ResetState
  refine ⟨reset_memory_wf, rfl, rfl, rfl, rfl, rfl, rfl, rfl, rfl, rfl, fun d _ => ?die, rfl, rfl, rfl, rfl, rfl, rfl, rfl,
    State.reset_regRead_port (i := 0) (by omega), fun i hpos hlt => ?window, rfl, rfl, rfl, rfl, State.reset_ctx_status⟩
  case die =>
    dsimp only
    rw [State.reset_die]
    exact ⟨rfl, rfl, rfl, rfl, rfl, rfl, rfl, rfl, rfl, rfl, rfl, rfl, rfl, rfl, rfl, rfl,
      fun _ => DieRegs.reset_access, rfl, rfl, rfl, rfl, rfl, rfl, rfl, rfl, rfl, rfl, rfl, rfl, rfl⟩
  case window =>
    rw [State.reset_regRead_port (by omega), wordAt_eq_zero (by omega) hpos]
    rfl

end Sys2Proof.Machine
end

section
/-!
PROOFS of the fabric ports: the flits that arrive (05_ordering R110-R112, R114), multicasts of table entries (21_spaces R353),
continued walks (21_spaces R347), and credits and failures of a link (23_system R392).
-/

namespace Sys2Proof.Machine

/-! ### The acceptance of a flit (R392) -/

/-- The state in which an accepted flit has its effect: a credit given, and the link's failures in a row ended (R377, R392). -/
def State.credited (s : State) (link : Nat) : State :=
  { s with fabric := { s.fabric with crcFails := alPut s.fabric.crcFails link 0, credits := s.fabric.credits + 1 } }

@[simp] theorem State.credited_store (s : State) (link : Nat) : (s.credited link).store = s.store := rfl

/-- A flit of a kind that this device accepts: whole, on a link that is up, and for this device. -/
def State.receives (s : State) (link : Nat) (f : Flit) (k : BitVec 4) : Prop :=
  link < 16 ∧ f.fk = k ∧ f.data.length = 32 ∧ s.linkUp link = true ∧ f.dstdev.toNat = s.devid

section
variable {s : State} {link : Nat} {f : Flit} {body : State → State}

theorem State.accept_down (hdown : s.linkUp link = false) : s.accept link f body = s := by
  simp only [State.accept, hdown, Bool.not_false, if_true]

/-- A flit for another device is discarded and gives no credit (log 75). -/
theorem State.accept_foreign (hup : s.linkUp link = true) (hdev : f.dstdev.toNat ≠ s.devid) :
    s.accept link f body = { s with fabric := { s.fabric with
      crcFails := alPut s.fabric.crcFails link 0, discarded := s.fabric.discarded + 1 } } := by
  simp only [State.accept, hup, Bool.not_true, Bool.false_eq_true, if_false]
  exact if_pos hdev

theorem State.accept_own (hup : s.linkUp link = true) (hdev : f.dstdev.toNat = s.devid) :
    s.accept link f body = body (s.credited link) := by
  simp only [State.accept, hup, Bool.not_true, Bool.false_eq_true, if_false]
  exact if_neg (not_not.mpr hdev)

theorem Flit.wf_kind {k : BitVec 4} (hlink : link < 16) (hk : f.fk = k) (hlen : f.data.length = 32) :
    f.wf link (fun j => j == k) = true := by
  simp [Flit.wf, hlink, hk, hlen]

/-- An accepted flit does what its kind says, in the state that has given its credit. -/
theorem exec_arrived (body : State → State) {i : Instr} {k : BitVec 4}
    (run : exec i s = event (f.wf link fun j => j == k) (s.accept link f body)) (h : s.receives link f k) :
    exec i s = .next (body (s.credited link)) := by
  obtain ⟨hlink, hk, hlen, hup, hdev⟩ := h
  rw [run, event_ok (Flit.wf_kind hlink hk hlen), State.accept_own hup hdev]

end

section
variable {s : State} {link : Nat} {f : Flit}

theorem exec_flitStore (h : s.receives link f 1) :
    exec (.flitStore link f) s = .next ((s.credited link).flitStore (linkDie link) f) :=
  exec_arrived (fun s => s.flitStore (linkDie link) f) rfl h

theorem exec_flitLoadRequest (h : s.receives link f 2) :
    exec (.flitLoadRequest link f) s = .next ((s.credited link).flitLoad (linkDie link) f) :=
  exec_arrived (fun s => s.flitLoad (linkDie link) f) rfl h

theorem exec_flitLoadResponse (h : s.receives link f 3) :
    exec (.flitLoadResponse link f) s = .next ((s.credited link).flitResponse f) :=
  exec_arrived (fun s => s.flitResponse f) rfl h

theorem exec_flitCounterAdd (h : s.receives link f 4) :
    exec (.flitCounterAdd link f) s = .next ((s.credited link).flitAdd (linkDie link) f) :=
  exec_arrived (fun s => s.flitAdd (linkDie link) f) rfl h

theorem exec_flitTableMulticast (h : s.receives link f 5) :
    exec (.flitTableMulticast link f) s = .next ((s.credited link).flitTable (linkDie link) f) :=
  exec_arrived (fun s => s.flitTable (linkDie link) f) rfl h

theorem exec_flitClearingMessage (h : s.receives link f 6) (m : ClearMsg) :
    exec (.flitClearingMessage link f m) s = .next ((s.credited link).flitClearing m) :=
  exec_arrived (fun s => s.flitClearing m) rfl h

theorem exec_flitLeaseVersionMessage (h : s.receives link f 7) (m : LeaseMsg) :
    exec (.flitLeaseVersionMessage link f m) s = .next ((s.credited link).flitLease (linkDie link) f m) :=
  exec_arrived (fun s => s.flitLease (linkDie link) f m) rfl h

theorem exec_flitCredit (h : s.receives link f 8) :
    exec (.flitCredit link f) s = .next ((s.credited link).flitCredit link) :=
  exec_arrived (fun s => s.flitCredit link) rfl h

theorem exec_flitWalkContinuation (h : s.receives link f 9) :
    exec (.flitWalkContinuation link f) s = .next ((s.credited link).flitWalk (linkDie link) f) :=
  exec_arrived (fun s => s.flitWalk (linkDie link) f) rfl h

end

/-- A flit on a link that is down, and one for another device, do nothing of what their kind says. -/
theorem exec_unaccepted {i : Nat → Flit → Instr} {k : BitVec 4} {body : Nat → Flit → State → State}
    (run : ∀ link f s, exec (i link f) s = event (f.wf link fun j => j == k) (s.accept link f (body link f))) (link : Nat)
    (f : Flit) (s : State) (hlink : link < 16) (hk : f.fk = k) (hlen : f.data.length = 32) :
    (s.linkUp link = false → exec (i link f) s = .next s) ∧
    (s.linkUp link = true → f.dstdev.toNat ≠ s.devid → ∃ t, exec (i link f) s = .next t ∧
      t.fabric.discarded = s.fabric.discarded + 1 ∧ t.fabric.credits = s.fabric.credits ∧ t.store = s.store ∧
      t.cores = s.cores ∧ t.launches = s.launches) := by
  rw [run, event_ok (Flit.wf_kind hlink hk hlen)]
  refine ⟨fun hdown => ?_, fun hup hdev => ?_⟩
  · rw [State.accept_down hdown]
  · rw [State.accept_foreign hup hdev]
    exact ⟨_, rfl, rfl, rfl, rfl, rfl, rfl⟩

/-! ### Stores (R110, R397) -/

/-- One byte of a flit taken into its runs: a valid byte lengthens the run that it follows, or begins one. -/
def maskRunStep (mask : BitVec 32) (data : List Byte) (rs : List (Nat × List Byte)) (i : Nat) : List (Nat × List Byte) :=
  if !mask.getLsbD i then rs
  else
    match rs.getLast? with
    | some r => if r.1 + r.2.length = i then rs.dropLast ++ [(r.1, r.2 ++ [data.getD i 0#8])] else rs ++ [(i, [data.getD i 0#8])]
    | none => [(i, [data.getD i 0#8])]

theorem maskRuns_eq_foldl (mask : BitVec 32) (data : List Byte) :
    maskRuns mask data = (List.range 32).foldl (maskRunStep mask data) [] := rfl

/-- Bytes that are all valid make one run. -/
theorem foldl_maskRunStep_full {mask : BitVec 32} {data : List Byte} (n : Nat) (hmask : ∀ i, i ≤ n → mask.getLsbD i = true)
    (hlen : n < data.length) : (List.range (n + 1)).foldl (maskRunStep mask data) [] = [(0, data.take (n + 1))] := by
  induction n with
  | zero =>
    obtain ⟨b, bs, rfl⟩ := List.exists_cons_of_length_pos hlen
    simp [maskRunStep, hmask 0 le_rfl]
  | succ n ih =>
    have taken : (data.take (n + 1)).length = n + 1 := List.length_take_of_le (by omega)
    have next : data.take (n + 1) ++ [data.getD (n + 1) 0#8] = data.take (n + 1 + 1) := by
      rw [List.getD_eq_getElem _ _ hlen, List.take_append_getElem]
    rw [List.range_succ, List.foldl_append, ih (fun i hi => hmask i (by omega)) (by omega)]
    simp only [List.foldl_cons, List.foldl_nil, maskRunStep, hmask (n + 1) le_rfl, Bool.not_true, Bool.false_eq_true, if_false,
      List.getLast?_singleton, Nat.zero_add, taken, if_true, List.dropLast_singleton, List.nil_append, next]

/-- A sector's bytes are one piece. -/
theorem cut_sector {a : Nat} (h : a % 32 = 0) : cut a 32 = [(a, 32)] := by
  have one : (a + 32 - 1) / 32 - a / 32 + 1 = 1 := by omega
  have start : a / 32 * 32 = a := by omega
  have stop : (a / 32 + 1) * 32 = a + 32 := by omega
  rw [cut, if_neg (by omega), one]
  simp [start, stop]

/-- A flit of a whole sector is one piece. -/
theorem flitParts_full {f : Flit} (hmask : f.mask = 0xFFFFFFFF) (hlen : f.data.length = 32) (hal : f.addr.toNat % 32 = 0) :
    flitParts f = [(f.addr.toNat, f.data)] := by
  have valid : ∀ i, i ≤ 31 → f.mask.getLsbD i = true := by
    intro i hi
    rw [hmask, show (0xFFFFFFFF : BitVec 32) = BitVec.allOnes 32 from rfl, BitVec.getLsbD_allOnes]
    exact decide_eq_true (by omega)
  have runs : maskRuns f.mask f.data = [(0, f.data)] := by
    rw [maskRuns_eq_foldl, foldl_maskRunStep_full 31 valid (by omega), List.take_of_length_le (by omega)]
  rw [flitParts, runs]
  simp [hlen, cut_sector hal, List.take_of_length_le]

section
variable {s : State} {die : Nat} {f : Flit} {p : Nat × List Byte} (hp : flitParts f = [p])
include hp

theorem State.flitStore_denied (hok : s.fabOk p.1 p.2.length true = false) : s.flitStore die f = s.flitError die f 0 := by
  simp [State.flitStore, hp, hok]

theorem State.flitStore_pinned (hok : s.fabOk p.1 p.2.length true = true) (hpin : s.pinHit p.1 p.2 ≠ none) :
    s.flitStore die f = s.flitError die f 0xC6 := by
  simp [State.flitStore, hp, hok, Option.isSome_iff_ne_none.mpr hpin, cPtPinned]

/-- A store that the port may make and no pin holds writes its bytes. -/
theorem State.flitStore_writes (hok : s.fabOk p.1 p.2.length true = true) (hpin : s.pinHit p.1 p.2 = none) :
    (s.flitStore die f).fabric = s.fabric ∧ (s.flitStore die f).store.mem = cellsWrite s.store.mem p.1 p.2 := by
  simp [State.flitStore, hp, hok, hpin, State.note, Store.put]

end

/-! ### Loads and their answers (R111, R114) -/

/-- The one launch that spans a device is the only one of those that could. -/
theorem State.peerLaunch_eq_some {s : State} {dev : Nat} {l : Launch} : s.peerLaunch dev = some l ↔ s.launches.filter (fun l =>
    decide (l.phase = .running) && !l.record.open_ && l.peers.any fun p => decide (p.dev = dev)) = [l] := by
  rw [State.peerLaunch]
  split
  · next m hm => simp [hm]
  · next hne => exact ⟨nofun, fun h => absurd h (hne l)⟩

section
variable {s : State} {die : Nat} {f : Flit}

theorem State.flitLoad_counter {k : Nat} (hctr : ctrOfAddr f.addr.toNat = some k) : s.flitLoad die f =
    s.sendFlit (2000 + die) 3 f.srcdev.toNat 0 f.addr.toNat (leBytes 8 (s.ctrSeen k).toNat) f.mask.toNat 0 := by
  simp only [State.flitLoad, hctr]

variable (hctr : ctrOfAddr f.addr.toNat = none)
include hctr

theorem State.flitLoad_denied
    (h : s.fabOk f.addr.toNat (32 - f.addr.toNat % 32) false = false ∨ lineOf f.addr.toNat ∈ s.store.poison) :
    s.flitLoad die f = s.flitError die f 0 := by
  simp only [State.flitLoad, hctr]
  refine if_pos ?_
  simpa using h

variable (hok : s.fabOk f.addr.toNat (32 - f.addr.toNat % 32) false = true) (hclean : lineOf f.addr.toNat ∉ s.store.poison)
include hok hclean

/-- A load that no reaction's view answers meets memory as it stands (log 165). -/
theorem State.flitLoad_memory (h : f.stamp.toNat = noView ∨ s.peerLaunch f.srcdev.toNat = none) : s.flitLoad die f =
    s.sendFlit (2000 + die) 3 f.srcdev.toNat 0 f.addr.toNat (cellsRead s.store.mem f.addr.toNat (32 - f.addr.toNat % 32))
      f.mask.toNat 0 := by
  have nobody : (if f.stamp.toNat = noView then none else s.peerLaunch f.srcdev.toNat) = none := by
    obtain h | h := h <;> simp [h]
  simp [State.flitLoad, hctr, hok, hclean, nobody]

/-- A load of a reaction of the launch that spans both devices meets its view and leaves its lease. -/
theorem State.flitLoad_view (hview : f.stamp.toNat ≠ noView) {l : Launch} (hl : s.peerLaunch f.srcdev.toNat = some l) :
    s.flitLoad die f = ({ s with
        store := s.store.lease f.srcdev.toNat (l.guestView f.stamp.toNat)
          ⟨f.addr.toNat, 32 - f.addr.toNat % 32, f.addr.toNat, .ver⟩ } : State).sendFlit
      (2000 + die) 3 f.srcdev.toNat 0 f.addr.toNat
      ((s.store.view l.lid f.stamp.toNat ((l.guestView f.stamp.toNat).holds (sectorOf f.addr.toNat))
        (sectorOf f.addr.toNat)).1.drop (f.addr.toNat % 32)) f.mask.toNat 0 := by
  simp only [State.flitLoad, hctr, hok, hclean, List.contains_iff_mem, Bool.not_true, Bool.false_or, if_false, hview, hl]
  rfl

end

/-- Whether a request waits for a response: from its device, for its address, unanswered, and a walk's for a walk's outcome. -/
def RemoteReq.waitsFor (f : Flit) (q : RemoteReq) : Bool :=
  decide (q.dev = f.srcdev.toNat ∧ q.addr = f.addr.toNat ∧ q.resp = none) && q.walk.isSome == decide (f.mask = 0x3FF#32)

theorem RemoteReq.waitsFor_eq (f : Flit) :
    RemoteReq.waitsFor f = fun q => q.meets f && q.walk.isSome == decide (f.mask = 0x3FF#32) := by
  funext q
  have open_ : q.resp.isNone = decide (q.resp = none) := by cases q.resp <;> rfl
  simp only [RemoteReq.waitsFor, RemoteReq.meets, open_, Bool.decide_and, Bool.and_assoc]

section
variable {s : State} {f : Flit}

theorem State.flitResponse_denied (hmask : f.mask = 0) : s.flitResponse f = s.flitDenied f := if_pos hmask

theorem State.flitResponse_awaited (hmask : f.mask ≠ 0) {q : RemoteReq}
    (hq : s.fabric.reqs.find? (RemoteReq.waitsFor f) = some q) : s.flitResponse f = s.answered f q := by
  rw [RemoteReq.waitsFor_eq] at hq
  refine (if_neg hmask).trans ?_
  rw [hq]

theorem State.flitResponse_unawaited (hmask : f.mask ≠ 0) (hq : s.fabric.reqs.find? (RemoteReq.waitsFor f) = none) :
    s.flitResponse f = s := by
  rw [RemoteReq.waitsFor_eq] at hq
  refine (if_neg hmask).trans ?_
  rw [hq]

/-- The answer of a load goes to the results that wait for its data. -/
theorem State.answered_load {q : RemoteReq} (hagent : q.x.core ≠ 20000) (hload : q.load = true) : s.answered f q =
    ({ s with fabric := { s.fabric with reqs := s.fabric.reqs.erase q } } : State).dataCome q.x.core fun p =>
      p.take q.dev q.seq f.data := by
  simp only [State.answered, hagent, hload, if_false, if_true]

section
variable {p : Ptmc} (hp : s.ptmcs.find? (fun p => p.asked && !p.decided && decide (p.addr = f.addr.toNat)) = some p)
include hp

theorem State.flitDenied_pinned (hcause : f.data.head? = some 0xC6) : s.flitDenied f = s.ptmcDecide p true := by
  simp only [State.flitDenied, hp]
  exact if_pos hcause

theorem State.flitDenied_multicast (hcause : f.data.head? ≠ some 0xC6) : s.flitDenied f =
    ({ s with ptmcs := s.ptmcs.filter fun q => q.id != p.id } : State).resetSoon p.x.core := by
  simp only [State.flitDenied, hp]
  exact if_neg hcause

end
end

/-! ### Adds and multicasts (R112, R353) -/

section
variable {s : State} {die : Nat} {f : Flit}

theorem State.flitAdd_counter {k : Nat} (hctr : ctrOfAddr f.addr.toNat = some k) :
    s.flitAdd die f = s.ctrAdd k (BitVec.ofNat 64 (leNat (f.data.take 8))) := by
  simp only [State.flitAdd, hctr]

theorem State.flitAdd_denied (hctr : ctrOfAddr f.addr.toNat = none) : s.flitAdd die f = s.flitError die f 0 := by
  simp only [State.flitAdd, hctr]
  rfl

theorem State.foldl_ctrAdd_ptmcs (key : State → Nat → Nat) (ds : List Nat) (s : State) :
    (ds.foldl (fun s d => s.ctrAdd (key s d) 1) s).ptmcs = s.ptmcs := by
  induction ds generalizing s with
  | nil => rfl
  | cons d ds ih => exact ih _

/-- A table entry written decides no multicast. -/
@[simp] theorem State.writeEntry_ptmcs (s : State) (a : Nat) (v : Word) : (s.writeEntry a v).ptmcs = s.ptmcs := by
  simp only [State.writeEntry]
  split
  · exact State.foldl_ctrAdd_ptmcs _ _ _
  · rfl

theorem State.flitTable_denied (h : f.addr.toNat % 8 ≠ 0 ∨ s.fabOk f.addr.toNat 8 true = false) :
    s.flitTable die f = s.flitError die f 0 := by
  rw [State.flitTable]
  refine if_pos ?_
  simpa using h

variable (hal : f.addr.toNat % 8 = 0) (hok : s.fabOk f.addr.toNat 8 true = true)
include hal hok

theorem State.flitTable_pinned (hpin : f.addr.toNat ∈ s.pinned) : s.flitTable die f = s.flitError die f 0xC6 := by
  simp [State.flitTable, hal, hok, hpin, cPtPinned]

variable (hpin : f.addr.toNat ∉ s.pinned)
include hpin

/-- The ordering point refuses an entry that another device pins, else writes it and sends it on. -/
theorem State.flitTable_orders (hdev : s.orderDev die = s.devid) : s.flitTable die f =
    if Config.remotePinned s.nextPtmc then ({ s with nextPtmc := s.nextPtmc + 1 } : State).flitError die f 0xC6
    else (({ s with nextPtmc := s.nextPtmc + 1 } : State).writeEntry f.addr.toNat
      (BitVec.ofNat 64 (leNat (f.data.take 8)))).relay (2000 + die) die f.addr.toNat
        (BitVec.ofNat 64 (leNat (f.data.take 8))) := by
  simp [State.flitTable, hal, hok, hpin, hdev, cPtPinned]

/-- Another device writes its replica. -/
theorem State.flitTable_replica (hdev : s.orderDev die ≠ s.devid) (hasked : ∀ p ∈ s.ptmcs, p.asked = false) :
    s.flitTable die f = s.writeEntry f.addr.toNat (BitVec.ofNat 64 (leNat (f.data.take 8))) := by
  have none_asked : s.ptmcs.find? (fun p => p.asked && !p.decided && decide (p.addr = f.addr.toNat) &&
      decide (p.value = BitVec.ofNat 64 (leNat (f.data.take 8)))) = none :=
    List.find?_eq_none.mpr fun p hp => by simp [hasked p hp]
  simp [State.flitTable, hal, hok, hpin, hdev, none_asked]

end

/-! ### Clearing messages (R114, R319) -/

section
variable {s : State} {status : Nat} {l : Launch} (hl : s.byStatus status = some l) (dev inst : Nat) (cause : Byte)
include hl

theorem State.flitClearing_finished : s.flitClearing (.finished dev status inst) = s.peer l.lid dev (inst + 1) 0 0 := by
  simp only [State.flitClearing, hl]

theorem State.flitClearing_checked :
    s.flitClearing (.checked dev status inst) = s.peer l.lid dev (inst + 1) (inst + 1) 0 := by
  simp only [State.flitClearing, hl]

theorem State.flitClearing_cleared : s.flitClearing (.cleared dev status inst) =
    ({ s with fabric := s.fabric.forget } : State).peer l.lid dev (inst + 1) (inst + 1) (inst + 1) := by
  simp only [State.flitClearing, hl]

theorem State.flitClearing_ended : s.flitClearing (.ended dev status cause) =
    (s.unpinFor dev).endLaunch l.lid (if cause = 0 then none else some ⟨cause, 0, 0, 0, 0, 0, false⟩) 0 := by
  have same : (s.unpinFor dev).byStatus status = some l := hl
  simp only [State.flitClearing, same]
  rfl

end

/-- A message about a launch that does not run here changes no launch. -/
theorem State.flitClearing_unknown {s : State} {status : Nat} (hl : s.byStatus status = none) (dev inst : Nat) (cause : Byte) :
    s.flitClearing (.finished dev status inst) = s ∧ s.flitClearing (.checked dev status inst) = s ∧
    s.flitClearing (.cleared dev status inst) = s ∧ s.flitClearing (.ended dev status cause) = s.unpinFor dev := by
  have same : (s.unpinFor dev).byStatus status = none := hl
  simp only [State.flitClearing, hl, same, and_self]

/-- A device not known yet is known from its first message on (log 73). -/
theorem State.peer_new {s : State} {lid dev : Nat} {l : Launch} (hl : s.launch? lid = some l)
    (hnew : l.peers.find? (fun p => decide (p.dev = dev)) = none) (fin chk clr : Nat) :
    (s.peer lid dev fin chk clr).launch? lid = some { l with peers := l.peers ++ [⟨dev, fin, chk, clr⟩] } := by
  have found := State.launch?_updLaunch s lid fun l => { l with peers := peerPut l.peers dev fin chk clr }
  rw [hl, Option.map_some, peerPut, hnew] at found
  exact found

/-! ### Lease and version messages (R102, R114, R323) -/

@[simp] theorem State.meetsPeer_store (s : State) (l : Launch) (dev : Nat) : (s.meetsPeer l dev).store = s.store := by
  rw [State.meetsPeer]
  split <;> rfl

section
variable {s : State} {status : Nat} {l : Launch} (die : Nat) (f : Flit) (stamp addr len : Nat)

section
variable (hl : s.byStatus status = some l)
include hl

theorem State.flitLease_store (data : List Byte) (taint ms : Bool) :
    s.flitLease die f (.store status stamp addr data taint ms) =
      (s.meetsPeer l f.srcdev.toNat).guestStore die f l stamp addr data taint ms := by
  simp only [State.flitLease, State.msgLaunch, hl]

theorem State.flitLease_lease : s.flitLease die f (.lease status stamp addr) =
    { s.meetsPeer l f.srcdev.toNat with
      store := s.store.lease f.srcdev.toNat (l.guestView stamp) ⟨addr, 1, addr, .ver⟩ } := by
  simp only [State.flitLease, State.msgLaunch, hl, State.meetsPeer_store]

end

variable (hl : s.named status = some l)
include hl

theorem State.flitLease_wound (by_ kind : Nat) : s.flitLease die f (.wound status stamp by_ addr kind) =
    (s.meetsPeer l f.srcdev.toNat).woundedAway die l stamp by_ (keyOf .remote f.srcdev.toNat addr) kind := by
  simp only [State.flitLease, State.msgLaunch, hl]

theorem State.flitLease_discard : s.flitLease die f (.discard status stamp) =
    (s.meetsPeer l f.srcdev.toNat).guestDiscard die l stamp := by
  simp only [State.flitLease, State.msgLaunch, hl]

theorem State.flitLease_touch : s.flitLease die f (.touch status stamp addr len) =
    (s.meetsPeer l f.srcdev.toNat).guestTouch die f.srcdev.toNat l stamp ⟨addr, len⟩ := by
  simp only [State.flitLease, State.msgLaunch, hl]

theorem State.flitLease_hold : s.flitLease die f (.hold status stamp addr len) =
    (s.meetsPeer l f.srcdev.toNat).updLaunch l.lid fun l => { l with away := l.away.map fun a =>
      if a.stamp = stamp ∧ a.range = ⟨keyOf .remote f.srcdev.toNat addr, len⟩ then { a with held := true } else a } := by
  simp only [State.flitLease, State.msgLaunch, hl]

theorem State.flitLease_release (taint : Bool) : s.flitLease die f (.release status stamp taint) =
    (s.meetsPeer l f.srcdev.toNat).guestRelease die l stamp taint := by
  simp only [State.flitLease, State.msgLaunch, hl]

end

/-! ### Credits (R377, R392) -/

/-- A credit takes one flit of its link out, if there is one. -/
theorem length_ackFirst (link : Nat) (os : List OutFlit) :
    (ackFirst link os).length + (if os.any (fun o => decide (o.link = link)) then 1 else 0) = os.length := by
  induction os with
  | nil => rfl
  | cons o os ih =>
    by_cases h : o.link = link
    · simp [ackFirst, h]
    · simp only [ackFirst, h, if_false, List.any_cons, decide_false, Bool.false_or, List.length_cons]
      omega

/-- Steps that each keep or send one more flit leave one more for each. -/
theorem length_foldl_flits (step : Fabric → OutFlit → Fabric)
    (hstep : ∀ g o, (step g o).flits.length = g.flits.length + 1) (os : List OutFlit) (g : Fabric) :
    (os.foldl step g).flits.length = g.flits.length + os.length := by
  induction os generalizing g with
  | nil => rfl
  | cons o os ih => rw [List.foldl_cons, ih, hstep, List.length_cons]; omega

theorem Fabric.length_letGo (g : Fabric) : g.letGo.flits.length = g.flits.length := by
  rw [Fabric.letGo, length_foldl_flits]
  · simp [Fabric.flits]
  · intro g o
    dsimp only
    split <;> simp [Fabric.flits] <;> omega

theorem State.length_flitCredit (s : State) (link : Nat) :
    (s.flitCredit link).fabric.flits.length + (if s.fabric.out.any (fun o => decide (o.link = link)) then 1 else 0) =
      s.fabric.flits.length := by
  have acked := length_ackFirst link s.fabric.out
  rw [State.flitCredit, Fabric.length_letGo]
  simp only [Fabric.flits, List.length_append]
  omega

/-! ### Continued walks (R347) -/

section
variable {s : State} {die : Nat} {f : Flit}

theorem State.flitWalk_refused (hset : (s.die die).fsid ≠ 0) (hsid : (s.die die).fsid ≠ f.sid) : s.flitWalk die f =
    s.answerWalk die f.srcdev.toNat f.addr.toNat (leNat (f.data.take 8)) (leNat ((f.data.drop 8).take 1)) 0xC5 :=
  if_pos ⟨hset, hsid⟩

theorem State.flitWalk_continued (h : (s.die die).fsid = 0 ∨ (s.die die).fsid = f.sid) : s.flitWalk die f =
    s.continueWalk die f.srcdev.toNat f.sid.toNat f.addr.toNat (leNat (f.data.take 8)) (leNat ((f.data.drop 8).take 1)) :=
  if_neg fun ⟨hset, hsid⟩ => h.elim hset hsid

end

/-! ### Unknown flits and failures of a link (R392) -/

theorem State.flitUnknown_up {s : State} {link : Nat} (hup : s.linkUp link = true) :
    s.flitUnknown link = { s with fabric := { s.fabric with
      crcFails := alPut s.fabric.crcFails link 0, discarded := s.fabric.discarded + 1 } } := by
  simp [State.flitUnknown, hup]

/-- A failure in a row counted. -/
def State.failed (s : State) (link : Nat) : State :=
  { s with fabric := { s.fabric with
    crcFails := alPut s.fabric.crcFails link ((alGet s.fabric.crcFails link).getD 0 + 1) } }

theorem State.crcFail_up {s : State} {link : Nat} (hup : s.linkUp link = true) : s.crcFail link =
    if 16 ≤ (alGet s.fabric.crcFails link).getD 0 + 1 then (s.failed link).linkDown link else s.failed link := by
  simp only [State.crcFail, hup, Bool.not_true, Bool.false_eq_true, if_false]
  rfl

theorem mem_numPut (m : List Nat) (a : Nat) : a ∈ numPut m a := by
  induction m with
  | nil => exact List.mem_singleton_self a
  | cons k m ih =>
    rw [numPut]
    split
    · exact List.mem_cons_of_mem k ih
    · split
      · next h => exact h ▸ List.mem_cons_self
      · exact List.mem_cons_self

theorem State.foldl_updDie_same (f : Nat → DieRegs → DieRegs) (ds : List Nat) (s : State) :
    (ds.foldl (fun s d => s.updDie d (f d)) s).fabric = s.fabric ∧
      (ds.foldl (fun s d => s.updDie d (f d)) s).store = s.store := by
  induction ds generalizing s with
  | nil => exact ⟨rfl, rfl⟩
  | cons d ds ih => exact ih _

/-- A link that goes down with no flit on its way resets no partition (R394). -/
theorem State.linkDown_idle {s : State} {link : Nat} (hout : s.fabric.out = []) (hheld : s.fabric.held = []) :
    link ∈ (s.linkDown link).fabric.down ∧ (s.linkDown link).store = s.store := by
  have none_lost : s.fabric.flits = [] := by simp [Fabric.flits, hout, hheld]
  simp only [State.linkDown, none_lost, List.filter_nil, List.map_nil, List.filterMap_nil, List.eraseDups_nil, List.foldl_nil]
  obtain ⟨hfab, hst⟩ := State.foldl_updDie_same (fun _ r => r.unroute link) (List.range 8) _
  rw [hfab, hst]
  exact ⟨mem_numPut _ _, rfl⟩

/-! ### The flits together -/

/-- Settles O54: an accepted flit has its kind's effect in the state that has given the credit, and each effect is read off by
the lemmas above. -/
theorem fabricFlits : Obligations.FabricFlits := by
  unfold Obligations.FabricFlits
  refine ⟨exec_unaccepted fun _ _ _ => rfl, exec_unaccepted fun _ _ _ => rfl, exec_unaccepted fun _ _ _ => rfl,
    exec_unaccepted fun _ _ _ => rfl, exec_unaccepted fun _ _ _ => rfl, fun m => exec_unaccepted fun _ _ _ => rfl,
    fun m => exec_unaccepted fun _ _ _ => rfl, exec_unaccepted fun _ _ _ => rfl, exec_unaccepted fun _ _ _ => rfl,
    ?store, fun _ _ _ => State.peerLaunch_eq_some, fun _ => flitParts_full, ?load, ?denied, ?response,
    fun _ _ _ => State.answered_load, fun _ _ _ hp => ⟨State.flitDenied_pinned hp, State.flitDenied_multicast hp⟩,
    ?add, ?table, ?clearing, ?peer, ?lease, ?credit, ?walk, ?unknown, ?crc⟩
  case store =>
    intro link f s p hsound h hp
    have run := exec_flitStore h
    refine ⟨fun hok hpin => ?_, fun hok => ?_, fun hok hpin => ?_⟩
    · obtain ⟨hfab, hmem⟩ := State.flitStore_writes (s := s.credited link) (die := linkDie link) hp hok hpin
      rw [State.credited_store] at hmem
      refine ⟨_, run, by rw [hfab]; rfl, fun i hi => ?_, fun a ha => ?_⟩
      · rw [hmem, cellGet_cellsWrite _ _ _ _ hsound, if_pos (by omega), Nat.add_sub_cancel_left]
        rfl
      · rw [hmem, cellGet_cellsWrite_other _ _ _ _ (by omega)]
    · exact run.trans (congrArg _ (State.flitStore_denied hp hok))
    · exact run.trans (congrArg _ (State.flitStore_pinned hp hok hpin))
  case load =>
    intro link f s h
    have run := exec_flitLoadRequest h
    exact ⟨fun k hctr => run.trans (congrArg _ (State.flitLoad_counter hctr)),
      fun hctr hbad => run.trans (congrArg _ (State.flitLoad_denied hctr hbad)),
      fun hctr hok hclean => ⟨fun hmem => run.trans (congrArg _ (State.flitLoad_memory hctr hok hclean hmem)),
        fun hview l hl => run.trans (congrArg _ (State.flitLoad_view (s := s.credited link) hctr hok hclean hview hl))⟩⟩
  case denied =>
    intro link f s h hmask
    have run := exec_flitLoadResponse h
    exact run.trans (congrArg _ (State.flitResponse_denied hmask))
  case response =>
    intro link f s h hmask
    have run := exec_flitLoadResponse h
    exact ⟨fun q hq => run.trans (congrArg _ (State.flitResponse_awaited hmask hq)),
      fun hq => run.trans (congrArg _ (State.flitResponse_unawaited hmask hq))⟩
  case add =>
    intro link f s h
    have run := exec_flitCounterAdd h
    exact ⟨fun k hctr => run.trans (congrArg _ (State.flitAdd_counter hctr)),
      fun hctr => run.trans (congrArg _ (State.flitAdd_denied hctr))⟩
  case table =>
    intro link f s h
    have run := exec_flitTableMulticast h
    exact ⟨fun hbad => run.trans (congrArg _ (State.flitTable_denied hbad)),
      fun hal hok hpin => run.trans (congrArg _ (State.flitTable_pinned hal hok hpin)),
      fun hal hok hpin => ⟨fun hdev => run.trans (congrArg _ (State.flitTable_orders hal hok hpin hdev)),
        fun hdev hasked => run.trans (congrArg _ (State.flitTable_replica hal hok hpin hdev hasked))⟩⟩
  case clearing =>
    intro link f s dev status inst cause h
    have run := exec_flitClearingMessage h
    refine ⟨fun l hl => ?_, fun hl => ?_⟩
    · replace hl : (s.credited link).byStatus status = some l := hl
      exact ⟨(run _).trans (congrArg _ (State.flitClearing_finished hl dev inst)),
        (run _).trans (congrArg _ (State.flitClearing_checked hl dev inst)),
        ⟨_, (run _).trans (congrArg _ (State.flitClearing_cleared hl dev inst)), rfl, rfl, rfl, rfl⟩,
        (run _).trans (congrArg _ (State.flitClearing_ended hl dev cause))⟩
    · obtain ⟨hfin, hchk, hclr, hend⟩ := State.flitClearing_unknown (s := s.credited link) hl dev inst cause
      exact ⟨(run _).trans (congrArg _ hfin), (run _).trans (congrArg _ hchk), (run _).trans (congrArg _ hclr),
        (run _).trans (congrArg _ hend)⟩
  case peer =>
    intro s lid dev fin chk clr l hl hnew
    exact ⟨_, State.peer_new hl hnew fin chk clr, rfl⟩
  case lease =>
    intro link f s status stamp addr len data taint ms by_ kind h
    have run := exec_flitLeaseVersionMessage h
    refine ⟨fun l hl => ?_, fun l hl => ?_⟩
    · replace hl : (s.credited link).byStatus status = some l := hl
      exact ⟨(run _).trans (congrArg _ (State.flitLease_store _ f stamp addr hl data taint ms)),
        (run _).trans (congrArg _ (State.flitLease_lease _ f stamp addr hl))⟩
    · replace hl : (s.credited link).named status = some l := hl
      exact ⟨(run _).trans (congrArg _ (State.flitLease_wound _ f stamp addr hl by_ kind)),
        (run _).trans (congrArg _ (State.flitLease_discard _ f stamp hl)),
        (run _).trans (congrArg _ (State.flitLease_touch _ f stamp addr len hl)),
        (run _).trans (congrArg _ (State.flitLease_hold _ f stamp addr len hl)),
        (run _).trans (congrArg _ (State.flitLease_release _ f stamp hl taint))⟩
  case credit =>
    intro link f s h
    have run := exec_flitCredit h
    have left := (s.credited link).length_flitCredit link
    simp only [Fabric.flits, List.length_append] at left
    exact ⟨_, run, rfl, rfl, left⟩
  case walk =>
    intro link f s h
    have run := exec_flitWalkContinuation h
    exact ⟨fun hset hsid => run.trans (congrArg _ (State.flitWalk_refused hset hsid)),
      fun hsid => run.trans (congrArg _ (State.flitWalk_continued hsid))⟩
  case unknown =>
    intro link f s hlink hk hlen hup
    have known : f.wf link (fun k => k == 0#4 || decide (9 < k.toNat)) = true := by
      simpa [Flit.wf, hlink, hlen] using hk
    have run : exec (.flitUnknown link f) s = .next (s.flitUnknown link) := event_ok known _
    exact ⟨_, run.trans (congrArg _ (State.flitUnknown_up hup)), rfl, rfl, rfl⟩
  case crc =>
    intro link s hlink hup
    have run : exec (.flitCrcFail link) s = .next _ :=
      (event_ok (decide_eq_true hlink) _).trans (congrArg _ (State.crcFail_up hup))
    refine ⟨fun hfew => ?_, fun hmany hout hheld => ?_⟩
    · rw [if_neg (by omega)] at run
      exact ⟨_, run, rfl, rfl, alGet_alPut_same _ _ _, rfl⟩
    · rw [if_pos hmany] at run
      obtain ⟨hdown, hstore⟩ := State.linkDown_idle (s := s.failed link) (link := link) hout hheld
      exact ⟨_, run, hdown, hstore⟩

end Sys2Proof.Machine
end

section
/-!
PROOFS of 06_numbers: an exact number is rounded as its mode says (R122, R123, R131-R134). The magnitudes of a format, its
range unbounded above (R133), rise strictly with their bits; one rounding picks one of the two neighbours of the exact
number; a result from infinity's bits on is replaced as R132 says.
-/

namespace Sys2Proof.Num

/-! ### The number that a magnitude's bits stand for -/

/-- The exponent of the last place of a subnormal (R122). -/
def Fmt.quantum (f : Fmt) : ℤ := 1 - (f.bias : ℤ) - f.mbits

/-- The binade of a magnitude's bits: 0 for subnormals and the least normals, one more for each further exponent. -/
def Fmt.binade (f : Fmt) (b : ℕ) : ℕ := b / 2 ^ f.mbits - 1

/-- The number that a magnitude's bits stand for, the range unbounded above (R133). -/
def Fmt.magVal (f : Fmt) (b : ℕ) : ℚ :=
  ((b - f.binade b * 2 ^ f.mbits : ℕ) : ℚ) * 2 ^ (f.quantum + f.binade b)

/-- The proportions of an IEEE format: a fraction, and a bias that centres the exponents (R122). -/
structure Fmt.Ieee (f : Fmt) : Prop where
  mbits_pos : 0 < f.mbits
  bias_pos : 0 < f.bias
  ebits_bias : 2 ^ f.ebits = 2 * f.bias + 2

theorem ieee_of_mem {f : Fmt} (h : f ∈ [fp32, fp16, bf16]) : f.Ieee := by
  simp only [List.mem_cons, List.not_mem_nil, or_false] at h
  obtain rfl | rfl | rfl := h <;> exact ⟨by decide, by decide, by decide⟩

/-- A significand of up to 2^(mbits+1) units in binade `k` stands for that many units: a carry out of the significand
moves the bits on to the next binade. -/
theorem Fmt.magVal_add (f : Fmt) {k s : ℕ} (hs : s ≤ 2 ^ (f.mbits + 1)) (hk : k = 0 ∨ 2 ^ f.mbits ≤ s) :
    f.magVal (k * 2 ^ f.mbits + s) = s * 2 ^ (f.quantum + k) := by
  have hpos : 0 < 2 ^ f.mbits := by positivity
  have hdiv : (k * 2 ^ f.mbits + s) / 2 ^ f.mbits = k + s / 2 ^ f.mbits := by
    rw [Nat.add_comm, Nat.add_mul_div_right _ _ hpos, Nat.add_comm]
  rcases hs.lt_or_eq with hlt | rfl
  · have hb : f.binade (k * 2 ^ f.mbits + s) = k := by
      rw [Fmt.binade, hdiv]
      rcases hk with rfl | hk
      · have : s / 2 ^ f.mbits < 2 := Nat.div_lt_of_lt_mul (by rwa [← pow_succ])
        omega
      · rw [Nat.div_eq_of_lt_le (k := 1) (by omega) (by rw [pow_succ] at hlt; omega)]
        omega
    rw [Fmt.magVal, hb, Nat.add_sub_cancel_left]
  · have hb : f.binade (k * 2 ^ f.mbits + 2 ^ (f.mbits + 1)) = k + 1 := by
      rw [Fmt.binade, hdiv, pow_succ, Nat.mul_div_cancel_left 2 hpos]
      omega
    have hsig : k * 2 ^ f.mbits + 2 ^ (f.mbits + 1) - (k + 1) * 2 ^ f.mbits = 2 ^ f.mbits := by
      rw [pow_succ, Nat.succ_mul]
      omega
    rw [Fmt.magVal, hb, hsig, Nat.cast_succ, ← add_assoc, zpow_add_one₀ two_ne_zero]
    push_cast
    ring

/-- Bits split into their binade and a significand below 2^(mbits+1). -/
theorem Fmt.exists_significand (f : Fmt) (b : ℕ) :
    ∃ s, b = f.binade b * 2 ^ f.mbits + s ∧ s < 2 ^ (f.mbits + 1) ∧ (f.binade b = 0 ∨ 2 ^ f.mbits ≤ s) := by
  have hpos : 0 < 2 ^ f.mbits := by positivity
  have hsplit := Nat.div_add_mod' b (2 ^ f.mbits)
  have hmod := Nat.mod_lt b hpos
  refine ⟨b - f.binade b * 2 ^ f.mbits, ?_⟩
  rw [Fmt.binade, pow_succ]
  rcases Nat.eq_zero_or_pos (b / 2 ^ f.mbits) with h0 | hd
  · rw [h0] at hsplit ⊢
    omega
  · obtain ⟨k, hk⟩ := Nat.exists_eq_add_of_le' hd
    rw [hk, Nat.succ_mul] at hsplit
    rw [hk, Nat.add_sub_cancel]
    omega

/-- Neighbours differ by one unit in the last place. -/
theorem Fmt.magVal_succ (f : Fmt) (b : ℕ) : f.magVal (b + 1) = f.magVal b + 2 ^ (f.quantum + f.binade b) := by
  obtain ⟨s, hb, hs, hk⟩ := f.exists_significand b
  have here := f.magVal_add hs.le hk
  have next := f.magVal_add (s := s + 1) hs (hk.imp_right Nat.le_succ_of_le)
  rw [← hb] at here
  rw [← add_assoc, ← hb] at next
  rw [here, next, Nat.cast_succ, add_one_mul]

theorem Fmt.magVal_strictMono (f : Fmt) : StrictMono f.magVal :=
  strictMono_nat_of_lt_succ fun b => by
    rw [f.magVal_succ]
    exact lt_add_of_pos_right _ (by positivity)

theorem dy_fin_false (m : ℕ) (e : ℤ) : (FVal.fin false m e).dy = ⟨m, e⟩ := rfl

/-- Below infinity the model's decoder reads a magnitude's bits as this number. -/
theorem Fmt.ofBits_eq_magVal (f : Fmt) {b : ℕ} (h : b < f.infBits) :
    ((ofBits f b).dy.m : ℚ) * 2 ^ (ofBits f b).dy.e = f.magVal b := by
  have hpos : 0 < 2 ^ f.mbits := by positivity
  have hex : b / 2 ^ f.mbits < 2 ^ f.ebits - 1 := Nat.div_lt_of_lt_mul (by rwa [Nat.mul_comm])
  have hsign : b / f.signBit = 0 := Nat.div_eq_of_lt <| h.trans_le <| by
    rw [Fmt.signBit, pow_add]
    exact Nat.mul_le_mul_right _ (Nat.sub_le _ _)
  have hsplit := Nat.div_add_mod' b (2 ^ f.mbits)
  have hbits : ofBits f b = if b / 2 ^ f.mbits = 0 then .fin false (b % 2 ^ f.mbits) f.quantum
      else .fin false (2 ^ f.mbits + b % 2 ^ f.mbits) ((b / 2 ^ f.mbits : ℕ) - f.bias - f.mbits) := by
    rw [ofBits, hsign, Nat.mod_eq_of_lt (hex.trans_le (Nat.sub_le _ _)), if_neg hex.ne]
    rfl
  rw [hbits, Fmt.magVal, Fmt.binade]
  split_ifs with h0
  · have hsig : b % 2 ^ f.mbits = b := by rw [h0] at hsplit; omega
    simp [dy_fin_false, h0, hsig]
  · obtain ⟨k, hk⟩ := Nat.exists_eq_add_one_of_ne_zero h0
    rw [hk, Nat.succ_mul] at hsplit
    have hsig : b - k * 2 ^ f.mbits = 2 ^ f.mbits + b % 2 ^ f.mbits := by omega
    have hexp : ((k + 1 : ℕ) : ℤ) - f.bias - f.mbits = f.quantum + k := by
      rw [Fmt.quantum]
      omega
    rw [dy_fin_false, hk, hexp, Nat.add_sub_cancel, hsig, Int.cast_natCast]

/-! ### The top of the range -/

variable {f : Fmt}

theorem Fmt.Ieee.infBits_eq (hf : f.Ieee) : f.infBits = (2 * f.bias) * 2 ^ f.mbits + 2 ^ f.mbits := by
  rw [Fmt.infBits, hf.ebits_bias, ← Nat.succ_mul (2 * f.bias)]
  rfl

theorem Fmt.Ieee.infBits_pos (hf : f.Ieee) : 0 < f.infBits := by
  rw [hf.infBits_eq]
  positivity

theorem Fmt.Ieee.even_infBits (hf : f.Ieee) : f.infBits % 2 = 0 := by
  rw [hf.infBits_eq, mul_assoc, Nat.mul_add_mod, ← Nat.sub_add_cancel hf.mbits_pos, pow_succ, Nat.mul_mod_left]

theorem Fmt.Ieee.infBits_lt_signBit (hf : f.Ieee) : f.infBits < f.signBit := by
  have hpos : 0 < 2 ^ f.mbits := by positivity
  rw [hf.infBits_eq, Fmt.signBit, pow_add, hf.ebits_bias, Nat.add_mul]
  omega

theorem Fmt.Ieee.maxBits_succ (hf : f.Ieee) : f.maxBits + 1 = f.infBits := Nat.sub_add_cancel hf.infBits_pos

/-- Infinity's bits stand for 2^(emax+1) in the unbounded range. -/
theorem Fmt.Ieee.magVal_infBits (hf : f.Ieee) : f.magVal f.infBits = 2 ^ ((f.bias : ℤ) + 1) := by
  rw [hf.infBits_eq, f.magVal_add (Nat.pow_le_pow_right two_pos (Nat.le_succ _)) (.inr le_rfl), Nat.cast_pow,
    Nat.cast_ofNat, ← zpow_natCast, ← zpow_add₀ two_ne_zero]
  congr 1
  rw [Fmt.quantum]
  push_cast
  ring

/-- The largest finite magnitude F lies one unit of the last binade below 2^(emax+1). -/
theorem Fmt.Ieee.magVal_maxBits (hf : f.Ieee) :
    f.magVal f.maxBits = 2 ^ ((f.bias : ℤ) + 1) - 2 ^ ((f.bias : ℤ) - f.mbits) := by
  have hpos : 0 < 2 ^ f.mbits := by positivity
  have hdiv : f.maxBits / 2 ^ f.mbits = 2 * f.bias :=
    Nat.div_eq_of_lt_le (by rw [Fmt.maxBits, hf.infBits_eq]; omega)
      (by rw [Fmt.maxBits, hf.infBits_eq, Nat.succ_mul (2 * f.bias)]; omega)
  have hexp : f.quantum + f.binade f.maxBits = f.bias - f.mbits := by
    have := hf.bias_pos
    rw [Fmt.quantum, Fmt.binade, hdiv]
    omega
  have hsucc := f.magVal_succ f.maxBits
  rw [hf.maxBits_succ, hf.magVal_infBits, hexp] at hsucc
  rw [hsucc, add_sub_cancel_right]

/-! ### Which neighbour one rounding picks (R131) -/

/-- Rounding that never increases a magnitude (R131). -/
def Mode.TowardZero (md : Mode) (neg : Bool) : Prop := md = .rtz ∨ md = .rup ∧ neg = true ∨ md = .rdn ∧ neg = false

/-- Rounding that never decreases a magnitude (R131). -/
def Mode.AwayFromZero (md : Mode) (neg : Bool) : Prop := md = .rup ∧ neg = false ∨ md = .rdn ∧ neg = true

/-- A mode that is not toward zero rounds away from zero or to the nearest. -/
theorem Mode.not_towardZero_iff (md : Mode) (neg : Bool) : ¬ md.TowardZero neg ↔ md.AwayFromZero neg ∨ md = .rne := by
  cases md <;> simp [Mode.TowardZero, Mode.AwayFromZero]

/-- Whether a mode takes the upper of the neighbours `val n ≤ x < val (n + 1)`. -/
def Mode.TakesUpper (md : Mode) (neg : Bool) (val : ℕ → ℚ) (x : ℚ) (n : ℕ) : Prop :=
  match md with
  | .rne => val n + val (n + 1) < 2 * x ∨ val n + val (n + 1) = 2 * x ∧ n % 2 = 1
  | .rtz => False
  | .rup => val n ≠ x ∧ neg = false
  | .rdn => val n ≠ x ∧ neg = true

/-- `r` is the neighbour of `x` that a mode picks on the scale `val`, where `n` is the neighbour at or below `x`, and
`inexact` says whether `x` lies off the scale. -/
structure RoundsTo (val : ℕ → ℚ) (md : Mode) (neg : Bool) (x : ℚ) (n r : ℕ) (inexact : Bool) : Prop where
  le : val n ≤ x
  lt : x < val (n + 1)
  inexact_iff : inexact = true ↔ val n ≠ x
  upper : md.TakesUpper neg val x n → r = n + 1
  lower : ¬ md.TakesUpper neg val x n → r = n

/-- A scale stretched by a power of two and moved on by an even number of steps rounds the stretched number alike. -/
theorem RoundsTo.transfer {val val' : ℕ → ℚ} {md : Mode} {neg : Bool} {x u : ℚ} {n r c : ℕ} {i : Bool}
    (h : RoundsTo val md neg x n r i) (hu : 0 < u) (hc : c % 2 = 0) (hn : val' (c + n) = val n * u)
    (hn1 : val' (c + n + 1) = val (n + 1) * u) : RoundsTo val' md neg (x * u) (c + n) (c + r) i := by
  have hne : val' (c + n) ≠ x * u ↔ val n ≠ x := by rw [hn, Ne, mul_left_inj' hu.ne']
  have hup : md.TakesUpper neg val' (x * u) (c + n) ↔ md.TakesUpper neg val x n := by
    cases md with
    | rne =>
      have hpar : (c + n) % 2 = n % 2 := by omega
      simp only [Mode.TakesUpper, hn, hn1, hpar, ← add_mul, ← mul_assoc, mul_lt_mul_iff_left₀ hu, mul_left_inj' hu.ne']
    | rtz => exact Iff.rfl
    | rup => exact and_congr_left' hne
    | rdn => exact and_congr_left' hne
  exact {
    le := hn ▸ mul_le_mul_of_nonneg_right h.le hu.le
    lt := hn1 ▸ mul_lt_mul_of_pos_right h.lt hu
    inexact_iff := h.inexact_iff.trans hne.symm
    upper := fun hp => by rw [h.upper (hup.mp hp), add_assoc]
    lower := fun hp => by rw [h.lower (mt hup.mpr hp)] }

/-- The quotient of a division by `d` is the division's result exactly if there is no remainder. -/
theorem cast_div_ne_iff {m d : ℕ} (hd : 0 < d) : ((m / d : ℕ) : ℚ) ≠ (m : ℚ) / d ↔ m % d ≠ 0 := by
  have hsplit := Nat.div_add_mod' m d
  rw [Ne, eq_div_iff (by positivity)]
  norm_cast
  omega

/-- The model's test on quotient and remainder of a division by 2^k is the mode's choice between the neighbours. -/
theorem roundsUp_iff_takesUpper (md : Mode) (neg : Bool) (m k : ℕ) :
    roundsUp md neg (m / 2 ^ k) (m % 2 ^ k) k = true ↔
      md.TakesUpper neg (fun j => (j : ℚ)) ((m : ℚ) / (2 ^ k : ℕ)) (m / 2 ^ k) := by
  have hpos : 0 < 2 ^ k := by positivity
  cases md with
  | rne =>
    have hsplit := Nat.div_add_mod' m (2 ^ k)
    have hq : (0 : ℚ) < (2 ^ k : ℕ) := by exact_mod_cast hpos
    have hlt : ((m / 2 ^ k : ℕ) : ℚ) + (m / 2 ^ k + 1 : ℕ) < 2 * (m / (2 ^ k : ℕ)) ↔ 2 ^ k < 2 * (m % 2 ^ k) := by
      rw [← mul_div_assoc, lt_div_iff₀ hq]
      norm_cast
      rw [← add_assoc, Nat.add_mul, Nat.add_mul]
      omega
    have heq : ((m / 2 ^ k : ℕ) : ℚ) + (m / 2 ^ k + 1 : ℕ) = 2 * (m / (2 ^ k : ℕ)) ↔ 2 * (m % 2 ^ k) = 2 ^ k := by
      rw [← mul_div_assoc, eq_div_iff hq.ne']
      norm_cast
      rw [← add_assoc, Nat.add_mul, Nat.add_mul]
      omega
    simp only [roundsUp, Mode.TakesUpper, Bool.or_eq_true, Bool.and_eq_true, decide_eq_true_eq, hlt, heq]
  | rtz => simp [roundsUp, Mode.TakesUpper]
  | rup => simp only [roundsUp, Mode.TakesUpper, Bool.and_eq_true, Bool.not_eq_true', decide_eq_true_eq,
      cast_div_ne_iff hpos]
  | rdn => simp only [roundsUp, Mode.TakesUpper, Bool.and_eq_true, decide_eq_true_eq,
      cast_div_ne_iff hpos]

/-- No mode leaves a number that lies on the scale. -/
theorem Mode.not_takesUpper_self {val : ℕ → ℚ} (hval : StrictMono val) (md : Mode) (neg : Bool) (n : ℕ) :
    ¬ md.TakesUpper neg val (val n) n := by
  have hlt := hval n.lt_succ_self
  intro hp
  cases md with
  | rne => rcases hp with hp | ⟨hp, -⟩ <;> linarith
  | rtz => exact hp
  | rup => exact hp.1 rfl
  | rdn => exact hp.1 rfl

/-- A number on the scale is rounded to itself. -/
theorem RoundsTo.exact {val : ℕ → ℚ} (hval : StrictMono val) (md : Mode) (neg : Bool) (n : ℕ) :
    RoundsTo val md neg (val n) n n false where
  le := le_rfl
  lt := hval n.lt_succ_self
  inexact_iff := by simp
  upper hp := absurd hp (md.not_takesUpper_self hval neg n)
  lower _ := rfl

/-- The model's shift rounds m / 2^s on the scale of the naturals. -/
theorem roundShift_roundsTo (md : Mode) (neg : Bool) (m : ℕ) (s : ℤ) :
    ∃ n, RoundsTo (fun j => (j : ℚ)) md neg (m * 2 ^ (-s)) n (roundShift md neg m s).1 (roundShift md neg m s).2 := by
  rcases le_or_gt s 0 with hs | hs
  · obtain ⟨k, rfl⟩ := Int.exists_eq_neg_ofNat hs
    have hr : roundShift md neg m (-(k : ℤ)) = (m * 2 ^ k, false) := by simp [roundShift]
    have hx : (m : ℚ) * 2 ^ (- -(k : ℤ)) = ((m * 2 ^ k : ℕ) : ℚ) := by simp
    rw [hr, hx]
    exact ⟨m * 2 ^ k, .exact Nat.strictMono_cast md neg _⟩
  · obtain ⟨k, rfl⟩ := Int.eq_ofNat_of_zero_le hs.le
    have hpos : 0 < 2 ^ k := by positivity
    have hr : roundShift md neg m k = (if roundsUp md neg (m / 2 ^ k) (m % 2 ^ k) k then m / 2 ^ k + 1 else m / 2 ^ k,
        decide (m % 2 ^ k ≠ 0)) := if_neg (not_le.mpr hs)
    have hx : (m : ℚ) * 2 ^ (-(k : ℤ)) = m / (2 ^ k : ℕ) := by simp [div_eq_mul_inv]
    rw [hr, hx]
    exact ⟨m / 2 ^ k, {
      le := Nat.cast_div_le
      lt := by
        rw [div_lt_iff₀ (by exact_mod_cast hpos)]
        rw [mul_comm]
        exact_mod_cast Nat.lt_mul_div_succ m hpos
      inexact_iff := decide_eq_true_iff.trans (cast_div_ne_iff hpos).symm
      upper := fun hp => if_pos ((roundsUp_iff_takesUpper md neg m k).mpr hp)
      lower := fun hp => if_neg (mt (roundsUp_iff_takesUpper md neg m k).mp hp) }⟩

/-- One rounding of m × 2^e to a format with its range unbounded above (R123, R133) picks a neighbour on the format's
scale. -/
theorem roundMag_roundsTo (hf : f.Ieee) (md : Mode) (neg : Bool) {m : ℕ} (hm : m ≠ 0) (e : ℤ) :
    ∃ n, RoundsTo f.magVal md neg (m * 2 ^ e) n (roundMag f md neg m e).1 (roundMag f md neg m e).2.1 := by
  obtain ⟨q, hq⟩ : ∃ q, q = max (e + bitLen m - 1 - f.mbits) f.quantum := ⟨_, rfl⟩
  obtain ⟨k, hk⟩ := Int.eq_ofNat_of_zero_le (sub_nonneg.mpr (hq ▸ le_max_right _ f.quantum))
  have hmag : (roundMag f md neg m e).1 = k * 2 ^ f.mbits + (roundShift md neg m (q - e)).1 ∧
      (roundMag f md neg m e).2.1 = (roundShift md neg m (q - e)).2 := by
    rw [← Int.toNat_natCast k, ← hk, hq]
    exact ⟨rfl, rfl⟩
  obtain ⟨n, h⟩ := roundShift_roundsTo md neg m (q - e)
  have hlen : (bitLen m : ℤ) = Nat.log2 m + 1 := by rw [bitLen, if_neg hm]; rfl
  have hlow : (2 : ℚ) ^ (Nat.log2 m : ℤ) ≤ m := by exact_mod_cast Nat.log2_self_le hm
  have hhigh : (m : ℚ) < 2 ^ ((Nat.log2 m : ℤ) + 1) := by exact_mod_cast Nat.lt_log2_self
  have hlt : n < 2 ^ (f.mbits + 1) := by
    have : (n : ℚ) < 2 ^ ((f.mbits : ℤ) + 1) := calc
      (n : ℚ) ≤ m * 2 ^ (-(q - e)) := h.le
      _ < 2 ^ ((Nat.log2 m : ℤ) + 1) * 2 ^ (-(q - e)) := by gcongr
      _ = 2 ^ ((Nat.log2 m : ℤ) + 1 + -(q - e)) := (zpow_add₀ two_ne_zero _ _).symm
      _ ≤ 2 ^ ((f.mbits : ℤ) + 1) := zpow_le_zpow_right₀ one_le_two (by omega)
    exact_mod_cast this
  have hge : k = 0 ∨ 2 ^ f.mbits ≤ n := by
    refine or_iff_not_imp_left.mpr fun hk0 => Nat.lt_succ_iff.mp ?_
    have : (2 : ℚ) ^ (f.mbits : ℤ) < (n + 1 : ℕ) := calc
      (2 : ℚ) ^ (f.mbits : ℤ) = 2 ^ ((Nat.log2 m : ℤ) + -(q - e)) := by congr 1; omega
      _ = 2 ^ (Nat.log2 m : ℤ) * 2 ^ (-(q - e)) := zpow_add₀ two_ne_zero _ _
      _ ≤ m * 2 ^ (-(q - e)) := by gcongr
      _ < (n + 1 : ℕ) := h.lt
    exact_mod_cast this
  have hx : (m : ℚ) * 2 ^ e = m * 2 ^ (-(q - e)) * 2 ^ (f.quantum + k) := by
    rw [mul_assoc, ← zpow_add₀ two_ne_zero]
    congr 2
    omega
  have heven : k * 2 ^ f.mbits % 2 = 0 := by
    rw [← Nat.sub_add_cancel hf.mbits_pos, pow_succ, ← mul_assoc, Nat.mul_mod_left]
  rw [hx, hmag.1, hmag.2]
  exact ⟨_, h.transfer (by positivity) heven (f.magVal_add hlt.le hge)
    (f.magVal_add (s := n + 1) hlt (hge.imp_right Nat.le_succ_of_le))⟩

/-! ### What the picked neighbour is -/

section
variable {val : ℕ → ℚ} {md : Mode} {neg : Bool} {x : ℚ} {n r : ℕ} {i : Bool}

/-- Rounding toward zero takes the largest number of the scale not above `x`. -/
theorem RoundsTo.le_iff_le (h : RoundsTo val md neg x n r i) (hval : StrictMono val) (hd : md.TowardZero neg) (b : ℕ) :
    val b ≤ x ↔ b ≤ r := by
  have hr : r = n := h.lower <| by
    rcases hd with rfl | ⟨rfl, rfl⟩ | ⟨rfl, rfl⟩ <;> simp [Mode.TakesUpper]
  rw [hr]
  exact ⟨fun hb => Nat.lt_succ_iff.mp (hval.lt_iff_lt.mp (hb.trans_lt h.lt)), fun hb => (hval.monotone hb).trans h.le⟩

/-- Rounding away from zero takes the least number of the scale not below `x`. -/
theorem RoundsTo.ge_iff_ge (h : RoundsTo val md neg x n r i) (hval : StrictMono val) (hu : md.AwayFromZero neg) (b : ℕ) :
    x ≤ val b ↔ r ≤ b := by
  have hup : md.TakesUpper neg val x n ↔ val n ≠ x := by
    rcases hu with ⟨rfl, rfl⟩ | ⟨rfl, rfl⟩ <;> simp [Mode.TakesUpper]
  by_cases hx : val n = x
  · rw [h.lower (by simp [hup, hx]), ← hx, hval.le_iff_le]
  · rw [h.upper (hup.mpr hx)]
    exact ⟨fun hb => hval.lt_iff_lt.mp ((h.le.lt_of_ne hx).trans_le hb), fun hb => h.lt.le.trans (hval.monotone hb)⟩

/-- The result is not `x` exactly if it is inexact. -/
theorem RoundsTo.inexact_iff_ne (h : RoundsTo val md neg x n r i) (hval : StrictMono val) :
    i = true ↔ val r ≠ x := by
  rw [h.inexact_iff]
  by_cases hp : md.TakesUpper neg val x n
  · rw [h.upper hp]
    refine iff_of_true (fun hx => ?_) h.lt.ne'
    rw [← hx] at hp
    exact md.not_takesUpper_self hval neg n hp
  · rw [h.lower hp]

/-- RNE takes a nearest number of the scale, and of two the even one. -/
theorem RoundsTo.nearest (h : RoundsTo val .rne neg x n r i) (hval : StrictMono val) (b : ℕ) :
    |x - val r| ≤ |x - val b| ∧ (b ≠ r → |x - val r| = |x - val b| → r % 2 = 0) := by
  have hle := h.le
  have hlt := h.lt
  have hb : val b ≤ val n ∧ |x - val b| = x - val b ∨ val (n + 1) ≤ val b ∧ |x - val b| = val b - x := by
    rcases Nat.lt_or_ge n b with hb | hb
    · have hv := hval.monotone hb
      exact .inr ⟨hv, by rw [abs_sub_comm, abs_of_pos (sub_pos.mpr (hlt.trans_le hv))]⟩
    · have hv := hval.monotone hb
      exact .inl ⟨hv, abs_of_nonneg (sub_nonneg.mpr (hv.trans hle))⟩
  by_cases hp : Mode.rne.TakesUpper neg val x n
  · rw [h.upper hp, abs_sub_comm x, abs_of_pos (sub_pos.mpr hlt)]
    have hmid : val n + val (n + 1) ≤ 2 * x := hp.elim le_of_lt fun hp => hp.1.le
    rcases hb with ⟨hv, hb⟩ | ⟨hv, hb⟩ <;> rw [hb]
    · refine ⟨by linarith, fun _ heq => ?_⟩
      rcases hp with hp | ⟨-, hp⟩
      · linarith
      · omega
    · exact ⟨by linarith, fun hne heq => absurd (hval.injective (sub_left_injective heq)).symm hne⟩
  · rw [h.lower hp, abs_of_nonneg (sub_nonneg.mpr hle)]
    obtain ⟨hmid, heven⟩ := not_or.mp hp
    rcases hb with ⟨hv, hb⟩ | ⟨hv, hb⟩ <;> rw [hb]
    · exact ⟨by linarith, fun hne heq => absurd (hval.injective (sub_right_injective heq)).symm hne⟩
    · refine ⟨by linarith, fun _ heq => ?_⟩
      have : val n + val (n + 1) = 2 * x := by linarith
      have := not_and.mp heven this
      omega

/-- RNE reaches an even number of the scale exactly from half-way below it on. -/
theorem RoundsTo.succ_le_iff_midpoint (h : RoundsTo val .rne neg x n r i) (hval : StrictMono val) {c : ℕ}
    (hc : c % 2 = 1) : c + 1 ≤ r ↔ val c + val (c + 1) ≤ 2 * x := by
  have hstep := hval c.lt_succ_self
  have hr : n ≤ r ∧ r ≤ n + 1 := by
    by_cases hp : Mode.rne.TakesUpper neg val x n
    · rw [h.upper hp]; omega
    · rw [h.lower hp]; omega
  rcases lt_trichotomy n c with hn | rfl | hn
  · have hv := h.lt.trans_le (hval.monotone hn)
    exact iff_of_false (by omega) (by linarith)
  · have hup : Mode.rne.TakesUpper neg val x n ↔ val n + val (n + 1) ≤ 2 * x := by
      simp only [Mode.TakesUpper, hc, and_true, le_iff_lt_or_eq]
    rw [← hup]
    exact ⟨fun hle => by_contra fun hp => by have := h.lower hp; omega, fun hp => (h.upper hp).ge⟩
  · have hv := (hval.monotone hn).trans h.le
    exact iff_of_true (by omega) (by linarith)

end

/-! ### The result with its sign, its overflow and its flags (R132, R134) -/

/-- What `roundFin` answers, by the bits that one rounding gives in the unbounded range: below infinity those bits, from
infinity on F if the mode rounds toward zero, else infinity. -/
inductive RoundFinCase (f : Fmt) (md : Mode) (neg : Bool) (r : ℕ) (i : Bool) : ℕ → Bool → Bool → Prop where
  | finite : r < f.infBits → RoundFinCase f md neg r i r false i
  | largest : f.infBits ≤ r → md.TowardZero neg → RoundFinCase f md neg r i f.maxBits true true
  | infinite : f.infBits ≤ r → ¬ md.TowardZero neg → RoundFinCase f md neg r i f.infBits true true

theorem flags_of_finite (i t : Bool) :
    (flagIf i NX ||| flagIf t UF).getLsbD 2 = false ∧ (flagIf i NX ||| flagIf t UF).getLsbD 4 = i := by
  cases i <;> cases t <;> decide

theorem flags_of_overflow : (OF ||| NX).getLsbD 2 = true ∧ (OF ||| NX).getLsbD 4 = true := by decide

/-- The magnitude that `roundFin` answers lies beside the sign; it and the flags OF and NX are as `RoundFinCase` says. -/
theorem roundFin_case (f : Fmt) (md : Mode) (neg : Bool) (m : ℕ) (e : ℤ) :
    ∃ a, (roundFin f md neg m e).1 = zeroOf f neg + a ∧
      RoundFinCase f md neg (roundMag f md neg m e).1 (roundMag f md neg m e).2.1 a
        ((roundFin f md neg m e).2.getLsbD 2) ((roundFin f md neg m e).2.getLsbD 4) := by
  rcases Nat.lt_or_ge (roundMag f md neg m e).1 f.infBits with h | h
  · have hfin : roundFin f md neg m e = (zeroOf f neg + (roundMag f md neg m e).1, _) := if_neg h.not_ge
    rw [hfin, (flags_of_finite _ _).1, (flags_of_finite _ _).2]
    exact ⟨_, rfl, .finite h⟩
  · by_cases hz : md.TowardZero neg
    · have hfin : roundFin f md neg m e = (zeroOf f neg + f.maxBits, OF ||| NX) := by
        rcases hz with rfl | ⟨rfl, rfl⟩ | ⟨rfl, rfl⟩ <;> exact if_pos h
      rw [hfin, flags_of_overflow.1, flags_of_overflow.2]
      exact ⟨_, rfl, .largest h hz⟩
    · have hfin : roundFin f md neg m e = (zeroOf f neg + f.infBits, OF ||| NX) := by
        rcases (md.not_towardZero_iff neg).mp hz with (⟨rfl, rfl⟩ | ⟨rfl, rfl⟩) | rfl <;> exact if_pos h
      rw [hfin, flags_of_overflow.1, flags_of_overflow.2]
      exact ⟨_, rfl, .infinite h hz⟩

section
variable {md : Mode} {neg : Bool} {x : ℚ} {n r a : ℕ} {i ov nx : Bool}

theorem RoundFinCase.le_infBits (hc : RoundFinCase f md neg r i a ov nx) : a ≤ f.infBits := by
  cases hc with
  | finite h => exact h.le
  | largest => exact Nat.sub_le _ _
  | infinite => exact le_rfl

/-- Toward zero: the largest finite value not above `x`, with OF from 2^(emax+1) on. -/
theorem RoundFinCase.towardZero (hc : RoundFinCase f md neg r i a ov nx) (hf : f.Ieee)
    (h : RoundsTo f.magVal md neg x n r i) (hd : md.TowardZero neg) :
    a < f.infBits ∧ (∀ b, b < f.infBits → (f.magVal b ≤ x ↔ b ≤ a)) ∧
      (ov = true ↔ (2 : ℚ) ^ ((f.bias : ℤ) + 1) ≤ x) := by
  have hle := h.le_iff_le f.magVal_strictMono hd
  rw [← hf.magVal_infBits, hle]
  cases hc with
  | finite hr => exact ⟨hr, fun b _ => hle b, iff_of_false Bool.false_ne_true hr.not_ge⟩
  | largest hr =>
    have hmax := hf.maxBits_succ
    exact ⟨by omega, fun b hb => (hle b).trans (by omega), iff_of_true rfl hr⟩
  | infinite _ hz => exact absurd hd hz

/-- Away from zero: the least value, or infinity, not below `x`, with OF for infinity. -/
theorem RoundFinCase.awayFromZero (hc : RoundFinCase f md neg r i a ov nx)
    (h : RoundsTo f.magVal md neg x n r i) (hu : md.AwayFromZero neg) :
    (∀ b, b < f.infBits → (x ≤ f.magVal b ↔ a ≤ b)) ∧ (ov = true ↔ a = f.infBits) := by
  have hge := h.ge_iff_ge f.magVal_strictMono hu
  cases hc with
  | finite hr => exact ⟨fun b _ => hge b, iff_of_false Bool.false_ne_true hr.ne⟩
  | largest _ hz => exact absurd hz ((md.not_towardZero_iff neg).mpr (.inl hu))
  | infinite hr => exact ⟨fun b hb => (hge b).trans (by omega), iff_of_true rfl rfl⟩

/-- To nearest: infinity, with OF, from half-way between F and 2^(emax+1) on. -/
theorem RoundFinCase.nearest_overflow (hc : RoundFinCase f .rne neg r i a ov nx) (hf : f.Ieee)
    (h : RoundsTo f.magVal .rne neg x n r i) :
    (a = f.infBits ↔ (2 : ℚ) ^ ((f.bias : ℤ) + 1) - 2 ^ ((f.bias : ℤ) - f.mbits - 1) ≤ x) ∧
      (ov = true ↔ a = f.infBits) := by
  have hodd : f.maxBits % 2 = 1 := by
    have := hf.even_infBits
    have := hf.maxBits_succ
    omega
  have hmid := h.succ_le_iff_midpoint f.magVal_strictMono hodd
  rw [hf.maxBits_succ, hf.magVal_infBits, hf.magVal_maxBits] at hmid
  have hhalf : (2 : ℚ) ^ ((f.bias : ℤ) - f.mbits) = 2 * 2 ^ ((f.bias : ℤ) - f.mbits - 1) := by
    rw [← zpow_one_add₀ two_ne_zero]
    congr 1
    ring
  have hinf : (2 : ℚ) ^ ((f.bias : ℤ) + 1) - 2 ^ ((f.bias : ℤ) - f.mbits - 1) ≤ x ↔ f.infBits ≤ r := by
    rw [hmid, hhalf]
    constructor <;> intro hx <;> linarith
  rw [hinf]
  cases hc with
  | finite hr => exact ⟨iff_of_false hr.ne hr.not_ge, iff_of_false Bool.false_ne_true hr.ne⟩
  | largest _ hz => exact absurd hz ((Mode.not_towardZero_iff _ neg).mpr (.inr rfl))
  | infinite hr => exact ⟨iff_of_true rfl hr, iff_of_true rfl rfl⟩

/-- To nearest below infinity: a nearest finite value, the even one of two. -/
theorem RoundFinCase.nearest_finite (hc : RoundFinCase f .rne neg r i a ov nx)
    (h : RoundsTo f.magVal .rne neg x n r i) (ha : a < f.infBits) (b : ℕ) :
    |x - f.magVal a| ≤ |x - f.magVal b| ∧
      (b ≠ a → |x - f.magVal a| = |x - f.magVal b| → a % 2 = 0) := by
  cases hc with
  | finite => exact h.nearest f.magVal_strictMono b
  | largest _ hz => exact absurd hz ((Mode.not_towardZero_iff _ neg).mpr (.inr rfl))
  | infinite => exact absurd rfl ha.ne

/-- NX is raised exactly if the result is infinity or another number than `x`. -/
theorem RoundFinCase.inexact_iff (hc : RoundFinCase f md neg r i a ov nx) (hf : f.Ieee)
    (h : RoundsTo f.magVal md neg x n r i) : nx = true ↔ a = f.infBits ∨ f.magVal a ≠ x := by
  cases hc with
  | finite hr => rw [h.inexact_iff_ne f.magVal_strictMono, or_iff_right hr.ne]
  | largest hr hz =>
    have hlt : f.magVal f.maxBits < f.magVal f.infBits :=
      f.magVal_strictMono (Nat.sub_lt hf.infBits_pos one_pos)
    exact iff_of_true rfl (.inr (hlt.trans_le ((h.le_iff_le f.magVal_strictMono hz _).mpr hr)).ne)
  | infinite => exact iff_of_true rfl (.inl rfl)

end

/-- `roundFin` puts the sign above the magnitude, and magnitude and flags are those of its case. -/
theorem roundFin_sign_and_magnitude (hf : f.Ieee) (md : Mode) (neg : Bool) (m : ℕ) (e : ℤ) :
    (roundFin f md neg m e).1 / f.signBit = (if neg then 1 else 0) ∧
      RoundFinCase f md neg (roundMag f md neg m e).1 (roundMag f md neg m e).2.1
        ((roundFin f md neg m e).1 % f.signBit)
        ((roundFin f md neg m e).2.getLsbD 2) ((roundFin f md neg m e).2.getLsbD 4) := by
  obtain ⟨a, hfst, hc⟩ := roundFin_case f md neg m e
  have ha : a < f.signBit := hc.le_infBits.trans_lt hf.infBits_lt_signBit
  have hsign : zeroOf f neg = f.signBit * (if neg then 1 else 0) := by cases neg <;> simp [zeroOf]
  rw [hfst, hsign, Nat.mul_add_mod, Nat.mod_eq_of_lt ha, Nat.mul_add_div (by omega), Nat.div_eq_of_lt ha]
  exact ⟨rfl, hc⟩

/-- Settles O58: the rounded bits in the unbounded range are a neighbour of the exact number, and each clause follows
from the case of `roundFin` that they select. -/
theorem roundingIsCorrect : Obligations.RoundingIsCorrect := by
  unfold Obligations.RoundingIsCorrect
  intro val f hmem m e hm x mag flag down up
  have hf := ieee_of_mem hmem
  have hval : ∀ b, b < f.infBits → val f b = f.magVal b := fun b => f.ofBits_eq_magVal
  have hround : ∀ md neg, ∃ n, RoundsTo f.magVal md neg x n (roundMag f md neg m e).1 (roundMag f md neg m e).2.1 :=
    fun md neg => roundMag_roundsTo hf md neg hm e
  have hcase : ∀ md neg, RoundFinCase f md neg (roundMag f md neg m e).1 (roundMag f md neg m e).2.1 (mag md neg)
      (flag md neg 2) (flag md neg 4) := fun md neg => (roundFin_sign_and_magnitude hf md neg m e).2
  refine ⟨fun md neg => (roundFin_sign_and_magnitude hf md neg m e).1, fun md neg hd => ?toward,
    fun md neg hu => ?away, fun neg => ?nearest, fun md neg => ?inexact⟩
  case toward =>
    obtain ⟨n, h⟩ := hround md neg
    obtain ⟨hlt, hle, hov⟩ := (hcase md neg).towardZero hf h hd
    exact ⟨hlt, fun b hb => hval b hb ▸ hle b hb, hov⟩
  case away =>
    obtain ⟨n, h⟩ := hround md neg
    obtain ⟨hge, hov⟩ := (hcase md neg).awayFromZero h hu
    exact ⟨(hcase md neg).le_infBits, fun b hb => hval b hb ▸ hge b hb, hov⟩
  case nearest =>
    obtain ⟨n, h⟩ := hround .rne neg
    obtain ⟨hinf, hov⟩ := (hcase .rne neg).nearest_overflow hf h
    refine ⟨(hcase .rne neg).le_infBits, hinf, hov, fun hlt b hb => ?_⟩
    rw [hval _ hlt, hval b hb]
    exact (hcase .rne neg).nearest_finite h hlt b
  case inexact =>
    obtain ⟨n, h⟩ := hround md neg
    rw [(hcase md neg).inexact_iff hf h]
    exact or_congr_right' fun hne => by rw [hval _ ((hcase md neg).le_infBits.lt_of_ne hne)]

end Sys2Proof.Num
end

section
/-!
PROOFS of 06_numbers: NaNs, infinities and zeros in sums and products, and the range of a conversion to an integer (R124, R126).
-/

namespace Sys2Proof.Num

/-! ### NaNs, infinities and zeros in sums and products (R124, R167) -/

variable (f : Fmt) (md : Mode)

/-- The invalid flag of two operands is that of a signalling one. -/
theorem snanFlag_pair (a b : FVal) : snanFlag [a, b] = if a.isSnan || b.isSnan then NV else 0 := by
  simp [snanFlag, flagIf]

theorem addV_nan {a b : FVal} (h : a.isNan = true ∨ b.isNan = true) :
    addV f md a b = (f.nanBits, if a.isSnan || b.isSnan then NV else 0) := by
  unfold addV
  rw [if_pos (Bool.or_eq_true_iff.mpr h), snanFlag_pair]

theorem mulV_nan {a b : FVal} (h : a.isNan = true ∨ b.isNan = true) :
    mulV f md a b = (f.nanBits, if a.isSnan || b.isSnan then NV else 0) := by
  rw [mulV, if_pos (Bool.or_eq_true_iff.mpr h), snanFlag_pair]

theorem addV_inf_opposite (n : Bool) : addV f md (.inf n) (.inf (!n)) = (f.nanBits, NV) := by
  cases n <;> rfl

theorem addV_inf_left {n : Bool} {z : FVal} (hnan : z.isNan = false) (hz : z ≠ .inf (!n)) :
    addV f md (.inf n) z = (infOf f n, 0) := by
  cases z with
  | nan s => cases hnan
  | inf m =>
    have same : n = m := by
      by_contra hne
      exact hz (congrArg FVal.inf (Bool.eq_not.mpr (Ne.symm hne)))
    subst same
    simp [addV, FVal.isNan]
  | fin m a e => rfl

/-- A zero is a finite value of magnitude 0. -/
theorem FVal.eq_fin_of_isZero {z : FVal} (h : z.isZero = true) : ∃ n e, z = .fin n 0 e := by
  cases z with
  | fin n m e => exact ⟨n, e, by rw [eq_of_beq h]⟩
  | nan s => cases h
  | inf n => cases h

theorem mulV_inf_zero (n : Bool) {z : FVal} (h : z.isZero = true) :
    mulV f md (.inf n) z = (f.nanBits, NV) ∧ mulV f md z (.inf n) = (f.nanBits, NV) := by
  obtain ⟨m, e, rfl⟩ := FVal.eq_fin_of_isZero h
  exact ⟨rfl, rfl⟩

/-- An invalid product is NaN with NV whatever is added to it. -/
theorem fmaV_inf_zero (n : Bool) {z : FVal} (h : z.isZero = true) (c : FVal) :
    fmaV f md (.inf n) z c = (f.nanBits, NV) ∧ fmaV f md z (.inf n) c = (f.nanBits, NV) := by
  obtain ⟨m, e, rfl⟩ := FVal.eq_fin_of_isZero h
  have flags (a b : FVal) : snanFlag [a, b, c] ||| flagIf true NV = NV := by
    rw [snanFlag]
    cases [a, b, c].any FVal.isSnan <;> rfl
  constructor <;> simp [fmaV, FVal.isNan, FVal.isZero, FVal.isInf, flags]

/-- A sum that is exactly zero has the sign of R167. -/
theorem addV_zero {n p : Bool} {i j : Nat} {k l : Int} (h : (Dy.add (FVal.fin n i k).dy (FVal.fin p j l).dy).m = 0) :
    addV f md (.fin n i k) (.fin p j l) =
      (zeroOf f (if i = 0 ∧ j = 0 ∧ n = p then n else decide (md = .rdn)), 0) := by
  simp [addV, FVal.isNan, roundDy, h, zeroSumNeg, FVal.isZero, FVal.neg, and_assoc]

/-! ### Integers of 64 bits (R126) -/

theorem toInt_mem_range (a : FVal) : -2 ^ 63 ≤ (toInt md 64 a).1 ∧ (toInt md 64 a).1 ≤ 2 ^ 63 - 1 := by
  cases a with
  | nan s => simp [toInt]
  | inf n => cases n <;> simp [toInt]
  | fin n m e =>
    simp only [toInt]
    split_ifs <;> dsimp only <;> omega

end Sys2Proof.Num
end

section
/-!
PROOFS of 08_seq_scalar: the scalar units `x0` and `x1` (R161-R168).
-/

namespace Sys2Proof.Machine

/-! ### Integer results in the terms of R165 -/

/-- A Boolean result is 1 where its condition holds. -/
theorem bit01_decide (p : Prop) [Decidable p] : bit01 (decide p) = if p then 1 else 0 := by
  by_cases h : p <;> simp [bit01, h]

theorem rorW_eq_rotateRight (o t : Word) : rorW o t = o.rotateRight (t.toNat % 64) := by
  rw [rorW, BitVec.rotateRight_def, Nat.mod_mod]

theorem selW_eq_ite (o p t : Word) : selW o p t = if t ≠ 0 then o else p := by
  rw [selW, ite_not]
  rfl

/-- The items of a range before the first that fails. -/
theorem length_takeWhile_range {p : Nat → Bool} {n k : Nat} (hk : k ≤ n) (hlt : ∀ i < k, p i = true)
    (hstop : k < n → p k = false) : ((List.range n).takeWhile p).length = k := by
  obtain ⟨m, rfl⟩ := Nat.exists_eq_add_of_le hk
  rw [List.range_add, List.takeWhile_append_of_pos (by simpa using hlt)]
  cases m with
  | zero => simp
  | succ m => simp [List.range_succ_eq_map, hstop (by omega)]

/-- The zeros above the leading bit of a word are those above its length (R165). -/
theorem length_takeWhile_leadingZeros (t : Word) :
    ((List.range 64).takeWhile fun i => !t.getLsbD (63 - i)).length = 64 - Num.bitLen t.toNat := by
  by_cases ht : t.toNat = 0
  · have hzero : t = 0#64 := BitVec.eq_of_toNat_eq ht
    exact length_takeWhile_range (by omega) (by simp [hzero]) (by simp [Num.bitLen, ht])
  · have hlen : Num.bitLen t.toNat = t.toNat.log2 + 1 := by rw [Num.bitLen, if_neg ht]
    have hlog : t.toNat.log2 < 64 := (Nat.log2_lt ht).mpr t.isLt
    refine length_takeWhile_range (by omega) (fun i hi => ?_) fun _ => ?_
    · have above : t.toNat < 2 ^ (63 - i) := (Nat.log2_lt ht).mp (by omega)
      rw [BitVec.getLsbD, Nat.testBit_lt_two_pow above]
      rfl
    · rw [BitVec.getLsbD, show 63 - (64 - Num.bitLen t.toNat) = t.toNat.log2 by omega, Nat.testBit_log2 ht]
      rfl

theorem popcW_eq_countP (t : Word) : popcW t = BitVec.ofNat 64 ((List.range 64).countP fun i => t.getLsbD i) := by
  rw [popcW, List.countP_eq_length_filter]

theorem bitsOf_shift (o : Word) (pos wid : Nat) : bitsOf o.toNat pos wid = (o >>> pos).toNat % 2 ^ wid := by
  rw [bitsOf, BitVec.toNat_ushiftRight, Nat.shiftRight_eq_div_pow]

theorem bfxW_eq_mod (o t : Word) : bfxW o t =
    if t.toNat / 64 % 128 = 0 ∨ 64 < t.toNat / 64 % 128 then 0#64
    else BitVec.ofNat 64 ((o >>> (t.toNat % 64)).toNat % 2 ^ (t.toNat / 64 % 128)) := by
  rw [← bitsOf_shift]
  rfl

theorem clzW_eq_takeWhile (t : Word) :
    clzW t = BitVec.ofNat 64 ((List.range 64).takeWhile fun i => !t.getLsbD (63 - i)).length := by
  rw [clzW, length_takeWhile_leadingZeros]

theorem sxtW_eq_signExtend (o t : Word) : sxtW o t = (o.setWidth (t.toNat % 64 + 1)).signExtend 64 := by
  rw [sxtW, BitVec.ofNat_toNat, BitVec.signExtend]

/-! ### Products, quotients and remainders (R166) -/

theorem remS64_eq_tmod (o t : Word) : remS64 o t =
    if t = 0#64 then o
    else if o = 0x8000000000000000#64 ∧ t.toInt = -1 then 0#64
    else BitVec.ofInt 64 (o.toInt.tmod t.toInt) := by
  rw [remS64, Int.tmod_def]

theorem mulW_eq_ofInt (o t : Word) : mulW o t = BitVec.ofInt 64 (o.toInt * t.toInt) := by
  rw [mulW, BitVec.ofInt_mul, BitVec.ofInt_toInt, BitVec.ofInt_toInt]

theorem mulhS64_toInt (o t : Word) : (mulhS64 o t).toInt = o.toInt * t.toInt / 2 ^ 64 := by
  have lower : -2 ^ 126 ≤ o.toInt * t.toInt := BitVec.le_toInt_mul_toInt
  have upper : o.toInt * t.toInt ≤ 2 ^ 126 := BitVec.toInt_mul_toInt_le
  exact BitVec.toInt_ofInt_eq_self (by decide) (by omega) (by omega)

theorem mulhN64_toNat (o t : Word) : (mulhN64 o t).toNat = o.toNat * t.toNat / 2 ^ 64 := by
  have bound : o.toNat * t.toNat < 2 ^ 64 * 2 ^ 64 := Nat.mul_lt_mul'' o.isLt t.isLt
  rw [mulhN64, BitVec.toNat_ofNat]
  omega

/-- The words of a quotient and a remainder put a dividend together again. -/
theorem ofInt_div_mod {o t : Word} {q r : Int} (h : q * t.toInt + r = o.toInt) :
    BitVec.ofInt 64 q * t + BitVec.ofInt 64 r = o := by
  calc BitVec.ofInt 64 q * t + BitVec.ofInt 64 r
      = BitVec.ofInt 64 (q * t.toInt + r) := by rw [BitVec.ofInt_add, BitVec.ofInt_mul, BitVec.ofInt_toInt]
    _ = o := by rw [h, BitVec.ofInt_toInt]

theorem divS64_mul_add_remS64 (o t : Word) : divS64 o t * t + remS64 o t = o := by
  rw [divS64, remS64_eq_tmod]
  split_ifs with hzero hmin
  · simp [hzero]
  · obtain ⟨ho, ht⟩ := hmin
    have hone : t = BitVec.ofInt 64 (-1) := by rw [← ht, BitVec.ofInt_toInt]
    rw [ho, hone]
    decide
  · exact ofInt_div_mod (Int.tdiv_mul_add_tmod ..)

theorem divN64_mul_add_remN64 (o t : Word) : divN64 o t * t + remN64 o t = o := by
  rw [divN64, remN64]
  split_ifs with hzero
  · simp [hzero]
  · apply BitVec.eq_of_toNat_eq
    simp [Nat.div_add_mod', Nat.mod_eq_of_lt o.isLt]

theorem remN64_lt (o : Word) {t : Word} (h : t ≠ 0#64) : (remN64 o t).toNat < t.toNat := by
  have hpos : 0 < t.toNat := Nat.pos_of_ne_zero fun h0 => h (BitVec.eq_of_toNat_eq h0)
  rw [remN64, if_neg h, BitVec.toNat_ofNat]
  exact (Nat.mod_le ..).trans_lt (Nat.mod_lt _ hpos)

theorem remS64_natAbs_lt (o : Word) {t : Word} (h : t ≠ 0#64) : (remS64 o t).toInt.natAbs < t.toInt.natAbs := by
  have hpos : 0 < t.toInt.natAbs := Int.natAbs_pos.mpr fun h0 => h (BitVec.eq_of_toInt_eq h0)
  have below : (o.toInt.tmod t.toInt).natAbs < t.toInt.natAbs := by
    rw [Int.natAbs_tmod]
    exact Nat.mod_lt _ hpos
  have lower := t.le_toInt
  have upper := t.toInt_lt
  rw [remS64_eq_tmod, if_neg h]
  split_ifs
  · exact hpos
  · rwa [BitVec.toInt_ofInt_eq_self (by decide) (by omega) (by omega)]

/-! ### From an operation to the claim about its trigger -/

section
variable {u : Unit11} {d : Nat} {us : Uses} {i i0 i1 : Src → Guard → Instr} {body : Opnds → State → MoveR}
  {P : Opnds → State → Prop}

/-- A trigger completes as its operation does. -/
theorem completesIf_of_op {k : Opnds → State → State} (run : ∀ a g s, exec (i a g) s = trigger u d us body a g s)
    (hop : ∀ x s, P x s → body x s = .ok (k x s)) : completesIf u d us i P k := by
  intro a g s hfires hP
  rw [run, trigger_fires hfires, hop _ _ hP, finish_ok]

/-- A trigger traps as its operation does. -/
theorem trapsIf_of_op {cause : Byte} {info : Opnds → Nat} (run : ∀ a g s, exec (i a g) s = trigger u d us body a g s)
    (hop : ∀ x s, P x s → body x s = .trap cause 5 (info x)) : trapsIf u d us i P cause info := by
  intro a g s hfires hP
  rw [run, trigger_fires hfires, hop _ _ hP]

/-- Two triggers of an integer operation whose results are those of `f`. -/
theorem bothUnits_of_intOp {lat : Nat} {op f : Word → Word → Word → Word} (value : ∀ o p t, op o p t = f o p t)
    (run0 : ∀ a g s, exec (i0 a g) s = trigger .x0 d us (intOp .x0q lat op) a g s := by intros; rfl)
    (run1 : ∀ a g s, exec (i1 a g) s = trigger .x1 (d + 0x40) us (intOp .x1q lat op) a g s := by intros; rfl) :
    bothUnits d us i0 i1 lat f := by
  have result (q : Port) (x : Opnds) (s : State) :
      intOp q lat op x s = .ok (x.put q lat (f x.o.word x.p.word x.t.word) 0#6 s) := by
    rw [intOp, value, Opnds.put]
  exact ⟨completesIf_of_op run0 fun x s _ => result .x0q x s, completesIf_of_op run1 fun x s _ => result .x1q x s⟩

/-- Two triggers of a floating-point operation whose results and flags are those of `f`. -/
theorem bothUnitsF_of_fpOp {lat : Nat} {op f : Num.Mode → Word → Word → Word → Word × Num.Flags}
    (value : ∀ md o p t, op md o p t = f md o p t)
    (run0 : ∀ a g s, exec (i0 a g) s = trigger .x0 d us (fpOp .x0q lat op) a g s := by intros; rfl)
    (run1 : ∀ a g s, exec (i1 a g) s = trigger .x1 (d + 0x40) us (fpOp .x1q lat op) a g s := by intros; rfl) :
    bothUnitsF d us i0 i1 lat f := by
  have result (q : Port) (x : Opnds) (s : State) : fpOp q lat op x s =
      .ok (x.put q lat (f s.me.mode x.o.word x.p.word x.t.word).1 (f s.me.mode x.o.word x.p.word x.t.word).2 s) := by
    simp only [fpOp, value, Opnds.put]
  exact ⟨completesIf_of_op run0 fun x s _ => result .x0q x s, completesIf_of_op run1 fun x s _ => result .x1q x s⟩

end

/-- Settles O7: each row's operation is the stated function of its operands, by its definition or by the lemma that says so. -/
theorem integerOperations : Obligations.IntegerOperations := by
  unfold Obligations.IntegerOperations
  refine ⟨bothUnits_of_intOp fun _ _ _ => rfl, bothUnits_of_intOp fun _ _ _ => rfl, bothUnits_of_intOp fun _ _ _ => rfl,
    bothUnits_of_intOp fun _ _ _ => rfl, bothUnits_of_intOp fun _ _ _ => rfl, bothUnits_of_intOp fun _ _ _ => rfl,
    bothUnits_of_intOp fun _ _ _ => rfl, bothUnits_of_intOp fun _ _ _ => rfl, ?ror, ?ceq, ?cltS, ?cltN, ?sel,
    bothUnits_of_intOp fun _ _ _ => rfl, bothUnits_of_intOp fun _ _ _ => rfl, ?clz, ?popc, ?bfx, ?sxt⟩
  case ror => exact bothUnits_of_intOp fun o _ t => rorW_eq_rotateRight o t
  case ceq => exact bothUnits_of_intOp fun o _ t => bit01_decide (o = t)
  case cltS => exact bothUnits_of_intOp fun o _ t => bit01_decide (o.toInt < t.toInt)
  case cltN => exact bothUnits_of_intOp fun o _ t => bit01_decide (o.toNat < t.toNat)
  case sel => exact bothUnits_of_intOp selW_eq_ite
  case clz => exact bothUnits_of_intOp fun _ _ t => clzW_eq_takeWhile t
  case popc => exact bothUnits_of_intOp fun _ _ t => popcW_eq_countP t
  case bfx => exact bothUnits_of_intOp fun o _ t => bfxW_eq_mod o t
  case sxt => exact bothUnits_of_intOp fun o _ t => sxtW_eq_signExtend o t

/-- Settles O8: each operation is the stated function by its definition, and the signed remainder is `Int.tmod`. -/
theorem multiplyAndDivide : Obligations.MultiplyAndDivide := by
  unfold Obligations.MultiplyAndDivide
  exact ⟨bothUnits_of_intOp fun _ _ _ => rfl, bothUnits_of_intOp fun _ _ _ => rfl, bothUnits_of_intOp fun _ _ _ => rfl,
    bothUnits_of_intOp fun _ _ _ => rfl, bothUnits_of_intOp fun _ _ _ => rfl,
    bothUnits_of_intOp fun o _ t => remS64_eq_tmod o t, bothUnits_of_intOp fun _ _ _ => rfl⟩

/-- Settles O9: each half of a product is its quotient or remainder by 2^64, and so the halves make the product again; quotient and
remainder by the lemmas above. -/
theorem productsAndQuotientsAreExact : Obligations.ProductsAndQuotientsAreExact := by
  unfold Obligations.ProductsAndQuotientsAreExact
  refine ⟨fun o t => ?_, fun o t => ?_, divS64_mul_add_remS64, divN64_mul_add_remN64,
    fun o _ => remN64_lt o, fun o _ => remS64_natAbs_lt o⟩
  · have low : ((mulW o t).toNat : Int) = o.toInt * t.toInt % 2 ^ 64 := by
      rw [mulW_eq_ofInt, BitVec.toNat_ofInt, Int.toNat_of_nonneg (Int.emod_nonneg _ (by decide))]
      rfl
    rw [mulhS64_toInt, low, Int.ediv_mul_add_emod]
  · rw [mulhN64_toNat, mulW, BitVec.toNat_mul, Nat.div_add_mod']

/-- Settles O10: each trigger's operation is the stated function by its definition, and the special values are those of the lemmas
on sums, products and conversions. -/
theorem scalarFloatOperations : Obligations.ScalarFloatOperations := by
  unfold Obligations.ScalarFloatOperations
  refine ⟨bothUnitsF_of_fpOp fun _ _ _ _ => rfl, bothUnitsF_of_fpOp fun _ _ _ _ => rfl, bothUnitsF_of_fpOp fun _ _ _ _ => rfl,
    bothUnitsF_of_fpOp fun _ _ _ _ => rfl, bothUnitsF_of_fpOp fun _ _ _ _ => rfl,
    bothUnitsF_of_fpOp fun _ _ _ _ => rfl, fun md a b h => ⟨Num.addV_nan _ md h, Num.mulV_nan _ md h⟩,
    fun md n z hz => ⟨Num.addV_inf_opposite _ md n, Num.addV_inf_left _ md hz, fun h0 => ?_⟩,
    fun md n p i j k l h => Num.addV_zero _ md h, fun md s n => ⟨rfl, rfl⟩, fun md a => Num.toInt_mem_range md a⟩
  obtain ⟨right, left⟩ := Num.mulV_inf_zero Num.fp32 md n h0
  exact ⟨right, left, Num.fmaV_inf_zero _ md n h0⟩

/-! ### Context registers (R161-R163, R168) -/

/-- A number that `crd` and `cwr` may name in the mode they run in (R161). -/
def Opnds.mayAccess (x : Opnds) (s : State) : Prop :=
  x.t.word.toNat < 8 ∨ 0x10 ≤ x.t.word.toNat ∧ x.t.word.toNat < 0x19 ∧ (s.sup = true ∨ s.me.emu = true)

theorem regFault_reserved {c : Ctx} {sup : Bool} {t : Word} (h : 8 ≤ t.toNat ∧ t.toNat < 0x10 ∨ 0x19 ≤ t.toNat) :
    regFault c sup t = some 0x09 := by
  have unassigned : (!(decide (t.toNat < 8) || decide (0x10 ≤ t.toNat ∧ t.toNat < 0x19))) = true := by
    rw [Bool.not_eq_true', Bool.or_eq_false_iff, decide_eq_false_iff_not, decide_eq_false_iff_not]
    omega
  exact if_pos unassigned

theorem regFault_locked {c : Ctx} {sup : Bool} {t : Word}
    (h : 0x10 ≤ t.toNat ∧ t.toNat < 0x19 ∧ sup = false ∧ c.emu = false) : regFault c sup t = some 0x05 := by
  obtain ⟨hlo, hhi, hsup, hemu⟩ := h
  simp [regFault, hlo, hhi, hsup, hemu]

theorem regFault_none {x : Opnds} {s : State} (h : x.mayAccess s) : regFault s.me s.sup x.t.word = none := by
  obtain hlow | ⟨hlo, hhi, hmode⟩ := h
  · simp [regFault, hlow, show ¬0x10 ≤ x.t.word.toNat by omega]
  · obtain hsup | hemu := hmode
    · simp [regFault, hlo, hhi, hsup]
    · simp [regFault, hlo, hhi, hemu]

/-- Taint beyond the operand's is set for `ctx.id` and `ctx.nrg` alone (R161). -/
theorem readReg_taint (s : State) (n : Nat) : (s.readReg n).2 = decide (n = 4 ∨ n = 7) := by
  unfold State.readReg
  split <;> simp_all

theorem crdOp_reads (q : Port) {x : Opnds} {s : State} (h : x.mayAccess s) :
    crdOp q x s = .ok (s.land q 1 (.scalar (s.readReg x.t.word.toNat).1 x.tag
      (x.taint || decide (x.t.word.toNat = 4 ∨ x.t.word.toNat = 7))) 0#6) := by
  rw [crdOp, regFault_none h, ← readReg_taint s]

theorem crdOp_fault (q : Port) {x : Opnds} {s : State} {c : Byte} (h : regFault s.me s.sup x.t.word = some c) :
    crdOp q x s = .trap c 5 0 := by
  rw [crdOp, h]
  rfl

theorem cwrOp_writes {x : Opnds} {s : State} (h : x.mayAccess s) (htret : x.t.word ≠ 0x18#64) :
    cwrOp x s = .ok (s.landAt (.ctxReg x.t.word.toNat) (.scalar x.o.word x.tag x.taint)) := by
  rw [cwrOp, regFault_none h]
  exact if_neg htret

theorem cwrOp_fault {x : Opnds} {s : State} {c : Byte} (h : regFault s.me s.sup x.t.word = some c) :
    cwrOp x s = .trap c 5 0 := by
  rw [cwrOp, h]
  rfl

/-- Settles O11: a number that may be named has no fault, and each fault is that of the number or of the mode. -/
theorem contextRegisterAccess : Obligations.ContextRegisterAccess := by
  unfold Obligations.ContextRegisterAccess
  intro may read write reserved locked
  have crd (u : Unit11) (d : Nat) (q : Port) (i : Src → Guard → Instr)
      (run : ∀ a g s, exec (i a g) s = trigger u d .t (crdOp q) a g s) :
      completesIf u d .t i may (read q) ∧ trapsIf u d .t i reserved 0x09 (fun _ => 0) ∧
        trapsIf u d .t i locked 0x05 (fun _ => 0) :=
    ⟨completesIf_of_op run fun x s h => crdOp_reads q h, trapsIf_of_op run fun x s h => crdOp_fault q (regFault_reserved h),
      trapsIf_of_op run fun x s h => crdOp_fault q (regFault_locked h)⟩
  have cwr (u : Unit11) (d : Nat) (i : Src → Guard → Instr) (run : ∀ a g s, exec (i a g) s = trigger u d .ot cwrOp a g s) :
      completesIf u d .ot i (fun x s => may x s ∧ x.t.word ≠ 0x18) write ∧ trapsIf u d .ot i reserved 0x09 (fun _ => 0) ∧
        trapsIf u d .ot i locked 0x05 (fun _ => 0) :=
    ⟨completesIf_of_op run fun x s ⟨hmay, htret⟩ => cwrOp_writes hmay htret,
      trapsIf_of_op run fun x s h => cwrOp_fault (regFault_reserved h), trapsIf_of_op run fun x s h => cwrOp_fault (regFault_locked h)⟩
  obtain ⟨crd0, reserved0, locked0⟩ := crd .x0 0x0A2 .x0q .x0Crd fun _ _ _ => rfl
  obtain ⟨crd1, reserved1, locked1⟩ := crd .x1 0x0E2 .x1q .x1Crd fun _ _ _ => rfl
  obtain ⟨cwr0, reservedW0, lockedW0⟩ := cwr .x0 0x0A3 .x0Cwr fun _ _ _ => rfl
  obtain ⟨cwr1, reservedW1, lockedW1⟩ := cwr .x1 0x0E3 .x1Cwr fun _ _ _ => rfl
  exact ⟨crd0, crd1, cwr0, cwr1, reserved0, reserved1, reservedW0, reservedW1, locked0, locked1, lockedW0, lockedW1⟩

/-! ### What an operation of `x0` and `x1` leaves alone (R164, R168) -/

theorem pendsOnly_land {D : Pend → Prop} (s : State) (q : Port) (lat : Nat) (v : Value) (f : Num.Flags)
    (h : D ⟨lat, .port q, v, f, false, [], 0#64, none, none⟩) : pendsOnly s (s.land q lat v f).retired D :=
  .inr ⟨[_], by simpa using h, rfl⟩

theorem pendsOnly_landAt {D : Pend → Prop} (s : State) (d : Land) (v : Value)
    (h : D ⟨1, d, v, 0#6, false, [], 0#64, none, none⟩) : pendsOnly s (s.landAt d v).retired D :=
  .inr ⟨[_], by simpa using h, rfl⟩

/-- A trigger whose operation adds results alone adds results alone. -/
theorem trigger_pendsOnly {u : Unit11} {d : Nat} {us : Uses} {body : Opnds → State → MoveR} {D : Pend → Prop} {a : Src}
    {g : Guard} {s t : State} (hbody : ∀ x v, body x s = .ok v → pendsOnly s v.retired D)
    (h : trigger u d us body a g s = .next t) (hd : t.last = .done) : pendsOnly s t D := by
  obtain ⟨-, rfl⟩ | ⟨-, v, hv, rfl⟩ := trigger_done h hd
  · exact .inl rfl
  · exact hbody _ v hv

/-- A trigger of an integer operation of a unit whose result port is `q`. -/
def integerTrigger (u : Unit11) (q : Port) (f : Src → Guard → Instr) : Prop :=
  ∃ d us lat op, ∀ a g s, exec (f a g) s = trigger u d us (intOp q lat op) a g s

/-- A trigger of an FP32 operation of a unit whose result port is `q`. -/
def floatTrigger (u : Unit11) (q : Port) (f : Src → Guard → Instr) : Prop :=
  ∃ d us lat op, ∀ a g s, exec (f a g) s = trigger u d us (fpOp q lat op) a g s

section
variable {u : Unit11} {q : Port} {f : Src → Guard → Instr} {a : Src} {g : Guard} {s t : State}

theorem integerTrigger.frame (hf : integerTrigger u q f) (h : exec (f a g) s = .next t) (hd : t.last = .done) :
    pendsOnly s t fun p => p.dest = .port q ∧ p.flags = 0#6 := by
  obtain ⟨d, us, lat, op, run⟩ := hf
  rw [run] at h
  refine trigger_pendsOnly (fun x v hv => ?_) h hd
  cases hv
  exact pendsOnly_land _ _ _ _ _ ⟨rfl, rfl⟩

theorem floatTrigger.frame (hf : floatTrigger u q f) (h : exec (f a g) s = .next t) (hd : t.last = .done) :
    pendsOnly s t fun p => p.dest = .port q := by
  obtain ⟨d, us, lat, op, run⟩ := hf
  rw [run] at h
  refine trigger_pendsOnly (fun x v hv => ?_) h hd
  cases hv
  exact pendsOnly_land _ _ _ _ _ rfl

end

theorem crdOp_frame {q : Port} {x : Opnds} {s v : State} (h : crdOp q x s = .ok v) :
    pendsOnly s v.retired fun p => p.dest = .port q ∧ p.flags = 0#6 := by
  unfold crdOp at h
  split at h
  · cases h
  · cases h
    exact pendsOnly_land _ _ _ _ _ ⟨rfl, rfl⟩

/-- What a `cwr` that went on has done: nothing, one write on its way, or the end of a handler noted (R163, R221). -/
theorem cwrOp_frame {x : Opnds} {s v : State} (h : cwrOp x s = .ok v) :
    (pendsOnly s v.retired fun p => p.flags = 0#6 ∧ ∃ n, n ≠ 0x18 ∧ p.dest = .ctxReg n) ∨
      s.me.emu = true ∧ ∃ w, v.retired = (s.updCtx s.cur fun c => { c with tret := some w }).retired := by
  unfold cwrOp at h
  split at h
  · cases h
  · split at h
    case isTrue htret =>
      dsimp only at h
      split_ifs at h with hemu hdouble
      · cases h
        exact .inl (.inl rfl)
      · cases h
      · cases h
        exact .inr ⟨by simpa using hemu, _, rfl⟩
    case isFalse hreg =>
      cases h
      exact .inl (pendsOnly_landAt _ _ _ ⟨rfl, _, fun h => hreg (BitVec.eq_of_toNat_eq h), rfl⟩)

theorem cwr_trigger_frame {u : Unit11} {d : Nat} {a : Src} {g : Guard} {s t : State}
    (h : trigger u d .ot cwrOp a g s = .next t) (hd : t.last = .done) :
    (pendsOnly s t fun p => p.flags = 0#6 ∧ ∃ n, n ≠ 0x18 ∧ p.dest = .ctxReg n) ∨
      s.me.emu = true ∧ ∃ w, t = (s.updCtx s.cur fun c => { c with tret := some w }).retired := by
  obtain ⟨-, rfl⟩ | ⟨-, v, hv, rfl⟩ := trigger_done h hd
  · exact .inl (.inl rfl)
  · exact cwrOp_frame hv

/-- The integer operations of a unit and its `crd` add one result each, at the unit's port and without flags. -/
theorem integerOrCrd_frame {u : Unit11} {d : Nat} {q : Port} {ops : List (Src → Guard → Instr)} {crd : Src → Guard → Instr}
    (hops : ∀ f ∈ ops, integerTrigger u q f) (run : ∀ a g s, exec (crd a g) s = trigger u d .t (crdOp q) a g s) :
    ∀ f ∈ ops ++ [crd], ∀ a g s t, exec (f a g) s = .next t → t.last = .done →
      pendsOnly s t fun p => p.dest = .port q ∧ p.flags = 0#6 := by
  intro f hf a g s t h hd
  obtain hf | hf := List.mem_append.mp hf
  · exact (hops f hf).frame h hd
  · obtain rfl := List.mem_singleton.mp hf
    rw [run] at h
    exact trigger_pendsOnly (fun x v => crdOp_frame) h hd

/-- The first 26 triggers of `x0` in card order are its integer operations (R165, R166). -/
theorem x0Ops_integer : ∀ f ∈ x0Ops.take 26, integerTrigger .x0 .x0q f := by
  intro f hf
  fin_cases hf <;> exact ⟨_, _, _, _, fun _ _ _ => rfl⟩

/-- Those of `x1`. -/
theorem x1Ops_integer : ∀ f ∈ x1Ops.take 26, integerTrigger .x1 .x1q f := by
  intro f hf
  fin_cases hf <;> exact ⟨_, _, _, _, fun _ _ _ => rfl⟩

/-- The next 6 triggers of `x0` are its FP32 operations (R167). -/
theorem x0Ops_float : ∀ f ∈ (x0Ops.drop 26).take 6, floatTrigger .x0 .x0q f := by
  intro f hf
  fin_cases hf <;> exact ⟨_, _, _, _, fun _ _ _ => rfl⟩

/-- Those of `x1`. -/
theorem x1Ops_float : ∀ f ∈ (x1Ops.drop 26).take 6, floatTrigger .x1 .x1q f := by
  intro f hf
  fin_cases hf <;> exact ⟨_, _, _, _, fun _ _ _ => rfl⟩

/-- Settles O12: every trigger of the two units is of one of four kinds, and each kind adds what its operation does. -/
theorem scalarFrame : Obligations.ScalarFrame := by
  unfold Obligations.ScalarFrame
  refine ⟨integerOrCrd_frame x0Ops_integer fun _ _ _ => rfl, integerOrCrd_frame x1Ops_integer fun _ _ _ => rfl,
    fun f hf a g s t h hd => (x0Ops_float f hf).frame h hd, fun f hf a g s t h hd => (x1Ops_float f hf).frame h hd,
    fun f hf a g s t h hd => ?cwr⟩
  case cwr =>
    obtain rfl | rfl : f = Instr.x0Cwr ∨ f = Instr.x1Cwr := by simpa using hf
    · exact cwr_trigger_frame h hd
    · exact cwr_trigger_frame h hd

end Sys2Proof.Machine
end

section
/-!
PROOFS of 08_seq_scalar: the plain loads and stores (R169-R172).
-/

namespace Sys2Proof.Machine

/-! ### A load's result on its way (R76, R77, R169) -/

theorem State.sameButFabric.cur {s t : State} (h : s.sameButFabric t) : t.cur = s.cur := by
  obtain ⟨f, ds, rfl⟩ := h
  rfl

theorem State.sameButFabric.me {s t : State} (h : s.sameButFabric t) : t.me = s.me := by
  obtain ⟨f, ds, rfl⟩ := h
  rfl

@[simp] theorem State.takeLate_cur (s : State) : s.takeLate.1.cur = s.cur := by
  rw [State.takeLate]
  split <;> rfl

@[simp] theorem State.takeLate_me (s : State) : s.takeLate.1.me = s.me := by
  rw [State.takeLate]
  split <;> rfl

/-- The results on their way after a change to the context that executes. -/
theorem State.pend_updCtx {s : State} {x : CtxRef} (hx : x = s.cur) (f : Ctx → Ctx) :
    (s.updCtx x f).me.pend = (f s.me).pend := by
  subst hx
  exact congrArg Ctx.pend (State.ctx_updCtx ..)

/-- An event counts energy and leaves the results on their way. -/
theorem State.event_pend {s : State} {x : CtxRef} (hx : x = s.cur) (ev n : Nat) : (s.event x ev n).me.pend = s.me.pend := by
  rw [State.event]
  dsimp only
  split_ifs
  · rfl
  · exact State.pend_updCtx (s := s.updDie _ _) hx _
  · exact State.pend_updCtx hx _

theorem State.landLoad_pend (s : State) (q : Port) (lat : Nat) (cv : Conv) (bs : List Byte) (tag : Tag) (taint : Bool)
    (cs : List Nat) (ps : List Piece) : ∃ p : Pend,
      (s.landLoad q lat cv bs tag taint cs ps).me.pend = s.me.pend ++ [p] ∧ p.left = lat ∧ p.dest = .port q ∧
        p.val = cv.value bs tag taint ∧ p.flags = 0#6 ∧ ((∀ a ∈ ps, (winOf a.va).isCore = true) → p.late = false) := by
  rw [State.landLoad]
  split
  case h_1 => exact ⟨_, State.pend_updCtx rfl _, rfl, rfl, rfl, rfl, fun _ => rfl⟩
  case h_2 p hp =>
    have outside : (winOf p.va).isCore ≠ true := by simpa using List.find?_some hp
    dsimp only
    set m := if ps.any Piece.cached && decide (s.cur.core < 512) then
      s.takeLate.1.event s.cur (if s.takeLate.2 then 7 else 6) 1 else s.takeLate.1 with hm
    have fabric := m.awaitFor_sameButFabric m.cur ps cv tag taint
    have counted : m.me.pend = s.me.pend := by
      rw [hm]
      split
      · rw [State.event_pend s.takeLate_cur.symm, State.takeLate_me]
      · rw [State.takeLate_me]
    exact ⟨_, (State.pend_updCtx fabric.cur.symm _).trans (congrArg (· ++ [_]) (fabric.me ▸ counted)), rfl, rfl, rfl, rfl,
      fun hcore => absurd (hcore p (List.mem_of_find?_eq_some hp)) outside⟩

/-! ### Loads and stores whose access has passed (R170-R172) -/

/-- An operation whose accesses have passed their checks goes on from the state that they leave. -/
theorem admitThen_passes {s u : State} {l : List Span} {ps : List SpanP} {k : State → List SpanP → MoveR}
    (h : s.passes l u ps) : admitThen s l k = k u ps := by
  rw [admitThen, h]

theorem loadOp_loads {w : Nat} {sx : Bool} {x : Opnds} {s t : State} {p : SpanP}
    (h : s.passes [⟨x.t.word.toNat, w, false⟩] t [p]) :
    loadOp w sx x s = .ok ((t.readSpan t.cur p).1.landLoad .lsq (latencyOf x.t.word.toNat) (.scalar w sx)
      (t.readSpan t.cur p).2.1 x.tag (x.taint || (t.readSpan t.cur p).2.2) (loadCauses p.ps) p.ps) := by
  rw [loadOp, admitThen_passes h]

theorem Conv.value_scalar (w : Nat) (sx : Bool) (bs : List Byte) (tag : Tag) (taint : Bool) :
    (Conv.scalar w sx).value bs tag taint = .scalar (if sx then (BitVec.ofNat (8 * w) (leNat (bs.take w))).signExtend 64
      else BitVec.ofNat 64 (leNat (bs.take w))) tag taint := rfl

/-- Settles O21: each load is one operation by width and sign, and its result joins those on their way. -/
theorem scalarLoads : Obligations.ScalarLoads := by
  unfold Obligations.ScalarLoads
  intro load
  have row (d w : Nat) (sx : Bool) (i : Src → Guard → Instr)
      (run : ∀ a g s, exec (i a g) s = trigger .ls d .t (loadOp w sx) a g s) : load d w sx i := by
    intro a g s t p hfires hpass x r
    rw [run, trigger_fires hfires, loadOp_loads hpass, finish_ok]
  exact ⟨row _ _ _ _ fun _ _ _ => rfl, row _ _ _ _ fun _ _ _ => rfl, row _ _ _ _ fun _ _ _ => rfl,
    row _ _ _ _ fun _ _ _ => rfl, row _ _ _ _ fun _ _ _ => rfl, row _ _ _ _ fun _ _ _ => rfl,
    row _ _ _ _ fun _ _ _ => rfl, fun _ => rfl, Conv.value_scalar, State.landLoad_pend⟩

/-- A store goes on by writing its bytes, or traps where they would change a pinned entry. -/
theorem storeBytes_passes {va : Nat} {bytes : List Byte} {x : Opnds} {s t : State} {p : SpanP}
    (h : s.passes [⟨va, bytes.length, true⟩] t [p]) :
    storeBytes va bytes x s = (t.storeIrrev p).writeSpan t.cur p bytes (x.taint || t.me.ctaint) := by
  rw [storeBytes, admitThen_passes h]

theorem writeSpan_unpinned {s : State} {x : CtxRef} {p : SpanP} {bytes : List Byte} {taint : Bool}
    (h : s.pinSpan p.ps bytes = none) : s.writeSpan x p bytes taint =
      .ok ((s.writePieces x (s.viewer x) p.ps bytes taint).unpoison (s.viewer x) p.ps) := by
  rw [State.writeSpan, h]

theorem writeSpan_pinned {s : State} {x : CtxRef} {p : SpanP} {bytes : List Byte} {taint : Bool} {e va : Nat}
    (h : s.pinSpan p.ps bytes = some (e, va)) : s.writeSpan x p bytes taint =
      if isSup x.core then .trap 0xC6 5 e else .trap 0xC0 5 va := by
  rw [State.writeSpan, h]
  rfl

/-- Settles O22: each store writes some bytes of its operands, unless they would change a pinned entry. -/
theorem scalarStores : Obligations.ScalarStores := by
  unfold Obligations.ScalarStores
  intro store
  have row (d : Nat) (us : Uses) (i : Src → Guard → Instr) (bytes : Opnds → List Byte)
      (run : ∀ a g s, exec (i a g) s = trigger .ls d us (fun x => storeBytes x.o.word.toNat (bytes x) x) a g s) :
      store d us i bytes := by
    intro a g s t p hfires x hpass u
    rw [run, trigger_fires hfires, storeBytes_passes hpass]
    exact ⟨fun hpin => by rw [writeSpan_unpinned hpin, finish_ok], fun e va hpin => by rw [writeSpan_pinned hpin]⟩
  exact ⟨row 0x109 .ot .lsStN8 (fun x => leBytes 1 x.t.word.toNat) fun _ _ _ => rfl,
    row 0x10A .ot .lsStN16 (fun x => leBytes 2 x.t.word.toNat) fun _ _ _ => rfl,
    row 0x10B .ot .lsStN32 (fun x => leBytes 4 x.t.word.toNat) fun _ _ _ => rfl,
    row 0x10C .ot .lsStN64 (fun x => leBytes 8 x.t.word.toNat) fun _ _ _ => rfl,
    row 0x10D .opt .lsSt2B64 (fun x => leBytes 8 x.t.word.toNat ++ leBytes 8 x.p.word.toNat) fun _ _ _ => rfl⟩

end Sys2Proof.Machine
end

section
/-!
PROOFS of 09_seq_control: hardware loops (R180, R181) and program marks (R182, R373).
-/

namespace Sys2Proof.Machine

/-! ### Loops armed, ended and read (R181) -/

/-- Operands with which `br.lp0` or `br.lp1` arms loop `n` (R181). -/
def Opnds.armsLoop (x : Opnds) (n : Nat) (s : State) : Prop :=
  x.o.word ≠ 0 ∧ 32 ≤ x.t.word.toInt ∧ x.t.word.toNat % 32 = 0 ∧
    s.me.armedEnd (1 - n) (s.issue.bundle + x.t.word) = false

theorem lpOp_arms {n : Nat} {x : Opnds} {s : State} (h : x.armsLoop n s) :
    lpOp n x s = .ok ((s.landAt (.loopArm n x.o.word (s.issue.bundle + 32) (s.issue.bundle + x.t.word))
      (.sc SVal.zero)).judge x.o.taint) := by
  obtain ⟨hcount, hfar, haligned, hfree⟩ := h
  have formed : ¬(x.o.word = 0#64 ∨ x.t.word.toInt < 32 ∨ x.t.word.toNat % 32 ≠ 0) := by
    rintro (h | h | h)
    · exact hcount h
    · omega
    · exact h haligned
  have alone : ¬s.me.armedEnd (1 - n) (s.target x.t.word) = true := by
    rw [State.target, hfree]
    exact Bool.false_ne_true
  exact (if_neg formed).trans (if_neg alone)

theorem lpOp_loopForm {n : Nat} {x : Opnds} {s : State} (h : ¬x.armsLoop n s) : lpOp n x s = .trap 0x0B 5 0 := by
  rw [lpOp]
  split_ifs with hform hshared
  · rfl
  · rfl
  · obtain ⟨hcount, hfar, haligned⟩ : ¬x.o.word = 0#64 ∧ ¬x.t.word.toInt < 32 ∧ ¬x.t.word.toNat % 32 ≠ 0 := by
      simpa only [not_or] using hform
    exact absurd ⟨hcount, by omega, by omega, by simpa [State.target] using hshared⟩ h

theorem lpendOp_ends {x : Opnds} {s : State} (h : x.t.word.toNat ≤ 1) :
    lpendOp x s = .ok (s.landAt (.lpend x.t.word.toNat) (.sc SVal.zero)) := if_neg (by omega)

theorem lpendOp_loopForm {x : Opnds} {s : State} (h : 1 < x.t.word.toNat) : lpendOp x s = .trap 0x0B 5 0 := if_pos h

/-- The loop that a word of 0 or 1 names. -/
theorem Ctx.loop_toNat (c : Ctx) (w : Word) : c.loop w.toNat = if w = 0 then c.loop0 else c.loop1 := by
  have zero : w.toNat = 0 ↔ w = 0 := BitVec.toNat_inj (y := 0)
  simp only [Ctx.loop, zero]

theorem lcrdOp_reads {x : Opnds} {s : State} (h : x.t.word.toNat ≤ 1) :
    lcrdOp x s = .ok (x.put .brq 1 (if x.t.word = 0 then s.me.loop0 else s.me.loop1).lc 0#6 s) := by
  rw [lcrdOp, if_neg (by omega), Ctx.loop_toNat, Opnds.put]

theorem lcrdOp_loopForm {x : Opnds} {s : State} (h : 1 < x.t.word.toNat) : lcrdOp x s = .trap 0x0B 5 0 := if_pos h

/-! ### Loops as they land (R180, R181) -/

theorem Ctx.landOne_loopArm {p : Pend} {n : Nat} {lc f e : Word} (c : Ctx) (h : p.dest = .loopArm n lc f e) :
    c.landOne p = c.setLoop n ⟨lc, f, e⟩ := by
  rw [Ctx.landOne, h]

/-- `br.lpend` leaves one iteration of an armed loop, and none of another. -/
theorem Ctx.landOne_lpend {p : Pend} {n : Nat} (c : Ctx) (h : p.dest = .lpend n) :
    c.landOne p = c.setLoop n { c.loop n with lc := if (c.loop n).lc = 0#64 then 0#64 else 1#64 } := by
  rw [Ctx.landOne, h]
  dsimp only
  split
  case isTrue unarmed =>
    have same : ({ c.loop n with lc := (c.loop n).lc } : Loop) = c.loop n := rfl
    rw [← unarmed, same, Ctx.setLoop, Ctx.loop]
    split <;> rfl
  case isFalse armed => rfl

/-! ### The back-edge of a loop (R180) -/

/-- A context that goes on with the bundle after `a`. -/
def Ctx.fallThrough (c : Ctx) (a : Word) : Ctx := { c with pc := a + 32#64, first := 0 }

section
variable {c : Ctx} {n : Nat}

theorem Ctx.armedEnd_self (h : (c.loop n).lc ≠ 0) : c.armedEnd n (c.loop n).e = true := by
  have armed : decide ((c.loop n).lc ≠ 0#64) = true := decide_eq_true h
  rw [Ctx.armedEnd, armed, decide_eq_true rfl]
  rfl

theorem Ctx.advance_end0 {a : Word} (hdelay : c.delay = none) (h0 : c.armedEnd 0 a = true) :
    c.advance a 7 = (c.fallThrough a).backEdge 0 := by
  rw [Ctx.advance, if_neg (by omega)]
  split
  case h_1 hjump => cases hdelay.symm.trans hjump
  case h_2 hjump => cases hdelay.symm.trans hjump
  case h_3 => exact if_pos h0

theorem Ctx.advance_end1 {a : Word} (hdelay : c.delay = none) (h0 : c.armedEnd 0 a = false) (h1 : c.armedEnd 1 a = true) :
    c.advance a 7 = (c.fallThrough a).backEdge 1 := by
  rw [Ctx.advance, if_neg (by omega)]
  split
  case h_1 hjump => cases hdelay.symm.trans hjump
  case h_2 hjump => cases hdelay.symm.trans hjump
  case h_3 => exact (if_neg (by rw [h0]; exact Bool.false_ne_true)).trans (if_pos h1)

theorem Ctx.backEdge_again (h : 1 < (c.loop n).lc.toNat) :
    c.backEdge n =
      { c.setLoop n { c.loop n with lc := (c.loop n).lc - 1#64 } with pc := (c.loop n).f, first := 0, delay := none } :=
  if_pos h

theorem Ctx.backEdge_last (h : (c.loop n).lc = 1) : c.backEdge n = c.setLoop n { c.loop n with lc := 0#64 } := by
  rw [Ctx.backEdge, h]
  rfl

end

/-! ### Marks (R182, R373) -/

theorem markOp_masked {x : Opnds} {s : State} (h : s.obs.kmask.getLsbD 0 = false) : markOp x s = .ok s := by
  rw [markOp, State.traceCtx, h]
  rfl

theorem markOp_records {x : Opnds} {s : State} (h : s.obs.kmask.getLsbD 0 = true) :
    markOp x s = .ok (s.record (traceNat s s.cur 0x100 x.t.taint s.me.pc.toNat s.me.cyc.toNat s.me.stamp.toNat
      (x.t.word.toNat % 2 ^ 32))) := by
  rw [markOp, State.traceCtx, h]
  rfl

/-- The fields of a trace record stand side by side (R373). -/
theorem traceNat_fields {s : State} {x : CtxRef} {k pc cyc st n : Nat} (b : Bool) (hn : n < 2 ^ 32) (hcore : x.core < 2 ^ 10)
    (hctx : x.ctx < 4) (hdev : s.devid < 2 ^ 6) (hk : k < 2 ^ 9) :
    let r := traceNat s x k b pc cyc st n
    r / 2 ^ 256 = n ∧ r % 2 ^ 9 = k ∧ r / 2 ^ 9 % 2 ^ 10 = x.core ∧ r / 2 ^ 19 % 4 = x.ctx ∧ r.testBit 27 = b ∧
      r / 2 ^ 64 % 2 ^ 56 = pc % 2 ^ 56 ∧ r / 2 ^ 128 % 2 ^ 48 = cyc % 2 ^ 48 ∧ r / 2 ^ 192 % 2 ^ 64 = st % 2 ^ 64 := by
  intro r
  have bit : (if b then 2 ^ 27 else 0) = b.toNat * 2 ^ 27 := by cases b <;> rfl
  have hb : b.toNat < 2 := Bool.toNat_lt b
  have hr : r = k + x.core * 2 ^ 9 + x.ctx * 2 ^ 19 + s.devid * 2 ^ 21 + b.toNat * 2 ^ 27 +
      s.timebase.toNat % 2 ^ 32 * 2 ^ 32 + pc % 2 ^ 56 * 2 ^ 64 + cyc % 2 ^ 48 * 2 ^ 128 + st % 2 ^ 64 * 2 ^ 192 +
      n % 2 ^ 256 * 2 ^ 256 := by rw [← bit]; rfl
  have taint : r.testBit 27 = decide (r / 2 ^ 27 % 2 = 1) := Nat.testBit_eq_decide_div_mod_eq
  have value : r / 2 ^ 27 % 2 = b.toNat := by omega
  refine ⟨by omega, by omega, by omega, by omega, ?_, by omega, by omega, by omega⟩
  rw [taint, value]
  cases b <;> rfl

/-- Settles O29: each trigger by its operation's cases, and the back-edge by what fetch does at an armed loop's end. -/
theorem loopsAndMarks : Obligations.LoopsAndMarks := by
  unfold Obligations.LoopsAndMarks
  intro arms good
  have lp (n d : Nat) (i : Src → Guard → Instr) (run : ∀ a g s, exec (i a g) s = trigger .br d .ot (lpOp n) a g s) :
      completesIf .br d .ot i (good n) (arms n) ∧ trapsIf .br d .ot i (fun x s => ¬good n x s) 0x0B (fun _ => 0) :=
    ⟨completesIf_of_op run fun x s h => lpOp_arms h, trapsIf_of_op run fun x s h => lpOp_loopForm h⟩
  obtain ⟨arms0, form0⟩ := lp 0 0x147 .brLp0 fun _ _ _ => rfl
  obtain ⟨arms1, form1⟩ := lp 1 0x148 .brLp1 fun _ _ _ => rfl
  refine ⟨arms0, arms1, form0, form1, ?lpend, ?lpendForm, ?lcrd, ?lcrdForm, ?masked, ?records,
    fun s x k b pc cyc st n hn hcore hctx hdev hk => traceNat_fields b hn hcore hctx hdev hk, ?lpend0, ?lpend1,
    fun c p lc f e h => ?arm0, fun c p lc f e h => ?arm1, fun c hdelay harmed => ?edge0, fun c hdelay harmed h0 => ?edge1⟩
  case lpend => exact completesIf_of_op (fun _ _ _ => rfl) fun x s => lpendOp_ends
  case lpendForm => exact trapsIf_of_op (fun _ _ _ => rfl) fun x s => lpendOp_loopForm
  case lcrd => exact completesIf_of_op (fun _ _ _ => rfl) fun x s => lcrdOp_reads
  case lcrdForm => exact trapsIf_of_op (fun _ _ _ => rfl) fun x s => lcrdOp_loopForm
  case masked => exact completesIf_of_op (fun _ _ _ => rfl) fun x s => markOp_masked
  case records => exact completesIf_of_op (fun _ _ _ => rfl) fun x s => markOp_records
  case lpend0 => intro c p h; rw [Ctx.landOne_lpend c h]; rfl
  case lpend1 => intro c p h; rw [Ctx.landOne_lpend c h]; rfl
  case arm0 => rw [Ctx.landOne_loopArm c h]; exact ⟨rfl, rfl⟩
  case arm1 => rw [Ctx.landOne_loopArm c h]; exact ⟨rfl, rfl⟩
  case edge0 =>
    rw [Ctx.advance_end0 (a := c.loop0.e) hdelay (Ctx.armedEnd_self (n := 0) harmed)]
    refine ⟨fun hmore => ?_, fun hlast => ?_⟩
    · rw [Ctx.backEdge_again (c := c.fallThrough c.loop0.e) (n := 0) hmore]; exact ⟨rfl, rfl, rfl⟩
    · rw [Ctx.backEdge_last (c := c.fallThrough c.loop0.e) (n := 0) hlast]; exact ⟨rfl, rfl⟩
  case edge1 =>
    rw [Ctx.advance_end1 (a := c.loop1.e) hdelay h0 (Ctx.armedEnd_self (n := 1) harmed)]
    refine ⟨fun hmore => ?_, fun hlast => ?_⟩
    · rw [Ctx.backEdge_again (c := c.fallThrough c.loop1.e) (n := 1) hmore]; exact ⟨rfl, rfl, rfl⟩
    · rw [Ctx.backEdge_last (c := c.fallThrough c.loop1.e) (n := 1) hlast]; exact ⟨rfl, rfl⟩

end Sys2Proof.Machine
end

section
/-!
PROOFS of 09_seq_control: clock definitions (R183, R184, R186).
-/

namespace Sys2Proof.Machine

/-! ### Selector words (R184) -/

/-- The fields of a selector word: a target and two clocks (R184). -/
def Opnds.selects (x : Opnds) (k a b : Nat) : Prop :=
  k < 16 ∧ a < 16 ∧ b < 16 ∧ x.t.word.toNat = k + 16 * a + 256 * b

/-- The period and phase of `ck.def` (R186). -/
def Opnds.cycles (x : Opnds) (n p : Nat) : Prop := x.o.word.toNat = n + 2 ^ 16 * p ∧ 1 ≤ n ∧ n ≤ 4096 ∧ p < n

theorem clockSel_eq_some {x : Opnds} {k a b : Nat} : clockSel x.t.word = some (k, a, b) ↔ x.selects k a b := by
  rw [clockSel, Opnds.selects]
  simp only [bitsOf]
  split
  · simp only [Option.some.injEq, Prod.mk.injEq]
    omega
  · simp only [reduceCtorEq, false_iff]
    omega

/-! ### A definition (R183) -/

/-- A clock defined with its presence, which lands in `ck.q` too (R183). -/
def State.defines (s : State) (k : Nat) (present : Bool) (x : Opnds) : State :=
  (s.landAt (.clock k present) (.sc SVal.zero)).land .ckq 1 (.scalar (if present then 1 else 0) 0#4 x.taint) 0#6

section
variable {x : Opnds} {s : State} {k : Nat} {present : Bool} {f : State → State}

theorem defineClock_free (h : 1 ≤ k ∧ k ≤ 14 ∧ s.me.kdef.getLsbD k = false) :
    defineClock x s k present f = .ok (f (s.defines k present x)) := by
  obtain ⟨hlo, hhi, hfree⟩ := h
  rw [defineClock, if_neg (by omega), hfree]
  rfl

theorem defineClock_known (h : 1 ≤ k ∧ k ≤ 14 ∧ s.me.kdef.getLsbD k = true) :
    defineClock x s k present f = .trap 0x28 5 0 := by
  obtain ⟨hlo, hhi, hknown⟩ := h
  rw [defineClock, if_neg (by omega), hknown]
  rfl

theorem defineClock_fixed (h : ¬(1 ≤ k ∧ k ≤ 14)) : defineClock x s k present f = .trap 0x27 5 0 :=
  if_pos (by omega)

end

/-! ### `ck.def` and `ck.sub` (R186) -/

theorem ckDefOp_defines {x : Opnds} {k n p : Nat} (s : State) (hsel : x.selects k 0 0) (hper : x.cycles n p) :
    ckDefOp x s = defineClock x s k (decide (s.me.stamp.toNat / 2 ^ 16 % n = p)) id := by
  obtain ⟨hword, hpos, hle, hlt⟩ := hper
  have period : bitsOf x.o.word.toNat 0 16 = n := by rw [bitsOf]; omega
  have phase : bitsOf x.o.word.toNat 16 16 = p := by rw [bitsOf]; omega
  rw [ckDefOp]
  simp only [period, phase, clockSel_eq_some.mpr hsel]
  exact if_neg (by omega)

/-- A word that is good for `ck.def` has a period and a phase. -/
theorem exists_cycles_of_bits {x : Opnds} (h : ¬(2 ^ 32 ≤ x.o.word.toNat ∨ bitsOf x.o.word.toNat 0 16 = 0 ∨
    4096 < bitsOf x.o.word.toNat 0 16 ∨ bitsOf x.o.word.toNat 0 16 ≤ bitsOf x.o.word.toNat 16 16)) :
    ∃ n p, x.cycles n p := by
  simp only [bitsOf] at h
  exact ⟨x.o.word.toNat % 2 ^ 16, x.o.word.toNat / 2 ^ 16, by omega, by omega, by omega, by omega⟩

theorem ckDefOp_malformed {x : Opnds} {s : State}
    (h : ¬((∃ n p, x.cycles n p) ∧ ∃ k, 1 ≤ k ∧ k ≤ 14 ∧ x.selects k 0 0)) : ckDefOp x s = .trap 0x27 5 0 := by
  rw [ckDefOp]
  split
  case h_1 k hsel =>
    split_ifs with hbad
    · rfl
    · refine defineClock_fixed fun hk => h ⟨exists_cycles_of_bits hbad, k, hk.1, hk.2, clockSel_eq_some.mp hsel⟩
  case h_2 => rfl

theorem ckSubOp_defines {x : Opnds} {k : Nat} (s : State) (hsel : x.selects k 0 0) :
    ckSubOp x s = defineClock x s k (decide (x.o.word ≠ 0#64)) fun s => s.judge x.o.taint := by
  simp only [ckSubOp, clockSel_eq_some.mpr hsel]

theorem ckSubOp_malformed {x : Opnds} {s : State} (h : ¬∃ k, 1 ≤ k ∧ k ≤ 14 ∧ x.selects k 0 0) :
    ckSubOp x s = .trap 0x27 5 0 := by
  rw [ckSubOp]
  split
  case h_1 k hsel => exact defineClock_fixed fun hk => h ⟨k, hk.1, hk.2, clockSel_eq_some.mp hsel⟩
  case h_2 => rfl

/-! ### `ck.union` and `ck.not` (R186) -/

/-- A clock defined from two others: what `ck.union` and `ck.not` do, but for the presence (R186). -/
def clockFrom (present : Ctx → Nat → Nat → Bool) (x : Opnds) (s : State) : MoveR :=
  match clockSel x.t.word with
  | some (k, a, b) => defineClock x s k (present s.me a b) id
  | none => fault5 cCkForm 0

theorem clockFrom_defines {present : Ctx → Nat → Nat → Bool} {x : Opnds} {k a b : Nat} (s : State)
    (hsel : x.selects k a b) : clockFrom present x s =
    defineClock x s k (present s.me a b) id := by
  rw [clockFrom, clockSel_eq_some.mpr hsel]

theorem clockFrom_malformed {present : Ctx → Nat → Nat → Bool} {x : Opnds} {s : State}
    (h : ¬∃ k a b, 1 ≤ k ∧ k ≤ 14 ∧ x.selects k a b) : clockFrom present x s = .trap 0x27 5 0 := by
  rw [clockFrom]
  split
  case h_1 k a b hsel => exact defineClock_fixed fun hk => h ⟨k, a, b, hk.1, hk.2, clockSel_eq_some.mp hsel⟩
  case h_2 => rfl

/-- A trigger that defines a clock from two others: what it leaves, and its two traps. -/
theorem clockFrom_trigger {d : Nat} {i : Src → Guard → Instr} {present : Ctx → Nat → Nat → Bool}
    (run : ∀ a g s, exec (i a g) s = trigger .ck d .t (clockFrom present) a g s) :
    (∀ k a b, completesIf .ck d .t i
      (fun x s => (1 ≤ k ∧ k ≤ 14 ∧ s.me.kdef.getLsbD k = false) ∧ x.selects k a b)
      (fun x s => s.defines k (present s.me a b) x)) ∧
    trapsIf .ck d .t i (fun x _ => ¬∃ k a b, 1 ≤ k ∧ k ≤ 14 ∧ x.selects k a b) 0x27 (fun _ => 0) ∧
    ∀ k a b, trapsIf .ck d .t i
      (fun x s => (1 ≤ k ∧ k ≤ 14 ∧ s.me.kdef.getLsbD k = true) ∧ x.selects k a b) 0x28 (fun _ => 0) :=
  ⟨fun _ _ _ => completesIf_of_op run fun _ s ⟨hfree, hsel⟩ => (clockFrom_defines s hsel).trans (defineClock_free hfree),
    trapsIf_of_op run fun _ _ => clockFrom_malformed,
    fun _ _ _ => trapsIf_of_op run fun _ s ⟨hknown, hsel⟩ => (clockFrom_defines s hsel).trans (defineClock_known hknown)⟩

/-! ### Clocks as they land (R27, R183) -/

theorem Ctx.pres_named {n : Nat} (c : Ctx) (hlo : 1 ≤ n) (hhi : n ≤ 14) : c.pres n = c.kpres.getLsbD n := by
  rw [Ctx.pres, decide_eq_false (by omega), decide_eq_false (by omega)]
  rfl

/-- No clock is present without being defined. -/
def Ctx.undefinedAbsent (c : Ctx) : Prop := ∀ n, 1 ≤ n → n ≤ 14 → c.kdef.getLsbD n = false → c.pres n = false

theorem getLsbD_twoPow16 {k n : Nat} (hn : n ≤ 14) : (BitVec.ofNat 16 (2 ^ k)).getLsbD n = decide (n = k) := by
  rw [BitVec.getLsbD_ofNat, Nat.testBit_two_pow, decide_eq_true (show n < 16 by omega), Bool.true_and]
  exact decide_eq_decide.mpr eq_comm

section
variable {c : Ctx} {k n : Nat} {b : Bool} (hk : 1 ≤ k ∧ k ≤ 14)
include hk

theorem Ctx.defClock_kdef (hn : n ≤ 14) : (c.defClock k b).kdef.getLsbD n = (c.kdef.getLsbD n || decide (n = k)) := by
  rw [Ctx.defClock, if_neg (by omega), BitVec.getLsbD_or, getLsbD_twoPow16 hn]

theorem Ctx.defClock_pres (hlo : 1 ≤ n) (hn : n ≤ 14) : (c.defClock k b).pres n = if n = k then b else c.pres n := by
  rw [Ctx.pres_named _ hlo hn, Ctx.pres_named _ hlo hn, Ctx.defClock, if_neg (by omega)]
  change BitVec.getLsbD (if b then c.kpres ||| BitVec.ofNat 16 (2 ^ k) else c.kpres &&& ~~~BitVec.ofNat 16 (2 ^ k)) n = _
  cases b with
  | true =>
    rw [if_pos rfl, BitVec.getLsbD_or, getLsbD_twoPow16 hn]
    by_cases h : n = k <;> simp [h]
  | false =>
    rw [if_neg Bool.false_ne_true, BitVec.getLsbD_and, BitVec.getLsbD_not, getLsbD_twoPow16 hn,
      decide_eq_true (show n < 16 by omega)]
    by_cases h : n = k <;> simp [h]

/-- A definition keeps absent what is undefined. -/
theorem Ctx.undefinedAbsent.defClock (h : c.undefinedAbsent) : (c.defClock k b).undefinedAbsent := by
  intro n hlo hhi hundef
  rw [Ctx.defClock_kdef hk hhi, Bool.or_eq_false_iff, decide_eq_false_iff_not] at hundef
  rw [Ctx.defClock_pres hk hlo hhi, if_neg hundef.2]
  exact h n hlo hhi hundef.1

end

theorem State.reset_undefinedAbsent : State.reset.me.undefinedAbsent := by
  have kpres : State.reset.me.kpres = 0x8001#16 := rfl
  intro n hlo hhi _
  rw [Ctx.pres_named _ hlo hhi, kpres]
  interval_cases n <;> rfl

/-- What a landed definition leaves of the clocks. -/
theorem Ctx.landOne_clock {p : Pend} {k : Nat} {b : Bool} (c : Ctx) (hdest : p.dest = .clock k b) :
    c.landOne p = c.defClock k b := by
  rw [Ctx.landOne, hdest]

/-- Settles O30: each operation comes down to `defineClock`, and a landed definition to `Ctx.defClock`. -/
theorem clockDefinitions : Obligations.ClockDefinitions := by
  unfold Obligations.ClockDefinitions
  intro defines free fields period
  obtain ⟨union, unionForm, unionKnown⟩ :=
    clockFrom_trigger (i := .ckUnion) (present := fun c a b => c.pres a || c.pres b) fun _ _ _ => rfl
  obtain ⟨not_, notForm, notKnown⟩ :=
    clockFrom_trigger (i := .ckNot) (present := fun c a b => c.pres a && !c.pres b) fun _ _ _ => rfl
  refine ⟨?def_, ?sub, union, not_, fun c n hlo hhi => c.pres_named hlo hhi, fun c => ⟨rfl, rfl⟩, ?defForm, ?subForm,
    unionForm, notForm, ?redefined, ?landed⟩
  case def_ =>
    exact fun k n p hpos hle hlt => completesIf_of_op (fun _ _ _ => rfl) fun x s ⟨hfree, hsel, hword⟩ =>
      (ckDefOp_defines s hsel ⟨hword, hpos, hle, hlt⟩).trans (defineClock_free hfree)
  case sub =>
    exact fun k => completesIf_of_op (fun _ _ _ => rfl) fun x s ⟨hfree, hsel⟩ =>
      (ckSubOp_defines s hsel).trans (defineClock_free hfree)
  case defForm => exact trapsIf_of_op (fun _ _ _ => rfl) fun x s => ckDefOp_malformed
  case subForm => exact trapsIf_of_op (fun _ _ _ => rfl) fun x s => ckSubOp_malformed
  case redefined =>
    intro known k
    refine ⟨?_, ?_, fun a b => ⟨unionKnown k a b, notKnown k a b⟩⟩
    · exact trapsIf_of_op (fun _ _ _ => rfl) fun x s ⟨hknown, hsel, n, p, hper⟩ =>
        (ckDefOp_defines s hsel hper).trans (defineClock_known hknown)
    · exact trapsIf_of_op (fun _ _ _ => rfl) fun x s ⟨hknown, hsel⟩ =>
        (ckSubOp_defines s hsel).trans (defineClock_known hknown)
  case landed =>
    refine ⟨State.reset_undefinedAbsent, fun c p k b hdest hlo hhi => ?_⟩
    have hk : 1 ≤ k ∧ k ≤ 14 := ⟨hlo, hhi⟩
    rw [c.landOne_clock hdest]
    refine ⟨?_, ?_, fun h => Ctx.undefinedAbsent.defClock hk h, fun n hne hnlo hnhi => ⟨?_, ?_⟩⟩
    · rw [Ctx.defClock_kdef hk hhi, decide_eq_true rfl, Bool.or_true]
    · rw [Ctx.defClock_pres hk hlo hhi, if_pos rfl]
    · rw [Ctx.defClock_kdef hk hnhi, decide_eq_false hne, Bool.or_false]
    · rw [Ctx.defClock_pres hk hnlo hnhi, if_neg hne]

end Sys2Proof.Machine
end

section
/-!
PROOFS of 09_seq_control: sampling and merging (R184, R187, R188).
-/

namespace Sys2Proof.Machine

/-- Whether a tag's clock is present, tag 0xF counting as present (R185). -/
def Ctx.on (c : Ctx) (t : Tag) : Prop := t = 0xF#4 ∨ c.pres t.toNat = true

theorem Ctx.tagPres_of_on {c : Ctx} {t : Tag} (h : c.on t) : c.tagPres t = true := by
  rw [Ctx.tagPres, Bool.or_eq_true, beq_iff_eq]
  exact h

theorem Ctx.tagPres_of_not_on {c : Ctx} {t : Tag} (h : ¬c.on t) : c.tagPres t = false := by
  rw [← Bool.not_eq_true, Ctx.tagPres, Bool.or_eq_true, beq_iff_eq]
  exact h

/-- The clock index that a target word gives (R184). -/
def Opnds.targets (x : Opnds) (k : Nat) : Prop := k < 16 ∧ x.t.word.toNat = k

theorem clockIndex_target {x : Opnds} {k : Nat} (h : x.targets k) : clockIndex x.t.word = some k := by
  obtain ⟨hlt, rfl⟩ := h
  exact if_pos hlt

theorem clockIndex_none {w : Word} (h : 16 ≤ w.toNat) : clockIndex w = none := if_neg (by omega)

/-- A scalar on its way to `ck.q` on clock `k`. -/
def State.landOn (s : State) (k : Nat) (w : Word) (taint : Bool) : State :=
  s.land .ckq 1 (.scalar w (BitVec.ofNat 4 k) taint) 0#6

theorem ckWhenOp_lands {x : Opnds} {k : Nat} (s : State) (h : x.targets k) :
    ckWhenOp x s = .ok (s.landOn k x.o.word x.taint) := by
  rw [ckWhenOp, clockIndex_target h]
  rfl

theorem ckIspOp_present {x : Opnds} {s : State} (h : s.me.on x.t.tag) : ckIspOp x s = .ok (s.landOn 0 1 false) := by
  rw [ckIspOp, Ctx.tagPres_of_on h]
  rfl

theorem ckIspOp_absent {x : Opnds} {s : State} (h : ¬s.me.on x.t.tag) : ckIspOp x s = .ok (s.landOn 0 0 false) := by
  rw [ckIspOp, Ctx.tagPres_of_not_on h]
  rfl

/-! ### The rows of a merge (R188) -/

section
variable {x : Opnds} {s : State} {k : Nat} (hk : x.targets k)
include hk

theorem mergeOp_left (prio : Bool) (ho : s.me.on x.o.tag) (hp : ¬s.me.on x.p.tag) (ht : s.me.pres k = true) :
    mergeOp prio x s = .ok (s.landOn k x.o.word (x.taint || x.o.taint)) := by
  simp only [mergeOp, clockIndex_target hk, Ctx.tagPres_of_on ho, Ctx.tagPres_of_not_on hp, ht]
  rfl

theorem mergeOp_right (prio : Bool) (ho : ¬s.me.on x.o.tag) (hp : s.me.on x.p.tag) (ht : s.me.pres k = true) :
    mergeOp prio x s = .ok (s.landOn k x.p.word (x.taint || x.p.taint)) := by
  simp only [mergeOp, clockIndex_target hk, Ctx.tagPres_of_not_on ho, Ctx.tagPres_of_on hp, ht]
  rfl

/-- One input present and the target not is CLOCK_MISMATCH. -/
theorem mergeOp_mismatch (prio : Bool) (hone : ¬(s.me.on x.o.tag ↔ s.me.on x.p.tag)) (ht : s.me.pres k = false) :
    mergeOp prio x s = .trap 0x20 5 0 := by
  by_cases ho : s.me.on x.o.tag
  · have hp : ¬s.me.on x.p.tag := fun hp => hone (iff_of_true ho hp)
    simp only [mergeOp, clockIndex_target hk, Ctx.tagPres_of_on ho, Ctx.tagPres_of_not_on hp, ht]
    rfl
  · have hp : s.me.on x.p.tag := by_contra fun hp => hone (iff_of_false ho hp)
    simp only [mergeOp, clockIndex_target hk, Ctx.tagPres_of_not_on ho, Ctx.tagPres_of_on hp, ht]
    rfl

theorem mergeOp_absentRead (prio : Bool) (ho : ¬s.me.on x.o.tag) (hp : ¬s.me.on x.p.tag) (ht : s.me.pres k = true) :
    mergeOp prio x s = .trap 0x21 5 0 := by
  simp only [mergeOp, clockIndex_target hk, Ctx.tagPres_of_not_on ho, Ctx.tagPres_of_not_on hp, ht]
  rfl

theorem mergeOp_absent (prio : Bool) (ho : ¬s.me.on x.o.tag) (hp : ¬s.me.on x.p.tag) (ht : s.me.pres k = false) :
    mergeOp prio x s = .ok (s.landOn k 0 x.taint) := by
  simp only [mergeOp, clockIndex_target hk, Ctx.tagPres_of_not_on ho, Ctx.tagPres_of_not_on hp, ht]
  rfl

/-- Both inputs present: MERGE_BOTH without priority. -/
theorem mergeOp_both (ho : s.me.on x.o.tag) (hp : s.me.on x.p.tag) : mergeOp false x s = .trap 0x22 5 0 := by
  simp only [mergeOp, clockIndex_target hk, Ctx.tagPres_of_on ho, Ctx.tagPres_of_on hp]
  rfl

/-- Both inputs present: `o`, and one drop more, with priority. -/
theorem mergeOp_drops (ho : s.me.on x.o.tag) (hp : s.me.on x.p.tag) :
    mergeOp true x s = .ok ((s.landAt .dropAdd (.sc SVal.zero)).landOn k x.o.word (x.taint || x.o.taint)) := by
  simp only [mergeOp, clockIndex_target hk, Ctx.tagPres_of_on ho, Ctx.tagPres_of_on hp]
  rfl

end

theorem mergeOp_form {x : Opnds} {s : State} (prio : Bool) (h : 16 ≤ x.t.word.toNat) :
    mergeOp prio x s = .trap 0x27 5 0 := by
  rw [mergeOp, clockIndex_none h]
  rfl

/-- The two merge triggers carry out `mergeOp`, without and with priority. -/
theorem exec_merge {d : Nat} {i : Src → Guard → Instr} (h : (d, i) ∈ [(0x165, Instr.ckMerge), (0x166, Instr.ckMergep)]) :
    ∃ prio, ∀ a g s, exec (i a g) s = trigger .ck d .t (mergeOp prio) a g s := by
  rw [List.mem_pair] at h
  obtain h | h := h
  · obtain ⟨rfl, rfl⟩ := Prod.mk.inj h
    exact ⟨false, fun _ _ _ => rfl⟩
  · obtain ⟨rfl, rfl⟩ := Prod.mk.inj h
    exact ⟨true, fun _ _ _ => rfl⟩

/-! ### The drop count (R188) -/

theorem Ctx.landOne_dropAdd {p : Pend} (c : Ctx) (h : p.dest = .dropAdd) :
    c.landOne p = { c with drop := if c.drop = 0xFFFFFFFF#32 then 0xFFFFFFFF#32 else c.drop + 1 } := by
  have saturated : (if c.drop = BitVec.allOnes 32 then c.drop else c.drop + 1#32) =
      if c.drop = 0xFFFFFFFF#32 then 0xFFFFFFFF#32 else c.drop + 1 := ite_congr rfl id fun _ => rfl
  rw [Ctx.landOne, h, ← saturated]

theorem Value.orTaint_word (v : Value) (b : Bool) : (v.orTaint b).word = v.word := by
  cases v <;> rfl

theorem Ctx.landOne_drop {p : Pend} (c : Ctx) (h : p.dest = .ctxReg 3) :
    (c.landOne p).drop = BitVec.ofNat 32 p.val.word.toNat := by
  rw [Ctx.landOne, h]
  exact congrArg (fun w : Word => BitVec.ofNat 32 w.toNat) (p.val.orTaint_word c.ctaint)

/-- A write of `ctx.drop` lands before a drop of the same cycle. -/
theorem Ctx.landDue_drop {c : Ctx} {v w : Value}
    (h : c.pend = [Pend.inFlight 0 .dropAdd v 0#6, Pend.inFlight 0 (.ctxReg 3) w 0#6]) :
    ∃ d : Ctx, c.landDue = (d.landOne (Pend.inFlight 0 (.ctxReg 3) w 0#6)).landOne (Pend.inFlight 0 .dropAdd v 0#6) := by
  have due : c.pend.filter Pend.due = c.pend := by rw [h]; rfl
  have kept : keepDue c.pend = c.pend := by rw [h]; rfl
  have regs : c.pend.filter Pend.isReg = [Pend.inFlight 0 (.ctxReg 3) w 0#6] := by rw [h]; rfl
  have rest : c.pend.filter (fun p => !p.isReg) = [Pend.inFlight 0 .dropAdd v 0#6] := by rw [h]; rfl
  rw [Ctx.landDue, due, kept]
  simp only [regs, rest]
  exact ⟨_, rfl⟩

/-- A count of 32 bits and one more, unless it is full. -/
theorem drop_saturates (n : Nat) : (if BitVec.ofNat 32 n = 0xFFFFFFFF#32 then 0xFFFFFFFF#32 else BitVec.ofNat 32 n + 1) =
    BitVec.ofNat 32 n + (if n % 2 ^ 32 = 2 ^ 32 - 1 then 0 else 1) := by
  have full : BitVec.ofNat 32 n = 0xFFFFFFFF#32 ↔ n % 2 ^ 32 = 2 ^ 32 - 1 := by
    rw [← BitVec.toNat_inj, BitVec.toNat_ofNat]
    rfl
  by_cases h : BitVec.ofNat 32 n = 0xFFFFFFFF#32
  · rw [if_pos h, if_pos (full.mp h), h]
    rfl
  · rw [if_neg h, if_neg fun hn => h (full.mpr hn)]

/-- Settles O31: each row of the table is one lemma about its operation. -/
theorem samplingAndMerging : Obligations.SamplingAndMerging := by
  unfold Obligations.SamplingAndMerging
  intro on target lands
  refine ⟨?when_, ?isp, ?notIsp, ?rows, ?both, ?drops, fun c p h => c.landOne_dropAdd h, ?first, ?form⟩
  case when_ => exact fun k => completesIf_of_op (fun _ _ _ => rfl) fun x s h => ckWhenOp_lands s h
  case isp => exact completesIf_of_op (fun _ _ _ => rfl) fun x s h => ckIspOp_present h
  case notIsp => exact completesIf_of_op (fun _ _ _ => rfl) fun x s h => ckIspOp_absent h
  case rows =>
    intro k d i hi
    obtain ⟨prio, run⟩ := exec_merge hi
    exact ⟨completesIf_of_op run fun x s ⟨hk, ho, hp, ht⟩ => mergeOp_left hk prio ho hp ht,
      completesIf_of_op run fun x s ⟨hk, ho, hp, ht⟩ => mergeOp_right hk prio ho hp ht,
      trapsIf_of_op run fun x s ⟨hk, hone, ht⟩ => mergeOp_mismatch hk prio hone ht,
      trapsIf_of_op run fun x s ⟨hk, ho, hp, ht⟩ => mergeOp_absentRead hk prio ho hp ht,
      completesIf_of_op run fun x s ⟨hk, ho, hp, ht⟩ => mergeOp_absent hk prio ho hp ht⟩
  case both =>
    exact fun k => trapsIf_of_op (fun _ _ _ => rfl) fun x s ⟨hk, ho, hp⟩ => mergeOp_both hk ho hp
  case drops =>
    exact fun k => completesIf_of_op (fun _ _ _ => rfl) fun x s ⟨hk, ho, hp⟩ => mergeOp_drops hk ho hp
  case first =>
    intro c v w h
    obtain ⟨d, hd⟩ := Ctx.landDue_drop h
    rw [hd, Ctx.landOne_dropAdd _ rfl]
    dsimp only
    rw [Ctx.landOne_drop d rfl]
    exact drop_saturates w.word.toNat
  case form =>
    intro d i hi
    obtain ⟨prio, run⟩ := exec_merge hi
    exact trapsIf_of_op run fun x s h => mergeOp_form prio h

end Sys2Proof.Machine
end

section
/-!
PROOFS of 09_seq_control: delay cells (R189).
-/

namespace Sys2Proof.Machine

/-! ### Where a cell stands -/

/-- A delay cell is aligned, and lies in plain shared memory. -/
def State.cellPlaced (s : State) (va : Nat) : Prop :=
  va % 32 = 0 ∧ sharedRange va 32 = true ∧ s.anyMs s.cur (pagesOf va 32) = .ok false

/-- A delay cell is misaligned, or lies at another level or in a memory-side page. -/
def State.cellMisplaced (s : State) (va : Nat) : Prop :=
  va % 32 ≠ 0 ∨ sharedRange va 32 = false ∨ s.anyMs s.cur (pagesOf va 32) = .ok true

/-- A range elsewhere than in plain shared memory fails its operation. -/
theorem State.inPlain_elsewhere {s : State} {x : CtxRef} {va n : Nat} {cause : Byte} {k : State → MoveR}
    (h : sharedRange va n = false ∨ s.anyMs x (pagesOf va n) = .ok true) : s.inPlain x va n cause k = fault5 cause 0 := by
  cases hrange : sharedRange va n with
  | false => exact State.inPlain_misplaced (.inl hrange)
  | true => exact State.inPlain_misplaced (.inr ⟨hrange, h.resolve_left (by rw [hrange]; exact Bool.noConfusion)⟩)

theorem State.inCell_placed {s : State} {va : Nat} (k : State → MoveR) (h : s.cellPlaced va) :
    s.inCell va k = (k s).lateAs 8 := by
  obtain ⟨haligned, hrange, hms⟩ := h
  rw [State.inCell, if_neg (not_not_intro haligned), State.inPlain_plain hrange hms]

theorem State.inCell_misplaced {s : State} {va : Nat} (k : State → MoveR) (h : s.cellMisplaced va) :
    s.inCell va k = .trap 0x27 5 0 := by
  rw [State.inCell]
  split
  case isTrue => rfl
  case isFalse haligned =>
    rw [State.inPlain_elsewhere (h.resolve_left haligned)]
    rfl

/-! ### Cells read and written -/

section
variable {s u : State} {va : Nat} {x : Opnds}

theorem delayOp_carries {init : Value} {p w : SpanP} (hplace : s.cellPlaced va)
    (hpass : s.passesOne [⟨va, 32, false⟩, ⟨va, 32, true⟩] u [p, w]) :
    let r := u.readSpan u.cur p
    let v := r.1.landCell p r.2.1 r.2.2 init.word init.taint x.t.tag x.taint
    v.pinSpan w.ps (cellBytes x.t.word) = none →
    delayOp va init x s = .ok ((v.writePieces u.cur (v.viewer u.cur) w.ps (cellBytes x.t.word) (x.taint || u.me.ctaint)).unpoison
      (v.viewer u.cur) w.ps) := by
  intro r v hpin
  rw [delayOp, State.inCell_placed _ hplace, admitOne_passesOne hpass]
  dsimp only
  rw [writeSpan_unpinned hpin]
  rfl

/-- `ck.hold` writes and lands its value while the value's clock is present. -/
theorem holdOp_writes {k : Nat} {w : SpanP} (hk : x.targets k) (hplace : s.cellPlaced x.p.word.toNat) (hon : s.me.on x.o.tag)
    (hpass : s.passes [⟨x.p.word.toNat, 32, true⟩] u [w]) (hpin : u.pinSpan w.ps (cellBytes x.o.word) = none) :
    holdOp x s = .ok
      (((u.writePieces u.cur (u.viewer u.cur) w.ps (cellBytes x.o.word) (x.taint || x.o.taint || u.me.ctaint)).unpoison
        (u.viewer u.cur) w.ps).landOn k x.o.word (x.taint || x.o.taint)) := by
  rw [holdOp]
  simp only [clockIndex_target hk]
  rw [State.inCell_placed _ hplace, Ctx.tagPres_of_on hon, if_pos rfl, admitThen_passes hpass]
  dsimp only
  rw [writeSpan_unpinned hpin]
  rfl

/-- `ck.hold` lands what its cell holds while the value's clock is absent. -/
theorem holdOp_reads {k : Nat} {p : SpanP} (hk : x.targets k) (hplace : s.cellPlaced x.p.word.toNat) (hoff : ¬s.me.on x.o.tag)
    (hpass : s.passes [⟨x.p.word.toNat, 32, false⟩] u [p]) :
    holdOp x s = .ok ((u.readSpan u.cur p).1.landCell p (u.readSpan u.cur p).2.1 (u.readSpan u.cur p).2.2 0 false
      (BitVec.ofNat 4 k) x.taint) := by
  rw [holdOp]
  simp only [clockIndex_target hk]
  rw [State.inCell_placed _ hplace, Ctx.tagPres_of_not_on hoff, if_neg Bool.false_ne_true, admitThen_passes hpass]
  rfl

end

/-! ### A cell's value on its way -/

theorem State.takeLate_onTime {s : State} (h : s.lateness = []) : s.takeLate.2 = false := by
  rw [State.takeLate, h]

theorem State.awaitFor_none {s : State} {x : CtxRef} {ps : List Piece} {conv : Conv} {tag : Tag} {taint : Bool}
    (h : ∀ a ∈ ps, a.isRemote = false) : (s.awaitFor x ps conv tag taint).2 = none := by
  have none_ : ¬ps.any Piece.isRemote = true := by simpa using h
  rw [State.awaitFor, if_neg none_]

theorem State.landCell_pend (s : State) (p : SpanP) (bs : List Byte) (st : Bool) (alt : Word) (at_ : Bool) (tag : Tag)
    (taint : Bool) : ∃ q : Pend, (s.landCell p bs st alt at_ tag taint).me.pend = s.me.pend ++ [q] ∧ q.left = 1 ∧
      q.dest = .port .ckq ∧ q.val = (Conv.cell alt at_ st).value bs tag taint ∧ q.flags = 0#6 ∧
      (s.lateness = [] → (∀ a ∈ p.ps, a.isRemote = false) → q.late = false) := by
  have fabric := s.takeLate.1.awaitFor_sameButFabric s.cur p.ps (.cell alt at_ st) tag taint
  have cur := fabric.cur.trans s.takeLate_cur
  have me := fabric.me.trans s.takeLate_me
  refine ⟨_, (State.pend_updCtx cur.symm _).trans (congrArg (fun c : Ctx => c.pend ++ [_]) me), rfl, rfl, rfl, rfl,
    fun hlate hlocal => ?_⟩
  dsimp only
  rw [State.takeLate_onTime hlate, State.awaitFor_none hlocal]
  rfl

/-! ### The bytes of a cell -/

theorem leNat_append (l m : List Byte) : leNat (l ++ m) = leNat l + 256 ^ l.length * leNat m := by
  induction l with
  | nil => simp [leNat]
  | cons b l ih =>
    rw [List.cons_append, leNat, leNat, ih, List.length_cons, pow_succ]
    ring

theorem leNat_replicate_zero (n : Nat) : leNat (List.replicate n 0#8) = 0 := by
  induction n with
  | zero => rfl
  | succ n ih => rw [List.replicate_succ, leNat, ih]; rfl

theorem cellBytes_length (v : Word) : (cellBytes v).length = 32 := by
  simp [cellBytes]

theorem leNat_cellBytes (v : Word) : leNat (cellBytes v) = v.toNat + 2 ^ 64 := by
  rw [cellBytes, leNat_append, leNat_replicate_zero, leNat_append, leNat_leBytes, leNat_leBytes, leBytes_length,
    Nat.mod_eq_of_lt v.isLt]
  norm_num

/-- Settles O32: a placed cell goes on from its passed access, and what lands is `Conv.value` of its bytes. -/
theorem delayCells : Obligations.DelayCells := by
  unfold Obligations.DelayCells
  intro placed misplaced delay
  have row (d : Nat) (us : Uses) (i : Src → Guard → Instr) (cell : Opnds → Nat) (init : Opnds → Value)
      (run : ∀ a g s, exec (i a g) s = trigger .ck d us (fun x => delayOp (cell x) (init x) x) a g s) :
      delay d us i cell init := by
    refine ⟨?_, trapsIf_of_op run fun x s h => State.inCell_misplaced _ h⟩
    intro a g s u p w hfires x hplace hpass r v hpin
    rw [run, trigger_fires hfires, delayOp_carries hplace hpass hpin, finish_ok]
  refine ⟨row 0x168 .opt .ckFby (fun x => x.p.word.toNat) (fun x => x.o) fun _ _ _ => rfl,
    row 0x16C .ot .ckPre (fun x => x.o.word.toNat) (fun _ => .sc SVal.zero) fun _ _ _ => rfl, ?writes, ?reads,
    State.landCell_pend, fun v => ⟨cellBytes_length v, leNat_cellBytes v⟩⟩
  case writes =>
    intro a g s u w k hfires x hword hlt hplace hon hpass hpin
    exact (trigger_fires hfires).trans (congrArg _ (holdOp_writes ⟨hlt, hword⟩ hplace hon hpass hpin))
  case reads =>
    intro a g s u p k hfires x hword hlt hplace hany habsent hpass
    have hoff : ¬s.me.on x.o.tag := by
      rintro (h | h)
      · exact hany h
      · exact Bool.false_ne_true (habsent.symm.trans h)
    exact (trigger_fires hfires).trans (congrArg _ (holdOp_reads ⟨hlt, hword⟩ hplace hoff hpass))

end Sys2Proof.Machine
end

section
/-!
PROOFS of 09_seq_control: atomic sets declared (R197), the end of a reaction (R198), yields (R199), stamps and taint (R200).
-/

namespace Sys2Proof.Machine

/-! ### Atomic sets (R197) -/

/-- Operands of `sy.asdecl` that name whole lines in plain shared memory. -/
def Opnds.namesLines (x : Opnds) (s : State) : Prop :=
  x.o.word.toNat % 128 = 0 ∧ x.t.word.toNat ≠ 0 ∧ x.t.word.toNat % 128 = 0 ∧
    sharedRange x.o.word.toNat x.t.word.toNat = true ∧ s.anyMs s.cur (pagesOf x.o.word.toNat x.t.word.toNat) = .ok false

/-- The set that `sy.asdecl` makes of its operands. -/
def Opnds.newSet (x : Opnds) (s : State) : ASet :=
  ⟨x.o.word.toNat, x.t.word.toNat, s.rangesOf s.cur x.o.word.toNat x.t.word.toNat, false, false, false⟩

section
variable {x : Opnds} {s : State}

theorem syAsdeclOp_form (h : x.o.word.toNat % 128 ≠ 0 ∨ x.t.word.toNat = 0 ∨ x.t.word.toNat % 128 ≠ 0 ∨
    sharedRange x.o.word.toNat x.t.word.toNat = false ∨
      s.anyMs s.cur (pagesOf x.o.word.toNat x.t.word.toNat) = .ok true) : syAsdeclOp x s = .trap 0x25 5 0 := by
  rw [syAsdeclOp]
  dsimp only
  split
  case isTrue => rfl
  case isFalse whole => exact State.inPlain_elsewhere (by tauto)

variable {r : Reaction} (hlines : x.namesLines s) (hreact : s.reactOf s.cur = some r)
include hlines hreact

theorem syAsdeclOp_shares {q : ASet} (hq : q ∈ r.sets)
    (hmeets : q.meets (s.rangesOf s.cur x.o.word.toNat x.t.word.toNat) = true) : syAsdeclOp x s = .trap 0x25 5 0 := by
  obtain ⟨hbase, hlen, hwhole, hrange, hms⟩ := hlines
  have shares : (r.sets.any fun q => q.meets (s.rangesOf s.cur x.o.word.toNat x.t.word.toNat)) = true :=
    List.any_eq_true.mpr ⟨q, hq, hmeets⟩
  rw [syAsdeclOp]
  dsimp only
  rw [if_neg (by omega), State.inPlain_plain hrange hms]
  simp only [hreact, Option.map_some, Option.getD_some, shares, if_true]
  rfl

variable {ps : List Piece} (hapart : ∀ q ∈ r.sets, q.meets (s.rangesOf s.cur x.o.word.toNat x.t.word.toNat) = false)
  (hps : s.resolve s.cur .r x.o.word.toNat x.t.word.toNat = .ok ps)
include hapart hps

/-- What is left of `sy.asdecl` once its range is good: the bound on the sets, and the set added. -/
theorem syAsdeclOp_apart {ref : RunRef} (href : s.me.react = some ref) : syAsdeclOp x s =
    if 16 ≤ r.sets.length then .trap 0x26 5 0
    else .ok (x.put .syq 1 (BitVec.ofNat 64 r.sets.length) 0#6
      (s.updReact ref.id fun r => { r with sets := r.sets ++ [x.newSet s] })) := by
  obtain ⟨hbase, hlen, hwhole, hrange, hms⟩ := hlines
  have apart : ¬(r.sets.any fun q => q.meets (s.rangesOf s.cur x.o.word.toNat x.t.word.toNat)) = true := by
    simpa using hapart
  rw [syAsdeclOp]
  dsimp only
  rw [if_neg (by omega), State.inPlain_plain hrange hms]
  simp only [hreact, Option.map_some, Option.getD_some, if_neg apart, hps, href]
  rfl

end

/-! ### The end of a reaction and yields (R198, R199, R222) -/

theorem syTendOp_blocks {s : State} (x : Opnds) (h : s.me.emu = false) :
    syTendOp x s = .ok (s.setStatus s.cur (.blocked .tend)) := by
  rw [syTendOp, h]
  rfl

theorem syTendOp_handler {s : State} (x : Opnds) (h : s.me.emu = true) : syTendOp x s = .trap 0x07 5 0 := if_pos h

theorem State.yieldTo_none {s : State} {x : CtxRef} (h : s.readySiblings x = []) : s.yieldTo x = s := by
  rw [State.yieldTo, h]

/-! ### Stamps (R200) -/

section
variable {x : Opnds} {s : State}

/-- A number of `sy.stamp` without taint of its own lands like any result. -/
theorem syStampOp_put {n : Nat} {w : Word} (hw : BitVec.ofNat 64 n = w)
    (h : syStampOp x s = .ok (s.land .syq 1 (.scalar (BitVec.ofNat 64 n) x.tag (x.taint || false)) 0#6)) :
    syStampOp x s = .ok (x.put .syq 1 w 0#6 s) := by
  rw [h, hw, Bool.or_false, Opnds.put]

theorem syStampOp_stamp (h : x.t.word = 0) : syStampOp x s = .ok (x.put .syq 1 s.me.stamp 0#6 s) :=
  syStampOp_put (n := s.me.stamp.toNat) (BitVec.ofNat_toNat ..) (by rw [syStampOp, h]; rfl)

theorem syStampOp_instant (h : x.t.word = 1) : syStampOp x s = .ok (x.put .syq 1 (s.me.stamp >>> 16) 0#6 s) := by
  have instant : BitVec.ofNat 64 (s.me.stamp.toNat / 2 ^ 16) = s.me.stamp >>> 16 := by
    rw [← Nat.shiftRight_eq_div_pow, ← BitVec.toNat_ushiftRight, BitVec.ofNat_toNat, BitVec.setWidth_eq]
  exact syStampOp_put instant (by rw [syStampOp, h]; rfl)

theorem syStampOp_age (h : x.t.word = 2) : syStampOp x s = .ok (x.put .syq 1 (s.me.stamp &&& 0xFFFF) 0#6 s) := by
  have age : BitVec.ofNat 64 (s.me.stamp.toNat % 2 ^ 16) = s.me.stamp &&& 0xFFFF := by
    rw [← Nat.and_two_pow_sub_one_eq_mod]
    apply BitVec.eq_of_toNat_eq
    rw [BitVec.toNat_and, BitVec.toNat_ofNat, Nat.mod_eq_of_lt (Nat.and_le_left.trans_lt s.me.stamp.isLt)]
    rfl
  exact syStampOp_put age (by rw [syStampOp, h]; rfl)

theorem syStampOp_wounds (h : x.t.word = 3) : syStampOp x s =
    .ok (s.land .syq 1 (.scalar (BitVec.ofNat 64 (((s.reactOf s.cur).map Reaction.wounds).getD 0)) x.tag true) 0#6) := by
  rw [syStampOp, h]
  exact congrArg (fun b => MoveR.ok (s.land .syq 1 (.scalar _ x.tag b) 0#6)) (Bool.or_true x.taint)

theorem syStampOp_ctaint (h : x.t.word = 4) :
    syStampOp x s = .ok (x.put .syq 1 (if s.me.ctaint then 1 else 0) 0#6 s) := by
  have bit : BitVec.ofNat 64 (if s.me.ctaint then 1 else 0) = if s.me.ctaint then 1 else 0 := by cases s.me.ctaint <;> rfl
  exact syStampOp_put bit (by rw [syStampOp, h]; rfl)

theorem syStampOp_form (h : 4 < x.t.word.toNat) : syStampOp x s = .trap 0x25 5 0 := by
  obtain ⟨n, hn⟩ : ∃ n, x.t.word.toNat = n + 5 := ⟨x.t.word.toNat - 5, by omega⟩
  rw [syStampOp, hn]
  rfl

end

/-- Settles O34: each trigger by its operation's cases. -/
theorem setsEndsAndStamps : Obligations.SetsEndsAndStamps := by
  unfold Obligations.SetsEndsAndStamps
  refine ⟨?adds, ?form, ?full, ?shares, ?tend, ?handler, ?alone, ?yields, ?stamp, ?instant, ?age, ?wounds, ?ctaint, ?item,
    ?taint⟩
  case adds =>
    intro a g s r ref ps hfires x base len hbase hlen hwhole hrange hms href hreact hapart hps hroom
    have op := syAsdeclOp_apart (x := x) ⟨hbase, hlen, hwhole, hrange, hms⟩ hreact hapart hps href
    rw [if_neg (by omega)] at op
    exact (trigger_fires hfires).trans (congrArg _ op)
  case form => exact trapsIf_of_op (fun _ _ _ => rfl) fun x s => syAsdeclOp_form
  case full =>
    intro a g s r ref ps hfires x base len hbase hlen hwhole hrange hms href hreact hapart hps hfull
    have op := syAsdeclOp_apart (x := x) ⟨hbase, hlen, hwhole, hrange, hms⟩ hreact hapart hps href
    rw [if_pos hfull] at op
    exact (trigger_fires hfires).trans (congrArg _ op)
  case shares =>
    refine trapsIf_of_op (fun _ _ _ => rfl) fun x s h => ?_
    obtain ⟨hbase, hlen, hwhole, hrange, hms, r, q, hreact, hq, hmeets⟩ := h
    exact syAsdeclOp_shares ⟨hbase, hlen, hwhole, hrange, hms⟩ hreact hq hmeets
  case tend => exact completesIf_of_op (fun _ _ _ => rfl) fun x s => syTendOp_blocks x
  case handler => exact trapsIf_of_op (fun _ _ _ => rfl) fun x s => syTendOp_handler x
  case alone => exact completesIf_of_op (fun _ _ _ => rfl) fun x s h => congrArg MoveR.ok (State.yieldTo_none h)
  case yields => exact completesIf_of_op (fun _ _ _ => rfl) fun x s h => congrArg MoveR.ok (State.yieldTo_siblings h)
  case stamp => exact completesIf_of_op (fun _ _ _ => rfl) fun x s => syStampOp_stamp
  case instant => exact completesIf_of_op (fun _ _ _ => rfl) fun x s => syStampOp_instant
  case age => exact completesIf_of_op (fun _ _ _ => rfl) fun x s => syStampOp_age
  case wounds => exact completesIf_of_op (fun _ _ _ => rfl) fun x s => syStampOp_wounds
  case ctaint => exact completesIf_of_op (fun _ _ _ => rfl) fun x s => syStampOp_ctaint
  case item => exact trapsIf_of_op (fun _ _ _ => rfl) fun x s => syStampOp_form
  case taint => exact completesIf_of_op (fun _ _ _ => rfl) fun x s _ => rfl

end Sys2Proof.Machine
end

section
/-!
PROOFS of 09_seq_control: counters added to, waited on and read (R191-R196, R116), and fences (R119).
-/

namespace Sys2Proof.Machine

theorem satAdd_toNat (a n : Word) : (satAdd a n).toNat = min (a.toNat + n.toNat) (2 ^ 64 - 1) := by
  rw [satAdd]
  split
  case isTrue room => rw [BitVec.toNat_add, Nat.mod_eq_of_lt room]; omega
  case isFalse full => rw [BitVec.toNat_allOnes]; omega

/-! ### Selectors (R191) -/

/-- A live local counter is one of 16. -/
theorem resolveSel_loc {dev die i : Nat} {w : Word} (h : resolveSel dev die w = .loc i) : i < 16 := by
  unfold resolveSel at h
  dsimp only at h
  split at h
  · cases h
  · split_ifs at h <;> split at h <;> cases h <;> assumption

theorem State.sel_loc {s : State} {x : CtxRef} {i : Nat} {w : Word} (h : s.sel x w = .loc i) : i < 16 := by
  unfold State.sel at h
  split at h
  · split at h
    · split_ifs at h
    · cases h
  · exact resolveSel_loc h

/-- The number of a live local counter is its selector word. -/
theorem State.sel_ofNat (s : State) (x : CtxRef) {i : Nat} (h : i < 16) : s.sel x (BitVec.ofNat 64 i) = .loc i := by
  have word : (BitVec.ofNat 64 i).toNat = i := by rw [BitVec.toNat_ofNat]; omega
  have index : bitsOf i 0 16 = i := by rw [bitsOf]; omega
  have high {lo width : Nat} (hlo : 16 ≤ lo) : bitsOf i lo width = 0 := by
    have small : i < 2 ^ lo := (show i < 2 ^ 16 by omega).trans_le (Nat.pow_le_pow_right (by omega) hlo)
    rw [bitsOf, Nat.div_eq_of_lt small, Nat.zero_mod]
  have resolved : resolveSel s.devid (dieOf x.core) (BitVec.ofNat 64 i) = .loc i := by
    rw [resolveSel]
    simp only [word, index, high, Nat.le_refl, Nat.reduceLeDiff, h, if_true]
    exact if_neg (by omega)
  rw [State.sel, resolved]

section
variable {s : State} {x : CtxRef} {w : Word}

theorem State.selFault_bad (h : s.sel x w = .bad) : s.selFault x w = some 0x25 := by
  rw [State.selFault, h]
  rfl

theorem State.selFault_ungranted (hsel : s.sel x w ≠ .bad) (hgrant : s.granted x (s.sel x w) = false) :
    s.selFault x w = some 0xC0 := by
  rw [State.selFault]
  split
  case h_1 bad => exact absurd bad hsel
  case h_2 => rw [hgrant]; rfl

end

/-! ### Adds to a live local counter (R116, R193) -/

/-- A held add put behind those of a core. -/
def State.holdAdd (s : State) (n : Nat) (a : HeldAdd) : State := s.updCore n fun k => { k with adds := k.adds ++ [a] }

theorem pendingCmd_eq_false {qs : List (List Cmd)} {k n : Nat} :
    pendingCmd qs k n = false ↔ ∀ c ∈ qs.flatten, c.ctx = k → n ≤ c.id := by
  simp only [pendingCmd, List.any_eq_false, List.any_eq_true, Bool.and_eq_true, decide_eq_true_eq, not_exists, not_and,
    List.mem_flatten, Nat.not_lt]
  exact ⟨fun h c ⟨q, hq, hc⟩ => h q hq c hc, fun h q hq c hc => h c ⟨q, hq, hc⟩⟩

/-- A change to the adds of a core leaves its contexts. -/
theorem State.ctx_updCore_adds (s : State) (x : CtxRef) (f : Core → List HeldAdd) :
    (s.updCore x.core fun k => { k with adds := f k }).ctx x = s.ctx x :=
  State.ctx_updCore s x.core _ x.ctx

theorem State.holdAdd_mine {s : State} {x : CtxRef} {a : HeldAdd} (ha : a.ctx = x.ctx)
    (hadds : ∀ h ∈ (s.core x.core).adds, h.ctx ≠ x.ctx) :
    ((s.holdAdd x.core a).core x.core).adds.filter (fun b => decide (b.ctx = x.ctx)) = [a] := by
  have others : (s.core x.core).adds.filter (fun b => decide (b.ctx = x.ctx)) = [] := by
    rw [List.filter_eq_nil_iff]
    exact fun h hh => by simpa using hadds h hh
  rw [State.holdAdd, State.core_updCore, List.filter_append, others, List.nil_append]
  simp [ha]

/-- An add of a context that has nothing on its way waits for nothing (R116). -/
theorem State.holdAdd_ready {s : State} {x : CtxRef} {a : HeldAdd} (ha : a.ctx = x.ctx) (hflits : s.ctxFlits x = false)
    (hloads : (s.ctx x).loadsOut = false) (hbank : (s.ctx x).bank = none)
    (hcmds : ∀ c ∈ (s.core x.core).mxq ++ (s.core x.core).cpq ++ (s.core x.core).msq, c.ctx ≠ x.ctx) :
    (s.holdAdd x.core a).addReady x.core a = true := by
  have ctx : ((s.holdAdd x.core a).core x.core).ctx a.ctx = s.ctx x := by rw [ha]; exact s.ctx_updCore_adds x _
  have idle : pendingCmd [(s.core x.core).mxq, (s.core x.core).cpq, (s.core x.core).msq] a.ctx a.before = false := by
    rw [pendingCmd_eq_false]
    intro c hc hctx
    exact absurd (hctx.trans ha) (hcmds c (by simpa [or_assoc] using hc))
  have queues : pendingCmd [((s.holdAdd x.core a).core x.core).mxq, ((s.holdAdd x.core a).core x.core).cpq,
      ((s.holdAdd x.core a).core x.core).msq] a.ctx a.before = false := by
    rw [State.holdAdd, State.core_updCore]
    exact idle
  have flits : (s.holdAdd x.core a).ctxFlits ⟨x.core, a.ctx⟩ = false := by rw [ha]; exact hflits
  simp only [State.addReady, queues, ctx, hbank, hloads, flits]
  rfl

/-- An add applied to a local counter raises it in its context. -/
theorem State.applyAdd_local (s : State) (x : CtxRef) (i : Nat) (n : Word) :
    (s.applyAdd x (.loc i) n).ctx x = (s.ctx x).addLocal i n := State.ctx_updCtx s x (Ctx.addLocal i n)

theorem syAddOp_local {x : Opnds} {s : State} {i : Nat} (hfault : s.selFault s.cur x.o.word = none)
    (hsel : s.sel s.cur x.o.word = .loc i) (hadds : ∀ h ∈ (s.core s.cur.core).adds, h.ctx ≠ s.cur.ctx)
    (hflits : s.ctxFlits s.cur = false) (hloads : s.me.loadsOut = false) (hbank : s.me.bank = none)
    (hcmds : ∀ c ∈ (s.core s.cur.core).mxq ++ (s.core s.cur.core).cpq ++ (s.core s.cur.core).msq, c.ctx ≠ s.cur.ctx) :
    ∃ t, syAddOp x s = .ok t ∧ t.me = s.me.addLocal i x.t.word := by
  let a : HeldAdd := ⟨s.cur.ctx, i, x.t.word, s.me.ctaint, (s.core s.cur.core).seq⟩
  let u := (s.holdAdd s.cur.core a).updCore s.cur.core fun k => { k with adds := k.adds.erase a }
  have op : syAddOp x s =
      .ok ((s.holdAdd s.cur.core a).applyHeld s.cur (((s.holdAdd s.cur.core a).core s.cur.core).adds.length + 1)) := by
    simp only [syAddOp, hfault, hsel, Sel.shared, Bool.and_false]
    rfl
  have applied := State.applyHeld_single (State.holdAdd_mine (a := a) rfl hadds)
    (State.holdAdd_ready rfl hflits hloads hbank hcmds) ((s.holdAdd s.cur.core a).core s.cur.core).adds.length
  refine ⟨_, op, ?_⟩
  rw [applied, State.sel_ofNat _ _ (State.sel_loc hsel)]
  have ctx : u.ctx s.cur = s.me := (State.ctx_updCore_adds ..).trans (State.ctx_updCore_adds ..)
  exact (State.applyAdd_local u s.cur i x.t.word).trans (by rw [ctx])

/-- An add of an ordered launch to a shared counter is held in its reaction's version (R193). -/
theorem syAddOp_held {x : Opnds} {s : State} {r : RunRef} {l : Launch} {d i : Nat} (hfault : s.selFault s.cur x.o.word = none)
    (hsel : s.sel s.cur x.o.word = .die d i) (hreact : s.me.react = some r) (hord : s.me.ord = true)
    (hlaunch : s.launch? r.lid = some l) (hopen : l.record.open_ = false) : syAddOp x s =
    .ok { s with store := s.store.log r.lid r.stamp [.add (ctrKey d i) x.t.word s.me.ctaint] } := by
  have ordered : s.ordered s.cur = true := by
    change ((s.me).react.isSome && s.me.ord) = true
    rw [hreact, hord]
    rfl
  have word : BitVec.ofNat 64 x.o.word.toNat = x.o.word := by rw [BitVec.ofNat_toNat, BitVec.setWidth_eq]
  simp only [syAddOp, hfault, hsel, Sel.shared, ordered, Bool.and_self, if_true, State.completionAdd, word, hreact,
    Option.bind_some, hlaunch, hopen, Bool.not_true, Bool.false_eq_true, if_false, Sel.addKey]

/-! ### What a wait meets (R195, R196) -/

/-- A wait on a live local counter is met by its value alone. -/
theorem State.waitR_loc (s : State) (x : CtxRef) (i : Nat) (n : Word) : s.waitR x (.loc i) n =
    if n.toNat ≤ (s.ctrVal x (.loc i)).toNat then .met else s.localR x (.loc i) := by
  simp only [State.waitR, State.known, Sel.shared, Bool.not_false, Bool.or_true, if_true, and_true]
  split <;> rfl

theorem State.localR_ne_met (s : State) (x : CtxRef) (c : Sel) : s.localR x c ≠ .met := by
  rw [State.localR]
  split <;> exact WaitR.noConfusion

theorem State.localR_unreachable (s : State) (x : CtxRef) (c : Sel) :
    s.localR x c = .unreachable ↔ s.willAdd x c = false ∧ s.addedNow x c = false := by
  rw [State.localR, ← Bool.or_eq_false_iff]
  cases s.willAdd x c || s.addedNow x c
  · exact iff_of_true rfl rfl
  · exact iff_of_false WaitR.noConfusion Bool.noConfusion

theorem State.waitR_loc_met (s : State) (x : CtxRef) (i : Nat) (n : Word) :
    s.waitR x (.loc i) n = .met ↔ n.toNat ≤ (s.ctrVal x (.loc i)).toNat := by
  rw [State.waitR_loc]
  split
  case isTrue h => exact iff_of_true rfl h
  case isFalse h => exact iff_of_false (s.localR_ne_met x _) h

theorem State.waitR_loc_unreachable (s : State) (x : CtxRef) (i : Nat) (n : Word) : s.waitR x (.loc i) n = .unreachable ↔
    (s.ctrVal x (.loc i)).toNat < n.toNat ∧ s.addedNow x (.loc i) = false ∧ s.willAdd x (.loc i) = false := by
  rw [State.waitR_loc]
  split
  case isTrue h => exact iff_of_false WaitR.noConfusion fun hn => by omega
  case isFalse h =>
    rw [State.localR_unreachable]
    exact ⟨fun ⟨hwill, hnow⟩ => ⟨by omega, hnow, hwill⟩, fun ⟨_, hnow, hwill⟩ => ⟨hwill, hnow⟩⟩

/-- Nothing in flight before the group names a counter (R196). -/
theorem State.willAdd_eq_false (s : State) (x : CtxRef) (c : Sel) : s.willAdd x c = false ↔
    let k := (s.pre x.core).core
    let names (w : Nat) : Prop := s.sel x (BitVec.ofNat 64 w) = c
    (∀ m ∈ k.mxq ++ k.cpq ++ k.msq, m.ctx = x.ctx → ∀ w, m.sel = some w → ¬names w) ∧
      (∀ b ∈ (k.ctx x.ctx).blocks, b.filled = false → ¬names b.sel) ∧ ∀ a ∈ k.adds, a.ctx = x.ctx → ¬names a.ctr := by
  simp only [State.willAdd, Bool.or_eq_false_iff, List.any_eq_false, Bool.and_eq_true, decide_eq_true_eq, Option.any_eq_true,
    Bool.not_eq_true', not_and, not_exists, and_assoc]

section
variable {s : State} {x : CtxRef} {r : RunRef} {l : Launch}

/-- A wait of an ordered launch on a shared counter whose value is known here. -/
theorem State.waitR_ordered {c : Sel} (n : Word) (hreact : (s.ctx x).react = some r) (hlaunch : s.launchOf x = some l)
    (hopen : l.record.open_ = false) (hshared : c.shared = true) (hknown : s.known c = true) :
    s.waitR x c n = (if n.toNat ≤ (s.ownAdds r c (s.ctrVal x c)).toNat then .met
      else if s.reached l (instOf r.stamp) = true then .unreachable else .blocked) := by
  simp only [State.waitR, hreact, hlaunch, hopen, hshared, hknown, Bool.not_true, Bool.or_self, Bool.false_eq_true, if_false]

theorem State.reached_iff {i : Nat} :
    s.reached l i = true ↔ l.cleared = i ∧ (∀ p ∈ l.peers, i ≤ p.clr) ∧ l.lid ∉ s.clearedNow := by
  simp only [State.reached, Bool.and_eq_true, decide_eq_true_eq, List.all_eq_true, Bool.not_eq_true', List.contains_eq_mem,
    decide_eq_false_iff_not, and_assoc]

end

/-- What a wait meets on a counter that is read live, other than a local one. -/
theorem State.waitR_live_ne_unreachable {s : State} {x : CtxRef} {c : Sel} {n : Word} (hloc : ∀ i, c ≠ .loc i)
    (hlive : ∀ r l, (s.ctx x).react = some r → s.launchOf x = some l → l.record.open_ = true ∨ c.shared = false) :
    s.waitR x c n ≠ .unreachable := by
  have read {r : RunRef} {l : Launch} (hreact : (s.ctx x).react = some r) (hlaunch : s.launchOf x = some l) :
      (l.record.open_ || !c.shared) = true := by
    rw [Bool.or_eq_true, Bool.not_eq_true']
    exact hlive r l hreact hlaunch
  unfold State.waitR
  cases c with
  | loc i => exact absurd rfl (hloc i)
  | bad | gang | die | remote =>
    dsimp only
    split
    · next r l hreact hlaunch =>
      rw [if_pos (read hreact hlaunch)]
      split <;> exact WaitR.noConfusion
    · split <;> exact WaitR.noConfusion

/-- Only a local counter and a shared one of an ordered launch can be out of reach. -/
theorem State.waitR_unreachable {s : State} {x : CtxRef} {c : Sel} {n : Word} (h : s.waitR x c n = .unreachable) :
    (∃ i, c = .loc i) ∨
      c.shared = true ∧ ∃ r l, (s.ctx x).react = some r ∧ s.launchOf x = some l ∧ l.record.open_ = false := by
  by_contra neither
  rw [not_or, not_exists, not_and_or] at neither
  obtain ⟨hloc, hlive⟩ := neither
  refine State.waitR_live_ne_unreachable hloc (fun r l hreact hlaunch => ?_) h
  by_contra ordered
  rw [not_or, Bool.not_eq_true, Bool.not_eq_false] at ordered
  exact hlive.elim (fun hs => hs ordered.2) fun hr => hr ⟨r, l, hreact, hlaunch, ordered.1⟩

/-- The effects of a reaction that add to other counters leave a counter's value. -/
theorem State.ownAdds_others {s : State} {r : RunRef} {c : Sel} (v : Word)
    (h : ∀ k n b, Eff.add k n b ∈ s.store.effs r.lid r.stamp → k ≠ c.addKey) : s.ownAdds r c v = v := by
  rw [State.ownAdds]
  refine List.foldlRecOn (motive := fun w => w = v) _ _ rfl fun w hw e he => ?_
  subst hw
  split
  · next k n b => exact if_neg (h k n b he)
  · rfl

theorem State.ownAdds_single {s : State} {r : RunRef} {c : Sel} {n : Word} {b : Bool} (v : Word)
    (h : s.store.effs r.lid r.stamp = [.add c.addKey n b]) : s.ownAdds r c v = satAdd v n := by
  rw [State.ownAdds, h]
  exact if_pos rfl

/-! ### The operations on waits (R195) -/

section
variable {x : Opnds} {s : State} (hfault : s.selFault s.cur x.o.word = none)
include hfault

theorem syWaitOp_met (h : s.waitR s.cur (s.sel s.cur x.o.word) x.t.word = .met) : syWaitOp x s = .ok s := by
  simp only [syWaitOp, hfault, h]

theorem syWaitOp_unreachable (h : s.waitR s.cur (s.sel s.cur x.o.word) x.t.word = .unreachable) :
    syWaitOp x s = .trap 0x23 5 0 := by
  simp only [syWaitOp, hfault, h]
  rfl

theorem syWaitOp_blocks (h : s.waitR s.cur (s.sel s.cur x.o.word) x.t.word = .blocked) :
    syWaitOp x s = .block (.wait x.o.word x.t.word) := by
  simp only [syWaitOp, hfault, h]

end

/-- A counter of the context, its gang or its die lands live, tainted. -/
theorem syPeekOp_here {x : Opnds} {s : State} (hfault : s.selFault s.cur x.t.word = none)
    (hhere : (∃ i, s.sel s.cur x.t.word = .loc i ∨ s.sel s.cur x.t.word = .gang i) ∨
      ∃ i, s.sel s.cur x.t.word = .die (dieOf s.cur.core) i) :
    syPeekOp x s = .ok (s.land .syq 1 (.scalar (s.ctrVal s.cur (s.sel s.cur x.t.word)) x.tag true) 0#6) := by
  obtain ⟨i, hsel | hsel⟩ | ⟨i, hsel⟩ := hhere
  · simp only [syPeekOp, hfault, hsel]
  · simp only [syPeekOp, hfault, hsel]
  · simp only [syPeekOp, hfault, hsel, if_true]

theorem syAddOp_fault {x : Opnds} {s : State} {c : Byte} (h : s.selFault s.cur x.o.word = some c) :
    syAddOp x s = .trap c 5 0 := by
  rw [syAddOp, h]
  rfl

theorem syWaitOp_fault {x : Opnds} {s : State} {c : Byte} (h : s.selFault s.cur x.o.word = some c) :
    syWaitOp x s = .trap c 5 0 := by
  rw [syWaitOp, h]
  rfl

theorem syPeekOp_fault {x : Opnds} {s : State} {c : Byte} (h : s.selFault s.cur x.t.word = some c) :
    syPeekOp x s = .trap c 5 0 := by
  rw [syPeekOp, h]
  rfl

/-! ### Fences (R119, R197) -/

theorem syFenceOp_done {x : Opnds} {s : State} (hscope : x.t.word.toNat ≤ 5) (h : s.fenceDone s.cur x.t.word.toNat = true) :
    syFenceOp x s = .ok s := by
  rw [syFenceOp, if_neg (by omega), if_pos h]

theorem syFenceOp_blocks {x : Opnds} {s : State} (hscope : x.t.word.toNat ≤ 5) (h : s.fenceDone s.cur x.t.word.toNat = false) :
    syFenceOp x s = .block (.fence x.t.word.toNat) := by
  rw [syFenceOp, if_neg (by omega), h]
  rfl

theorem OutFlit.ofAccess_eq_false (o : OutFlit) (x : CtxRef) :
    o.ofAccess x = false ↔ (o.ofCtx x = true → o.cmd = none → o.flit.fk ≠ 1 ∧ o.flit.fk ≠ 7) := by
  rw [← Bool.not_eq_true]
  simp only [OutFlit.ofAccess, Bool.and_eq_true, Bool.or_eq_true, decide_eq_true_eq, beq_iff_eq, not_and, not_or]
  exact ⟨fun h hctx hcmd => h ⟨hctx, hcmd⟩, fun h hand => h hand.1 hand.2⟩

theorem State.fenceDone_iff (s : State) (x : CtxRef) (n : Nat) : s.fenceDone x n = true ↔
    (∀ c ∈ (s.core x.core).msq, c.ctx = x.ctx → (s.pre x.core).core.seq ≤ c.id) ∧
    (∀ o ∈ (s.pre x.core).flits, o.ofCtx x = true → o.cmd = none → o.flit.fk ≠ 1 ∧ o.flit.fk ≠ 7) ∧
    ((s.pre x.core).core.ctx x.ctx).loadsOut = false ∧
    (2 ≤ n → ∀ c ∈ (s.core x.core).mxq ++ (s.core x.core).cpq, c.ctx = x.ctx → (s.pre x.core).core.seq ≤ c.id) := by
  simp only [State.fenceDone, Bool.and_eq_true, Bool.not_eq_true', Bool.or_eq_true, decide_eq_true_eq, pendingCmd_eq_false,
    List.any_eq_false, Bool.not_eq_true, OutFlit.ofAccess_eq_false, List.flatten_cons, List.flatten_nil, List.append_nil,
    and_assoc]
  rw [← Nat.not_le, ← imp_iff_not_or]

/-- Settles O33: each trigger by its operation's cases; what a wait and a fence decide by the lemmas on `waitR` and
`fenceDone`. -/
theorem countersAndWaits : Obligations.CountersAndWaits := by
  unfold Obligations.CountersAndWaits
  refine ⟨satAdd_toNat, ?local_, ?held, ?met, ?unreachable, ?blocks, ?peek, ?fence, ?fenceBlocks, ?fenceForm, ?addForm, ?waitForm,
    ?peekLease, fun s x i n => ⟨s.waitR_loc_met x i n, ?localReach⟩,
    fun s x c n r l hreact hlaunch hopen hshared hknown => State.waitR_ordered n hreact hlaunch hopen hshared hknown,
    fun s l i => State.reached_iff, fun s r c v => State.ownAdds_others v, fun s r c v n b => State.ownAdds_single v,
    fun s x c n => State.waitR_unreachable, State.fenceDone_iff⟩
  case local_ =>
    intro a g s i hfires hfault hsel hadds hflits hloads hbank hcmds
    obtain ⟨t, hop, hme⟩ := syAddOp_local hfault hsel hadds hflits hloads hbank hcmds
    exact ⟨t.retired, (trigger_fires hfires).trans (congrArg _ hop), rfl, congrArg Ctx.lctr hme⟩
  case held =>
    intro a g s r l d i hfires hfault hsel hreact hord hlaunch hopen held
    exact (trigger_fires hfires).trans (congrArg _ (syAddOp_held hfault hsel hreact hord hlaunch hopen))
  case met => exact completesIf_of_op (fun _ _ _ => rfl) fun x s ⟨hfault, h⟩ => syWaitOp_met hfault h
  case unreachable => exact trapsIf_of_op (fun _ _ _ => rfl) fun x s ⟨hfault, h⟩ => syWaitOp_unreachable hfault h
  case blocks =>
    intro a g s hfires x hfault h
    exact (trigger_fires hfires).trans (congrArg _ (syWaitOp_blocks hfault h))
  case peek => exact completesIf_of_op (fun _ _ _ => rfl) fun x s ⟨hfault, hhere⟩ => syPeekOp_here hfault hhere
  case fence => exact completesIf_of_op (fun _ _ _ => rfl) fun x s ⟨hscope, h⟩ => syFenceOp_done hscope h
  case fenceBlocks =>
    intro a g s hfires x hscope h
    exact (trigger_fires hfires).trans (congrArg _ (syFenceOp_blocks hscope h))
  case fenceForm => exact trapsIf_of_op (fun _ _ _ => rfl) fun x s h => if_pos h
  case addForm => exact trapsIf_of_op (fun _ _ _ => rfl) fun x s h => syAddOp_fault (State.selFault_bad h)
  case waitForm => exact trapsIf_of_op (fun _ _ _ => rfl) fun x s h => syWaitOp_fault (State.selFault_bad h)
  case peekLease =>
    exact trapsIf_of_op (fun _ _ _ => rfl) fun x s ⟨hsel, hgrant⟩ => syPeekOp_fault (State.selFault_ungranted hsel hgrant)
  case localReach => rw [State.waitR_loc_unreachable, State.willAdd_eq_false]

end Sys2Proof.Machine
end

section
/-!
PROOF. The ends of blocks (10_seq_traps R205, 03_bundles R78, 04_memory R98, 05_ordering R119, 09_seq_control R195, R199,
16_copy R300, 14_matrix R290, 18_clearing R333, 21_spaces R359, R362).
-/

namespace Sys2Proof.Machine

/-! ### An event that ends a block -/

section
variable {x : CtxRef} {s : State} {b : Block} {p : Block → Bool}

/-- A context stays as it is where the event's test holds of no block it is in. -/
theorem State.wakeIf_stays (h : ∀ b, (s.ctx x).status = .blocked b → p b = false) : s.wakeIf x p = s := by
  unfold State.wakeIf
  split
  · next b hb => rw [h b hb]; rfl
  · rfl

/-- An event whose test says of a block that its condition holds ends that block when, and only when, it does. -/
theorem event_wakeIf {C : Prop} (hx : x.wf = true) (hb : (s.ctx x).status = .blocked b) (h : p b = true ↔ C) :
    (C → event x.wf (s.wakeIf x p) = .next (s.setStatus x .ready)) ∧ (¬C → event x.wf (s.wakeIf x p) = .next s) := by
  refine ⟨fun met => ?_, fun unmet => ?_⟩
  · rw [event_ok hx, State.wakeIf_blocked hb (h.mpr met)]
  · rw [event_ok hx, State.wakeIf_stays fun d hd => ?_]
    obtain rfl : b = d := Status.blocked.inj (hb.symm.trans hd)
    exact Bool.eq_false_iff.mpr (unmet ∘ h.mp)

/-- An event whose test holds of some blocks alone leaves a context that is in none of them. -/
theorem event_wakeIf_other {B : Block → Prop} (h : ∀ b, p b = true → B b) (hx : x.wf = true)
    (hb : ∀ b, (s.ctx x).status = .blocked b → ¬B b) : event x.wf (s.wakeIf x p) = .next s := by
  rw [event_ok hx, State.wakeIf_stays fun b hd => Bool.eq_false_iff.mpr fun hp => hb b hd (h b hp)]

end

/-! ### What the events test -/

theorem queueFull_eq_false_iff (q : List Cmd) :
    (!queueFull q) = true ↔ (q.filter fun c => !c.started).length < 16 := by
  rw [Bool.not_eq_true', queueFull, decide_eq_false_iff_not, Nat.not_le]
  rfl

theorem State.not_holdStands_iff (s : State) (n : Nat) (rd wr : List Range) :
    (!s.holdStands n rd wr) = true ↔ ∀ c ∈ (s.core n).held,
      (∀ r ∈ rd ++ wr, piecesMeet c.writes [r] = false) ∧ ∀ r ∈ wr, piecesMeet c.reads [r] = false := by
  simp only [State.holdStands, Bool.not_eq_true', List.any_eq_false, Bool.not_eq_true, Bool.or_eq_false_iff]

theorem State.stillReady_eq_nil_iff (s : State) (n : Nat) (l : List Nat) :
    s.stillReady n l = [] ↔ ∀ k ∈ l, (s.ctx ⟨n, k⟩).status ≠ .ready := by
  simp only [State.stillReady, List.filter_eq_nil_iff, decide_eq_true_eq, ne_eq]

theorem noneOfCtx_iff (q : List Cmd) (k : Nat) : (!q.any fun c => decide (c.ctx = k)) = true ↔ ∀ c ∈ q, c.ctx ≠ k := by
  simp only [Bool.not_eq_true', List.any_eq_false, decide_eq_true_eq, ne_eq]

theorem State.msSettled_iff (s : State) (x : CtxRef) : s.msSettled x = true ↔
    (∀ c ∈ (s.core x.core).msq, c.ctx ≠ x.ctx) ∧ ∀ o ∈ (s.pre x.core).flits, o.ofAccess x = false := by
  rw [State.msSettled, Bool.and_eq_true, noneOfCtx_iff]
  simp only [Bool.not_eq_true', List.any_eq_false, Bool.not_eq_true]

/-! ### `sv.tinv` and `sv.idle` (R359, R362) -/

section
variable {x : CtxRef} {s : State}

theorem State.tinvDone_blocked {sid : Nat} (h : (s.ctx x).status = .blocked (.tinv sid)) :
    s.tinvDone x = ({ s with tinv := s.tinv.filter fun k => k != sid } : State).setStatus x .ready := by
  rw [State.tinvDone, h]

theorem State.tinvDone_other (h : ∀ b, (s.ctx x).status = .blocked b → ¬∃ sid, b = .tinv sid) : s.tinvDone x = s := by
  unfold State.tinvDone
  split
  · next sid hb => exact absurd ⟨sid, rfl⟩ (h _ hb)
  · rfl

theorem State.idleWake_blocked (h : (s.ctx x).status = .blocked .idle) :
    s.idleWake x = if (s.ctx x).wake then s.updCtx x fun c => { c with status := .ready, wake := false } else s := by
  rw [State.idleWake, h]

theorem State.idleWake_other (h : ∀ b, (s.ctx x).status = .blocked b → ¬b = .idle) : s.idleWake x = s := by
  unfold State.idleWake
  split
  · next hb => exact absurd rfl (h _ hb)
  · rfl

end

/-! ### The obligation -/

/-- Settles O48: each event tests the block it ends, and what it tests is the condition of that block. -/
theorem blocksEndOnTheirCondition : Obligations.BlocksEndOnTheirCondition := by
  unfold Obligations.BlocksEndOnTheirCondition
  refine ⟨fun u x s hx hb => event_wakeIf hx hb (queueFull_eq_false_iff _), fun x s => event_wakeIf_other ?notQueue,
    fun rd wr x s hx hb => event_wakeIf hx hb (s.not_holdStands_iff ..), fun x s => event_wakeIf_other ?notHold,
    fun w n x s hx hb => event_wakeIf hx hb decide_eq_true_iff, fun x s => event_wakeIf_other ?notWait,
    fun k x s hx hb => event_wakeIf hx hb Iff.rfl, fun x s => event_wakeIf_other ?notFence,
    fun l x s hx hb => event_wakeIf hx hb (decide_eq_true_iff.trans (s.stillReady_eq_nil_iff ..)),
    fun x s => event_wakeIf_other ?notYield,
    fun line full x s hx hb => event_wakeIf hx hb Iff.rfl, fun x s => event_wakeIf_other ?notFe,
    fun x s hx hb => event_wakeIf hx hb (iff_of_true (decide_eq_true rfl) trivial),
    fun x s => event_wakeIf_other fun b => of_decide_eq_true,
    fun n x s hx hb => event_wakeIf hx hb decide_eq_true_iff, fun x s => event_wakeIf_other ?notWaitb,
    fun x s hx hb => event_wakeIf hx hb (noneOfCtx_iff ..),
    fun x s => event_wakeIf_other fun b h => of_decide_eq_true (Bool.and_eq_true_iff.mp h).1,
    fun x s hx hb => event_wakeIf hx hb (s.msSettled_iff x),
    fun x s => event_wakeIf_other fun b h => of_decide_eq_true (Bool.and_eq_true_iff.mp h).1,
    fun x s sid hx hb => ?tinv, fun x s hx hb => (event_ok hx _).trans (congrArg _ (State.tinvDone_other hb)),
    fun x s hx hb => ?idle, fun x s hx hb => (event_ok hx _).trans (congrArg _ (State.idleWake_other hb))⟩
  case notQueue | notFence | notYield | notWaitb =>
    intro b h
    split at h
    · exact ⟨_, rfl⟩
    · cases h
  case notHold | notWait | notFe =>
    intro b h
    split at h
    · exact ⟨_, _, rfl⟩
    · cases h
  case tinv =>
    refine ⟨_, (event_ok hx _).trans (congrArg _ (State.tinvDone_blocked hb)), ?_, by simp, rfl⟩
    rw [State.setStatus, State.ctx_updCtx]
  case idle =>
    have woken := (event_ok hx _).trans (congrArg Host.Outcome.next (State.idleWake_blocked hb))
    exact ⟨fun wake => woken.trans (by rw [if_pos wake]), fun none => woken.trans (by rw [none]; rfl)⟩

end Sys2Proof.Machine
end

section
/-!
PROOF. What taking a trap does outside emulation mode: the trap registers (10_seq_traps R210, R211) and the entry of a handler
(10_seq_traps R213, R219, R220, 21_spaces R362).
-/

namespace Sys2Proof.Machine

/-! ### Fields and bits of a word -/

theorem getLsbD_add_bitsOf (w : Word) (lo : Nat) {width i : Nat} (hi : i < width) :
    w.getLsbD (lo + i) = (bitsOf w.toNat lo width).testBit i := by
  rw [bitsOf, Nat.testBit_mod_two_pow, decide_eq_true hi, Bool.true_and, Nat.testBit_div_two_pow, Nat.add_comm]
  rfl

/-- Three flags as a number, the first lowest. -/
def flags3 (a b c : Bool) : Nat := a.toNat + 2 * b.toNat + 4 * c.toNat

theorem flags3_lt (a b c : Bool) : flags3 a b c < 8 := by
  have := a.toNat_lt
  have := b.toNat_lt
  have := c.toNat_lt
  unfold flags3
  omega

theorem testBit_flags3 : ∀ (a b c : Bool) (i : Fin 3), (flags3 a b c).testBit i = [a, b, c][i] := by decide

/-! ### The trap registers after a trap (R210, R211) -/

theorem trapOperand_some (v : Value) : trapOperand (some v) = (v.tag.toNat, v.taint.toNat, v.isVec.toNat, v.word) := by
  rw [trapOperand]
  cases v.taint <;> cases v.isVec <;> rfl

section
variable {c : Ctx} {limm : BitVec 32} {t : Trap} {u : Unit11} {v : Src}

theorem trapRegsOf_tcause_toNat (hslot : t.slot < 8) (hcls : t.cls ≤ 5) : (trapRegsOf c limm t).tcause.toNat =
    t.cause.toNat + 2 ^ 8 * t.slot + 2 ^ 11 * t.nextb.toNat + 2 ^ 12 * t.cls + 2 ^ 15 * (c.emask % 256) := by
  have next : (if t.nextb then 2 ^ 11 else 0) = 2 ^ 11 * t.nextb.toNat := by cases t.nextb <;> rfl
  have := t.cause.isLt
  have := t.nextb.toNat_lt
  simp only [trapRegsOf, next, BitVec.toNat_ofNat]
  omega

theorem trapRegsOf_tcause (hslot : t.slot < 8) (hcls : t.cls ≤ 5) :
    let w := (trapRegsOf c limm t).tcause
    bitsOf w.toNat 0 8 = t.cause.toNat ∧ bitsOf w.toNat 8 3 = t.slot ∧ w.getLsbD 11 = t.nextb ∧
      bitsOf w.toNat 12 3 = t.cls ∧ bitsOf w.toNat 15 8 = c.emask % 256 := by
  have := t.cause.isLt
  have := t.nextb.toNat_lt
  have next : bitsOf (trapRegsOf c limm t).tcause.toNat 11 1 = t.nextb.toNat := by
    rw [trapRegsOf_tcause_toNat hslot hcls, bitsOf]
    omega
  refine ⟨?_, ?_, ?bit, ?_, ?_⟩
  case bit =>
    rw [← Nat.add_zero 11, getLsbD_add_bitsOf _ 11 Nat.one_pos, next]
    cases t.nextb <;> rfl
  all_goals
    rw [trapRegsOf_tcause_toNat hslot hcls, bitsOf]
    omega

theorem trapRegsOf_tgrp : bitsOf (trapRegsOf c limm t).tgrp.toNat 0 3 = c.first % 8 ∧
    bitsOf (trapRegsOf c limm t).tgrp.toNat 5 51 = bitsOf c.pc.toNat 5 51 := by
  simp only [trapRegsOf, bitsOf, BitVec.toNat_ofNat]
  omega

theorem trapRegsOf_operands (hu : moveUnit t.move = some u) (hv : Src.ofCode (bitsOf t.move.toNat 14 10) = some v) :
    (trapRegsOf c limm t).topo = (c.latchO u).word ∧ (trapRegsOf c limm t).topp = (c.latchP u).word ∧
      (trapRegsOf c limm t).topt = (c.src limm v).word := by
  simp only [trapRegsOf, moveSrc, hu, hv, Option.map_some, trapOperand_some, and_self]

theorem trapRegsOf_tmove (hu : moveUnit t.move = some u) (hv : Src.ofCode (bitsOf t.move.toNat 14 10) = some v) :
    let w := (trapRegsOf c limm t).tmove
    bitsOf w.toNat 0 24 = t.move.toNat ∧ bitsOf w.toNat 24 4 = (c.latchO u).tag.toNat ∧
      bitsOf w.toNat 28 4 = (c.latchP u).tag.toNat ∧ bitsOf w.toNat 32 4 = (c.src limm v).tag.toNat ∧
      bitsOf w.toNat 36 3 = flags3 (c.latchO u).taint (c.latchP u).taint (c.src limm v).taint ∧
      bitsOf w.toNat 39 3 = flags3 (c.latchO u).isVec (c.latchP u).isVec (c.src limm v).isVec := by
  have := t.move.isLt
  have := (c.latchO u).tag.isLt
  have := (c.latchP u).tag.isLt
  have := (c.src limm v).tag.isLt
  have := flags3_lt (c.latchO u).taint (c.latchP u).taint (c.src limm v).taint
  have := flags3_lt (c.latchO u).isVec (c.latchP u).isVec (c.src limm v).isVec
  simp only [trapRegsOf, moveSrc, hu, hv, Option.map_some, trapOperand_some, BitVec.toNat_ofNat]
  rw [← flags3, ← flags3]
  simp only [bitsOf]
  omega

end

/-! ### A trap recorded (R208, R210) -/

/-- The context with a trap in its trap registers. -/
def Ctx.trapped (c : Ctx) (limm : BitVec 32) (t : Trap) : Ctx := { c with tr := trapRegsOf c limm t }

theorem Ctx.trapped_tr (c : Ctx) (limm : BitVec 32) (t : Trap) : (c.trapped limm t).tr = trapRegsOf c limm t := rfl

section
variable {s : State} {x : CtxRef} {t : Trap}

/-- A trap recorded changes the context's trap registers, and the observation engine by the record. -/
theorem State.recordTrap_eq (s : State) (x : CtxRef) (limm : BitVec 32) (t : Trap) :
    ∃ o, s.recordTrap x limm t = { s.updCtx x fun c => c.trapped limm t with obs := o } :=
  State.traceCtx_obs ..

theorem State.recordTrap_cores (s : State) (x : CtxRef) (limm : BitVec 32) (t : Trap) :
    (s.recordTrap x limm t).cores = (s.updCtx x fun c => c.trapped limm t).cores := by
  obtain ⟨o, recorded⟩ := s.recordTrap_eq x limm t
  rw [recorded]

theorem State.recordTrap_core (s : State) (x : CtxRef) (limm : BitVec 32) (t : Trap) :
    (s.recordTrap x limm t).core x.core = (s.core x.core).setCtx x.ctx ((s.ctx x).trapped limm t) :=
  (State.core_congr (s.recordTrap_cores x limm t) _).trans (s.core_updCore ..)

theorem State.recordTrap_ctx (s : State) (x : CtxRef) (limm : BitVec 32) (t : Trap) :
    (s.recordTrap x limm t).ctx x = (s.ctx x).trapped limm t := by
  rw [State.ctx, State.recordTrap_core, Core.ctx_setCtx]

@[simp] theorem State.recordTrap_store (s : State) (x : CtxRef) (limm : BitVec 32) (t : Trap) :
    (s.recordTrap x limm t).store = s.store := by
  obtain ⟨o, recorded⟩ := s.recordTrap_eq x limm t
  rw [recorded, State.updCtx_store]

theorem State.recordTrap_launches (s : State) (x : CtxRef) (limm : BitVec 32) (t : Trap) :
    (s.recordTrap x limm t).launches = s.launches := by
  obtain ⟨o, recorded⟩ := s.recordTrap_eq x limm t
  rw [recorded, State.updCtx_launches]

theorem State.recordTrap_handlerOf (s : State) (x : CtxRef) (limm : BitVec 32) (t : Trap) :
    (s.recordTrap x limm t).handlerOf x = s.handlerOf x := by
  simp only [State.handlerOf, State.launchOf, State.launch?, State.recordTrap_ctx, State.recordTrap_launches]
  rfl

/-- UNDEF_OP, and any trap of a supervisor or management context, outside emulation mode: recorded, and the handler entered. -/
theorem State.takeTrap_enters (hwatch : t.cause ≠ cWatch) (hbreak : t.cause ≠ cBreak) (hpinned : t.cause ≠ cPtPinned)
    (hemu : (s.ctx x).emu = false) (h : t.cause = cUndefOp ∨ isSup x.core = true) :
    s.takeTrap x t = (s.recordTrap x s.issue.limm t).enterHandler x (s.handlerOf x) := by
  have run : ¬(t.cause = cWatch ∨ t.cause = cBreak) := not_or.mpr ⟨hwatch, hbreak⟩
  rw [State.takeTrap, if_neg run, if_neg (Bool.eq_false_iff.mp hemu)]
  dsimp only
  rw [if_neg hpinned, if_pos h, State.recordTrap_handlerOf]

end

/-! ### A handler entered (R213, R219, R220, R362) -/

/-- The context as it enters a handler, with the ports of its kind of core. -/
def Ctx.enteredHandler (c : Ctx) (k : Core) (n : Nat) (addr : Word) (sup : Bool) : Ctx :=
  (c.enterHandler k n addr).fixPorts sup

section
variable {s : State} {x : CtxRef} {addr : Word}

theorem State.enterHandler_ctx (h : addr ≠ 0#64) : (s.enterHandler x addr).ctx x =
    (s.ctx x).enteredHandler (s.core x.core) x.ctx addr (isSup x.core) := by
  rw [State.enterHandler, if_neg h, State.ctx, State.core_updCore]
  exact Core.ctx_setCtx ..

theorem State.enterHandler_store (h : addr ≠ 0#64) : (s.enterHandler x addr).store = s.store := by
  rw [State.enterHandler, if_neg h, State.updCore_store]

theorem State.enterHandler_zero : s.enterHandler x 0 = if isSup x.core then s.haltAtEntry0 x else s.failReact x 0x02 0 :=
  if_pos rfl

theorem State.haltAtEntry0_status : ((s.haltAtEntry0 x).ctx x).status = .stopped .trapEntry0 none := by
  have halted : ((s.setStatus x (.stopped .trapEntry0 none)).ctx x).status = .stopped .trapEntry0 none := by
    rw [State.setStatus, State.ctx_updCtx]
  unfold State.haltAtEntry0
  dsimp only
  split
  · exact halted
  · exact halted

/-- SVHALT names the halted core (R389). -/
theorem State.haltAtEntry0_svhalt (hlo : 512 ≤ x.core) (hhi : x.core < 528) :
    (s.haltAtEntry0 x).host.svhalt.getLsbD (x.core - 512) = true := by
  have bit : (BitVec.ofNat 16 (2 ^ (x.core - 512))).getLsbD (x.core - 512) = true := by
    rw [BitVec.getLsbD_ofNat, Nat.testBit_two_pow_self, decide_eq_true (by omega), Bool.and_self]
  rw [State.haltAtEntry0]
  dsimp only
  rw [if_pos ⟨hlo, hhi⟩, BitVec.getLsbD_or, bit, Bool.or_true]

end

/-- General registers 0 to 47 of one bank with 48 to 63 of another. -/
theorem getElem_take48_drop48 (a b : Vector SVal 64) (h : (a.toList.take 48 ++ b.toList.drop 48).length = 64) (i : Fin 64) :
    (⟨⟨a.toList.take 48 ++ b.toList.drop 48⟩, h⟩ : Vector SVal 64)[i] = if i.val < 48 then a[i] else b[i] := by
  simp only [Fin.getElem_fin, Vector.getElem_mk, List.getElem_toArray]
  split
  · next low => rw [List.getElem_append_left (by simpa using low), List.getElem_take, Vector.getElem_toList]
  · next high =>
    rw [List.getElem_append_right (by simpa using high), List.getElem_drop, Vector.getElem_toList]
    simp only [List.length_take, Vector.length_toList]
    congr 1
    omega

section
variable (c : Ctx) (k : Core) (n : Nat) (addr : Word) (sup : Bool)

/-- The kind of core makes no difference but to the ports. -/
theorem Ctx.enteredHandler_eq : ∃ q, c.enteredHandler k n addr sup = { c.enterHandler k n addr with q := q } := by
  cases sup
  · exact ⟨(c.enterHandler k n addr).q, rfl⟩
  · exact ⟨_, rfl⟩

theorem Ctx.enteredHandler_tr : (c.enteredHandler k n addr sup).tr = c.tr := by
  obtain ⟨q, entered⟩ := c.enteredHandler_eq k n addr sup
  rw [entered]
  rfl

theorem Ctx.enteredHandler_g (i : Fin 64) :
    (c.enteredHandler k n addr sup).g[i] = if i.val < 48 then c.g[i] else SVal.zero := by
  obtain ⟨q, entered⟩ := c.enteredHandler_eq k n addr sup
  rw [entered]
  refine (getElem_take48_drop48 c.g (Vector.replicate 64 SVal.zero) (by simp) i).trans ?_
  rw [Fin.getElem_fin (Vector.replicate 64 SVal.zero), Vector.getElem_replicate]

theorem Ctx.enteredHandler_latches (u : Unit11) : (c.enteredHandler k n addr sup).latchO u = .sc SVal.zero ∧
    (c.enteredHandler k n addr sup).latchP u = .sc SVal.zero := by
  obtain ⟨q, entered⟩ := c.enteredHandler_eq k n addr sup
  rw [entered]
  exact ⟨Vector.getElem_replicate _, Vector.getElem_replicate _⟩

theorem Ctx.enteredHandler_port (q : Port) : ((c.enteredHandler k n addr sup).port q).word = 0 ∧
    ((c.enteredHandler k n addr sup).port q).isVec = (!sup && decide (q = .veq)) := by
  cases sup <;> cases q <;> exact ⟨rfl, rfl⟩

end

/-! ### The obligations -/

/-- Settles O18: the trap is recorded first, and the entry of the handler leaves the trap registers. -/
theorem trapRegistersRecordTheTrap : Obligations.TrapRegistersRecordTheTrap := by
  unfold Obligations.TrapRegistersRecordTheTrap
  intro s x t u hwatch hbreak hpinned hemu henter haddr hslot hcls hu v hv c r vs
  have regs : r = trapRegsOf c s.issue.limm t := by
    rw [← Ctx.trapped_tr, ← State.recordTrap_ctx, ← Ctx.enteredHandler_tr, ← State.enterHandler_ctx haddr,
      ← State.takeTrap_enters hwatch hbreak hpinned hemu henter]
  rw [regs]
  obtain ⟨cause, slot, nextb, cls, emask⟩ := trapRegsOf_tcause (c := c) (limm := s.issue.limm) hslot hcls
  obtain ⟨first, pc⟩ := trapRegsOf_tgrp (c := c) (limm := s.issue.limm) (t := t)
  obtain ⟨move, tagO, tagP, tagV, taints, vecs⟩ := trapRegsOf_tmove (c := c) (limm := s.issue.limm) hu hv
  obtain ⟨topo, topp, topt⟩ := trapRegsOf_operands (c := c) (limm := s.issue.limm) hu hv
  refine ⟨cause, slot, nextb, cls, emask, first, pc, rfl, move, tagO, tagP, tagV, fun i => ?flags, topo, topp, topt, rfl⟩
  rw [getLsbD_add_bitsOf _ 36 i.isLt, getLsbD_add_bitsOf _ 39 i.isLt, taints, vecs, testBit_flags3, testBit_flags3]
  exact ⟨List.getElem_map (l := vs) Value.taint, List.getElem_map (l := vs) Value.isVec⟩

/-- Settles O19: the entry of the handler zeroes the handler's bank and puts the program's aside; entry 0 halts or ends. -/
theorem handlerEntry : Obligations.HandlerEntry := by
  unfold Obligations.HandlerEntry
  intro s x t hwatch hbreak hpinned hemu henter
  have entered := State.takeTrap_enters hwatch hbreak hpinned hemu henter
  refine ⟨rfl, fun haddr => ?enters, fun haddr hsup => ?halts, fun haddr hsup => ?fails⟩
  case enters =>
    rw [entered, State.enterHandler_ctx haddr, State.enterHandler_store haddr, State.recordTrap_store, State.recordTrap_ctx,
      State.recordTrap_core]
    set c := (s.ctx x).trapped s.issue.limm t
    set k := (s.core x.core).setCtx x.ctx c
    have g := c.enteredHandler_g k x.ctx (s.handlerOf x) (isSup x.core)
    have latches := c.enteredHandler_latches k x.ctx (s.handlerOf x) (isSup x.core)
    have ports := c.enteredHandler_port k x.ctx (s.handlerOf x) (isSup x.core)
    obtain ⟨q, entry⟩ := c.enteredHandler_eq k x.ctx (s.handlerOf x) (isSup x.core)
    rw [entry] at g latches ports ⊢
    exact ⟨rfl, rfl, rfl, rfl, rfl, rfl, rfl, g, latches, ports, rfl, rfl, rfl, rfl, rfl, rfl, rfl, ⟨_, _, _, rfl⟩, rfl⟩
  case halts =>
    rw [entered, haddr, State.enterHandler_zero, if_pos hsup]
    exact ⟨State.haltAtEntry0_status, State.haltAtEntry0_svhalt⟩
  case fails => rw [entered, haddr, State.enterHandler_zero, if_neg (Bool.eq_false_iff.mp hsup)]

end Sys2Proof.Machine
end

section
/-!
PROOF. What leaves a handler (10_seq_traps R217, R220, R221, 21_spaces R362) and a trap inside one (R222).
-/

namespace Sys2Proof.Machine

/-! ### Numbers for the captured commands (R217; log 152) -/

theorem Core.mem_cmdIds {k : Core} {m : Cmd} (h : m ∈ k.mxq ++ k.cpq ++ k.msq) : m.id ∈ k.cmdIds :=
  List.mem_map_of_mem (List.mem_append_left _ h)

/-- The numbers from `headId` on are below every queued command's, where there is room below it. -/
theorem Core.headId_add_le {k : Core} {m : Cmd} {n : Nat} (h : m ∈ k.mxq ++ k.cpq ++ k.msq) (hn : n ≤ m.id) :
    k.headId n + n ≤ m.id := by
  have mem := Core.mem_cmdIds h
  rw [Core.headId]
  cases hmin : k.cmdIds.min? with
  | none => rw [List.min?_eq_none_iff.mp hmin] at mem; cases mem
  | some a =>
    have least : a ≤ m.id := (List.min?_eq_some_iff.mp hmin).2 _ mem
    rw [Option.getD_some]
    omega

/-! ### A handler left (R217, R220) -/

/-- The captured commands as they are given back: numbered from `head` on, those of the batch open then in batch `batch`. -/
def Bank.returned (b : Bank) (head batch : Nat) : List Cmd :=
  b.cmds.zipIdx.map fun m => { m.1 with id := head + m.2, batch := if m.1.batch = b.batch then batch else m.1.batch }

/-- The context with its bank restored. -/
def Ctx.restored (c : Ctx) (b : Bank) : Ctx :=
  { c with
    g := ⟨⟨c.g.toList.take 48 ++ b.g.toList.drop 48⟩, by simp⟩
    lo := b.lo, lp := b.lp, q := b.q, loop0 := b.loop0, loop1 := b.loop1, pend := b.pend
    pc := b.pc, first := b.first, delay := b.delay, ffPre := b.ffPre, bank := none, emu := false, tret := none
    eret := false }

/-- A core as its context `n` leaves a handler, the captured commands numbered from `head` on. -/
def Core.leftHandler (k : Core) (n : Nat) (b : Bank) (head : Nat) : Core :=
  { (k.giveBack (b.returned head (k.ctx n).batch)).setCtx n ((k.ctx n).restored b) with
    adds := k.adds.map fun a => if a.ctx = n then a.behind b head else a }

section
variable {s : State} {x : CtxRef} {b : Bank} {w : Word}

theorem State.leaveHandler_cores (h : (s.ctx x).bank = some b) : (s.leaveHandler x).cores =
    (s.updCore x.core fun k => k.leftHandler x.ctx b ((s.core x.core).headId b.cmds.length)).cores := by
  rw [State.leaveHandler, h]
  dsimp only
  split <;> rfl

theorem State.leaveHandler_core (h : (s.ctx x).bank = some b) : (s.leaveHandler x).core x.core =
    (s.core x.core).leftHandler x.ctx b ((s.core x.core).headId b.cmds.length) :=
  (State.core_congr (State.leaveHandler_cores h) _).trans (s.core_updCore ..)

theorem State.leaveHandler_ctx (h : (s.ctx x).bank = some b) : (s.leaveHandler x).ctx x = (s.ctx x).restored b := by
  rw [State.ctx, State.leaveHandler_core h]
  exact Core.ctx_setCtx ..

/-! ### The emulated slot (R221) -/

/-- The tags that the trap registers have captured: of the unit's latches and of the value moved. -/
def TrapRegs.tags (r : TrapRegs) : List Tag :=
  [BitVec.ofNat 4 (bitsOf r.tmove.toNat 24 4), BitVec.ofNat 4 (bitsOf r.tmove.toNat 28 4),
    BitVec.ofNat 4 (bitsOf r.tmove.toNat 32 4)]

theorem TrapRegs.tags_toNat (r : TrapRegs) : r.tags.map BitVec.toNat =
    [bitsOf r.tmove.toNat 24 4, bitsOf r.tmove.toNat 28 4, bitsOf r.tmove.toNat 32 4] := by
  simp only [TrapRegs.tags, List.map_cons, List.map_nil, BitVec.toNat_ofNat, Nat.mod_eq_of_lt (bitsOf_lt ..)]

/-- The result of an emulated operation of a unit, by the trap registers and the word written to `ctx.tret`. -/
def Ctx.emulatedResult (c : Ctx) (core : Nat) (w : Word) (u : Unit11) : Pend :=
  ⟨bitsOf w.toNat 1 6, .port (unitPort u), emuValue core (unitPort u) c.tr.tres (commonTag c.tr.tags)
    (decide (bitsOf c.tr.tmove.toNat 36 3 ≠ 0) || c.tr.tresTaint || c.ctaint), 0#6, false, [], 0#64, none, none⟩

/-- What is noted of the slot that the emulation handler has emulated. -/
def Ctx.emulated (c : Ctx) (core : Nat) (w : Word) : EmuSlot :=
  ⟨bitsOf c.tr.tcause.toNat 8 3, c.tr.tags,
    if w.getLsbD 7 then none else (moveUnit (BitVec.ofNat 24 c.tr.tmove.toNat)).map (c.emulatedResult core w)⟩

theorem Ctx.emulated_result {c : Ctx} {u : Unit11} (core : Nat) (hres : w.getLsbD 7 = false)
    (hu : moveUnit (BitVec.ofNat 24 c.tr.tmove.toNat) = some u) :
    (c.emulated core w).result = some (c.emulatedResult core w u) := by
  rw [Ctx.emulated, hres, hu]
  rfl

theorem State.emuReturn_ctx (hfail : w.getLsbD 0 = false) (h : (s.ctx x).bank = some b) : (s.emuReturn x w).ctx x =
    Ctx.showEmask { (s.ctx x).restored b with emuDone := (s.ctx x).emuDone ++ [(s.ctx x).emulated x.core w] } := by
  rw [State.emuReturn, if_neg (Bool.eq_false_iff.mp hfail)]
  dsimp only
  rw [State.ctx_updCtx, State.leaveHandler_ctx h]
  rfl

theorem emuValue_scalar {core : Nat} {q : Port} (h : isSup core = true ∨ q ≠ .veq) (w : Word) (tag : Tag) (taint : Bool) :
    emuValue core q w tag taint = .scalar w tag taint := by
  refine if_neg fun ⟨hcore, hq⟩ => ?_
  rcases h with sup | other
  · exact absurd (of_decide_eq_true sup) (Nat.not_le.mpr hcore)
  · exact other hq

theorem emuValue_vector {core : Nat} (h : isSup core = false) (w : Word) (tag : Tag) (taint : Bool) :
    emuValue core .veq w tag taint = .ve ⟨Vector.replicate 64 (w.setWidth 32), tag, taint⟩ :=
  if_pos ⟨Nat.not_le.mp (of_decide_eq_false h), rfl⟩

theorem eq_ve_of_unitPort {u : Unit11} : unitPort u = .veq → u = .ve := by
  cases u <;> decide

end

/-! ### A trap inside a handler (R222) -/

theorem State.takeTrap_double {s : State} {x : CtxRef} {t : Trap} (hwatch : t.cause ≠ cWatch) (hbreak : t.cause ≠ cBreak)
    (hdouble : t.cause ≠ cEmuDouble) (hemu : (s.ctx x).emu = true) : s.takeTrap x t =
      let inner : Word := BitVec.ofNat 64 t.cause.toNat
      let u := s.recordTrap x s.issue.limm { t with cause := cEmuDouble, info := inner }
      if isSup x.core then u.haltAtEntry0 x else u.failReact x cEmuDouble inner := by
  have run : ¬(t.cause = cWatch ∨ t.cause = cBreak) := not_or.mpr ⟨hwatch, hbreak⟩
  rw [State.takeTrap, if_neg run, if_pos hemu, if_neg hdouble]

/-! ### The obligation -/

/-- Settles O20: what the bank restores is read off the context and the core that leaving a handler gives. -/
theorem handlerReturn : Obligations.HandlerReturn := by
  unfold Obligations.HandlerReturn
  refine ⟨fun s x b hb => ?left, fun s x w b hfail hb => ?emulated,
    fun s x t hwatch hbreak hdouble hemu => State.takeTrap_double hwatch hbreak hdouble hemu⟩
  case left =>
    have core := State.leaveHandler_core hb
    rw [State.leaveHandler_ctx hb]
    exact ⟨rfl, rfl, rfl, rfl, rfl, rfl, rfl, rfl, rfl, rfl, rfl, getElem_take48_drop48 _ _ _, s.leaveHandler_mem x,
      (s.core x.core).headId b.cmds.length, congrArg Core.mxq core, congrArg Core.cpq core, congrArg Core.msq core,
      fun m hm => Core.headId_add_le hm⟩
  case emulated =>
    rw [State.emuReturn_ctx hfail hb]
    refine ⟨rfl, rfl, (s.ctx x).emulated x.core w, rfl, rfl, (s.ctx x).tr.tags_toNat, fun hres => if_pos hres,
      fun hres u hu => ⟨_, Ctx.emulated_result x.core hres hu, rfl, rfl, fun hscalar => ?scalar, fun hsup hve => ?vector⟩⟩
    case scalar =>
      rw [Ctx.emulatedResult, emuValue_scalar (hscalar.imp_right (mt eq_ve_of_unitPort))]
      rfl
    case vector =>
      subst hve
      exact ⟨_, emuValue_vector hsup .., fun j => Vector.getElem_replicate _⟩

end Sys2Proof.Machine
end

section
/-!
PROOFS of 12_vector: what the lane-wise operations share (R246-R248). A lane of a vector by its number, a mask of lanes, the
flags of all lanes gathered; and from an operation on lanes to the claim about its trigger.
-/

namespace Sys2Proof.Machine

/-! ### Lanes (R246) -/

@[simp] theorem laneAt_fin (v : Lanes) (j : Fin 64) : laneAt v j = v[j] := by
  simp only [laneAt, Fin.ofNat_val_eq_self]

theorem laneAt_eq_getElem_mod (v : Lanes) (n : Nat) : laneAt v n = v[n % 64]'(Nat.mod_lt _ (by decide)) := rfl

theorem getElem_lanesOfList (l : List Lane) (j : Fin 64) : (lanesOfList l)[j] = l.getD j 0#32 :=
  getElem_lanesOf _ j

theorem getElem_lanesOfList_range (f : Nat → Lane) (j : Fin 64) : (lanesOfList ((List.range 64).map f))[j] = f j := by
  rw [getElem_lanesOfList]
  simp

/-! ### Masks and gathered flags (R247, R248) -/

/-- The number whose bits below `n` are `f`'s. -/
def maskNat (f : Nat → Bool) (n : Nat) : Nat := (List.range n).foldl (fun m i => if f i then m + 2 ^ i else m) 0

theorem maskNat_succ (f : Nat → Bool) (n : Nat) :
    maskNat f (n + 1) = if f n then maskNat f n + 2 ^ n else maskNat f n := by
  rw [maskNat, List.range_succ, List.foldl_concat, ← maskNat]

theorem maskNat_lt (f : Nat → Bool) (n : Nat) : maskNat f n < 2 ^ n := by
  induction n with
  | zero => exact Nat.one_pos
  | succ n ih =>
    rw [maskNat_succ, pow_succ]
    split <;> omega

theorem testBit_maskNat (f : Nat → Bool) {n i : Nat} (hi : i < n) : (maskNat f n).testBit i = f i := by
  induction n with
  | zero => omega
  | succ n ih =>
    have top := Nat.testBit_lt_two_pow (maskNat_lt f n)
    rw [maskNat_succ]
    rcases Nat.lt_succ_iff_lt_or_eq.mp hi with hlt | rfl
    · split
      · rw [Nat.add_comm, Nat.testBit_two_pow_add_gt hlt, ih hlt]
      · exact ih hlt
    · cases hf : f i
      · simpa using top
      · rw [if_pos rfl, Nat.add_comm, Nat.testBit_two_pow_add_eq, top, Bool.not_false]

theorem getLsbD_maskOf (f : Nat → Bool) (j : Fin 64) : (maskOf f).getLsbD j = f j := by
  rw [maskOf, BitVec.getLsbD_ofNat, decide_eq_true j.isLt, Bool.true_and]
  exact testBit_maskNat f j.isLt

theorem getLsbD_foldl_or {α : Type} (f : α → Num.Flags) (b : Nat) (l : List α) :
    ∀ x : Num.Flags, (l.foldl (fun x a => x ||| f a) x).getLsbD b = (x.getLsbD b || l.any fun a => (f a).getLsbD b) := by
  induction l with
  | nil => simp
  | cons a l ih =>
    intro x
    rw [List.foldl_cons, ih, BitVec.getLsbD_or, List.any_cons, Bool.or_assoc]

/-- A flag stands among those of all lanes exactly if some lane raises it. -/
theorem getLsbD_flags_iff (f : Nat → Num.Flags) (b : Nat) :
    ((List.range 64).foldl (fun x i => x ||| f i) 0#6).getLsbD b = true ↔ ∃ j : Fin 64, (f j).getLsbD b = true := by
  rw [getLsbD_foldl_or, BitVec.getLsbD_zero, Bool.false_or, List.any_eq_true]
  exact ⟨fun ⟨i, hi, hb⟩ => ⟨⟨i, List.mem_range.mp hi⟩, hb⟩, fun ⟨j, hb⟩ => ⟨j, List.mem_range.mpr j.isLt, hb⟩⟩

theorem laneFlags_map (f : Nat → Lane × Num.Flags) :
    laneFlags ((List.range 64).map f) = (List.range 64).foldl (fun x i => x ||| (f i).2) 0#6 :=
  List.foldl_map

/-! ### From an operation on lanes to the claim about its trigger -/

section
variable {d : Nat} {us : Uses} {i : Src → Guard → Instr} {lat : Nat}

theorem lanewise_of_vintOp {op : Lane → Lane → Lane} {f : Lane → Lane → Lane → Lane} (value : ∀ o p t, op o t = f o p t)
    (run : ∀ a g s, exec (i a g) s = trigger .ve d us (vintOp lat op) a g s := by intros; rfl) :
    lanewise d us i lat f := by
  intro a g s hfires
  refine ⟨_, fun j => ?_, by rw [run, trigger_fires hfires]; rfl⟩
  rw [getElem_lanesOf, laneAt_fin, laneAt_fin]
  exact value ..

theorem lanewiseF_of_vfpOp {op f : Num.Mode → Lane → Lane → Lane → Lane × Num.Flags}
    (value : ∀ md o p t, op md o p t = f md o p t)
    (run : ∀ a g s, exec (i a g) s = trigger .ve d us (vfpOp lat op) a g s := by intros; rfl) :
    lanewiseF d us i lat f := by
  intro a g s hfires
  refine ⟨_, _, fun j => ?_, fun b => ?_, by rw [run, trigger_fires hfires]; rfl⟩
  · rw [List.map_map, getElem_lanesOfList_range, Function.comp_apply, laneAt_fin, laneAt_fin, laneAt_fin, value]
  · rw [laneFlags_map, getLsbD_flags_iff]
    simp only [laneAt_fin, value]

theorem lanemask_of_vcmpOp {op f : Lane → Lane → Bool} {opFlags flags : Lane → Lane → Num.Flags}
    (value : ∀ o t, op o t = f o t) (raised : ∀ o t, opFlags o t = flags o t)
    (run : ∀ a g s, exec (i a g) s = trigger .ve d us (vcmpOp lat op opFlags) a g s := by intros; rfl) :
    lanemask d us i lat f flags := by
  intro a g s hfires
  refine ⟨_, _, fun j => ?_, fun b => ?_, by rw [run, trigger_fires hfires]; rfl⟩
  · rw [getLsbD_maskOf, laneAt_fin, laneAt_fin, value]
  · rw [getLsbD_flags_iff]
    simp only [laneAt_fin, raised]

end

end Sys2Proof.Machine
end

section
/-!
PROOFS of 12_vector: the lane-wise integer and logic operations (R256).
-/

namespace Sys2Proof.Machine

theorem vShl_eq_ofNat (o t : Lane) : vShl o t = BitVec.ofNat 32 (o.toNat * 2 ^ (t.toNat % 32)) := by
  rw [vShl]
  apply BitVec.eq_of_toNat_eq
  rw [BitVec.toNat_shiftLeft, Nat.shiftLeft_eq, BitVec.toNat_ofNat]

theorem vShr_eq_ofNat (o t : Lane) : vShr o t = BitVec.ofNat 32 (o.toNat / 2 ^ (t.toNat % 32)) := by
  rw [vShr, ← Nat.shiftRight_eq_div_pow, ← BitVec.toNat_ushiftRight, BitVec.ofNat_toNat, BitVec.setWidth_eq]

theorem vSar_eq_ofInt (o t : Lane) : vSar o t = BitVec.ofInt 32 (o.toInt / 2 ^ (t.toNat % 32)) := by
  rw [vSar, BitVec.sshiftRight, Int.shiftRight_eq_div_pow]
  push_cast
  rfl

/-- Settles O36: each row's operation is the stated function of its lanes, by its definition or by the lemma that says so. -/
theorem vectorIntegerOperations : Obligations.VectorIntegerOperations := by
  unfold Obligations.VectorIntegerOperations
  refine ⟨?add, ?sub, ?mul, lanewise_of_vintOp fun _ _ _ => rfl, lanewise_of_vintOp fun _ _ _ => rfl,
    lanewise_of_vintOp fun _ _ _ => rfl, ?shl, ?shr, ?sar, lanewise_of_vintOp fun _ _ _ => rfl,
    lanewise_of_vintOp fun _ _ _ => rfl, lanemask_of_vcmpOp (fun _ _ => rfl) fun _ _ => rfl,
    lanemask_of_vcmpOp (fun _ _ => rfl) fun _ _ => rfl⟩
  case add => exact lanewise_of_vintOp fun o _ t => by rw [BitVec.ofInt_add, BitVec.ofInt_toInt, BitVec.ofInt_toInt]
  case sub =>
    exact lanewise_of_vintOp fun o _ t => by rw [Int.sub_eq_add_neg, BitVec.ofInt_add, BitVec.ofInt_neg,
      BitVec.ofInt_toInt, BitVec.ofInt_toInt, ← BitVec.sub_eq_add_neg]
  case mul => exact lanewise_of_vintOp fun o _ t => by rw [BitVec.ofInt_mul, BitVec.ofInt_toInt, BitVec.ofInt_toInt]
  case shl => exact lanewise_of_vintOp fun o _ t => vShl_eq_ofNat o t
  case shr => exact lanewise_of_vintOp fun o _ t => vShr_eq_ofNat o t
  case sar => exact lanewise_of_vintOp fun o _ t => vSar_eq_ofInt o t

end Sys2Proof.Machine
end

section
/-!
PROOFS of 12_vector: byte compares (R258), CRC-32C (R259) and the burl hash (R260).
-/

namespace Sys2Proof.Machine

/-! ### Bytes of a lane (R246, R258) -/

/-- Byte `j` of a lane as a number. -/
def byteNat (x : Lane) (j : Nat) : Nat := x.toNat / 2 ^ (8 * j) % 256

theorem laneByte_toNat (x : Lane) (j : Nat) : (laneByte x j).toNat = byteNat x j := by
  rw [laneByte, BitVec.toNat_ofNat, bitsOf, Nat.mod_mod]
  rfl

theorem laneByte_eq_iff (x y : Lane) (j k : Nat) : laneByte x j = laneByte y k ↔ byteNat x j = byteNat y k := by
  rw [← laneByte_toNat, ← laneByte_toNat, BitVec.toNat_inj]

theorem vBeq_toNat (o t : Lane) : (vBeq o t).toNat = maskNat (fun j => decide (laneByte o j = laneByte t j)) 4 := by
  have low := maskNat_lt (fun j => decide (laneByte o j = laneByte t j)) 4
  rw [← Nat.mod_eq_of_lt (low.trans (show 2 ^ 4 < 2 ^ 32 by decide)), maskNat]
  simp only [decide_eq_true_eq]
  rfl

theorem vBeq_lt (o t : Lane) : (vBeq o t).toNat < 16 :=
  vBeq_toNat o t ▸ maskNat_lt _ 4

theorem getLsbD_vBeq (o t : Lane) {j : Nat} (hj : j < 4) :
    (vBeq o t).getLsbD j = decide (byteNat o j = byteNat t j) := by
  rw [BitVec.getLsbD, vBeq_toNat, testBit_maskNat _ hj]
  exact decide_eq_decide.mpr (laneByte_eq_iff ..)

theorem vBfind_toNat (o t : Lane) :
    (vBfind o t).toNat = ((List.range 4).find? fun j => decide (laneByte o j = laneByte t 0)).getD 4 := by
  have low : ((List.range 4).find? fun j => decide (laneByte o j = laneByte t 0)).getD 4 < 2 ^ 32 := by
    cases h : (List.range 4).find? fun j => decide (laneByte o j = laneByte t 0) with
    | none => decide
    | some j => exact (List.mem_range.mp (List.mem_of_find?_eq_some h)).trans (by decide)
  rw [vBfind, BitVec.toNat_ofNat, Nat.mod_eq_of_lt low]

/-- `bfind` is the first byte that is byte 0 of `t`, or 4. -/
theorem vBfind_first (o t : Lane) : (∀ j, j < (vBfind o t).toNat → byteNat o j ≠ byteNat t 0) ∧
    ((vBfind o t).toNat = 4 ∨ (vBfind o t).toNat < 4 ∧ byteNat o (vBfind o t).toNat = byteNat t 0) := by
  rw [vBfind_toNat]
  cases h : (List.range 4).find? fun j => decide (laneByte o j = laneByte t 0) with
  | none =>
    have none := List.find?_range_eq_none.mp h
    exact ⟨fun j hj => by simpa [laneByte_eq_iff] using none j hj, .inl rfl⟩
  | some i =>
    obtain ⟨found, mem, before⟩ := List.find?_range_eq_some.mp h
    exact ⟨fun j hj => by simpa [laneByte_eq_iff] using before j hj,
      .inr ⟨List.mem_range.mp mem, (laneByte_eq_iff ..).mp (of_decide_eq_true found)⟩⟩

theorem vBcmp_self (o : Lane) : vBcmp o o = 0 := by
  rw [vBcmp, List.find?_eq_none.mpr (by simp)]
  rfl

theorem vBcmp_of_first {o t : Lane} {j : Nat} (hj : j < 4) (heq : ∀ k, k < j → byteNat o k = byteNat t k)
    (hne : byteNat o j ≠ byteNat t j) : vBcmp o t =
      if byteNat o j < byteNat t j then BitVec.ofInt 32 (-((j : Int) + 1)) else BitVec.ofNat 32 (j + 1) := by
  have first : ((List.range 4).find? fun j => decide (laneByte o j ≠ laneByte t j)) = some j :=
    List.find?_range_eq_some.mpr ⟨by simpa [laneByte_eq_iff] using hne, List.mem_range.mpr hj,
      fun k hk => by simpa [laneByte_eq_iff] using heq k hk⟩
  rw [vBcmp, first, ← laneByte_toNat, ← laneByte_toNat]

/-- `bcmp` is one more than the position of the first byte that differs, negative where `o`'s is the lesser. -/
theorem vBcmp_toInt {o t : Lane} {j : Nat} (hj : j < 4) (heq : ∀ k, k < j → byteNat o k = byteNat t k) :
    (byteNat o j < byteNat t j → (vBcmp o t).toInt = -(j + 1)) ∧
      (byteNat t j < byteNat o j → (vBcmp o t).toInt = j + 1) := by
  refine ⟨fun h => ?_, fun h => ?_⟩
  · rw [vBcmp_of_first hj heq h.ne, if_pos h, BitVec.toInt_ofInt_eq_self (by decide) (by omega) (by omega)]
  · rw [vBcmp_of_first hj heq h.ne', if_neg h.not_gt, ← BitVec.ofInt_natCast,
      BitVec.toInt_ofInt_eq_self (by decide) (by omega) (by omega)]
    rfl

/-! ### CRC-32C (R259) -/

/-- One bit of a reflected CRC-32C. -/
def crcBit (c : Lane) : Lane := if c.toNat % 2 = 1 then (c >>> 1) ^^^ 0x82F63B78#32 else c >>> 1

theorem crcBit_eq_ite (c : Lane) :
    (if c.getLsbD 0 then (c >>> 1) ^^^ 0x82F63B78#32 else c >>> 1) = crcBit c := by
  rw [crcBit, BitVec.getLsbD, Nat.testBit_zero]
  simp only [decide_eq_true_eq]

theorem crcByte_eq_crcBit (c x : Lane) (j : Nat) : crcByte c (laneByte x j) =
    crcBit (crcBit (crcBit (crcBit (crcBit (crcBit (crcBit (crcBit (c ^^^ BitVec.ofNat 32 (byteNat x j))))))))) := by
  have wide : (laneByte x j).zeroExtend 32 = BitVec.ofNat 32 (byteNat x j) := by
    rw [← laneByte_toNat, BitVec.ofNat_toNat]
  rw [crcByte, wide]
  simp only [crcBit_eq_ite]
  rfl

theorem vCrc32_eq_crcByte (o t : Lane) : vCrc32 o t =
    crcByte (crcByte (crcByte (crcByte o (laneByte t 0)) (laneByte t 1)) (laneByte t 2)) (laneByte t 3) := rfl

/-! ### The burl hash (R260) -/

theorem rotateLeft_eq_or (x : Lane) {n : Nat} (hn : n < 32) : x.rotateLeft n = (x <<< n) ||| (x >>> (32 - n)) := by
  rw [BitVec.rotateLeft_eq_rotateLeftAux_of_lt hn]
  rfl

theorem vBurl_eq_shifts (o t : Lane) : vBurl o t =
    let m := o ^^^ (((t * 0x7A3D91C5#32) <<< 11) ||| ((t * 0x7A3D91C5#32) >>> (32 - 11)))
    ((m <<< 19) ||| (m >>> (32 - 19))) * 5#32 + 0x2C6B8E13#32 := by
  rw [vBurl, rotateLeft_eq_or _ (by decide), rotateLeft_eq_or _ (by decide)]

/-- The CRC of the nine bytes 123456789 before its final complement (R259). -/
theorem vCrc_checkValue : vCrc8 (vCrc32 (vCrc32 0xFFFFFFFF 0x34333231) 0x38373635) 0x39 = 0x1CF96D7C := by
  simp [vCrc8, vCrc32_eq_crcByte, crcByte_eq_crcBit, byteNat, crcBit]

/-- Settles O37: the compares by the first byte for which they stop, the checksums and the hash bit by bit as R259 and R260
give them. -/
theorem vectorBytesChecksumsAndHash : Obligations.VectorBytesChecksumsAndHash := by
  unfold Obligations.VectorBytesChecksumsAndHash
  refine ⟨⟨vBeq, lanewise_of_vintOp fun _ _ _ => rfl, fun o t j hj => ⟨getLsbD_vBeq o t hj, vBeq_lt o t⟩⟩,
    ⟨vBfind, lanewise_of_vintOp fun _ _ _ => rfl, vBfind_first⟩,
    ⟨vBcmp, lanewise_of_vintOp fun _ _ _ => rfl, fun o t => ⟨fun h => h ▸ vBcmp_self o, fun j hj => vBcmp_toInt hj⟩⟩,
    ?crc8, ?crc32, ?burl, lanewise_of_vintOp fun _ _ _ => rfl, vCrc_checkValue, by decide⟩
  case crc8 => exact lanewise_of_vintOp fun o _ t => crcByte_eq_crcBit o t 0
  case crc32 =>
    refine lanewise_of_vintOp fun o _ t => ?_
    rw [vCrc32_eq_crcByte]
    simp only [crcByte_eq_crcBit]
    rfl
  case burl => exact lanewise_of_vintOp fun o _ t => vBurl_eq_shifts o t

end Sys2Proof.Machine
end

section
/-!
PROOFS of 12_vector: selection and lane numbers (R257), reductions under a mask (R261), lane movement (R262), and the
faults of their scalar operands (R267).
-/

namespace Sys2Proof.Machine

/-! ### Scalar operands (R247) -/

theorem scalarOnly_scalar {v : Value} {k : MoveR} (h : v.isVec = false) : scalarOnly [v] k = k := by
  simp [scalarOnly, h]

theorem scalarOnly_vector {v : Value} {k : MoveR} (h : v.isVec = true) : scalarOnly [v] k = .trap cVeForm 5 0 := by
  simp [scalarOnly, h, fault5]

theorem laneIndex_low {v : Value} {k : MoveR} (h : v.word.toNat < 64) : laneIndex v k = k :=
  if_neg h.not_ge

theorem laneIndex_high {v : Value} {k : MoveR} (h : 64 ≤ v.word.toNat) : laneIndex v k = .trap cVeForm 5 0 :=
  if_pos h

theorem vlextOp_fault {x : Opnds} {s : State} (h : x.t.isVec = true ∨ 64 ≤ x.t.word.toNat) :
    vlextOp x s = .trap cVeForm 5 0 := by
  rw [vlextOp]
  rcases Bool.eq_false_or_eq_true x.t.isVec with hvec | hscalar
  · exact scalarOnly_vector hvec
  · rw [scalarOnly_scalar hscalar, laneIndex_high (h.resolve_left (by simp [hscalar]))]

theorem vlinsOp_fault {x : Opnds} {s : State} (h : x.t.isVec = true ∨ x.p.isVec = true ∨ 64 ≤ x.t.word.toNat) :
    vlinsOp x s = .trap cVeForm 5 0 := by
  rw [vlinsOp, scalarOnly]
  split
  case isTrue => rfl
  case isFalse hscalar =>
    obtain ⟨ht, hp⟩ : x.t.isVec = false ∧ x.p.isVec = false := by simpa using hscalar
    exact laneIndex_high (by simpa [ht, hp] using h)

/-! ### Masks and reductions (R137, R261, R262) -/

theorem map_range_eq_finRange {α : Type} (f : Nat → α) (n : Nat) :
    (List.range n).map f = (List.finRange n).map fun j : Fin n => f j := by
  rw [← List.map_coe_finRange_eq_range, List.map_map]
  rfl

/-- The first bit set is the number of clear bits before it (R262). -/
theorem find?_bit_eq_takeWhile (w : Word) : ((List.range 64).find? fun i => w.getLsbD i).getD 64 =
    ((List.range 64).takeWhile fun i => !w.getLsbD i).length := by
  cases h : (List.range 64).find? fun i => w.getLsbD i with
  | none =>
    exact (length_takeWhile_range le_rfl (List.find?_range_eq_none.mp h) fun h64 => absurd h64 (lt_irrefl _)).symm
  | some i =>
    obtain ⟨found, mem, before⟩ := List.find?_range_eq_some.mp h
    exact (length_takeWhile_range (List.mem_range.mp mem).le before fun _ => by rw [found]; rfl).symm

/-- The leaves of a reduction: the lanes that the mask selects, and the operation's identity for the others (R261). -/
theorem vredOp_reduces {pad : Nat} {node : Num.Mode → Nat → Nat → Nat × Num.Flags} {x : Opnds} {s : State}
    (h : x.t.isVec = false) : vredOp pad node x s = .ok (if x.t.word = 0 then x.put .veq2 6 0 0#6 s
      else
        let r := Num.tree64 (node s.me.mode)
          ((List.finRange 64).map fun (j : Fin 64) => if x.t.word.getLsbD j = true then x.o.lanes[j].toNat else pad)
        x.put .veq2 6 (BitVec.ofNat 64 r.1) r.2 s) := by
  rw [vredOp, scalarOnly_scalar h]
  split
  case isTrue hempty => exact congrArg MoveR.ok (if_pos hempty).symm
  case isFalse hsome =>
    simp only [map_range_eq_finRange, laneAt_fin]
    exact congrArg MoveR.ok (if_neg hsome).symm

/-! ### Vectors that land in `ve.q` (R257, R262) -/

theorem vselOp_selects {x : Opnds} {s : State} (h : x.t.isVec = false) : vselOp x s =
    .ok (x.putV 2 (lanesOf fun i => if x.t.word.getLsbD i then laneAt x.o.lanes i else laneAt x.p.lanes i) 0#6 s) := by
  rw [vselOp, scalarOnly_scalar h]
  rfl

theorem vlidOp_counts {x : Opnds} {s : State} (h : x.t.isVec = false) :
    vlidOp x s = .ok (x.putV 2 (lanesOf fun i => BitVec.ofNat 32 (x.t.word.toNat + i)) 0#6 s) := by
  rw [vlidOp, scalarOnly_scalar h]
  rfl

theorem vlrotOp_rotates {x : Opnds} {s : State} (h : x.t.isVec = false) :
    vlrotOp x s = .ok (x.putV 6 (lanesOf fun i => laneAt x.o.lanes (i + 64 - x.t.word.toNat % 64)) 0#6 s) := by
  rw [vlrotOp, scalarOnly_scalar h]
  rfl

theorem vlinsOp_inserts {x : Opnds} {s : State} (ht : x.t.isVec = false) (hp : x.p.isVec = false)
    (hlow : x.t.word.toNat < 64) : vlinsOp x s = .ok (x.putV 6
      (lanesOf fun i => if i = x.t.word.toNat then BitVec.ofNat 32 x.p.word.toNat else laneAt x.o.lanes i) 0#6 s) := by
  have scalar : scalarOnly [x.t, x.p] = id := by
    funext k
    simp [scalarOnly, ht, hp]
  rw [vlinsOp, scalar, id, laneIndex_low hlow]
  rfl

theorem vlextOp_extracts {x : Opnds} {s : State} (h : x.t.isVec = false) (hlow : x.t.word.toNat < 64) :
    vlextOp x s = .ok (x.put .veq2 6 (x.o.lanes[x.t.word.toNat].setWidth 64) 0#6 s) := by
  rw [vlextOp, scalarOnly_scalar h, laneIndex_low hlow, laneAt_fin _ ⟨_, hlow⟩, BitVec.ofNat_toNat]
  rfl

theorem vffsOp_finds {x : Opnds} {s : State} (h : x.t.isVec = false) : vffsOp x s = .ok (x.put .veq2 6
    (BitVec.ofNat 64 ((List.range 64).takeWhile fun i => !x.t.word.getLsbD i).length) 0#6 s) := by
  rw [vffsOp, scalarOnly_scalar h, find?_bit_eq_takeWhile]
  rfl

/-- Settles O38: each operation with scalar masks, amounts and lane numbers, and its fault with others. -/
theorem masksReductionsAndLaneMovement : Obligations.MasksReductionsAndLaneMovement := by
  unfold Obligations.MasksReductionsAndLaneMovement
  intro vec one leaves red
  have row {lat d : Nat} {us : Uses} {i : Src → Guard → Instr} {P : Opnds → Prop} {f : Opnds → Fin 64 → Lane}
      {body : Opnds → State → MoveR} {lanes : Opnds → Nat → Lane}
      (run : ∀ a g s, exec (i a g) s = trigger .ve d us body a g s)
      (hop : ∀ x s, P x → body x s = .ok (x.putV lat (lanesOf (lanes x)) 0#6 s))
      (value : ∀ x, P x → ∀ j : Fin 64, lanes x j = f x j) : vec lat d us i P f := fun a g s hfires hP =>
    ⟨_, fun j => (getElem_lanesOf _ j).trans (value _ hP j), by rw [run, trigger_fires hfires, hop _ _ hP, finish_ok]⟩
  clear_value vec -- so that `row` is matched against its arguments, not against its unfolding
  refine ⟨?sel, ?lid, ?perm, ?lrot, ?lins, ?lext, completesIf_of_op (fun _ _ _ => rfl) fun x s h => vffsOp_finds h,
    completesIf_of_op (fun _ _ _ => rfl) fun x s h => vredOp_reduces h,
    completesIf_of_op (fun _ _ _ => rfl) fun x s h => vredOp_reduces h,
    completesIf_of_op (fun _ _ _ => rfl) fun x s h => vredOp_reduces h,
    trapsIf_of_op (fun _ _ _ => rfl) fun x s => scalarOnly_vector,
    trapsIf_of_op (fun _ _ _ => rfl) fun x s => scalarOnly_vector,
    trapsIf_of_op (fun _ _ _ => rfl) fun x s => scalarOnly_vector,
    trapsIf_of_op (fun _ _ _ => rfl) fun x s => scalarOnly_vector,
    ?reductions, trapsIf_of_op (fun _ _ _ => rfl) fun x s h => vlextOp_fault h,
    trapsIf_of_op (fun _ _ _ => rfl) fun x s h => vlinsOp_fault h⟩
  case sel => exact row (fun _ _ _ => rfl) (fun x s h => vselOp_selects h) fun x h j => by simp only [laneAt_fin]
  case lid => exact row (fun _ _ _ => rfl) (fun x s h => vlidOp_counts h) fun x h j => rfl
  case perm =>
    refine row (body := vpermOp) (fun _ _ _ => rfl) (fun x s h => rfl) fun x h j => ?_
    rw [laneAt_eq_getElem_mod]
    simp only [laneAt_fin]
  case lrot =>
    refine row (fun _ _ _ => rfl) (fun x s h => vlrotOp_rotates h) fun x h j => ?_
    have turn : j.val + 64 - x.t.word.toNat % 64 = j.val + (64 - x.t.word.toNat % 64) := by omega
    rw [turn, laneAt_eq_getElem_mod]
  case lins =>
    refine row (fun _ _ _ => rfl) (fun x s ⟨ht, hp, hlow⟩ => vlinsOp_inserts ht hp hlow) fun x h j => ?_
    rw [laneAt_fin, BitVec.ofNat_toNat]
  case lext =>
    intro a g s hfires x hscalar hlow
    rw [show exec (.veLext a g) s = trigger .ve 0x1D2 .ot vlextOp a g s from rfl, trigger_fires hfires,
      vlextOp_extracts hscalar hlow, finish_ok]
  case reductions =>
    intro e he
    fin_cases he <;> exact trapsIf_of_op (fun _ _ _ => rfl) fun x s => scalarOnly_vector

end Sys2Proof.Machine
end

section
/-!
PROOFS of 06_numbers and 12_vector: quotients, roots, powers and logarithms of special values, of integers and of powers of
two (R252).
-/

namespace Sys2Proof.Num

variable (f : Fmt) (md : Mode)

/-! ### Special operands (R124, R252) -/

theorem divV_inf_inf (n p : Bool) : divV f md (.inf n) (.inf p) = (f.nanBits, NV) := rfl

theorem divV_by_inf (n p : Bool) (m : Nat) (e : Int) : divV f md (.fin n m e) (.inf p) = (zeroOf f (n != p), 0) := rfl

theorem divV_inf_by (n p : Bool) (m : Nat) (e : Int) : divV f md (.inf n) (.fin p m e) = (infOf f (n != p), 0) := rfl

theorem divV_by_zero {m : Nat} (hm : m ≠ 0) (n p : Bool) (e e' : Int) :
    divV f md (.fin n m e) (.fin p 0 e') = (infOf f (n != p), DZ) := by
  simp [divV, FVal.isNan, FVal.neg, hm]

theorem divV_zero_by_zero (n p : Bool) (e e' : Int) : divV f md (.fin n 0 e) (.fin p 0 e') = (f.nanBits, NV) := rfl

theorem divV_zero_by {m : Nat} (hm : m ≠ 0) (n p : Bool) (e e' : Int) :
    divV f md (.fin n 0 e) (.fin p m e') = (zeroOf f (n != p), 0) := by
  simp [divV, FVal.isNan, FVal.neg, hm]

/-- The roots and the logarithm of a negative number are invalid. -/
theorem roots_of_negative {m : Nat} (hm : m ≠ 0) (e : Int) : sqrtV f md (.fin true m e) = (f.nanBits, NV) ∧
    rsqrtV f md (.fin true m e) = (f.nanBits, NV) ∧ log2V f md (.fin true m e) = (f.nanBits, NV) := by
  simp [sqrtV, rsqrtV, log2V, hm]

/-! ### Powers of two are exact (R252) -/

theorem bitLen_two_pow (j : Nat) : bitLen (2 ^ j) = j + 1 := by
  rw [bitLen, if_neg (by positivity), Nat.log2_two_pow]

theorem log2V_two_pow (j : Nat) (e : Int) : log2V f md (.fin false (2 ^ j) e) = ofInt f md (e + j) := by
  have pos : 2 ^ j ≠ 0 := by positivity
  have lead : e + (j + 1 : Nat) - 1 = e + j := by omega
  simp only [log2V, pos, bitLen_two_pow, lead, Nat.add_sub_cancel, if_true, if_false, Bool.false_eq_true]
  rfl

/-- A power of two in the range of FP32's normal numbers is rounded to itself. -/
theorem roundFin_two_pow {k : Int} (hlow : -126 ≤ k) (hhigh : k ≤ 127) :
    roundFin fp32 md false 1 k = ((k + 127).toNat * 2 ^ 23, 0) := by
  have lead : k + (bitLen 1 : Nat) - 1 = k := by
    rw [show bitLen 1 = 1 from rfl]
    omega
  have place : max (k - (23 : Nat)) (1 - ((127 : Nat) : Int) - (23 : Nat)) = k - 23 := by omega
  have shift : roundShift md false 1 (k - 23 - k) = (2 ^ 23, false) := by
    rw [show k - 23 - k = -23 by omega]
    rfl
  have bits : (k - 23 - (1 - ((127 : Nat) : Int) - (23 : Nat))).toNat * 2 ^ 23 + 2 ^ 23 = (k + 127).toNat * 2 ^ 23 := by
    omega
  have below : ¬ fp32.infBits ≤ (k + 127).toNat * 2 ^ 23 := by
    rw [show fp32.infBits = 255 * 2 ^ 23 from rfl]
    omega
  have mag : (roundMag fp32 md false 1 k).1 = (k + 127).toNat * 2 ^ 23 ∧ (roundMag fp32 md false 1 k).2.1 = false := by
    simp only [roundMag, lead, show fp32.mbits = 23 from rfl, show fp32.bias = 127 from rfl, place, shift, bits, and_self]
  obtain ⟨magnitude, exact⟩ := mag
  have fits : roundFin fp32 md false 1 k = (0 + (roundMag fp32 md false 1 k).1, _) := if_neg (magnitude ▸ below)
  rw [fits, magnitude, exact, Nat.zero_add, Bool.false_and]
  rfl

variable {m k : Nat} {e : Int}

/-- The leading bit of a number below 2^7 stands below 2^7. -/
theorem lead_le_of_eq_nat (hm : m ≠ 0) (h : (m : ℚ) * 2 ^ e = k) (hk : k ≤ 126) : e + bitLen m ≤ 7 := by
  have hlow : (2 : ℚ) ^ (Nat.log2 m : ℤ) ≤ m := by exact_mod_cast Nat.log2_self_le hm
  have hk7 : (k : ℚ) < 2 ^ (7 : ℤ) := by
    have : (k : ℚ) ≤ 126 := by exact_mod_cast hk
    linarith [show (2 : ℚ) ^ (7 : ℤ) = 128 by norm_num]
  have : (2 : ℚ) ^ ((Nat.log2 m : ℤ) + e) < 2 ^ (7 : ℤ) := calc
    (2 : ℚ) ^ ((Nat.log2 m : ℤ) + e) = 2 ^ (Nat.log2 m : ℤ) * 2 ^ e := zpow_add₀ two_ne_zero _ _
    _ ≤ m * 2 ^ e := by gcongr
    _ < 2 ^ (7 : ℤ) := h ▸ hk7
  have := (zpow_lt_zpow_iff_right₀ one_lt_two).mp this
  rw [bitLen, if_neg hm]
  omega

/-- Two to an integer is that power of two, rounded once. -/
theorem exp2V_integer (n : Bool) (h : (m : ℚ) * 2 ^ e = k) (hk : k ≤ 126) :
    exp2V fp32 md (.fin n m e) = roundFin fp32 md false 1 (if n then -k else k) := by
  by_cases hm : m = 0
  · subst hm
    obtain rfl : k = 0 := by simpa using h.symm
    cases n <;> rfl
  have inRange : ¬ 20 < e + (bitLen m : Int) := by
    have := lead_le_of_eq_nat hm h hk
    omega
  rw [exp2V, if_neg hm, if_neg inRange]
  rcases le_or_gt 0 e with he | he
  · obtain ⟨d, rfl⟩ := Int.eq_ofNat_of_zero_le he
    have hint : (m : Int) * 2 ^ d = k := by exact_mod_cast h
    rw [if_pos he]
    simp only [Int.toNat_natCast, hint]
  · obtain ⟨d, rfl⟩ := Int.exists_eq_neg_ofNat he.le
    have hnat : m = k * 2 ^ d := by
      rw [zpow_neg, ← div_eq_mul_inv, div_eq_iff (by positivity)] at h
      exact_mod_cast h
    have pos : 0 < 2 ^ d := by positivity
    rw [if_neg he.not_ge]
    simp only [neg_neg, Int.toNat_natCast, hnat, Nat.mul_mod_left, Nat.mul_div_cancel _ pos, if_true]

theorem exp2V_integer_bits (n : Bool) (h : (m : ℚ) * 2 ^ e = k) (hk : k ≤ 126) :
    exp2V fp32 md (.fin n m e) = ((if n then 127 - k else 127 + k) * 2 ^ 23, 0) := by
  rw [exp2V_integer md n h hk]
  cases n
  case false =>
    have biased : ((k : Int) + 127).toNat = 127 + k := by omega
    exact (roundFin_two_pow md (k := k) (by omega) (by omega)).trans (by rw [biased]; rfl)
  case true =>
    have biased : (-(k : Int) + 127).toNat = 127 - k := by omega
    exact (roundFin_two_pow md (k := -k) (by omega) (by omega)).trans (by rw [biased]; rfl)

end Sys2Proof.Num
end

section
/-!
PROOFS of 12_vector: the lane-wise floating-point operations (R250-R253).
-/

namespace Sys2Proof.Machine

/-- A NaN among the operands of `min` and `max` gives the canonical NaN, and other values set no flag (R250). -/
theorem lane32_minmaxV (wantMax : Bool) (o t : Lane) :
    lane32 (Num.minmaxV Num.fp32 wantMax (Num.f32 o) (Num.f32 t) o.toNat t.toNat) =
      if (Num.f32 o).isNan || (Num.f32 t).isNan then (0x7FC00000#32, Num.snanFlag [Num.f32 o, Num.f32 t])
      else (BitVec.ofNat 32 (Num.minmaxV Num.fp32 wantMax (Num.f32 o) (Num.f32 t) o.toNat t.toNat).1, 0#6) := by
  unfold Num.minmaxV
  split <;> rfl

/-- Settles O35: each operation is the stated function of its lanes by its definition, and the special values are those of the
lemmas on quotients, roots, powers and logarithms. -/
theorem vectorFloatOperations : Obligations.VectorFloatOperations := by
  unfold Obligations.VectorFloatOperations
  refine ⟨lanewiseF_of_vfpOp fun _ _ _ _ => rfl, lanewiseF_of_vfpOp fun _ _ _ _ => rfl, lanewiseF_of_vfpOp fun _ _ _ _ => rfl,
    lanewiseF_of_vfpOp fun _ _ _ _ => rfl, lanewiseF_of_vfpOp fun _ _ _ _ => rfl, lanewiseF_of_vfpOp fun _ _ _ _ => rfl,
    lanewiseF_of_vfpOp fun _ _ _ _ => rfl, lanewiseF_of_vfpOp fun _ _ _ _ => rfl, lanewiseF_of_vfpOp fun _ _ _ _ => rfl,
    lanewiseF_of_vfpOp fun _ _ _ _ => rfl, lanewiseF_of_vfpOp fun _ _ _ _ => rfl,
    lanewiseF_of_vfpOp fun _ o _ t => lane32_minmaxV false o t, lanewiseF_of_vfpOp fun _ o _ t => lane32_minmaxV true o t,
    lanewiseF_of_vfpOp fun _ _ _ _ => rfl, lanewiseF_of_vfpOp fun _ _ _ _ => rfl, lanewiseF_of_vfpOp fun _ _ _ _ => rfl,
    lanewiseF_of_vfpOp fun _ _ _ _ => rfl, lanemask_of_vcmpOp (fun _ _ => rfl) fun _ _ => rfl,
    lanemask_of_vcmpOp (fun _ _ => rfl) fun _ _ => rfl, fun md n p i j k l => ?quotients, fun md n i k => ?zeros,
    fun md s => ?nansAndInfinities, fun md n m k e h hk => Num.exp2V_integer_bits md n h hk,
    fun md j e => Num.log2V_two_pow _ md j e⟩
  case quotients =>
    exact ⟨fun hi => Num.divV_by_zero _ md hi n p k l, Num.divV_zero_by_zero _ md n p k l, Num.divV_inf_inf _ md n p,
      Num.divV_by_inf _ md n p i k, Num.divV_inf_by _ md n p j l, fun hj => Num.divV_zero_by _ md hj n p k l⟩
  case zeros =>
    exact ⟨rfl, rfl, rfl, Num.roundFin_two_pow md (k := 0) (by decide) (by decide), fun hi => Num.roots_of_negative _ md hi k⟩
  case nansAndInfinities =>
    refine ⟨fun f hf => ?_, fun f hf => ?_, fun f hf => ?_, rfl, rfl⟩ <;> fin_cases hf <;> rfl

end Sys2Proof.Machine
end

section
/-!
PROOFS of 12_vector: what an operation that reaches no memory leaves alone (R246, R248, R249).
-/

namespace Sys2Proof.Machine

/-! ### What operations on lanes add -/

/-- A vector on its way to `ve.q`. -/
def Pend.isVector (p : Pend) : Prop := p.dest = .port .veq

/-- A scalar on its way to `ve.q2`. -/
def Pend.isScalar (p : Pend) : Prop := p.dest = .port .veq2

/-- A result on its way without flags. -/
def Pend.noFlags (p : Pend) : Prop := p.flags = 0#6

/-- An operation that, where it goes on, adds results that satisfy `D` and changes nothing else. -/
def addsOnly (D : Pend → Prop) (body : Opnds → State → MoveR) : Prop :=
  ∀ x s v, body x s = .ok v → pendsOnly s v.retired D

section
variable {D : Pend → Prop} {k : Opnds → State → MoveR}

theorem addsOnly_vland (r : Opnds → State → Lanes) (lat : Nat) (f : Opnds → State → Num.Flags) :
    addsOnly Pend.isVector fun x s => .ok (s.vland (r x s) lat x (f x s)) := by
  intro x s v h
  cases h
  exact pendsOnly_land _ _ _ _ _ rfl

theorem addsOnly_sland (w : Opnds → State → Word) (lat : Nat) (f : Opnds → State → Num.Flags) :
    addsOnly Pend.isScalar fun x s => .ok (s.sland (w x s) lat x (f x s)) := by
  intro x s v h
  cases h
  exact pendsOnly_land _ _ _ _ _ rfl

theorem addsOnly_vland_noFlags (r : Opnds → State → Lanes) (lat : Nat) :
    addsOnly (fun p => p.isVector ∧ p.noFlags) fun x s => .ok (s.vland (r x s) lat x 0#6) := by
  intro x s v h
  cases h
  exact pendsOnly_land _ _ _ _ _ ⟨rfl, rfl⟩

theorem addsOnly_sland_noFlags (w : Opnds → State → Word) (lat : Nat) :
    addsOnly (fun p => p.isScalar ∧ p.noFlags) fun x s => .ok (s.sland (w x s) lat x 0#6) := by
  intro x s v h
  cases h
  exact pendsOnly_land _ _ _ _ _ ⟨rfl, rfl⟩

theorem addsOnly.scalarOnly (h : addsOnly D k) (vs : Opnds → List Value) :
    addsOnly D fun x s => scalarOnly (vs x) (k x s) := by
  intro x s v went
  dsimp only at went
  rw [Machine.scalarOnly] at went
  split at went
  · cases went
  · exact h x s v went

theorem addsOnly.laneIndex (h : addsOnly D k) (t : Opnds → Value) : addsOnly D fun x s => laneIndex (t x) (k x s) := by
  intro x s v went
  dsimp only at went
  rw [Machine.laneIndex] at went
  split at went
  · cases went
  · exact h x s v went

end

theorem vfpOp_addsOnly (lat : Nat) (op : Num.Mode → Lane → Lane → Lane → Lane × Num.Flags) :
    addsOnly Pend.isVector (vfpOp lat op) := addsOnly_vland _ _ _

theorem vintOp_addsOnly (lat : Nat) (op : Lane → Lane → Lane) :
    addsOnly (fun p => p.isVector ∧ p.noFlags) (vintOp lat op) := addsOnly_vland_noFlags _ _

theorem vcmpOp_addsOnly (lat : Nat) (op : Lane → Lane → Bool) (flags : Lane → Lane → Num.Flags) :
    addsOnly Pend.isScalar (vcmpOp lat op flags) := addsOnly_sland _ _ _

/-- A compare of integers raises no flag. -/
theorem vcmpOp_int_addsOnly (lat : Nat) (op : Lane → Lane → Bool) :
    addsOnly (fun p => p.isScalar ∧ p.noFlags) (vcmpOp lat op fun _ _ => 0#6) := by
  intro x s v h
  cases h
  exact pendsOnly_land _ _ _ _ _ ⟨rfl, List.foldl_fixed' (fun _ => BitVec.or_self) _⟩

theorem vselOp_addsOnly : addsOnly (fun p => p.isVector ∧ p.noFlags) vselOp :=
  (addsOnly_vland_noFlags _ _).scalarOnly _

theorem vlidOp_addsOnly : addsOnly (fun p => p.isVector ∧ p.noFlags) vlidOp :=
  (addsOnly_vland_noFlags _ _).scalarOnly _

theorem vpermOp_addsOnly : addsOnly (fun p => p.isVector ∧ p.noFlags) vpermOp := addsOnly_vland_noFlags _ _

theorem vlrotOp_addsOnly : addsOnly (fun p => p.isVector ∧ p.noFlags) vlrotOp :=
  (addsOnly_vland_noFlags _ _).scalarOnly _

theorem vlinsOp_addsOnly : addsOnly (fun p => p.isVector ∧ p.noFlags) vlinsOp :=
  ((addsOnly_vland_noFlags _ _).laneIndex _).scalarOnly _

theorem vlextOp_addsOnly : addsOnly (fun p => p.isScalar ∧ p.noFlags) vlextOp :=
  ((addsOnly_sland_noFlags _ _).laneIndex _).scalarOnly _

theorem vffsOp_addsOnly : addsOnly (fun p => p.isScalar ∧ p.noFlags) vffsOp :=
  (addsOnly_sland_noFlags _ _).scalarOnly _

theorem vredOp_addsOnly (pad : Nat) (node : Num.Mode → Nat → Nat → Nat × Num.Flags) :
    addsOnly Pend.isScalar (vredOp pad node) := by
  refine addsOnly.scalarOnly (fun x s v h => ?_) _
  dsimp only at h
  split at h <;> cases h <;> exact pendsOnly_land _ _ _ _ _ rfl

theorem bxdecOp_addsOnly : addsOnly (fun p => p.isVector ∧ p.noFlags) bxdecOp := by
  refine addsOnly.scalarOnly (fun x s v h => ?_) _
  dsimp only at h
  split at h
  · cases h
  · split at h <;> cases h
    exact pendsOnly_land _ _ _ _ _ ⟨rfl, rfl⟩

theorem pendsOnly_vland_sland {s : State} {r : Lanes} {w : Word} {n m : Nat} {x : Opnds} {f e : Num.Flags} :
    pendsOnly s ((s.vland r n x f).sland w m x e).retired fun p => p.isVector ∨ p.isScalar := by
  have both : (s.vland r n x f).sland w m x e = s.updCtx s.cur fun c =>
      (c.schedule (.port .veq) n (.ve ⟨r, x.tag, x.taint⟩) f).schedule (.port .veq2) m (.scalar w x.tag x.taint) e :=
    State.updCtx_updCtx s s.cur (Ctx.schedule · ..) (Ctx.schedule · ..)
  refine .inr ⟨[⟨n, .port .veq, .ve ⟨r, x.tag, x.taint⟩, f, false, [], 0#64, none, none⟩,
    ⟨m, .port .veq2, .scalar w x.tag x.taint, e, false, [], 0#64, none, none⟩], ?_, ?_⟩
  · exact List.forall_mem_cons.mpr ⟨.inl rfl, List.forall_mem_singleton.mpr (.inr rfl)⟩
  · rw [both]
    simp only [Ctx.schedule, List.append_assoc, List.cons_append, List.nil_append]

theorem bxencOp_addsOnly : addsOnly (fun p => p.isVector ∨ p.isScalar) bxencOp := by
  refine addsOnly.scalarOnly (fun x s v h => ?_) _
  dsimp only at h
  split at h
  · cases h
  · split at h <;> cases h
    exact pendsOnly_vland_sland

/-! ### Triggers of the vector engine by what they add -/

/-- A trigger that, completed, has added results that satisfy `D` and changed nothing else. -/
def triggerAdds (D : Pend → Prop) (f : Src → Guard → Instr) : Prop :=
  ∀ a g s t, exec (f a g) s = .next t → t.last = .done → pendsOnly s t D

theorem addsOnly.trigger {D : Pend → Prop} {body : Opnds → State → MoveR} (hbody : addsOnly D body) {d : Nat} {us : Uses}
    {f : Src → Guard → Instr} (run : ∀ a g s, exec (f a g) s = trigger .ve d us body a g s := by intros; rfl) :
    triggerAdds D f := by
  intro a g s t h hd
  rw [run] at h
  exact trigger_pendsOnly (fun x v => hbody x s v) h hd

theorem pendsOnly.mono {D E : Pend → Prop} {s t : State} (h : pendsOnly s t D) (hDE : ∀ p, D p → E p) : pendsOnly s t E :=
  h.imp_right fun ⟨ps, hps, ht⟩ => ⟨ps, fun p hp => hDE p (hps p hp), ht⟩

theorem triggerAdds.mono {D E : Pend → Prop} {f : Src → Guard → Instr} (h : triggerAdds D f) (hDE : ∀ p, D p → E p) :
    triggerAdds E f := fun a g s t hx hd => (h a g s t hx hd).mono hDE

/-- What every trigger of a list adds, said more weakly. -/
theorem triggersAdd_mono {D E : Pend → Prop} {l : List (Src → Guard → Instr)} (h : ∀ f ∈ l, triggerAdds D f)
    (hDE : ∀ p, D p → E p) : ∀ f ∈ l, triggerAdds E f := fun f hf => (h f hf).mono hDE

/-- The floating-point operations whose result is a vector (R250, R252, R253). -/
theorem floatVectorTriggers : ∀ f ∈ veOps.take 6 ++ (veOps.drop 8).take 11, triggerAdds Pend.isVector f := by
  intro f hf
  fin_cases hf <;> exact (vfpOp_addsOnly _ _).trigger

/-- The floating-point compares (R251). -/
theorem floatMaskTriggers : ∀ f ∈ (veOps.drop 6).take 2, triggerAdds Pend.isScalar f := by
  intro f hf
  fin_cases hf <;> exact (vcmpOp_addsOnly _ _ _).trigger

/-- The integer and logic operations whose result is a vector (R256). -/
theorem integerVectorTriggers : ∀ f ∈ (veOps.drop 21).take 11, triggerAdds (fun p => p.isVector ∧ p.noFlags) f := by
  intro f hf
  fin_cases hf <;> exact (vintOp_addsOnly _ _).trigger

/-- The integer compares (R256). -/
theorem integerMaskTriggers : ∀ f ∈ (veOps.drop 32).take 2, triggerAdds (fun p => p.isScalar ∧ p.noFlags) f := by
  intro f hf
  fin_cases hf <;> exact (vcmpOp_int_addsOnly _ _).trigger

/-- The byte, checksum and hash operations (R258-R260). -/
theorem byteTriggers : ∀ f ∈ (veOps.drop 36).take 7, triggerAdds (fun p => p.isVector ∧ p.noFlags) f := by
  intro f hf
  fin_cases hf <;> exact (vintOp_addsOnly _ _).trigger

/-- The reductions (R261). -/
theorem reductionTriggers : ∀ f ∈ (veOps.drop 43).take 3, triggerAdds Pend.isScalar f := by
  intro f hf
  fin_cases hf <;> exact (vredOp_addsOnly _ _).trigger

/-- `bxdec`, and the integer, selection and byte operations whose result is a vector. -/
theorem silentVectorTriggers : ∀ f ∈ (veOps.drop 20).take 12 ++ (veOps.drop 34).take 9,
    triggerAdds (fun p => p.isVector ∧ p.noFlags) f := by
  refine List.forall_mem_append.mpr ⟨List.forall_mem_cons.mpr ⟨bxdecOp_addsOnly.trigger, integerVectorTriggers⟩,
    List.forall_mem_cons.mpr ⟨vselOp_addsOnly.trigger, List.forall_mem_cons.mpr ⟨vlidOp_addsOnly.trigger, byteTriggers⟩⟩⟩

/-- The lane movements whose result is a vector (R262). -/
theorem laneMovementTriggers : ∀ f ∈ [Instr.vePerm, .veLrot, .veLins], triggerAdds (fun p => p.isVector ∧ p.noFlags) f :=
  List.forall_mem_cons.mpr ⟨vpermOp_addsOnly.trigger, List.forall_mem_cons.mpr ⟨vlrotOp_addsOnly.trigger,
    List.forall_mem_singleton.mpr vlinsOp_addsOnly.trigger⟩⟩

/-- The lane movements whose result is a scalar (R262). -/
theorem laneReadTriggers : ∀ f ∈ [Instr.veLext, .veFfs], triggerAdds (fun p => p.isScalar ∧ p.noFlags) f :=
  List.forall_mem_cons.mpr ⟨vlextOp_addsOnly.trigger, List.forall_mem_singleton.mpr vffsOp_addsOnly.trigger⟩

/-- The lane movements land a vector or a scalar, without flags (R262). -/
theorem laneTriggers {E : Pend → Prop} (vector : ∀ p : Pend, p.isVector ∧ p.noFlags → E p)
    (scalar : ∀ p : Pend, p.isScalar ∧ p.noFlags → E p) : ∀ f ∈ (veOps.drop 46).take 5, triggerAdds E f := by
  intro f hf
  have kind : f ∈ [Instr.vePerm, .veLrot, .veLins] ∨ f ∈ [Instr.veLext, .veFfs] := by fin_cases hf <;> simp
  exact kind.elim (triggersAdd_mono laneMovementTriggers vector f) (triggersAdd_mono laneReadTriggers scalar f)

/-- Settles O41: the triggers are listed by the operation they carry out, and each operation by the results it lands. -/
theorem vectorFrame : Obligations.VectorFrame := by
  unfold Obligations.VectorFrame
  obtain ⟨float, convert⟩ := List.forall_mem_append.mp floatVectorTriggers
  obtain ⟨integer, byte⟩ := List.forall_mem_append.mp silentVectorTriggers
  refine ⟨?ports, ?flags, ?vectors, ?scalars⟩
  case ports =>
    have listed : veOps.take 51 = veOps.take 6 ++ (veOps.drop 6).take 2 ++ (veOps.drop 8).take 11 ++ [.veBxenc] ++
      (veOps.drop 20).take 12 ++ (veOps.drop 32).take 2 ++ (veOps.drop 34).take 9 ++ (veOps.drop 43).take 3 ++
      (veOps.drop 46).take 5 := rfl
    rw [listed]
    simp only [List.forall_mem_append]
    exact ⟨⟨⟨⟨⟨⟨⟨⟨triggersAdd_mono float fun _ => .inl, triggersAdd_mono floatMaskTriggers fun _ => .inr⟩,
      triggersAdd_mono convert fun _ => .inl⟩, List.forall_mem_singleton.mpr bxencOp_addsOnly.trigger⟩,
      triggersAdd_mono integer fun _ h => .inl h.1⟩, triggersAdd_mono integerMaskTriggers fun _ h => .inr h.1⟩,
      triggersAdd_mono byte fun _ h => .inl h.1⟩, triggersAdd_mono reductionTriggers fun _ => .inr⟩,
      laneTriggers (fun _ h => .inl h.1) fun _ h => .inr h.1⟩
  case flags =>
    have listed : (veOps.drop 20).take 23 = (veOps.drop 20).take 12 ++ (veOps.drop 32).take 2 ++ (veOps.drop 34).take 9 := rfl
    rw [listed]
    simp only [List.forall_mem_append]
    exact ⟨⟨⟨triggersAdd_mono integer fun _ => And.right, triggersAdd_mono integerMaskTriggers fun _ => And.right⟩,
      triggersAdd_mono byte fun _ => And.right⟩, laneTriggers (fun _ => And.right) fun _ => And.right⟩
  case vectors =>
    simp only [List.forall_mem_append]
    exact ⟨⟨⟨⟨float, convert⟩, triggersAdd_mono integer fun _ => And.left⟩, triggersAdd_mono byte fun _ => And.left⟩,
      triggersAdd_mono laneMovementTriggers fun _ => And.left⟩
  case scalars =>
    simp only [List.forall_mem_append]
    exact ⟨⟨⟨floatMaskTriggers, triggersAdd_mono integerMaskTriggers fun _ => And.left⟩, reductionTriggers⟩,
      triggersAdd_mono laneReadTriggers fun _ => And.left⟩

end Sys2Proof.Machine
end

section
/-!
PROOFS of 12_vector: block floating point (R254, R255). The control words that `bxenc` and `bxdec` take, what they land for
them, and VE_FORM for every other.
-/

namespace Sys2Proof.Machine

/-! ### Control words (R130, R254, R255) -/

theorem bxOf_eq_some_iff {n : Nat} {b : Num.BxFmt} :
    bxOf n = some b ↔ n = 3 ∧ b = Num.bx8 ∨ n = 4 ∧ b = Num.bx6 ∨ n = 5 ∧ b = Num.bx4 := by
  unfold bxOf
  split <;> simp_all [eq_comm]

theorem bitsOf_high (w : Word) : bitsOf w.toNat 32 32 = w.toNat / 2 ^ 32 :=
  Nat.mod_eq_of_lt (by have := w.isLt; omega)

theorem bxClampOk_iff (b : Num.BxFmt) {n : Nat} (hn : n < 2 ^ 32) :
    bxClampOk b (BitVec.ofNat 32 n) = true ↔ n = 0 ∨ Num.bxOnGrid b (BitVec.ofNat 32 n) = true := by
  have zero : BitVec.ofNat 32 n = 0#32 ↔ n = 0 := by
    rw [← BitVec.toNat_inj, BitVec.toNat_ofNat, Nat.mod_eq_of_lt hn]
    rfl
  rw [bxClampOk, Bool.or_eq_true, decide_eq_true_iff, zero]

/-- A control word of `bxenc`: a format, no reserved bit, and a lawful CLAMP (R254). -/
structure BxencControl (w : Word) (b : Num.BxFmt) : Prop where
  format : bxOf (bitsOf w.toNat 0 3) = some b
  reserved : bitsOf w.toNat 3 5 = 0 ∧ bitsOf w.toNat 12 20 = 0
  clamp : bxClampOk b (BitVec.ofNat 32 (bitsOf w.toNat 32 32)) = true

theorem bxencControl_iff (w : Word) (b : Num.BxFmt) : BxencControl w b ↔
    (w.toNat % 8 = 3 ∧ b = Num.bx8 ∨ w.toNat % 8 = 4 ∧ b = Num.bx6 ∨ w.toNat % 8 = 5 ∧ b = Num.bx4) ∧
      w.toNat / 8 % 32 = 0 ∧ w.toNat / 2 ^ 12 % 2 ^ 20 = 0 ∧
      (w.toNat / 2 ^ 32 = 0 ∨ Num.bxOnGrid b (BitVec.ofNat 32 (w.toNat / 2 ^ 32)) = true) := by
  have low : bitsOf w.toNat 0 3 = w.toNat % 8 := congrArg (· % 8) (Nat.div_one _)
  have clamp := bxClampOk_iff b (n := w.toNat / 2 ^ 32) (by have := w.isLt; omega)
  rw [← bxOf_eq_some_iff, ← low, ← clamp, ← bitsOf_high]
  exact ⟨fun ⟨hfmt, ⟨h1, h2⟩, hc⟩ => ⟨hfmt, h1, h2, hc⟩, fun ⟨hfmt, h1, h2, hc⟩ => ⟨hfmt, ⟨h1, h2⟩, hc⟩⟩

/-- A control word of `bxdec`: a format, and no bit above it (R255). -/
def BxdecControl (w : Word) (b : Num.BxFmt) : Prop := bxOf (bitsOf w.toNat 32 3) = some b ∧ bitsOf w.toNat 35 29 = 0

theorem bxdecControl_iff (w : Word) (b : Num.BxFmt) : BxdecControl w b ↔
    w.toNat / 2 ^ 32 = 3 ∧ b = Num.bx8 ∨ w.toNat / 2 ^ 32 = 4 ∧ b = Num.bx6 ∨ w.toNat / 2 ^ 32 = 5 ∧ b = Num.bx4 := by
  have field {n : Nat} (hn : n < 8) :
      w.toNat / 2 ^ 32 = n ↔ w.toNat / 2 ^ 32 % 2 ^ 3 = n ∧ w.toNat / 2 ^ 35 % 2 ^ 29 = 0 := by
    have bound := w.isLt
    omega
  rw [BxdecControl, bxOf_eq_some_iff, bitsOf, bitsOf, field (by decide : 3 < 8), field (by decide : 4 < 8),
    field (by decide : 5 < 8)]
  tauto

/-! ### `bxenc` (R254) -/

theorem bxencOp_encodes {x : Opnds} {s : State} {b : Num.BxFmt} (h : x.t.isVec = false) (hc : BxencControl x.t.word b) :
    bxencOp x s =
      let block (l : List Lane) := bxencBlock b (bitsOf x.t.word.toNat 8 4) (BitVec.ofNat 32 (bitsOf x.t.word.toNat 32 32))
        (l.map Num.f32)
      let b0 := block (x.o.lanes.toList.take 32)
      let b1 := block (x.o.lanes.toList.drop 32)
      .ok (x.put .veq2 4 (BitVec.ofNat 64 (b0.2.1 + b1.2.1 * 2 ^ 16)) (b0.2.2 ||| b1.2.2)
        (x.putV 4 (lanesOf fun i => BitVec.ofNat 32 (bitsOf (b0.1 + b1.1 * 2 ^ (32 * b.w)) (32 * i) 32))
          (b0.2.2 ||| b1.2.2) s)) := by
  have lawful : ¬(bitsOf x.t.word.toNat 3 5 ≠ 0 ∨ bitsOf x.t.word.toNat 12 20 ≠ 0 ∨
      (!bxClampOk b (BitVec.ofNat 32 (bitsOf x.t.word.toNat 32 32))) = true) := by
    simp [hc.reserved, hc.clamp]
  rw [bxencOp, scalarOnly_scalar h]
  simp only [hc.format, if_neg lawful, List.map_take, List.map_drop]
  rfl

theorem bxencOp_fault {x : Opnds} {s : State} (h : x.t.isVec = true ∨ ∀ b, ¬BxencControl x.t.word b) :
    bxencOp x s = .trap cVeForm 5 0 := by
  rw [bxencOp]
  rcases Bool.eq_false_or_eq_true x.t.isVec with hvec | hscalar
  · exact scalarOnly_vector hvec
  rw [scalarOnly_scalar hscalar]
  dsimp only
  split
  · rfl
  next b hfmt =>
    have bad := h.resolve_left (by simp [hscalar]) b
    refine if_pos ?_
    by_contra lawful
    simp only [not_or, not_not, Bool.not_eq_true, Bool.not_eq_false'] at lawful
    exact bad ⟨hfmt, ⟨lawful.1, lawful.2.1⟩, lawful.2.2⟩

/-- The flags of two blocks: a signalling NaN, an inexact element and a clamped one, of either (R254). -/
theorem bxFlags_bits : ∀ s0 i0 c0 s1 i1 c1 : Bool,
    let fl := (Num.flagIf s0 Num.NV ||| Num.flagIf i0 Num.NX ||| Num.flagIf c0 Num.CL) |||
      (Num.flagIf s1 Num.NV ||| Num.flagIf i1 Num.NX ||| Num.flagIf c1 Num.CL)
    fl.getLsbD 5 = (c0 || c1) ∧ fl.getLsbD 4 = (i0 || i1) ∧ fl.getLsbD 0 = (s0 || s1) ∧ fl &&& 0x0E#6 = 0#6 := by
  decide

/-- What stands in a lane is the low word of the number from its place up. -/
theorem ofNat_bitsOf (n i : Nat) : BitVec.ofNat 32 (bitsOf n (32 * i) 32) = BitVec.ofNat 32 (n / 2 ^ (32 * i)) := by
  rw [bitsOf]
  apply BitVec.eq_of_toNat_eq
  simp only [BitVec.toNat_ofNat, Nat.mod_mod]

/-- The lanes of a vector with a signalling NaN are those of its two blocks. -/
theorem any_snan_blocks (l : List Lane) : (((l.take 32).map Num.f32).any Num.FVal.isSnan ||
    ((l.drop 32).map Num.f32).any Num.FVal.isSnan) = l.any fun v => (Num.f32 v).isSnan := by
  rw [List.any_map, List.any_map, ← List.any_append, List.take_append_drop]
  rfl

/-! ### `bxdec` (R255) -/

theorem bxdecOp_decodes {x : Opnds} {s : State} {b : Num.BxFmt} (h : x.t.isVec = false) (hc : BxdecControl x.t.word b) :
    bxdecOp x s = .ok (x.putV 4 (lanesOf fun i => bxLane (Num.bxValue b (bitsOf x.t.word.toNat (16 * (i / 32)) 8)
      (bitsOf x.t.word.toNat (16 * (i / 32) + 8) 8)
      (Num.bxElem b (bitsOf (lanesNat x.o.lanes) (32 * b.w * (i / 32)) (32 * b.w)) (i % 32)))) 0#6 s) := by
  obtain ⟨hfmt, hzero⟩ := hc
  rw [bxdecOp, scalarOnly_scalar h]
  simp only [hfmt, if_neg (not_not.mpr hzero)]
  rfl

theorem bxdecOp_fault {x : Opnds} {s : State} (h : x.t.isVec = true ∨ ∀ b, ¬BxdecControl x.t.word b) :
    bxdecOp x s = .trap cVeForm 5 0 := by
  rw [bxdecOp]
  rcases Bool.eq_false_or_eq_true x.t.isVec with hvec | hscalar
  · exact scalarOnly_vector hvec
  rw [scalarOnly_scalar hscalar]
  dsimp only
  split
  · rfl
  next b hfmt =>
    have bad := h.resolve_left (by simp [hscalar]) b
    exact if_pos fun hzero => bad ⟨hfmt, hzero⟩

theorem bitsOf_next_byte (n i : Nat) : bitsOf n (i + 8) 8 = n / 2 ^ i / 256 % 256 := by
  rw [bitsOf, pow_add, ← Nat.div_div_eq_div_mul]
  rfl

/-- Settles O39: the operations at a control word that is lawful, and their fault at any other. -/
theorem blockFloatOperations : Obligations.BlockFloatOperations := by
  unfold Obligations.BlockFloatOperations
  refine ⟨fun a g s b hfires => ?encode, fun a g s b hfires => ?decode, ?encodeFault, ?decodeFault⟩
  case encode =>
    intro x ⟨hscalar, hgood⟩ enc e0 e1 n
    have hc := (bxencControl_iff x.t.word b).mpr hgood
    have run : exec (.veBxenc a g) s = trigger .ve 0x1B5 .ot bxencOp a g s := rfl
    rw [run, trigger_fires hfires, bxencOp_encodes hscalar hc, finish_ok, bitsOf_high]
    obtain ⟨clamped, inexact, invalid, other⟩ := bxFlags_bits _ _ _ _ _ _
    refine ⟨_, _, fun j => (getElem_lanesOf _ j).trans (ofNat_bitsOf n j), clamped, ?_, ?_, other, rfl⟩
    · rw [inexact, List.zipWith_map_right, List.zipWith_map_right]
      rfl
    · rw [invalid, any_snan_blocks]
  case decode =>
    intro x hscalar hfmt
    have run : exec (.veBxdec a g) s = trigger .ve 0x1B6 .ot bxdecOp a g s := rfl
    rw [run, trigger_fires hfires, bxdecOp_decodes hscalar ((bxdecControl_iff ..).mpr hfmt), finish_ok]
    refine ⟨_, fun j => (getElem_lanesOf _ j).trans ?_, rfl⟩
    rw [bitsOf_next_byte]
    rfl
  case encodeFault =>
    refine trapsIf_of_op (fun _ _ _ => rfl) fun x s h => bxencOp_fault ?_
    rcases Bool.eq_false_or_eq_true x.t.isVec with hvec | hscalar
    · exact .inl hvec
    · exact .inr fun b hc => h b ⟨hscalar, (bxencControl_iff ..).mp hc⟩
  case decodeFault =>
    exact trapsIf_of_op (fun _ _ _ => rfl) fun x s h =>
      bxdecOp_fault (h.imp_right fun bad b hc => bad b ((bxdecControl_iff ..).mp hc))

end Sys2Proof.Machine
end

section
/-!
PROOFS of 12_vector: vector loads and stores, lane-slice accesses, gathers and scatters (R263-R267).
-/

namespace Sys2Proof.Machine

/-! ### Lanes by number, in order -/

theorem filter_range_eq_finRange (p : Nat → Bool) (n : Nat) :
    (List.range n).filter p = ((List.finRange n).filter fun j : Fin n => p j).map Fin.val := by
  rw [← List.map_coe_finRange_eq_range, List.filter_map]
  rfl

theorem find?_range_eq_finRange (p : Nat → Bool) (n : Nat) :
    (List.range n).find? p = ((List.finRange n).find? fun j : Fin n => p j).map Fin.val := by
  rw [← List.map_coe_finRange_eq_range, List.find?_map]
  rfl

theorem activeLanes_eq_finRange (b : Word) (offs : Lanes) : activeLanes b offs =
    ((List.finRange 64).filter fun j => offs[j] != 0xFFFFFFFF).map fun j =>
      (j.val, (b + offs[j].setWidth 64).toNat) := by
  simp only [activeLanes, filter_range_eq_finRange, List.map_map, laneAt_fin, Function.comp_def]
  rfl

theorem fst_lt_of_mem_activeLanes {b : Word} {offs : Lanes} {l : Nat × Nat} (h : l ∈ activeLanes b offs) : l.1 < 64 := by
  rw [activeLanes_eq_finRange] at h
  obtain ⟨j, -, rfl⟩ := List.mem_map.mp h
  exact j.isLt

theorem laneAt_eq_getD (v : Lanes) {i : Nat} (hi : i < 64) : laneAt v i = v.toList.getD i 0 := by
  rw [laneAt_fin v ⟨i, hi⟩, List.getD_eq_getElem _ _ (by simpa using hi), Vector.getElem_toList]
  rfl

/-! ### Accesses that pass their checks (R267) -/

/-- The checks of an access whose watched bytes are `watched`, passed step by step. -/
theorem veAdmit_passes {s r t : State} {watched l : List Span} {qs ps : List SpanP} {k : State → List SpanP → MoveR}
    (hw : s.watchSpans s.cur watched = (r, none)) (hr : r.resolveSpans r.cur l = .ok qs) (hm : firstMs qs = none)
    (ha : r.admitFor r.cur .plain qs = .ok t ps) : veAdmit s watched l k = k t ps := by
  have vetted : s.vetLevel cVeLevel .plain none watched l = .ok t ps := by
    rw [State.vetLevel, hw]
    simp only [hr, hm]
    exact ha
  rw [veAdmit, admitLevel, vetted]

theorem veAdmit_passesAll {s t : State} {l : List Span} {ps : List SpanP} {k : State → List SpanP → MoveR}
    (h : s.passesAll .plain l t ps) : veAdmit s l l k = k t ps := by
  obtain ⟨r, qs, hw, hr, hm, ha⟩ := h
  exact veAdmit_passes hw hr hm ha

/-! ### Contiguous accesses (R264) -/

theorem vldOp_loads {n al : Nat} {x : Opnds} {s t : State} {p : SpanP} (hscalar : x.t.isVec = false)
    (halign : x.t.word.toNat % al = 0) (h : s.passesAll .plain [⟨x.t.word.toNat, n, false⟩] t [p]) :
    vldOp n al x s = .ok ((t.readSpans [p]).1.landLoad .veq (latencyOf x.t.word.toNat) (.lanes (List.range 64))
      (t.readSpans [p]).2.1.flatten x.tag (x.taint || (t.readSpans [p]).2.2) (loadCauses p.ps) p.ps) := by
  rw [vldOp, scalarOnly_scalar hscalar]
  dsimp only
  rw [if_neg (not_not.mpr halign), veAdmit_passesAll h, List.flatMap_singleton]

theorem vldOp_misaligned {n al : Nat} {x : Opnds} {s : State} (hscalar : x.t.isVec = false)
    (halign : x.t.word.toNat % al ≠ 0) : vldOp n al x s = .trap cVeAlign 5 x.t.word.toNat := by
  rw [vldOp, scalarOnly_scalar hscalar]
  exact if_pos halign

theorem vstOp_stores {x : Opnds} {s t u : State} {p : SpanP} (hscalar : x.o.isVec = false)
    (halign : x.o.word.toNat % 4 = 0) (h : s.passesAll .plain [⟨x.o.word.toNat, 256, true⟩] t [p])
    (hwrite : t.writeSpan t.cur p (x.t.lanes.toList.flatMap fun l => leBytes 4 l.toNat) (x.taint || t.me.ctaint) = .ok u) :
    vstOp x s = .ok u := by
  rw [vstOp, scalarOnly_scalar hscalar]
  dsimp only
  rw [if_neg (not_not.mpr halign), veAdmit_passesAll h, List.map_singleton, State.writeSpans, lanesBytes, hwrite]
  rfl

theorem vstOp_misaligned {x : Opnds} {s : State} (hscalar : x.o.isVec = false) (halign : x.o.word.toNat % 4 ≠ 0) :
    vstOp x s = .trap cVeAlign 5 x.o.word.toNat := by
  rw [vstOp, scalarOnly_scalar hscalar]
  exact if_pos halign

/-! ### Lane-slice accesses (R265) -/

/-- The span of one lane's access to its slice. -/
def sliceSpan (offs : Lanes) (w : Bool) (j : Fin 64) : Span := ⟨sliceAddr j.val offs[j].toNat, 4, w⟩

/-- The lanes whose access ends within their 4 KiB. -/
def lanesWithin (offs : Lanes) : List (Fin 64) := (List.finRange 64).filter fun j => decide (offs[j].toNat + 4 ≤ 4096)

/-- The lowest lane with a misaligned offset. -/
def misalignedLane (offs : Lanes) : Option (Fin 64) := (List.finRange 64).find? fun j => decide (offs[j].toNat % 4 ≠ 0)

/-- The lowest lane whose access ends past the slice. -/
def laneBeyond (s : State) (offs : Lanes) : Option (Fin 64) :=
  (List.finRange 64).find? fun j => decide (s.me.alloc.lsb < offs[j].toNat + 4)

theorem find?_misaligned (offs : Lanes) : ((List.range 64).find? fun i => decide ((laneAt offs i).toNat % 4 ≠ 0)) =
    (misalignedLane offs).map Fin.val := by
  simp only [find?_range_eq_finRange, laneAt_fin, misalignedLane]

theorem find?_beyond (s : State) (offs : Lanes) :
    ((List.range 64).find? fun i => decide (s.me.alloc.lsb < (laneAt offs i).toNat + 4)) =
      (laneBeyond s offs).map Fin.val := by
  simp only [find?_range_eq_finRange, laneAt_fin, laneBeyond]

theorem map_span_within (offs : Lanes) (w : Bool) :
    ((List.range 64).filter fun i => decide ((laneAt offs i).toNat + 4 ≤ 4096)).map
      (fun i => (⟨sliceAddr i (laneAt offs i).toNat, 4, w⟩ : Span)) = (lanesWithin offs).map (sliceSpan offs w) := by
  simp only [filter_range_eq_finRange, laneAt_fin, List.map_map, lanesWithin, Function.comp_def]
  rfl

theorem sliceFault_misaligned {s : State} {offs : Lanes} {w : Bool} {j : Fin 64} (h : misalignedLane offs = some j) :
    sliceFault s offs w = some (cVeAlign, sliceAddr j.val offs[j].toNat) := by
  rw [sliceFault, find?_misaligned, h]
  simp only [Option.map_some, laneAt_fin]

/-- Of aligned offsets without a watched byte, the fault is that of the lowest lane past the slice. -/
theorem sliceFault_aligned {s : State} {offs : Lanes} {w : Bool} (halign : ∀ j : Fin 64, offs[j].toNat % 4 = 0)
    (hwatch : (s.watchSpans s.cur ((lanesWithin offs).map (sliceSpan offs w))).2 = none) :
    sliceFault s offs w = (laneBeyond s offs).map fun j => (cLeaseExit, sliceAddr j.val offs[j].toNat) := by
  have aligned : misalignedLane offs = none :=
    List.find?_eq_none.mpr fun j _ => by rw [decide_eq_true_iff, not_not]; exact halign j
  rw [sliceFault, find?_misaligned, aligned, Option.map_none]
  dsimp only
  rw [map_span_within, hwatch, find?_beyond, Option.map_map]
  simp only [Function.comp_def, laneAt_fin]

/-- Offsets that the checks before a lane-slice access's own let pass: aligned, within the slice and the lane's 4 KiB, and
not watched (R265, R267). -/
def State.inSlices (s : State) (offs : Lanes) (w : Bool) : Prop :=
  (∀ j : Fin 64, offs[j].toNat % 4 = 0 ∧ offs[j].toNat + 4 ≤ s.me.alloc.lsb ∧ offs[j].toNat + 4 ≤ 4096) ∧
    (s.watchSpans s.cur ((List.finRange 64).map (sliceSpan offs w))).2 = none

theorem sliceFault_inSlices {s : State} {offs : Lanes} {w : Bool} (h : s.inSlices offs w) : sliceFault s offs w = none := by
  obtain ⟨lanes, watch⟩ := h
  have all : lanesWithin offs = List.finRange 64 := List.filter_eq_self.mpr fun j _ => decide_eq_true (lanes j).2.2
  have inside : laneBeyond s offs = none := List.find?_eq_none.mpr fun j _ => by
    rw [decide_eq_true_iff]
    exact (lanes j).2.1.not_gt
  rw [sliceFault_aligned (fun j => (lanes j).1) (all ▸ watch), inside, Option.map_none]

/-- A lane-slice access whose checks pass goes on from the state that they leave. -/
theorem sliceThen_passes {s t : State} {offs : Lanes} {w : Bool} {qs ps : List SpanP} {k : State → List SpanP → MoveR}
    (h : s.inSlices offs w) (hr : s.resolveSpans s.cur ((List.finRange 64).map (sliceSpan offs w)) = .ok qs)
    (hm : firstMs qs = none) (ha : s.admitFor s.cur .plain qs = .ok t ps) : sliceThen s offs w k = k t ps := by
  have spans : ((List.range 64).map fun i => (⟨sliceAddr i (laneAt offs i).toNat, 4, w⟩ : Span)) =
      (List.finRange 64).map (sliceSpan offs w) := by
    simp only [map_range_eq_finRange, laneAt_fin]
    rfl
  rw [sliceThen, sliceFault_inSlices h]
  dsimp only
  rw [spans]
  exact veAdmit_passes rfl hr hm ha

theorem sliceThen_misaligned {s : State} {offs : Lanes} {w : Bool} {j : Fin 64} {k : State → List SpanP → MoveR}
    (h : misalignedLane offs = some j) : sliceThen s offs w k = .trap cVeAlign 5 (sliceAddr j.val offs[j].toNat) := by
  rw [sliceThen, sliceFault_misaligned h]
  rfl

theorem sliceThen_beyond {s : State} {offs : Lanes} {w : Bool} {j : Fin 64} {k : State → List SpanP → MoveR}
    (halign : ∀ i : Fin 64, offs[i].toNat % 4 = 0)
    (hwatch : (s.watchSpans s.cur ((lanesWithin offs).map (sliceSpan offs w))).2 = none)
    (h : laneBeyond s offs = some j) : sliceThen s offs w k = .trap cLeaseExit 5 (sliceAddr j.val offs[j].toNat) := by
  rw [sliceThen, sliceFault_aligned halign hwatch, h]
  rfl

theorem vldlOp_loads {x : Opnds} {s t : State} {qs ps : List SpanP} (h : s.inSlices x.t.lanes false)
    (hr : s.resolveSpans s.cur ((List.finRange 64).map (sliceSpan x.t.lanes false)) = .ok qs)
    (hm : firstMs qs = none) (ha : s.admitFor s.cur .plain qs = .ok t ps) :
    vldlOp x s = .ok ((t.readSpans ps).1.land .veq 3
      (.ve ⟨lanesOfList ((t.readSpans ps).2.1.map laneOf), x.tag, x.taint || (t.readSpans ps).2.2⟩) 0#6) := by
  rw [vldlOp, sliceThen_passes h hr hm ha]

theorem vstlOp_stores {x : Opnds} {s t : State} {qs ps : List SpanP} (h : s.inSlices x.o.lanes true)
    (hr : s.resolveSpans s.cur ((List.finRange 64).map (sliceSpan x.o.lanes true)) = .ok qs)
    (hm : firstMs qs = none) (ha : s.admitFor s.cur .plain qs = .ok t ps) :
    vstlOp x s = t.writeSpans (x.taint || t.me.ctaint) (ps.zip (x.t.lanes.toList.map fun l => leBytes 4 l.toNat)) := by
  rw [vstlOp, sliceThen_passes h hr hm ha]

/-! ### Gathers and scatters (R266) -/

theorem lanesThen_passes {s t : State} {acts : List (Nat × Nat)} {w : Bool} {ps : List SpanP}
    {k : State → List SpanP → MoveR} (halign : ∀ l ∈ acts, l.2 % 4 = 0)
    (h : s.passesAll .plain (acts.map fun l => ⟨l.2, 4, w⟩) t ps) : lanesThen s acts w k = k t ps := by
  have aligned : (acts.find? fun l => decide (l.2 % 4 ≠ 0)) = none :=
    List.find?_eq_none.mpr fun l hl => by simp [halign l hl]
  rw [lanesThen, aligned]
  exact veAdmit_passesAll h

theorem lanesThen_misaligned {s : State} {acts : List (Nat × Nat)} {w : Bool} {l : Nat × Nat}
    {k : State → List SpanP → MoveR} (h : (acts.find? fun l => decide (l.2 % 4 ≠ 0)) = some l) :
    lanesThen s acts w k = .trap cVeAlign 5 l.2 := by
  rw [lanesThen, h]
  rfl

theorem vgathOp_gathers {x : Opnds} {s t : State} {ps : List SpanP} (hscalar : x.o.isVec = false)
    (halign : ∀ l ∈ activeLanes x.o.word x.t.lanes, l.2 % 4 = 0)
    (h : s.passesAll .plain ((activeLanes x.o.word x.t.lanes).map fun l => ⟨l.2, 4, false⟩) t ps) :
    vgathOp x s = .ok ((t.readSpans ps).1.landLoad .veq
      (if (activeLanes x.o.word x.t.lanes).all (fun l => (winOf l.2).isCore) = true then 3 else 5)
      (.lanes ((activeLanes x.o.word x.t.lanes).map Prod.fst)) (t.readSpans ps).2.1.flatten x.tag
      (x.taint || (t.readSpans ps).2.2) (loadCauses (ps.flatMap SpanP.ps)) (ps.flatMap SpanP.ps)) := by
  rw [vgathOp, scalarOnly_scalar hscalar]
  exact lanesThen_passes halign h

theorem vscatOp_scatters {x : Opnds} {s t : State} {ps : List SpanP} (hscalar : x.o.isVec = false)
    (halign : ∀ l ∈ activeLanes x.o.word x.t.lanes, l.2 % 4 = 0)
    (h : s.passesAll .plain ((activeLanes x.o.word x.t.lanes).map fun l => ⟨l.2, 4, true⟩) t ps) :
    vscatOp x s = t.writeSpans (x.taint || t.me.ctaint)
      (ps.zip ((activeLanes x.o.word x.t.lanes).map fun l => leBytes 4 (x.p.lanes.toList.getD l.1 0).toNat)) := by
  have lanes : ((activeLanes x.o.word x.t.lanes).map fun l => leBytes 4 (laneAt x.p.lanes l.1).toNat) =
      (activeLanes x.o.word x.t.lanes).map fun l => leBytes 4 (x.p.lanes.toList.getD l.1 0).toNat :=
    List.map_congr_left fun l hl => by rw [laneAt_eq_getD _ (fst_lt_of_mem_activeLanes hl)]
  rw [vscatOp, scalarOnly_scalar hscalar, ← lanes]
  exact lanesThen_passes halign h

theorem vgathOp_misaligned {x : Opnds} {s : State} {l : Nat × Nat} (hscalar : x.o.isVec = false)
    (h : ((activeLanes x.o.word x.t.lanes).find? fun l => decide (l.2 % 4 ≠ 0)) = some l) :
    vgathOp x s = .trap cVeAlign 5 l.2 := by
  rw [vgathOp, scalarOnly_scalar hscalar]
  exact lanesThen_misaligned h

theorem vscatOp_misaligned {x : Opnds} {s : State} {l : Nat × Nat} (hscalar : x.o.isVec = false)
    (h : ((activeLanes x.o.word x.t.lanes).find? fun l => decide (l.2 % 4 ≠ 0)) = some l) :
    vscatOp x s = .trap cVeAlign 5 l.2 := by
  rw [vscatOp, scalarOnly_scalar hscalar]
  exact lanesThen_misaligned h

/-- The bytes of some lanes in order, each lane's by its place among them; the others are 0. -/
theorem Conv.value_lanes (act : List Nat) (bs : List Byte) (tag : Tag) (taint : Bool) : ∃ v : Lanes,
    (Conv.lanes act).value bs tag taint = .ve ⟨v, tag, taint⟩ ∧ ∀ j : Fin 64,
      v[j] = if j.val ∈ act then BitVec.ofNat 32 (leNat ((bs.drop (4 * act.findIdx fun i => i = j.val)).take 4)) else 0 := by
  refine ⟨_, rfl, fun j => (getElem_lanesOf _ j).trans ?_⟩
  simp only [List.contains_iff_mem]
  rfl

/-- Settles O40: each access by its checks, passed or not, and the lanes of what it loads. -/
theorem vectorMemory : Obligations.VectorMemory := by
  unfold Obligations.VectorMemory
  intro gathered lands word4 contig slice near inSlice acts aligned
  have contiguous (d n al : Nat) (i : Src → Guard → Instr)
      (run : ∀ a g s, exec (i a g) s = trigger .ve d .t (vldOp n al) a g s) : contig d n al i := by
    intro a g s t p hfires x va hscalar halign hpass r
    rw [run, trigger_fires hfires, vldOp_loads hscalar halign hpass, finish_ok]
  refine ⟨contiguous _ _ _ _ fun _ _ _ => rfl, contiguous _ _ _ _ fun _ _ _ => rfl, ?store, ?sliceLoad, ?sliceStore,
    ?gather, Conv.value_lanes, ?scatter, activeLanes_eq_finRange,
    trapsIf_of_op (fun _ _ _ => rfl) fun x s ⟨hscalar, halign⟩ => vldOp_misaligned hscalar halign,
    trapsIf_of_op (fun _ _ _ => rfl) fun x s ⟨hscalar, halign⟩ => vldOp_misaligned hscalar halign,
    trapsIf_of_op (fun _ _ _ => rfl) fun x s ⟨hscalar, halign⟩ => vstOp_misaligned hscalar halign,
    trapsIf_of_op (fun _ _ _ => rfl) fun x s => scalarOnly_vector,
    trapsIf_of_op (fun _ _ _ => rfl) fun x s => scalarOnly_vector,
    trapsIf_of_op (fun _ _ _ => rfl) fun x s => scalarOnly_vector, ?sliceFaults, ?lanesFaults⟩
  case store =>
    intro a g s t p u hfires x hscalar halign hpass hwrite
    have run : exec (.veStB32 a g) s = trigger .ve 0x1D6 .ot vstOp a g s := rfl
    rw [run, trigger_fires hfires, vstOp_stores hscalar halign hpass hwrite, finish_ok]
  case sliceLoad =>
    intro a g s t ps hfires x hin ⟨qs, hr, hm, ha⟩ r
    have run : exec (.veLdlB32 a g) s = trigger .ve 0x1D7 .t vldlOp a g s := rfl
    refine ⟨lanesOfList (r.2.1.map laneOf), fun j => ?_,
      by rw [run, trigger_fires hfires, vldlOp_loads hin hr hm ha, finish_ok]⟩
    rw [getElem_lanesOfList, List.getD_eq_getElem?_getD, List.getElem?_map]
    rfl
  case sliceStore =>
    intro a g s t ps u hfires x hin ⟨qs, hr, hm, ha⟩ hwrite
    have run : exec (.veStlB32 a g) s = trigger .ve 0x1D8 .ot vstlOp a g s := rfl
    rw [run, trigger_fires hfires, vstlOp_stores hin hr hm ha, hwrite, finish_ok]
  case gather =>
    intro a g s t ps hfires x hscalar halign hpass
    have run : exec (.veGathB32 a g) s = trigger .ve 0x1D9 .ot vgathOp a g s := rfl
    rw [run, trigger_fires hfires, vgathOp_gathers hscalar halign hpass, finish_ok]
  case scatter =>
    intro a g s t ps u hfires x hscalar halign hpass hwrite
    have run : exec (.veScatB32 a g) s = trigger .ve 0x1DA .opt vscatOp a g s := rfl
    rw [run, trigger_fires hfires, vscatOp_scatters hscalar halign hpass, hwrite, finish_ok]
  case sliceFaults =>
    intro e he offs j
    fin_cases he <;>
      exact ⟨trapsIf_of_op (fun _ _ _ => rfl) fun x s h => sliceThen_misaligned h,
        trapsIf_of_op (fun _ _ _ => rfl) fun x s ⟨halign, hwatch, h⟩ => sliceThen_beyond halign hwatch h⟩
  case lanesFaults =>
    intro e he
    fin_cases he
    · exact ⟨trapsIf_of_op (fun _ _ _ => rfl) fun x s => scalarOnly_vector,
        fun l => trapsIf_of_op (fun _ _ _ => rfl) fun x s ⟨hscalar, h⟩ => vgathOp_misaligned hscalar h⟩
    · exact ⟨trapsIf_of_op (fun _ _ _ => rfl) fun x s => scalarOnly_vector,
        fun l => trapsIf_of_op (fun _ _ _ => rfl) fun x s ⟨hscalar, h⟩ => vscatOp_misaligned hscalar h⟩

end Sys2Proof.Machine
end

section
/-!
PROOFS of 14_matrix: the matrix loop state and its triggers, and the scoreboard (R276, R287-R290).
-/

namespace Sys2Proof.Machine

/-! ### Words of a loop state (R276) -/

section
variable {p f b c n r : Nat}

theorem mxWord_toNat (hp : p < 16) (hf : f < 8) (hb : b < 2048) (hc : c < 2048) (hn : n < 2048) (hr : r < 2 ^ 24) :
    (mxWord p f b c n r).toNat = p + f * 2 ^ 4 + b * 2 ^ 7 + c * 2 ^ 18 + n * 2 ^ 29 + r * 2 ^ 40 := by
  rw [mxWord, BitVec.toNat_ofNat]
  omega

/-- Each field of a loop state is read back. -/
theorem mxWord_fields (hp : p < 16) (hf : f < 8) (hb : b < 2048) (hc : c < 2048) (hn : n < 2048) (hr : r < 2 ^ 24) :
    (mxWord p f b c n r).toNat % 16 = p ∧ mxFmt (mxWord p f b c n r) = f ∧ mxBase (mxWord p f b c n r) = b ∧
      mxCur (mxWord p f b c n r) = c ∧ mxPlen (mxWord p f b c n r) = n ∧ mxRem (mxWord p f b c n r) = r := by
  simp only [mxFmt, mxBase, mxCur, mxPlen, mxRem, bitsOf, mxWord_toNat hp hf hb hc hn hr]
  omega

end

/-- A predicate of a loop state is the bit of the state's low field. -/
theorem getLsbD_eq_testBit_mod16 (w : Word) {i : Nat} (hi : i < 4) : w.getLsbD i = (w.toNat % 16).testBit i := by
  rw [BitVec.getLsbD, show 16 = 2 ^ 4 from rfl, Nat.testBit_mod_two_pow, decide_eq_true hi, Bool.true_and]

theorem bitsOf_one (w : Word) (i : Nat) : bitsOf w.toNat i 1 = (w.getLsbD i).toNat := by
  rw [bitsOf, BitVec.getLsbD, Nat.testBit_eq_decide_div_mod_eq]
  have := Nat.mod_two_eq_zero_or_one (w.toNat / 2 ^ i)
  rcases this with h | h <;> simp [h]

/-! ### The rotation of a step (R287) -/

/-- The four predicates as a field. -/
def predBits (p0 p1 p2 p3 : Bool) : Nat := p0.toNat + p1.toNat * 2 + p2.toNat * 4 + p3.toNat * 8

theorem predBits_lt (p0 p1 p2 p3 : Bool) : predBits p0 p1 p2 p3 < 16 := by
  revert p0 p1 p2 p3; decide

theorem testBit_predBits : ∀ (p0 p1 p2 p3 : Bool) (i : Fin 4),
    (predBits p0 p1 p2 p3).testBit i = [p0, p1, p2, p3][i] := by decide

/-- Whether a step ends a pass: it is real, and its last slot is the pass's last. -/
def mxEdge (w : Word) : Bool := decide (0 < mxRem w ∧ mxCur w + slotsPerStep (mxFmt w) = mxPlen w + 1)

/-- CUR after a step. -/
def mxNextCur (w : Word) : Nat :=
  if mxRem w = 0 then mxCur w else if mxEdge w then 0 else mxCur w + slotsPerStep (mxFmt w)

theorem mxStepWord_eq (w : Word) : mxStepWord w =
    mxWord (predBits (decide (1 < mxRem w)) (w.getLsbD 0) (w.getLsbD 1) (mxEdge w)) 0 0 (mxNextCur w) 0 (mxRem w - 1) := by
  have edge : (decide (0 < mxRem w) && decide (mxCur w + slotsPerStep (mxFmt w) = mxPlen w + 1)) = mxEdge w :=
    (Bool.decide_and _ _).symm
  have more : (if 0 < mxRem w - 1 then 1 else 0) = (decide (1 < mxRem w)).toNat := by
    rw [Bool.toNat, Bool.cond_decide]
    exact if_congr (by omega) rfl rfl
  have last : (if mxEdge w = true then 8 else 0) = (mxEdge w).toNat * 8 := by cases mxEdge w <;> rfl
  have cur : (if 0 < mxRem w then (if mxEdge w = true then 0 else mxCur w + slotsPerStep (mxFmt w)) else mxCur w) =
      mxNextCur w := by
    rw [mxNextCur, ← ite_not]
    exact if_congr (by omega) rfl rfl
  simp only [mxStepWord, edge, more, bitsOf_one, last, predBits, decide_eq_true_eq, cur]

theorem mxRem_lt (w : Word) : mxRem w < 2 ^ 24 := bitsOf_lt ..
theorem mxCur_lt (w : Word) : mxCur w < 2048 := bitsOf_lt _ _ 11
theorem mxPlen_lt (w : Word) : mxPlen w < 2048 := bitsOf_lt _ _ 11

/-- Within the pass a step stays in it. -/
theorem mxNextCur_lt {w : Word} (h : mxCur w + slotsPerStep (mxFmt w) ≤ mxPlen w + 1) : mxNextCur w < 2048 := by
  have hcur := mxCur_lt w
  have hplen := mxPlen_lt w
  rw [mxNextCur]
  split_ifs with hrem hedge
  · exact hcur
  · omega
  · have : ¬(mxCur w + slotsPerStep (mxFmt w) = mxPlen w + 1) := fun heq =>
      hedge (decide_eq_true ⟨by omega, heq⟩)
    omega

theorem mxStepWord_rotates {w : Word} (h : mxCur w + slotsPerStep (mxFmt w) ≤ mxPlen w + 1) :
    mxRem (mxStepWord w) = mxRem w - 1 ∧ (mxStepWord w).getLsbD 0 = decide (1 < mxRem w) ∧
      (mxStepWord w).getLsbD 1 = w.getLsbD 0 ∧ (mxStepWord w).getLsbD 2 = w.getLsbD 1 ∧
      (mxStepWord w).getLsbD 3 = mxEdge w ∧ mxCur (mxStepWord w) = mxNextCur w := by
  have hrem : mxRem w - 1 < 2 ^ 24 := (Nat.sub_le ..).trans_lt (mxRem_lt w)
  obtain ⟨preds, -, -, cur, -, rem⟩ := mxWord_fields
    (predBits_lt (decide (1 < mxRem w)) (w.getLsbD 0) (w.getLsbD 1) (mxEdge w)) (f := 0) (by decide) (b := 0) (by decide)
    (mxNextCur_lt h) (n := 0) (by decide) hrem
  rw [← mxStepWord_eq] at preds cur rem
  have pred (i : Fin 4) : (mxStepWord w).getLsbD i =
      [decide (1 < mxRem w), w.getLsbD 0, w.getLsbD 1, mxEdge w][i] := by
    rw [getLsbD_eq_testBit_mod16 _ i.isLt, preds, testBit_predBits]
  exact ⟨rem, pred 0, pred 1, pred 2, pred 3, cur⟩

/-! ### Loop, offset and null step (R287, R288) -/

theorem mxForm_of_good {bad : Bool} (k : MoveR) (h : bad = false) : mxForm bad k = k := if_neg (by simp [h])

theorem mxForm_of_bad {bad : Bool} (k : MoveR) (h : bad = true) : mxForm bad k = .trap 0x61 5 0 := if_pos h

/-- Operands in the form of `mx.loop`: blocks and steps in their fields, a format of 1 to 5, and a pass that fits. -/
def Opnds.goodLoop (x : Opnds) : Prop :=
  x.o.word.toNat / 2 ^ 12 % 16 = 0 ∧ x.o.word.toNat < 2 ^ 40 ∧ 1 ≤ x.t.word.toNat ∧ x.t.word.toNat ≤ 5 ∧
    0 < x.o.word.toNat % 2 ^ 12 ∧ x.o.word.toNat % 2 ^ 12 ≤ 2048 ∧
    x.o.word.toNat % 2 ^ 12 * slotsPerStep x.t.word.toNat ≤ 2048

theorem bitsOf_zero (v width : Nat) : bitsOf v 0 width = v % 2 ^ width := by rw [bitsOf, pow_zero, Nat.div_one]

theorem loopOp_lands {x : Opnds} (s : State) (h : x.goodLoop) : loopOp x s = .ok (s.landAt
    (.mxLoop (mxWord (if 0 < x.o.word.toNat / 2 ^ 16 then 1 else 0) x.t.word.toNat 0 0
      (x.o.word.toNat % 2 ^ 12 * slotsPerStep x.t.word.toNat - 1) (x.o.word.toNat / 2 ^ 16)) mxLoopMask)
    (.sc SVal.zero)) := by
  obtain ⟨hzero, hlt, hlo, hhi, hpos, hmax, hfit⟩ := h
  have steps : bitsOf x.o.word.toNat 16 24 = x.o.word.toNat / 2 ^ 16 := Nat.mod_eq_of_lt (by omega)
  have gap : bitsOf x.o.word.toNat 12 4 = 0 := hzero
  rw [loopOp, mxForm_of_good]
  · simp only [bitsOf_zero, steps]
  · rw [decide_eq_false_iff_not]
    simp only [bitsOf_zero, gap]
    omega

theorem loopOp_malformed {x : Opnds} (s : State) (h : ¬x.goodLoop) : loopOp x s = .trap 0x61 5 0 := by
  have gap : bitsOf x.o.word.toNat 12 4 = x.o.word.toNat / 2 ^ 12 % 16 := rfl
  rw [loopOp, mxForm_of_bad]
  rw [decide_eq_true_iff]
  simp only [bitsOf_zero, gap]
  rw [Opnds.goodLoop] at h
  omega

theorem stepBad_iff (t : Word) : stepBad t = true ↔ 64 ≤ t.toNat ∨ t.toNat / 8 % 2 = 1 := by
  have bit : bitsOf t.toNat 3 1 = t.toNat / 8 % 2 := rfl
  rw [stepBad, bit, Bool.or_eq_true, decide_eq_true_iff, decide_eq_true_iff]
  omega

/-- A trigger whose tags, those of its tiles among them, agree carries its operation out with their common tag. -/
theorem withTiles_agree {us : Uses} {tags : State → List Tag} {body : Opnds → State → MoveR} {a : Opnds} {s : State}
    (h : tagCheck s.me ((us.vals (s.me.latchO .mx) (s.me.latchP .mx) a.t).map Value.tag ++ tags s) = none) :
    withTiles us tags body a s = body { s.me.opnds .mx us a.t with
      tag := commonTag ((us.vals (s.me.latchO .mx) (s.me.latchP .mx) a.t).map Value.tag ++ tags s) } s := by
  simp only [withTiles, Ctx.opnds, h]

/-- A step without work only rotates the predicates. -/
theorem stepOp_null {x : Opnds} {s : State} (hrem : mxRem s.me.mxl = 0) (htag : tagCheck s.me [x.t.tag] = none) :
    stepOp x s = mxForm (stepBad x.t.word)
      (.ok (s.landAt (.mxLoop (mxStepWord s.me.mxl) 0xF#64) (.sc SVal.zero))) := by
  rw [stepOp, if_pos hrem, withTiles_agree (us := .t) htag]
  rfl

/-! ### The scoreboard (R279, R289) -/

/-- The tiles that a command reads or writes. -/
def Cmd.tiles (c : Cmd) : Nat := (cmdTiles c.port c.t.word).1 ||| (cmdTiles c.port c.t.word).2.1

theorem aBit_le (n : Nat) : aBit n ≤ 128 := Nat.pow_le_pow_right (by decide) (by omega : n % 8 ≤ 7)

theorem cBit_le (n : Nat) : cBit n ≤ 2048 := Nat.pow_le_pow_right (by decide) (by omega : 8 + n % 4 ≤ 11)

theorem cmdTiles_lt (port : Nat) (t : Word) : (cmdTiles port t).1 < 2 ^ 12 ∧ (cmdTiles port t).2.1 < 2 ^ 12 := by
  have ha := aBit_le (bitsOf t.toNat 0 3)
  have hc := cBit_le (bitsOf t.toNat 0 2)
  have hd := cBit_le (bitsOf t.toNat 4 2)
  simp only [cmdTiles]
  split <;> dsimp only <;> omega

theorem Cmd.tiles_lt (c : Cmd) : c.tiles < 2 ^ 12 := Nat.or_lt_two_pow (cmdTiles_lt ..).1 (cmdTiles_lt ..).2

theorem foldl_or_lt {α : Type} {f : α → Nat} {k : Nat} (hf : ∀ a, f a < 2 ^ k) (l : List α) :
    ∀ n < 2 ^ k, l.foldl (fun n a => n ||| f a) n < 2 ^ k := by
  induction l with
  | nil => exact fun n hn => hn
  | cons a l ih => exact fun n hn => ih _ (Nat.or_lt_two_pow hn (hf a))

theorem testBit_foldl_or {α : Type} (f : α → Nat) (b : Nat) (l : List α) :
    ∀ n, (l.foldl (fun n a => n ||| f a) n).testBit b = (n.testBit b || l.any fun a => (f a).testBit b) := by
  induction l with
  | nil => simp
  | cons a l ih => intro n; rw [List.foldl_cons, ih, Nat.testBit_or, List.any_cons, Bool.or_assoc]

/-- The tiles of a context's commands in a queue. -/
def busyTiles (q : List Cmd) (k : Nat) : Nat :=
  (q.filter fun c => decide (c.ctx = k)).foldl (fun n c => n ||| c.tiles) 0

theorem busyTiles_lt (q : List Cmd) (k : Nat) : busyTiles q k < 2 ^ 12 := foldl_or_lt Cmd.tiles_lt _ 0 (by decide)

theorem busyWord_eq (q : List Cmd) (k : Nat) : busyWord q k = BitVec.ofNat 64 (busyTiles q k + q.length * 2 ^ 12) := by
  simp only [busyWord, busyTiles, Cmd.tiles, Nat.or_assoc]

theorem busyWord_count (q : List Cmd) (k : Nat) :
    (busyWord q k).toNat / 2 ^ 12 % 2 ^ 52 = q.length % 2 ^ 52 := by
  have := busyTiles_lt q k
  rw [busyWord_eq, BitVec.toNat_ofNat]
  omega

theorem busyWord_tiles (q : List Cmd) (k : Nat) {b : Nat} (hb : b < 12) : (busyWord q k).getLsbD b = true ↔
    ∃ c ∈ q, c.ctx = k ∧
      ((cmdTiles c.port c.t.word).1.testBit b = true ∨ (cmdTiles c.port c.t.word).2.1.testBit b = true) := by
  have low : (busyTiles q k + q.length * 2 ^ 12) % 2 ^ 12 = busyTiles q k := by
    have := busyTiles_lt q k
    omega
  have bit : (busyWord q k).getLsbD b = (busyTiles q k).testBit b := by
    conv_rhs => rw [← low, Nat.testBit_mod_two_pow, decide_eq_true hb, Bool.true_and]
    rw [busyWord_eq, BitVec.getLsbD_ofNat, decide_eq_true (by omega : b < 64), Bool.true_and]
  rw [bit, busyTiles, testBit_foldl_or]
  simp [Cmd.tiles]

theorem busyOp_reads {x : Opnds} {s : State} (h : x.t.word.toNat < 2) : busyOp x s = .ok (s.land .mxq 1
    (if x.t.word = 0 then .scalar (busyWord (s.core s.cur.core).mxq s.cur.ctx) x.tag true
      else .scalar s.me.mxl x.tag x.taint) 0#6) := by
  rw [busyOp, mxForm_of_good _ (decide_eq_false (by omega))]
  exact (apply_ite (fun v => MoveR.ok (s.land .mxq 1 v 0#6)) _ _ _).symm

/-- The test of `mx.drain`: a command of the context in the queue. -/
theorem any_ctx_iff (q : List Cmd) (k : Nat) : (q.any fun c => decide (c.ctx = k)) = true ↔ ∃ c ∈ q, c.ctx = k := by
  simp

/-- Settles O42: each trigger by the form of its operands, and what lands by the fields of the words of a loop state. -/
theorem matrixLoopState : Obligations.MatrixLoopState := by
  unfold Obligations.MatrixLoopState
  refine ⟨?loop, ?loopForm, ?off, ?offForm, ?nullStep, fun _ _ _ _ => rfl, fun _ _ _ _ _ _ => mxWord_fields,
    fun _ h => mxStepWord_rotates h, ?busy, ?busyForm, fun q k => ⟨busyWord_count q k, fun _ => busyWord_tiles q k⟩,
    ?drain, ?drainBlocks⟩
  case loop => exact completesIf_of_op (fun _ _ _ => rfl) fun x s h => loopOp_lands s h
  case loopForm => exact trapsIf_of_op (fun _ _ _ => rfl) fun x s h => loopOp_malformed s h
  case off => exact completesIf_of_op (fun _ _ _ => rfl) fun x s h => mxForm_of_good _ (decide_eq_false (Nat.not_le.mpr h))
  case offForm => exact trapsIf_of_op (fun _ _ _ => rfl) fun x s h => mxForm_of_bad _ (decide_eq_true h)
  case nullStep =>
    intro a g s hfires hclock hrem t
    have step : exec (.mxStep a g) s = finish s (slotOf a 0x226 g) (mxForm (stepBad (s.operands .mx .t a).t.word)
        (.ok (s.landAt (.mxLoop (mxStepWord s.me.mxl) 0xF#64) (.sc SVal.zero)))) := by
      have run : exec (.mxStep a g) s = trigger .mx 0x226 .none_ stepOp a g s := rfl
      rw [run, trigger_fires hfires]
      exact congrArg _ (stepOp_null hrem (by simpa [clocked, Uses.vals, State.operands, Ctx.opnds] using hclock))
    refine ⟨fun hlt hbit => ?_, fun hbad => ?_⟩
    · have good : stepBad (s.operands .mx .t a).t.word = false := by
        rw [Bool.eq_false_iff, ne_eq, stepBad_iff]
        omega
      rw [step, mxForm_of_good _ good]
      rfl
    · rw [step, mxForm_of_bad _ ((stepBad_iff _).mpr hbad)]
  case busy => exact completesIf_of_op (fun _ _ _ => rfl) fun x s h => busyOp_reads h
  case busyForm => exact trapsIf_of_op (fun _ _ _ => rfl) fun x s h => mxForm_of_bad _ (decide_eq_true h)
  case drain =>
    refine completesIf_of_op (fun _ _ _ => rfl) fun x s h => if_neg ?_
    rw [any_ctx_iff]
    exact fun ⟨c, hc, hctx⟩ => h c hc hctx
  case drainBlocks =>
    intro a g s hfires hwaits
    have run : exec (.mxDrain a g) s = trigger .mx 0x22C .none_ drainOp a g s := rfl
    rw [run, trigger_fires hfires, drainOp, if_pos ((any_ctx_iff _ _).mpr hwaits)]

end Sys2Proof.Machine
end

section
/-!
PROOFS of 14_matrix: matrix commands that join their queue (R278-R287, R291).
-/

namespace Sys2Proof.Machine

/-! ### Records and data that pass their checks (R291) -/

theorem State.vetLevel_passes {s t : State} {level : Byte} {what : AccFor} {l : List Span} {ps : List SpanP}
    (h : s.passesAll what l t ps) : s.vetLevel level what none l l = .ok t ps := by
  obtain ⟨r, qs, hw, hr, hm, ha⟩ := h
  rw [State.vetLevel, hw]
  simp only [hr, hm]
  exact ha

theorem readRecord_reads {level : Byte} {va n : Nat} {s u : State} {bs : List Byte} {taint : Bool}
    {k : State → List Byte → Bool → MoveR} (h : s.recordRead va n u bs taint) : readRecord level va n s k = k u bs taint := by
  obtain ⟨w, p, hpass, rfl, rfl, rfl⟩ := h
  rw [readRecord, State.vetLevel_passes hpass]

theorem admitData_passes {level : Byte} {l : List Span} {s v : State} {rd wr : List Piece}
    {k : State → List Piece → List Piece → MoveR} (h : s.dataPass l v rd wr) : admitData level none l s k = k v rd wr := by
  obtain ⟨ps, hpass, rfl, rfl⟩ := h
  rw [admitData, admitLevel, State.vetLevel_passes hpass]

/-! ### A command at the end of its queue (R78, R278) -/

/-- A context changed, or as before; a context may be named by several numbers. -/
theorem State.ctx_updCtx_or (s : State) (x y : CtxRef) (f : Ctx → Ctx) :
    (s.updCtx x f).ctx y = f (s.ctx y) ∨ (s.updCtx x f).ctx y = s.ctx y := by
  by_cases h : y.core ≠ x.core ∨ x.ctx % 4 ≠ y.ctx % 4
  · exact .inr (State.ctx_updCtx_other _ _ _ _ h)
  · push Not at h
    have same (t : State) : t.ctx y = t.ctx x := by
      have slot : Fin.ofNat 4 y.ctx = Fin.ofNat 4 x.ctx := Fin.ext h.2.symm
      simp only [State.ctx, Core.ctx, h.1, slot]
    rw [same, same, State.ctx_updCtx]
    exact .inl rfl

theorem State.ctx_updCore_ctxs (s : State) (n : Nat) {f : Core → Core} (h : ∀ k, (f k).ctxs = k.ctxs) (y : CtxRef) :
    (s.updCore n f).ctx y = s.ctx y := by
  by_cases hy : y.core = n
  · subst hy
    simp only [State.ctx, State.core_updCore, Core.ctx, h]
  · simp only [State.ctx, State.core_updCore_other _ _ _ _ hy]

theorem Core.push_ctxs (k : Core) (u : Unit11) (c : Cmd) : (k.push u c).ctxs = k.ctxs := by
  cases u <;> rfl

/-- The units with an engine queue. -/
def isEngine (u : Unit11) : Prop := u = .mx ∨ u = .cp ∨ u = .ms

theorem Core.queue_push {u : Unit11} (hu : isEngine u) (k : Core) (c : Cmd) : (k.push u c).queue u = k.queue u ++ [c] := by
  obtain rfl | rfl | rfl := hu <;> rfl

/-- A command with its completion selector resolved for the die of its trigger (R191). -/
def State.resolved (s : State) (c : Cmd) : Cmd :=
  { c with sel := c.sel.map fun w => (s.sel s.cur (BitVec.ofNat 64 w)).word }

theorem State.resolved_of_none (s : State) {c : Cmd} (h : c.sel = none) : s.resolved c = c := by
  rw [State.resolved, h, Option.map_none, ← h]

/-- A command that finds room stands last in its queue. -/
theorem State.enqueue_joins {s : State} {u : Unit11} {c : Cmd} (hu : isEngine u)
    (hroom : queueFull ((s.core s.cur.core).queue u) = false) :
    ∃ t, s.enqueue u c = .ok t ∧ t.cur = s.cur ∧ s.joined t u (s.resolved c) := by
  have join (w : State) (hw : (s.updCore s.cur.core fun k => k.push u (s.resolved c)).sameHardware w)
      (hm : w.store.mem = s.store.mem) : w.cur = s.cur ∧ s.joined w u (s.resolved c) := by
    have hctx (x : CtxRef) : w.ctx x = s.ctx x := by
      rw [State.ctx_congr hw.cores, State.ctx_updCore_ctxs _ _ fun k => k.push_ctxs u _]
    refine ⟨?_, ?_, hm, hw.counters, fun x => hctx x ▸ .refl _⟩
    · obtain ⟨st, ls, rfl⟩ := hw
      rfl
    · rw [State.core_congr hw.cores, State.core_updCore, Core.queue_push hu]
  rw [State.enqueue, if_neg (by simp [hroom])]
  refine ⟨_, rfl, ?_⟩
  split_ifs
  · exact join _ (.trans ⟨_, _, rfl⟩ (State.irrev_sameHardware _ _)) (by simp [Store.log_mem])
  · exact join _ ⟨_, _, rfl⟩ (Store.log_mem ..)
  · exact join _ (State.irrev_sameHardware _ _) (by simp)
  · exact join _ (.refl _) rfl

/-- No tile that a command needs is busy, and its queue has room (R279). -/
def State.mxRoom (s : State) (port : Nat) (t : Word) : Prop :=
  let m := cmdTiles port t
  tilesBusy (s.core s.cur.core).mxq s.cur.ctx m.1 m.2.1 m.2.2 = false ∧ queueFull (s.core s.cur.core).mxq = false

theorem State.mxEnqueue_joins {s : State} {c : Cmd} (hsel : c.sel = none) (h : s.mxRoom c.port c.t.word) :
    ∃ t, s.mxEnqueue c = .ok t ∧ t.cur = s.cur ∧ s.joined t .mx c := by
  obtain ⟨hfree, hroom⟩ := h
  rw [State.mxEnqueue, if_neg (by simp [hfree])]
  simpa only [State.resolved_of_none s hsel] using State.enqueue_joins (c := c) (.inl rfl) hroom

/-- A trigger whose checks left `v` and that ends in the queueing of its command has queued it. -/
theorem queues_of_mxEnqueue {i : Instr} {s v : State} {m : BitVec 24} {port : Nat} {x : Opnds} {recs : List (List Byte)}
    {rd wr : List Piece} {taint : Bool} (run : exec i s = finish s m (v.mxEnqueue (v.mxCmd port x recs rd wr taint)))
    (h : v.mxRoom port x.t.word) : queues i s v .mx port x recs rd wr fun _ => True := by
  obtain ⟨t, hok, -, hjoin⟩ := State.mxEnqueue_joins (c := v.mxCmd port x recs rd wr taint) rfl h
  rw [hok, finish_ok] at run
  exact ⟨t.retired, _, run, rfl, hjoin, ⟨rfl, rfl, rfl, rfl, rfl, rfl, rfl, rfl, rfl⟩, rfl, nofun, trivial⟩

/-! ### Loads of tiles (R283, R284) -/

theorem posRow_eq (w : Word) : posRow w = w.toNat % 2 ^ 32 := bitsOf_zero ..

theorem posCol_eq (w : Word) : posCol w = w.toNat / 2 ^ 32 :=
  Nat.mod_eq_of_lt (by have := w.isLt; omega)

/-- The form that the three loads of tiles share: `rows` tiles, records that are `ok`, and the spans of their sources. -/
def tileLoadOp (d rows : Nat) (ok : FmtRec → Bool) (spans : FmtRec → Word → List Span) (a : Opnds) (s : State) : MoveR :=
  mxForm (decide (a.t.word.toNat ≥ rows) || decide (a.o.word.toNat % 32 ≠ 0)) <|
    mxRecord a (fun _ => false) ok s fun s r bs taint =>
      admitData cMxLevel none (spans r a.p.word) s fun s rd wr => s.mxEnqueue (s.mxCmd d a [bs] rd wr taint)

/-- What is claimed of a load of a tile: it queues its command, or its record or its operands are at fault. -/
def loadsTile (d rows : Nat) (i : Src → Guard → Instr) (ok : FmtRec → Bool) (spans : FmtRec → Word → List Span) : Prop :=
  (∀ a g s u v bs taint rd wr, fires .mx d .opt a g s = true →
    let x := s.operands .mx .opt a
    x.t.word.toNat < rows → x.o.word.toNat % 32 = 0 → s.recordRead x.o.word.toNat 32 u bs taint →
    ((fmtRec bs).valid = true → ok (fmtRec bs) = true → u.dataPass (spans (fmtRec bs) x.p.word) v rd wr →
      v.mxRoom d x.t.word → queues (i a g) s v .mx d x [bs] rd wr fun _ => True) ∧
    ((fmtRec bs).valid = false ∨ ok (fmtRec bs) = false →
      exec (i a g) s = finish s (slotOf a d g) (.trap 0x60 5 x.o.word.toNat))) ∧
  trapsIf .mx d .opt i (fun x _ => rows ≤ x.t.word.toNat ∨ x.o.word.toNat % 32 ≠ 0) 0x61 (fun _ => 0)

theorem mxRecord_reads {a : Opnds} {late ok : FmtRec → Bool} {s u : State} {bs : List Byte} {taint : Bool}
    {k : State → FmtRec → List Byte → Bool → MoveR} (h : s.recordRead a.o.word.toNat 32 u bs taint) :
    mxRecord a late ok s k = if late (fmtRec bs) then .trap 0x61 6 0
      else if !(fmtRec bs).valid || !ok (fmtRec bs) then .trap 0x60 5 a.o.word.toNat else k u (fmtRec bs) bs taint := by
  rw [mxRecord, readRecord_reads h]
  rfl

theorem loadsTile_of_op {d rows : Nat} {i : Src → Guard → Instr} {ok : FmtRec → Bool} {spans : FmtRec → Word → List Span}
    (run : ∀ a g s, exec (i a g) s = trigger .mx d .opt (tileLoadOp d rows ok spans) a g s) : loadsTile d rows i ok spans := by
  refine ⟨?_, ?_⟩
  · intro a g s u v bs taint rd wr hfires x hrow halign hread
    have form : (decide (x.t.word.toNat ≥ rows) || decide (x.o.word.toNat % 32 ≠ 0)) = false := by
      simp [hrow, halign]
    have exec_eq : exec (i a g) s = finish s (slotOf a d g) (tileLoadOp d rows ok spans x s) := by
      rw [run, trigger_fires hfires]
    rw [tileLoadOp, mxForm_of_good _ form, mxRecord_reads hread] at exec_eq
    refine ⟨fun hvalid hok hdata hroom => ?_, fun hbad => ?_⟩
    · rw [if_neg (by simp), if_neg (by simp [hvalid, hok]), admitData_passes hdata] at exec_eq
      exact queues_of_mxEnqueue exec_eq hroom
    · rw [exec_eq, if_neg (by simp), if_pos (by simpa using hbad)]
  · exact trapsIf_of_op run fun x s h => mxForm_of_bad _ (by simpa using h)

/-- The source spans of `mx.tld` from a position word. -/
def tldSource (r : FmtRec) (p : Word) : List Span := tldSpans r (posRow p) (posCol p)

theorem tldSource_eq (r : FmtRec) (p : Word) : tldSource r p = tldSpans r (p.toNat % 2 ^ 32) (p.toNat / 2 ^ 32) := by
  rw [tldSource, posRow_eq, posCol_eq]

/-- The source spans of `mx.xa` from a position word. -/
def xaSource (r : FmtRec) (p : Word) : List Span :=
  (List.range 64).flatMap fun i => (List.range 32).map fun k => ⟨r.eaddr (posRow p + k) (posCol p + i), 2, false⟩

theorem xaSource_eq (r : FmtRec) (p : Word) : xaSource r p = (List.range 64).flatMap fun i => (List.range 32).map fun k =>
    ⟨r.eaddr (p.toNat % 2 ^ 32 + k) (p.toNat / 2 ^ 32 + i), 2, false⟩ := by
  rw [xaSource, posRow_eq, posCol_eq]

/-- The source spans of `mx.cld` from a position word. -/
def cldSource (r : FmtRec) (p : Word) : List Span :=
  (List.range 64).map fun i => ⟨r.eaddr (posRow p + i) (posCol p), 256, false⟩

theorem cldSource_eq (r : FmtRec) (p : Word) : cldSource r p =
    (List.range 64).map fun i => ⟨r.eaddr (p.toNat % 2 ^ 32 + i) (p.toNat / 2 ^ 32), 256, false⟩ := by
  rw [cldSource, posRow_eq, posCol_eq]

/-- The records that `mx.tld` takes are those of the 16-bit and the BX formats. -/
theorem halfOrBx_eq (r : FmtRec) :
    (r.half || r.bx.isSome) = decide (r.fmt = 1 ∨ r.fmt = 2 ∨ r.fmt = 3 ∨ r.fmt = 4 ∨ r.fmt = 5) := by
  unfold FmtRec.half FmtRec.bx bxOf
  split <;> simp_all

/-! ### Commands that take an accumulator tile (R281, R285, R286) -/

/-- The operands of a trigger with the tags of some tiles among those that make the common one (R73, R281). -/
def State.withTags (s : State) (us : Uses) (a : Src) (tags : List Tag) : Opnds :=
  let x := s.operands .mx us a
  { x with tag := commonTag ((us.vals x.o x.p x.t).map Value.tag ++ tags) }

/-- The tags of a trigger's operands and of some tiles agree, and their clock is present. -/
def State.agrees (s : State) (us : Uses) (a : Src) (tags : List Tag) : Prop :=
  let x := s.operands .mx us a
  tagCheck s.me ((us.vals x.o x.p x.t).map Value.tag ++ tags) = none

/-- The tag of an accumulator tile once the commands that write it are done. -/
def State.accTags (s : State) (n : Nat) : List Tag := [s.tileTag s.cur (cBit n) (s.me.cTile n).tag]

/-- `mx.cst` once its operands are in form and its record is read. -/
theorem cstOp_reads {x : Opnds} {s u : State} {bs : List Byte} {taint : Bool} (hn : x.t.word.toNat < 4)
    (halign : x.o.word.toNat % 32 = 0) (hread : s.recordRead x.o.word.toNat 32 u bs taint) :
    cstOp x s = if ((fmtRec bs).bx.isSome && decide (posCol x.p.word % 32 ≠ 0)) = true then .trap 0x61 6 0
      else if (fmtRec bs).valid = false then .trap 0x60 5 x.o.word.toNat
      else admitData cMxLevel none (cstSpans (fmtRec bs) (posRow x.p.word) (posCol x.p.word)) u fun s rd wr =>
        s.mxEnqueue (s.mxCmd 0x224 x [bs, (s.me.cTile (x.t.word.toNat % 4)).bytes] rd wr (s.me.cTile (x.t.word.toNat % 4)).taint) := by
  rw [cstOp, mxForm_of_good _ (by simp [hn, halign]), mxRecord_reads hread]
  simp only [bitsOf_zero, Bool.not_true, Bool.or_false, Bool.not_eq_true']
  rfl

theorem cstOp_queues {x : Opnds} {s u v : State} {bs : List Byte} {taint : Bool} {rd wr : List Piece}
    (hn : x.t.word.toNat < 4) (halign : x.o.word.toNat % 32 = 0) (hread : s.recordRead x.o.word.toNat 32 u bs taint)
    (hplace : bxOf (fmtRec bs).fmt = none ∨ x.p.word.toNat / 2 ^ 32 % 32 = 0) (hvalid : (fmtRec bs).valid = true)
    (hdata : u.dataPass (cstSpans (fmtRec bs) (x.p.word.toNat % 2 ^ 32) (x.p.word.toNat / 2 ^ 32)) v rd wr) :
    cstOp x s = v.mxEnqueue
      (v.mxCmd 0x224 x [bs, (v.me.cTile (x.t.word.toNat % 4)).bytes] rd wr (v.me.cTile (x.t.word.toNat % 4)).taint) := by
  have place : ¬ ((fmtRec bs).bx.isSome && decide (x.p.word.toNat / 2 ^ 32 % 32 ≠ 0)) = true := by
    rw [Bool.and_eq_true, decide_eq_true_iff, FmtRec.bx]
    obtain h | h := hplace <;> simp [h, -Nat.reducePow]
  rw [cstOp_reads hn halign hread, posRow_eq, posCol_eq, if_neg place, if_neg (by simp [hvalid]), admitData_passes hdata]

theorem cstOp_misplaced {x : Opnds} {s u : State} {bs : List Byte} {taint : Bool} {b : Num.BxFmt}
    (hn : x.t.word.toNat < 4) (halign : x.o.word.toNat % 32 = 0) (hread : s.recordRead x.o.word.toNat 32 u bs taint)
    (hbx : bxOf (fmtRec bs).fmt = some b) (hcol : x.p.word.toNat / 2 ^ 32 % 32 ≠ 0) : cstOp x s = faultRead 0x61 0 := by
  have place : ((fmtRec bs).bx.isSome && decide (x.p.word.toNat / 2 ^ 32 % 32 ≠ 0)) = true := by
    simp [FmtRec.bx, hbx, hcol, -Nat.reducePow]
  rw [cstOp_reads hn halign hread, posCol_eq, if_pos place]
  rfl

theorem sclOp_queues {x : Opnds} {s v : State} {rd wr : List Piece} (hn : x.t.word.toNat < 4)
    (halign : x.o.word.toNat % 4 = 0) (hdata : s.dataPass [⟨x.o.word.toNat, 256, false⟩] v rd wr) :
    sclOp x s = v.mxEnqueue (v.mxCmd 0x22B x [] rd wr false) := by
  rw [sclOp, mxForm_of_good _ (by simp [hn, halign]), admitData_passes hdata]

/-- A store or a scaling whose tags agree is carried out with the tile's tag among those of its operands. -/
theorem exec_mxCst {a : Src} {g : Guard} {s : State} (hfires : fires .mx 0x224 .none_ a g s = true)
    (h : s.agrees .opt a (s.accTags ((s.operands .mx .opt a).t.word.toNat % 4))) : exec (.mxCst a g) s =
      finish s (slotOf a 0x224 g) (cstOp (s.withTags .opt a (s.accTags ((s.operands .mx .opt a).t.word.toNat % 4))) s) := by
  have run : exec (.mxCst a g) s = trigger .mx 0x224 .none_ (fun b => withTiles .opt
    (fun s => s.accTags (bitsOf b.t.word.toNat 0 2)) cstOp b) a g s := rfl
  rw [run, trigger_fires hfires]
  simp only [bitsOf_zero]
  exact congrArg _ (withTiles_agree h)

theorem exec_mxScl {a : Src} {g : Guard} {s : State} (hfires : fires .mx 0x22B .none_ a g s = true)
    (h : s.agrees .ot a (s.accTags ((s.operands .mx .ot a).t.word.toNat % 4))) : exec (.mxScl a g) s =
      finish s (slotOf a 0x22B g) (sclOp (s.withTags .ot a (s.accTags ((s.operands .mx .ot a).t.word.toNat % 4))) s) := by
  have run : exec (.mxScl a g) s = trigger .mx 0x22B .none_ (fun b => withTiles .ot
    (fun s => s.accTags (bitsOf b.t.word.toNat 0 2)) sclOp b) a g s := rfl
  rw [run, trigger_fires hfires]
  simp only [bitsOf_zero]
  exact congrArg _ (withTiles_agree h)

/-! ### Steps (R287) -/

theorem State.core_queue_updCtx (s : State) (x : CtxRef) (f : Ctx → Ctx) (n : Nat) (u : Unit11) :
    ((s.updCtx x f).core n).queue u = (s.core n).queue u := by
  obtain ⟨hmx, hcp, hms, -⟩ := State.core_updCtx s x f n
  cases u <;> simp only [Core.queue, hmx, hcp, hms]

/-- A result on its way beside a queued command. -/
theorem State.joined.landAt {v t : State} {u : Unit11} {c : Cmd} (h : v.joined t u c) (d : Land) (w : Value) :
    v.joined (t.landAt d w) u c := by
  obtain ⟨hqueue, hmem, hctr, hregs⟩ := h
  refine ⟨?_, hmem, hctr, fun x => ?_⟩
  · rw [State.landAt, State.core_queue_updCtx, hqueue]
  · obtain h | h := State.ctx_updCtx_or t t.cur x fun c => c.schedule d 1 w 0#6
    · rw [State.landAt, h]
      exact hregs x
    · rw [State.landAt, h]
      exact hregs x

theorem State.landAt_pend (s : State) (d : Land) (w : Value) :
    (s.landAt d w).me.pend = s.me.pend ++ [⟨1, d, w, 0#6, false, [], 0#64, none, none⟩] :=
  congrArg Ctx.pend (State.ctx_updCtx s s.cur fun c => c.schedule d 1 w 0#6)

/-- The tags of the two tiles of a step. -/
theorem stepTags_eq (t : Word) (s : State) : stepTags t s =
    [s.tileTag s.cur (2 ^ (t.toNat % 8)) (s.me.aTile (t.toNat % 8)).tag,
      s.tileTag s.cur (2 ^ (8 + t.toNat / 16 % 4 % 4)) (s.me.cTile (t.toNat / 16 % 4)).tag] := by
  have a : bitsOf t.toNat 0 3 = t.toNat % 8 := bitsOf_zero ..
  have c : bitsOf t.toNat 4 2 = t.toNat / 16 % 4 := rfl
  simp only [stepTags, a, c, aBit, cBit, Nat.mod_mod]

/-- The command of a real step: its slot and format beside its operands. -/
def State.stepCmd (s : State) (x : Opnds) : Cmd :=
  { s.mxCmd 0x226 x [] [canopyPiece s.cur (mxBase s.me.mxl + mxCur s.me.mxl) (slotsPerStep (mxFmt s.me.mxl))] [] false with
    slot := mxBase s.me.mxl + mxCur s.me.mxl
    sfmt := mxFmt s.me.mxl }

/-- A real step with its slots in the canopy queues its command, its loop state to land. -/
theorem realStepOp_queues {x : Opnds} {s : State}
    (hslots : mxBase s.me.mxl + mxCur s.me.mxl + slotsPerStep (mxFmt s.me.mxl) ≤ s.me.alloc.cnb / 32)
    (hroom : s.mxRoom 0x226 x.t.word) : ∃ u, s.joined u .mx (s.stepCmd x) ∧
      realStepOp x s = .ok (u.landAt (.mxLoop (mxStepWord s.me.mxl) mxStepMask) (.sc SVal.zero)) := by
  obtain ⟨u, hok, -, hjoin⟩ := State.mxEnqueue_joins (c := s.stepCmd x) rfl hroom
  refine ⟨u, hjoin, ?_⟩
  rw [State.stepCmd] at hok
  rw [realStepOp, if_neg (Nat.not_lt.mpr hslots)]
  simp only [hok]

/-- A real step whose tags agree is carried out with its tiles' tags among those of its operand. -/
theorem exec_mxStep_real {a : Src} {g : Guard} {s : State} (hfires : fires .mx 0x226 .none_ a g s = true)
    (hrem : 0 < mxRem s.me.mxl) (h : s.agrees .t a (stepTags (s.operands .mx .t a).t.word s))
    (hform : stepBad (s.operands .mx .t a).t.word = false) : exec (.mxStep a g) s =
      finish s (slotOf a 0x226 g) (realStepOp (s.withTags .t a (stepTags (s.operands .mx .t a).t.word s)) s) := by
  have run : exec (.mxStep a g) s = trigger .mx 0x226 .none_ stepOp a g s := rfl
  rw [run, trigger_fires hfires, stepOp, if_neg (Nat.pos_iff_ne_zero.mp hrem)]
  have form := mxForm_of_good (realStepOp (s.withTags .t a (stepTags (s.operands .mx .t a).t.word s)) s) hform
  exact congrArg _ ((withTiles_agree (us := .t) (tags := stepTags (s.operands .mx .t a).t.word)
    (body := fun b s => mxForm (stepBad b.t.word) (realStepOp b s)) (a := s.operands .mx .none_ a) h).trans form)

/-- Settles O43: each command by its operation once its operands, its record and its data have passed. -/
theorem matrixCommandsJoinTheQueue : Obligations.MatrixCommandsJoinTheQueue := by
  unfold Obligations.MatrixCommandsJoinTheQueue
  intro room any load tileTag withTile agree
  refine ⟨?tld, ?xa, ?cld, ?cst, ?scl, ?zero, ?zeroForm, ?step⟩
  case tld =>
    have op : loadsTile 0x222 8 .mxTld (fun r => r.half || r.bx.isSome) tldSource := loadsTile_of_op fun _ _ _ => rfl
    rw [funext halfOrBx_eq, funext₂ tldSource_eq] at op
    exact op
  case xa =>
    have op : loadsTile 0x22A 8 .mxXa FmtRec.half xaSource := loadsTile_of_op fun _ _ _ => rfl
    rw [funext₂ xaSource_eq] at op
    exact op
  case cld =>
    have op : loadsTile 0x223 4 .mxCld (fun r => decide (r.fmt = 0)) cldSource := loadsTile_of_op fun _ _ _ => rfl
    rw [funext₂ cldSource_eq] at op
    exact op
  case cst =>
    intro a g s u v bs taint rd wr hfires n tags x r hagree hn halign hread
    refine ⟨fun hplace hvalid hdata hroom => ?_, fun ⟨b, hbx⟩ hcol => ?_⟩
    · exact queues_of_mxEnqueue ((exec_mxCst hfires hagree).trans
        (congrArg _ (cstOp_queues hn halign hread hplace hvalid hdata))) hroom
    · exact (exec_mxCst hfires hagree).trans (congrArg _ (cstOp_misplaced hn halign hread hbx hcol))
  case scl =>
    intro a g s v rd wr hfires n tags x hagree hn halign hdata hroom
    exact queues_of_mxEnqueue ((exec_mxScl hfires hagree).trans (congrArg _ (sclOp_queues hn halign hdata))) hroom
  case zero =>
    intro a g s hfires x hn hroom
    have run : exec (.mxZero a g) s = trigger .mx 0x225 .t zeroOp a g s := rfl
    rw [trigger_fires hfires, zeroOp, mxForm_of_good _ (decide_eq_false (Nat.not_le.mpr hn))] at run
    exact queues_of_mxEnqueue run hroom
  case zeroForm => exact trapsIf_of_op (fun _ _ _ => rfl) fun x s h => mxForm_of_bad _ (decide_eq_true h)
  case step =>
    intro a g s hfires n w slot sps tags x hagree hn hbit hrem
    have htags : stepTags (s.operands .mx .t a).t.word s = tags := stepTags_eq _ _
    have hform : stepBad (s.operands .mx .t a).t.word = false := by
      rw [Bool.eq_false_iff, ne_eq, stepBad_iff]
      omega
    have run := exec_mxStep_real hfires hrem (htags ▸ hagree) hform
    rw [htags] at run
    refine ⟨fun hslots hroom => ?_, fun hslots => ?_⟩
    · obtain ⟨u, hjoin, hstep⟩ := realStepOp_queues (x := x) hslots hroom
      have run : exec (.mxStep a g) s = .next (u.landAt (.mxLoop (mxStepWord w) mxStepMask) (.sc SVal.zero)).retired := by
        rw [run]
        exact congrArg (finish s _) hstep
      refine ⟨_, s.stepCmd x, run, rfl, hjoin.landAt _ _, rfl, rfl, rfl, rfl, rfl,
        ⟨1, .mxLoop (mxStepWord w) mxStepMask, .sc SVal.zero, 0#6, false, [], 0#64, none, none⟩, ?_, rfl, rfl⟩
      change _ ∈ (u.landAt _ _).me.pend
      rw [State.landAt_pend]
      exact List.mem_append_right _ (List.mem_singleton_self _)
    · rw [run]
      exact congrArg (finish s _) (if_pos hslots)

end Sys2Proof.Machine
end

section
/-!
PROOFS of 14_matrix, 16_copy and 18_clearing: queued commands that start, end, and leave their results (R278, R283-R287,
R296-R310, R329-R331).
-/

namespace Sys2Proof.Machine

/-! ### Changes of the store alone -/

/-- Two states that differ in their stores alone. -/
def State.onlyStore (s t : State) : Prop := ∃ st, t = { s with store := st }

theorem State.onlyStore.refl (s : State) : s.onlyStore s := ⟨s.store, rfl⟩

theorem State.onlyStore.trans {s t u : State} (h : s.onlyStore t) (h' : t.onlyStore u) : s.onlyStore u := by
  obtain ⟨st, rfl⟩ := h
  obtain ⟨st', rfl⟩ := h'
  exact ⟨st', rfl⟩

theorem State.onlyStore.cores {s t : State} (h : s.onlyStore t) : t.cores = s.cores := by
  obtain ⟨st, rfl⟩ := h
  rfl

theorem State.onlyStore.counters {s t : State} (h : s.onlyStore t) : t.counters = s.counters := by
  obtain ⟨st, rfl⟩ := h
  rfl

theorem State.onlyStore.cmdViewer {s t : State} (h : s.onlyStore t) (c : Cmd) : t.cmdViewer c = s.cmdViewer c := by
  obtain ⟨st, rfl⟩ := h
  rfl

theorem writePiece_plain_onlyStore (s : State) (x : CtxRef) {v : Viewer} {p : Piece} (bytes : List Byte) (taint : Bool)
    (hp : v.plain p) : s.onlyStore (s.writePiece x v p bytes taint) := by
  obtain ⟨-, hv, hr⟩ := hp
  rw [State.writePiece]
  cases hpage : p.page with
  | remote d r m => exact absurd hpage (hr d r m)
  | _ => rw [hpage] at hv; simp only [hv]; exact ⟨_, rfl⟩

theorem writePieces_plain_onlyStore (x : CtxRef) {v : Viewer} (taint : Bool) (ps : List Piece) :
    ∀ (s : State) (bytes : List Byte), (∀ p ∈ ps, v.plain p) → s.onlyStore (s.writePieces x v ps bytes taint) := by
  induction ps with
  | nil => exact fun s _ _ => .refl s
  | cons p ps ih =>
    intro s bytes hps
    obtain ⟨hp, hps⟩ := List.forall_mem_cons.mp hps
    exact (writePiece_plain_onlyStore s x _ taint hp).trans (ih _ _ hps)

/-- Whether a write would change a pinned entry depends on memory alone (R352). -/
theorem State.pinSpanIn_congr {s t : State} (h : t.store.mem = s.store.mem) (pins : List Nat) (ps : List Piece) :
    ∀ bytes, t.pinSpanIn pins ps bytes = s.pinSpanIn pins ps bytes := by
  induction ps with
  | nil => exact fun _ => rfl
  | cons p ps ih =>
    intro bytes
    have hit (b : List Byte) : t.pinHitIn pins p.key b = s.pinHitIn pins p.key b := by
      simp only [State.pinHitIn, h]
    simp only [State.pinSpanIn, hit, ih]

/-! ### Bytes that a command leaves in its destinations (R115) -/

/-- The destinations of a command lie apart on this device outside versions, take the bytes, and no pinned entry refuses them. -/
def State.stores (s : State) (c : Cmd) (bytes : List Byte) : Prop :=
  (∀ p ∈ c.writes, (s.viewerOf c.react).plain p) ∧ bytes.length = (c.writes.map Piece.n).sum ∧
    s.pinSpanIn s.pinned c.writes bytes = none ∧
    c.writes.Pairwise fun p q => p.key + p.n ≤ q.key ∨ q.key + q.n ≤ p.key

/-- The destinations of a command hold the bytes, in order, and no other byte has changed. -/
def State.leaves (s t : State) (c : Cmd) (bytes : List Byte) : Prop :=
  (c.writes.flatMap fun p => cellsRead t.store.mem p.key p.n) = bytes ∧
    ∀ a, inPieces c.writes a = false → cellGet t.store.mem a = cellGet s.store.mem a

theorem State.leaves.of_mem {s t u : State} {c : Cmd} {bytes : List Byte} (h : s.leaves t c bytes)
    (hmem : u.store.mem = t.store.mem) : s.leaves u c bytes := by
  rw [State.leaves, hmem]
  exact h

/-- A command's write whose destinations take it, from a state whose memory is as before. -/
theorem State.cmdWrite_leaves {s u : State} {c : Cmd} {bytes : List Byte} (hsound : s.sound) (hst : s.stores c bytes)
    (hu : s.onlyStore u) (hmem : u.store.mem = s.store.mem) (x : CtxRef) (taint : Bool) :
    ∃ t, u.cmdWrite x c bytes taint = some t ∧ s.onlyStore t ∧ s.leaves t c bytes := by
  obtain ⟨hplain, hlen, hpin, hapart⟩ := hst
  have pin : u.pinSpanIn u.pinned c.writes bytes = none := by
    obtain ⟨st, rfl⟩ := hu
    rw [State.pinSpanIn_congr hmem]
    exact hpin
  have plain : ∀ p ∈ c.writes, (u.cmdViewer c).plain p := by
    rw [hu.cmdViewer c]
    exact hplain
  have room : u.roomFor x (u.cmdViewer c) c.writes = some u :=
    State.roomAfter_unversioned u x (fun p hp => (plain p hp).2.1) []
  refine ⟨(u.writePieces x (u.cmdViewer c) c.writes bytes taint).unpoison (u.cmdViewer c) c.writes, ?_, ?_, ?_, ?_⟩
  · simp only [State.cmdWrite, pin, room]
    rfl
  · exact hu.trans ((writePieces_plain_onlyStore x taint c.writes u bytes plain).trans ⟨_, rfl⟩)
  · have sound : u.sound := by
      rw [State.sound, hmem]
      exact hsound
    simpa only [State.unpoison_mem] using cellsRead_writePieces x taint c.writes u bytes sound plain hlen hapart
  · intro a ha
    rw [State.unpoison_mem, writePieces_plain_frame x taint c.writes u bytes plain ha, hmem]

/-! ### What an add to a counter depends on (R191, R193) -/

/-- What an add to a counter of a context depends on, and what it changes of counters, stands alike in two states. -/
structure State.addsAlike (s t : State) (x : CtxRef) : Prop where
  counters : t.counters = s.counters
  launches : t.launches = s.launches
  devid : t.devid = s.devid
  flits : t.fabric.flits = s.fabric.flits
  react : (t.ctx x).react = (s.ctx x).react
  lctr : (t.ctx x).lctr = (s.ctx x).lctr

theorem State.addsAlike.trans {s t u : State} {x : CtxRef} (h : s.addsAlike t x) (h' : t.addsAlike u x) : s.addsAlike u x :=
  ⟨h'.counters.trans h.counters, h'.launches.trans h.launches, h'.devid.trans h.devid, h'.flits.trans h.flits,
    h'.react.trans h.react, h'.lctr.trans h.lctr⟩

theorem State.onlyStore.addsAlike {s t : State} (h : s.onlyStore t) (x : CtxRef) : s.addsAlike t x := by
  obtain ⟨st, rfl⟩ := h
  exact ⟨rfl, rfl, rfl, rfl, rfl, rfl⟩

theorem State.updCore_addsAlike (s : State) (n : Nat) {f : Core → Core} (h : ∀ k, (f k).ctxs = k.ctxs) (x : CtxRef) :
    s.addsAlike (s.updCore n f) x :=
  ⟨rfl, rfl, rfl, rfl, congrArg Ctx.react (s.ctx_updCore_ctxs n h x), congrArg Ctx.lctr (s.ctx_updCore_ctxs n h x)⟩

theorem State.updCtx_addsAlike (s : State) (y : CtxRef) {f : Ctx → Ctx} (hreact : ∀ k, (f k).react = k.react)
    (hlctr : ∀ k, (f k).lctr = k.lctr) (x : CtxRef) : s.addsAlike (s.updCtx y f) x := by
  refine ⟨rfl, rfl, rfl, rfl, ?_, ?_⟩
  · obtain h | h := s.ctx_updCtx_or y x f <;> simp only [h, hreact]
  · obtain h | h := s.ctx_updCtx_or y x f <;> simp only [h, hlctr]

/-- A change to a die that keeps its identifier keeps that of the device. -/
theorem State.devid_updDie (s : State) (d : Nat) {f : DieRegs → DieRegs} (h : ∀ r, (f r).devid = r.devid) :
    (s.updDie d f).devid = s.devid := by
  by_cases hd : Fin.ofNat 8 d = Fin.ofNat 8 0
  · have same : s.die d = s.die 0 := by simp only [State.die, hd]
    have set : (s.updDie d f).die 0 = f (s.die d) := by
      have at_ : d % 8 = 0 := congrArg Fin.val hd
      simp [State.die, State.updDie, at_]
    rw [State.devid, set, h, same, State.devid]
  · have kept : (s.updDie d f).die 0 = s.die 0 := by
      have apart : (Fin.ofNat 8 d).val ≠ (Fin.ofNat 8 0).val := fun e => hd (Fin.ext e)
      simp only [State.die, State.updDie, Fin.getElem_fin]
      exact Vector.getElem_set_ne _ _ apart
    rw [State.devid, kept, State.devid]

theorem DieRegs.countOne_devid (r : DieRegs) (pos n ev ctx k : Nat) : (r.countOne pos n ev ctx k).devid = r.devid := by
  rw [DieRegs.countOne]
  dsimp only
  split_ifs <;> rfl

theorem DieRegs.countAll_devid (pos ev ctx k : Nat) (l : List Nat) (r : DieRegs) :
    (l.foldl (fun r i => r.countOne pos i ev ctx k) r).devid = r.devid :=
  List.foldlRecOn (motive := fun q : DieRegs => q.devid = r.devid) l _ rfl
    fun q hq i _ => (q.countOne_devid pos i ev ctx k).trans hq

/-- Energy spent by a context (R384). -/
def Ctx.spend (e : Nat) (c : Ctx) : Ctx := { c with nrg := nrgAdd c.nrg e }

/-- An event changes performance counters and its context's energy alone (R382, R384). -/
theorem State.event_eq (s : State) (y : CtxRef) (ev n : Nat) : s.event y ev n = s ∨
    ∃ r e, s.event y ev n = ({ s with regs := r } : State).updCtx y (Ctx.spend e) ∧ ({ s with regs := r } : State).devid = s.devid := by
  rw [State.event]
  dsimp only
  split_ifs
  · exact .inl rfl
  · exact .inr ⟨_, _, rfl, s.devid_updDie _ fun r => r.countAll_devid ..⟩
  · exact .inr ⟨s.regs, _, rfl, rfl⟩

theorem State.event_addsAlike (s : State) (y : CtxRef) (ev n : Nat) (x : CtxRef) : s.addsAlike (s.event y ev n) x := by
  obtain same | ⟨r, e, spent, devid⟩ := s.event_eq y ev n
  · rw [same]
    exact (State.onlyStore.refl s).addsAlike x
  · rw [spent]
    have regs : s.addsAlike { s with regs := r } x := ⟨rfl, rfl, devid, rfl, rfl, rfl⟩
    exact regs.trans (State.updCtx_addsAlike _ y (f := Ctx.spend e) (fun _ => rfl) (fun _ => rfl) x)

theorem State.dropAsked_addsAlike (s : State) (y x : CtxRef) : s.addsAlike (s.dropAsked y) x := ⟨rfl, rfl, rfl, rfl, rfl, rfl⟩

section
variable {s t : State} {x : CtxRef} (h : s.addsAlike t x)
include h

theorem State.addsAlike.sel (w : Word) : t.sel x w = s.sel x w := by
  simp only [State.sel, State.reactOf, h.devid, h.react, State.react?_congr h.launches]

theorem State.addsAlike.ctxFlits : t.ctxFlits x = s.ctxFlits x := by
  rw [State.ctxFlits, State.ctxFlits, h.flits]

theorem State.addsAlike.applyAdd (c : Sel) (n : Word) : (t.applyAdd x c n).counters = (s.applyAdd x c n).counters ∧
    ((t.applyAdd x c n).ctx x).lctr = ((s.applyAdd x c n).ctx x).lctr := by
  have keyed (u : State) (key : Nat) : ((u.ctrAdd key n).ctx x).lctr = (u.ctx x).lctr := rfl
  have add (key : Nat) : (t.ctrAdd key n).counters = (s.ctrAdd key n).counters := by
    simp only [State.ctrAdd, State.ctr, h.counters]
  cases c with
  | bad => exact ⟨h.counters, h.lctr⟩
  | loc i =>
    refine ⟨h.counters, ?_⟩
    rw [State.applyAdd_local, State.applyAdd_local, Ctx.addLocal, Ctx.addLocal, h.lctr]
  | gang i =>
    rw [State.applyAdd, State.applyAdd, h.react]
    split
    · exact ⟨add _, h.lctr⟩
    · exact ⟨h.counters, h.lctr⟩
  | die d i => exact ⟨add _, h.lctr⟩
  | remote v d i =>
    have sent (u : State) : (u.applyAdd x (.remote v d i) n).counters = u.counters ∧
        (u.applyAdd x (.remote v d i) n).ctx x = u.ctx x := by
      have f := u.sendFor_sameButFabric x.core x.ctx none 4 v 0 (ctrAddr (ctrKey d i)) (leBytes 8 n.toNat) 0xFF
        (u.ctx x).stamp.toNat
      exact ⟨f.counters, State.ctx_congr f.cores x⟩
    rw [(sent t).1, (sent s).1, (sent t).2, (sent s).2]
    exact ⟨h.counters, h.lctr⟩

end

/-! ### Completions (R14, R298, R319) -/

/-- A completion is added to its counter, not to a version: the counter is no shared one, or no reaction issued the command, or
its launch is open. -/
def State.addsAtOnce (s : State) (react : Option RunRef) (q : Sel) : Prop :=
  q.shared = false ∨ react = none ∨ ∃ r, react = some r ∧ ∃ l, s.launch? r.lid = some l ∧ l.record.open_ = true

theorem completionAdd_atOnce {s : State} {x : CtxRef} {react : Option RunRef} {w : Nat} {n : Word} {taint : Bool}
    (hflits : s.ctxFlits x = false) (hreact : (s.ctx x).react = react)
    (h : s.addsAtOnce react (s.sel x (BitVec.ofNat 64 w))) :
    s.completionAdd x react w n taint = s.applyAdd x (s.sel x (BitVec.ofNat 64 w)) n := by
  have release : s.releaseAdd x w n taint = s.applyAdd x (s.sel x (BitVec.ofNat 64 w)) n := by
    rw [State.releaseAdd, hflits]
    rfl
  unfold State.completionAdd
  by_cases hshared : (s.sel x (BitVec.ofNat 64 w)).shared = true
  · obtain h | rfl | ⟨r, rfl, l, hl, hopen⟩ := h
    · exact absurd hshared (by simp [h])
    · simpa [hshared] using release
    · simpa [hshared, hl, hopen] using release
  · simpa [hshared, hreact] using release

theorem completionAdd_logged {s : State} {x : CtxRef} {r : RunRef} {l : Launch} {w : Nat} {n : Word} {taint : Bool}
    (hl : s.launch? r.lid = some l) (hordered : l.record.open_ = false)
    (hshared : (s.sel x (BitVec.ofNat 64 w)).shared = true) : s.completionAdd x (some r) w n taint =
      { s with store := s.store.log r.lid r.stamp [.add (s.sel x (BitVec.ofNat 64 w)).addKey n taint] } := by
  simp [State.completionAdd, hshared, hl, hordered]

/-- Whether a log is that of a reaction. -/
def RLog.isOf (lid stamp : Nat) (l : RLog) : Bool := decide (l.lid = lid) && decide (l.stamp = stamp)

theorem Store.mem_effs {st : Store} {lid stamp : Nat} {e : Eff} :
    e ∈ st.effs lid stamp ↔ ∃ l, st.logs.find? (RLog.isOf lid stamp) = some l ∧ e ∈ l.effs := by
  have eq : st.effs lid stamp = match st.logs.find? (RLog.isOf lid stamp) with
      | some l => l.effs
      | none => [] := rfl
  rw [eq]
  cases st.logs.find? (RLog.isOf lid stamp) <;> simp

/-- What is pushed to a reaction's log stands in it. -/
theorem find_logPush (lid stamp : Nat) (es : List Eff) (logs : List RLog) :
    ∃ l, (logPush lid stamp es logs).find? (RLog.isOf lid stamp) = some l ∧ ∀ e ∈ es, e ∈ l.effs := by
  induction logs with
  | nil => exact ⟨⟨lid, stamp, es⟩, by simp [logPush, RLog.isOf], fun e he => he⟩
  | cons l ls ih =>
    rw [logPush]
    split_ifs with hsame hbefore
    · exact ⟨{ l with effs := l.effs ++ es }, by simp [RLog.isOf, hsame], fun e he => List.mem_append_right _ he⟩
    · have other : RLog.isOf lid stamp l = false := by simpa [RLog.isOf] using hsame
      simpa only [List.find?_cons, other] using ih
    · exact ⟨⟨lid, stamp, es⟩, by simp [RLog.isOf], fun e he => he⟩

theorem Store.mem_effs_log (st : Store) (lid stamp : Nat) (e : Eff) : e ∈ (st.log lid stamp [e]).effs lid stamp := by
  rw [Store.mem_effs, Store.log, if_neg (List.cons_ne_nil _ _)]
  obtain ⟨l, hfind, hmem⟩ := find_logPush lid stamp [e] st.logs
  exact ⟨l, hfind, hmem e (List.mem_singleton_self e)⟩

/-- Putting a command's effects in issue order loses none of them. -/
theorem mem_settleLog {core id n : Nat} {keep : Bool} {es : List Eff} {e : Eff} (he : e ∈ es) (hne : e ≠ .cmd core id) :
    e ∈ settleLog core id n keep es := by
  rw [← List.take_append_drop n es, List.mem_append] at he
  rw [settleLog, List.append_assoc, List.mem_append, List.mem_append]
  obtain he | he := he
  · generalize es.take n = l at he ⊢
    have split := List.takeWhile_append_dropWhile (p := fun e => e != .cmd core id) (l := l)
    have rest (k : Nat) : l.drop ((l.takeWhile fun e => e != .cmd core id).length + k) =
        (l.dropWhile fun e => e != .cmd core id).drop k := by
      conv_lhs => arg 2; rw [← split]
      exact List.drop_length_add_append ..
    rw [← split, List.mem_append] at he
    refine he.imp_right fun he => .inr ?_
    rw [rest]
    split
    · exact he
    · cases hrest : l.dropWhile (fun e => e != .cmd core id) with
      | nil => rw [hrest] at he; cases he
      | cons y ys =>
        have hy : y = .cmd core id := by
          have stops := List.head_dropWhile_not (p := fun e => e != Eff.cmd core id) (l := l) (by simp [hrest])
          simpa [hrest] using stops
        rw [hrest, hy] at he
        simpa [hne] using he
  · exact .inr (.inl he)

theorem State.mem_effs_settle {s t : State} {core : Nat} {keep : Bool} {c : Cmd} {r : RunRef} {e : Eff} (hr : c.react = some r)
    (he : e ∈ t.store.effs r.lid r.stamp) (hne : e ≠ .cmd core c.id) :
    e ∈ (s.settle t core keep c).store.effs r.lid r.stamp := by
  rw [State.settle, hr]
  dsimp only
  split_ifs
  · obtain ⟨l, hfind, hmem⟩ := Store.mem_effs.mp he
    have hl : l.lid = r.lid ∧ l.stamp = r.stamp := by simpa [RLog.isOf] using List.find?_some hfind
    have same (f : List Eff → List Eff) : RLog.isOf r.lid r.stamp ∘ (fun l : RLog =>
        if l.lid = r.lid ∧ l.stamp = r.stamp then { l with effs := f l.effs } else l) = RLog.isOf r.lid r.stamp := by
      funext l
      by_cases h : l.lid = r.lid ∧ l.stamp = r.stamp <;> simp [RLog.isOf, h]
    let order := settleLog core c.id (s.store.effs r.lid r.stamp).length keep
    refine Store.mem_effs.mpr ⟨{ l with effs := order l.effs }, ?_, mem_settleLog hmem hne⟩
    rw [List.find?_map, same order, hfind, Option.map_some, if_pos hl]
  · exact he

theorem State.settle_counters (s t : State) (core : Nat) (keep : Bool) (c : Cmd) :
    (s.settle t core keep c).counters = t.counters := by
  rw [State.settle]
  split
  · rfl
  · dsimp only
    split_ifs <;> rfl

theorem State.settle_onlyStore (s t : State) (core : Nat) (keep : Bool) (c : Cmd) : t.onlyStore (s.settle t core keep c) := by
  rw [State.settle]
  split
  · exact .refl t
  · dsimp only
    split_ifs
    · exact ⟨_, rfl⟩
    · exact .refl t

/-! ### The end of a command (R298) -/

/-- A command of that number stands in no place of a queue. -/
def goneFrom (q : List Cmd) (c : Cmd) : Prop := ∀ e ∈ q, e.id ≠ c.id

theorem dropCmd_gone (q : List Cmd) (c : Cmd) : goneFrom (dropCmd q c.id) c := fun e he => by
  simpa using List.of_mem_filter he

/-- The engine queues of every core stand alike in two states. -/
def State.sameQueues (s t : State) : Prop := ∀ n u, (t.core n).queue u = (s.core n).queue u

theorem State.sameQueues.of_cores {s t : State} (h : t.cores = s.cores) : s.sameQueues t := fun n u => by
  rw [State.core_congr h]

theorem State.sameQueues.trans {s t u : State} (h : s.sameQueues t) (h' : t.sameQueues u) : s.sameQueues u :=
  fun n k => (h' n k).trans (h n k)

theorem State.applyAdd_sameQueues (s : State) (x : CtxRef) (c : Sel) (n : Word) : s.sameQueues (s.applyAdd x c n) := by
  obtain same | ⟨i, raised⟩ := s.applyAdd_cores x c n
  · exact .of_cores same
  · exact .trans (fun m u => s.core_queue_updCtx x (Ctx.addLocal i n) m u) (.of_cores raised)

theorem State.core_queue_updCore (s : State) (n : Nat) {f : Core → Core} (h : ∀ k u, (f k).queue u = k.queue u) :
    s.sameQueues (s.updCore n f) := fun m u => by
  by_cases hm : m = n
  · rw [hm, State.core_updCore, h]
  · rw [State.core_updCore_other _ _ _ _ hm]

theorem State.releaseAdd_sameQueues (s : State) (x : CtxRef) (w : Nat) (n : Word) (taint : Bool) :
    s.sameQueues (s.releaseAdd x w n taint) := by
  rw [State.releaseAdd]
  split_ifs
  · exact s.core_queue_updCore _ fun k u => by cases u <;> rfl
  · exact s.applyAdd_sameQueues x _ n

theorem State.completionAdd_sameQueues (s : State) (x : CtxRef) (react : Option RunRef) (w : Nat) (n : Word) (taint : Bool) :
    s.sameQueues (s.completionAdd x react w n taint) := by
  unfold State.completionAdd
  dsimp only
  split_ifs
  · exact s.releaseAdd_sameQueues x w n taint
  · exact .of_cores rfl
  · split
    · split_ifs
      · exact s.releaseAdd_sameQueues x w n taint
      · exact .of_cores rfl
    · exact s.releaseAdd_sameQueues x w n taint

theorem State.complete_sameQueues (s : State) (x : CtxRef) (c : Cmd) : s.sameQueues (s.complete x c) := by
  rw [State.complete]
  split
  · exact .of_cores rfl
  · exact s.completionAdd_sameQueues x _ _ _ _

/-- A command taken out of the matrix and copy queues of a core. -/
def Core.without (c : Cmd) (k : Core) : Core := { k with mxq := dropCmd k.mxq c.id, cpq := dropCmd k.cpq c.id }

/-- A state with a command's event counted and the command out of its queue and its requests dropped. -/
def State.left (t : State) (core ev n : Nat) (c : Cmd) : State :=
  ((if n = 0 then t else t.event ⟨core, c.ctx⟩ ev n).updCore core (Core.without c)).dropAsked (cmdAgent core c.id)

theorem State.cmdEnd_eq (s t : State) (core ev n : Nat) (c : Cmd) :
    s.cmdEnd t core ev n c = s.settle ((t.left core ev n c).complete ⟨core, c.ctx⟩ c) core false c := rfl

theorem State.left_addsAlike (t : State) (core ev n : Nat) (c : Cmd) (x : CtxRef) : t.addsAlike (t.left core ev n c) x := by
  have drop (u : State) : u.addsAlike ((u.updCore core (Core.without c)).dropAsked (cmdAgent core c.id)) x :=
    (u.updCore_addsAlike core (f := Core.without c) (fun _ => rfl) x).trans (State.dropAsked_addsAlike ..)
  rw [State.left]
  split_ifs
  · exact drop t
  · exact (t.event_addsAlike ..).trans (drop _)

theorem State.left_gone (t : State) (core ev n : Nat) (c : Cmd) {u : Unit11} (hu : u = .mx ∨ u = .cp) :
    goneFrom (((t.left core ev n c).core core).queue u) c := by
  have gone (k : Core) : goneFrom ((k.without c).queue u) c := by
    obtain rfl | rfl := hu
    · exact dropCmd_gone k.mxq c
    · exact dropCmd_gone k.cpq c
  have core_eq (w : State) : ((w.updCore core (Core.without c)).dropAsked (cmdAgent core c.id)).core core =
      (w.core core).without c := State.core_updCore ..
  rw [State.left, core_eq]
  exact gone _

theorem State.cmdEnd_gone (s t : State) (core ev n : Nat) (c : Cmd) {u : Unit11} (hu : u = .mx ∨ u = .cp) :
    goneFrom (((s.cmdEnd t core ev n c).core core).queue u) c := by
  rw [State.cmdEnd_eq, State.core_congr (State.settle_onlyStore ..).cores, State.complete_sameQueues]
  exact t.left_gone core ev n c hu

/-- What a completed command's count has done: nothing without a counter; else it is added at once, or stands in the log of the
reaction of an ordered launch. -/
def State.counts (s t : State) (n : Nat) (c : Cmd) : Prop :=
  (c.sel = none → t.counters = s.counters) ∧
  ∀ w, c.sel = some w →
    (s.ctxFlits ⟨n, c.ctx⟩ = false → (s.ctx ⟨n, c.ctx⟩).react = c.react →
      s.addsAtOnce c.react (s.sel ⟨n, c.ctx⟩ (BitVec.ofNat 64 w)) →
      t.counters = (s.applyAdd ⟨n, c.ctx⟩ (s.sel ⟨n, c.ctx⟩ (BitVec.ofNat 64 w)) c.count).counters ∧
        (t.ctx ⟨n, c.ctx⟩).lctr =
          ((s.applyAdd ⟨n, c.ctx⟩ (s.sel ⟨n, c.ctx⟩ (BitVec.ofNat 64 w)) c.count).ctx ⟨n, c.ctx⟩).lctr) ∧
    ∀ r, c.react = some r → (∃ l, s.launch? r.lid = some l ∧ l.record.open_ = false) →
      (s.sel ⟨n, c.ctx⟩ (BitVec.ofNat 64 w)).shared = true →
      Eff.add (s.sel ⟨n, c.ctx⟩ (BitVec.ofNat 64 w)).addKey c.count c.ctaint ∈ t.store.effs r.lid r.stamp

theorem State.complete_none {s : State} {x : CtxRef} {c : Cmd} (h : c.sel = none) : s.complete x c = s := by
  rw [State.complete, h]

theorem State.complete_some {s : State} {x : CtxRef} {c : Cmd} {w : Nat} (h : c.sel = some w) :
    s.complete x c = s.completionAdd x c.react w c.count c.ctaint := by
  rw [State.complete, h]

theorem State.cmdEnd_counters {s t : State} {core ev n : Nat} {c : Cmd} (hsel : c.sel = none) :
    (s.cmdEnd t core ev n c).counters = t.counters := by
  rw [State.cmdEnd_eq, State.settle_counters, State.complete_none hsel, (t.left_addsAlike core ev n c ⟨core, c.ctx⟩).counters]

/-- A command that ends from a state in which counters stand as before makes its count. -/
theorem State.cmdEnd_counts {s t : State} {core : Nat} {c : Cmd} (h : s.addsAlike t ⟨core, c.ctx⟩) (ev n : Nat) :
    s.counts (s.cmdEnd t core ev n c) core c := by
  have alike := h.trans (t.left_addsAlike core ev n c ⟨core, c.ctx⟩)
  refine ⟨fun hsel => (State.cmdEnd_counters hsel).trans h.counters, fun w hsel => ⟨fun hflits hreact hatOnce => ?_, ?_⟩⟩
  · have atOnce : (t.left core ev n c).addsAtOnce c.react ((t.left core ev n c).sel ⟨core, c.ctx⟩ (BitVec.ofNat 64 w)) := by
      simpa only [State.addsAtOnce, alike.sel, State.launch?_congr alike.launches] using hatOnce
    have settled := State.settle_onlyStore s ((t.left core ev n c).complete ⟨core, c.ctx⟩ c) core false c
    rw [State.cmdEnd_eq, State.ctx_congr settled.cores, settled.counters, State.complete_some hsel,
      completionAdd_atOnce (alike.ctxFlits.trans hflits) (alike.react.trans hreact) atOnce, alike.sel]
    exact alike.applyAdd _ _
  · rintro r hr ⟨l, hl, hordered⟩ hshared
    have logged := completionAdd_logged (x := ⟨core, c.ctx⟩) (w := w) (n := c.count) (taint := c.ctaint)
      ((State.launch?_congr alike.launches r.lid).trans hl) hordered (by rw [alike.sel]; exact hshared)
    rw [State.cmdEnd_eq, State.complete_some hsel, hr, logged, alike.sel]
    exact State.mem_effs_settle hr (Store.mem_effs_log ..) nofun

theorem event_next {ok : Bool} (h : ok = true) (s : State) : event ok s = .next s := if_pos h

/-- Sources on this device need no request (R111). -/
theorem State.awaits_local {s : State} {core : Nat} {c : Cmd} (h : ∀ p ∈ c.reads, ∀ e r m, p.page ≠ .remote e r m) :
    s.awaits core c = false := by
  rw [State.awaits, State.missingPiece, Option.isSome_eq_false_iff, Option.isNone_iff_eq_none, List.findSome?_eq_none_iff]
  intro p hp
  cases hpage : p.page with
  | remote e r m => exact absurd hpage (h p hp e r m)
  | _ => rfl

theorem Cmd.away_local {c : Cmd} (h : ∀ p ∈ c.writes, ∀ e r m, p.page ≠ .remote e r m) : c.away = false := by
  rw [Cmd.away, List.any_eq_false]
  intro p hp
  cases hpage : p.page with
  | remote e r m => exact absurd hpage (h p hp e r m)
  | _ => simp

/-- A command whose bytes are all on this device ends once its effect is made. -/
theorem State.cmdFinish_ends {s t : State} {core ev n : Nat} {c : Cmd} {effect : State → Cmd → Option State}
    (hsent : c.sent = false) (hreads : ∀ p ∈ c.reads, ∀ e r m, p.page ≠ .remote e r m) (hpoison : s.poisoned c.reads = false)
    (hheld : c ∈ (s.core core).mxq ∨ c ∈ (s.core core).cpq) (heffect : effect s c = some t) (hqueues : s.sameQueues t)
    (haway : c.away = false) : s.cmdFinish core effect ev n c = s.cmdEnd t core ev n c := by
  have live : (t.core core).held.any (fun e => decide (e.id = c.id)) = true := by
    have hmx : (t.core core).mxq = (s.core core).mxq := hqueues core .mx
    have hcp : (t.core core).cpq = (s.core core).cpq := hqueues core .cp
    rw [Core.held, hmx, hcp, List.any_eq_true]
    exact ⟨c, List.mem_append.mpr hheld, decide_eq_true rfl⟩
  simp only [State.cmdFinish, hsent, State.awaits_local hreads, hpoison, heffect, live, haway, Bool.false_eq_true, if_false,
    Bool.not_true]

/-! ### Copy commands (R298) -/

/-- A copy command runs, its engine too, and its sources are on this device and not poisoned. -/
def State.cpReady (s : State) (n : Nat) (c : Cmd) : Prop := n < 529 ∧ s.sound ∧ (s.core n).cpRuns = true ∧
  (s.core n).cpq.find? (fun d => d.started && decide (d.id = c.id)) = some c ∧ c.sent = false ∧
  s.poisoned c.reads = false ∧ ∀ p ∈ c.reads, ∀ e r m, p.page ≠ .remote e r m

/-- A copy command that is ready ends once its effect is made. -/
theorem cpComplete_ends {s t : State} {n : Nat} {c : Cmd} (h : s.cpReady n c) (heffect : s.cpEffect n c = some t)
    (hqueues : s.sameQueues t) (haway : c.away = false) :
    exec (.cpCommandComplete n c.id) s = .next (s.cmdEnd t n 0x09 c.count.toNat c) := by
  obtain ⟨hn, -, hruns, hfind, hsent, hpoison, hreads⟩ := h
  have run : exec (.cpCommandComplete n c.id) s = event (decide (n < 529)) (s.cpComplete n c.id) := rfl
  rw [run, event_next (decide_eq_true hn), State.cpComplete]
  simp only [hfind, hruns, Bool.not_true, Bool.false_eq_true, if_false]
  rw [State.cmdFinish_ends (effect := fun s c => s.cpEffect n c) hsent hreads hpoison
    (.inr (List.mem_of_find?_eq_some hfind)) heffect hqueues haway]

/-- The bytes that a command reads, its sources being plain, in element order (R115). -/
def State.sources (s : State) (c : Cmd) : List Byte := c.reads.flatMap fun p => cellsRead s.store.mem p.key p.n

theorem State.cmdRead_bytes {s : State} {c : Cmd} (h : ∀ p ∈ c.reads, (s.viewerOf c.react).plain p) (x : CtxRef) :
    (s.cmdRead x c).2.1 = s.sources c := readPieces_plain (v := s.cmdViewer c) s _ c.reads h

theorem State.cmdLease_onlyStore (s : State) (c : Cmd) : s.onlyStore (s.cmdLease c) := ⟨_, rfl⟩

/-- The bytes that a copy command stores. -/
def State.copied (s : State) (c : Cmd) : List Byte :=
  if c.port = 0x266 then patternBytes c.o.word (c.writes.map Piece.n).sum
  else if c.port ∈ [0x267, 0x26A, 0x26B] then gridOut c (s.sources c) else s.sources c

/-- A copy or grid command writes what it makes of its sources. -/
theorem cpEffect_moves {s : State} {n : Nat} {c : Cmd} (hport : c.port ∉ [0x266, 0x268, 0x269]) : s.cpEffect n c =
    (s.cmdLease c).cmdWrite ⟨n, c.ctx⟩ c (if c.port = 0x267 ∨ c.port = 0x26A ∨ c.port = 0x26B
      then gridOut c (s.cmdRead ⟨n, c.ctx⟩ c).2.1 else (s.cmdRead ⟨n, c.ctx⟩ c).2.1)
      (c.taint || (s.cmdRead ⟨n, c.ctx⟩ c).2.2) := by
  rw [State.cpEffect]
  split
  next h => exact absurd (by simp [h]) hport
  next h => exact absurd (by simp [h]) hport
  next h => exact absurd (by simp [h]) hport
  next => rfl

/-- A copy, fill or grid command leaves its bytes in its destinations. -/
theorem cpEffect_leaves {s : State} {n : Nat} {c : Cmd} (hsound : s.sound)
    (hport : c.port ∈ [0x262, 0x263, 0x264, 0x265, 0x266, 0x267, 0x26A, 0x26B])
    (hreads : ∀ p ∈ c.reads, (s.viewerOf c.react).plain p) (hst : s.stores c (s.copied c)) :
    ∃ t, s.cpEffect n c = some t ∧ s.onlyStore t ∧ s.leaves t c (s.copied c) := by
  by_cases hfill : c.port = 0x266
  · have bytes : s.copied c = patternBytes c.o.word (c.writes.map Piece.n).sum := if_pos hfill
    rw [bytes] at hst ⊢
    simpa only [State.cpEffect, hfill] using State.cmdWrite_leaves hsound hst (.refl s) rfl ⟨n, c.ctx⟩ c.taint
  · have moves : c.port ∉ [0x266, 0x268, 0x269] := by
      simp only [List.mem_cons, List.not_mem_nil, or_false] at hport ⊢
      omega
    have bytes : s.copied c = if c.port = 0x267 ∨ c.port = 0x26A ∨ c.port = 0x26B
        then gridOut c (s.cmdRead ⟨n, c.ctx⟩ c).2.1 else (s.cmdRead ⟨n, c.ctx⟩ c).2.1 := by
      rw [State.copied, if_neg hfill, State.cmdRead_bytes hreads]
      simp only [List.mem_cons, List.not_mem_nil, or_false]
    rw [cpEffect_moves moves, ← bytes]
    exact State.cmdWrite_leaves hsound hst (s.cmdLease_onlyStore c) (s.cmdLease_mem c) _ _

/-- A copy, fill or grid command that ends has left its bytes, is gone, and has made its count. -/
theorem cpComplete_leaves {s : State} {n : Nat} {c : Cmd} (h : s.cpReady n c)
    (hport : c.port ∈ [0x262, 0x263, 0x264, 0x265, 0x266, 0x267, 0x26A, 0x26B])
    (hreads : ∀ p ∈ c.reads, (s.viewerOf c.react).plain p) (hst : s.stores c (s.copied c)) :
    ∃ t, exec (.cpCommandComplete n c.id) s = .next t ∧ goneFrom (t.core n).cpq c ∧ s.leaves t c (s.copied c) ∧
      s.counts t n c := by
  obtain ⟨t, heffect, hstore, hleaves⟩ := cpEffect_leaves (n := n) h.2.1 hport hreads hst
  have haway := Cmd.away_local fun p hp => (hst.1 p hp).2.2
  exact ⟨_, cpComplete_ends h heffect (.of_cores hstore.cores) haway, State.cmdEnd_gone s t n _ _ c (u := .cp) (.inr rfl),
    hleaves.of_mem (State.cmdEnd_mem ..), State.cmdEnd_counts (hstore.addsAlike _) _ _⟩

/-- The step table that a core holds. -/
theorem State.stbl_event (s : State) (x : CtxRef) (ev n m : Nat) : ((s.event x ev n).core m).stbl = (s.core m).stbl := by
  obtain same | ⟨r, e, spent, -⟩ := s.event_eq x ev n
  · rw [same]
  · rw [spent, State.updCtx, State.setCtx]
    by_cases hm : m = x.core
    · subst hm
      rw [State.core_updCore]
      rfl
    · rw [State.core_updCore_other _ _ _ _ hm]
      rfl

theorem State.left_stbl (t : State) (core ev n : Nat) (c : Cmd) :
    ((t.left core ev n c).core core).stbl = (t.core core).stbl := by
  have drop (w : State) : (((w.updCore core (Core.without c)).dropAsked (cmdAgent core c.id)).core core).stbl =
      (w.core core).stbl := (congrArg Core.stbl (State.core_updCore w core (Core.without c)) : _)
  rw [State.left, drop]
  split_ifs
  · rfl
  · exact t.stbl_event ..

/-- `cp.stbl` leaves its table in the core (R308). -/
theorem cpComplete_stbl {s : State} {n : Nat} {c : Cmd} (h : s.cpReady n c) (hport : c.port = 0x269) (hwrites : c.writes = [])
    (hsel : c.sel = none) : ∃ t, exec (.cpCommandComplete n c.id) s = .next t ∧ goneFrom (t.core n).cpq c ∧
      (t.core n).stbl = c.recs.head? ∧ t.store.mem = s.store.mem ∧ t.counters = s.counters := by
  let t := s.updCore n fun k => { k with stbl := c.recs.head? }
  have heffect : s.cpEffect n c = some t := by
    rw [State.cpEffect]
    simp only [hport]
    rfl
  have hqueues : s.sameQueues t := s.core_queue_updCore n fun k u => by cases u <;> rfl
  have haway : c.away = false := by rw [Cmd.away, hwrites]; rfl
  refine ⟨_, cpComplete_ends h heffect hqueues haway, State.cmdEnd_gone s t n _ _ c (u := .cp) (.inr rfl), ?_,
    State.cmdEnd_mem .., State.cmdEnd_counters hsel⟩
  rw [State.cmdEnd_eq, State.complete_none hsel, State.core_congr (State.settle_onlyStore ..).cores, State.left_stbl]
  exact congrArg Core.stbl (State.core_updCore s n _)

/-! ### Starts and markers (R278, R296, R299) -/

theorem mxStart_starts {n : Nat} {s : State} {c : Cmd} (hn : n < 529) (hruns : (s.core n).mxRuns = true)
    (hfind : (s.core n).mxq.find? (fun c => !c.started) = some c)
    (hpipe : ∀ e ∈ (s.core n).mxq, e.started = true → inArray e ≠ inArray c) (hclear : (s.core n).clear c = true)
    (hmay : s.mayStart ⟨n, c.ctx⟩ = true) :
    exec (.mxCommandStart n) s = .next (s.updCore n fun k => { k with mxq := startCmd k.mxq c.id }) := by
  have run : exec (.mxCommandStart n) s = event (decide (n < 529)) (s.mxStart n) := rfl
  have free : ((s.core n).mxq.any fun e => e.started && (inArray e == inArray c)) = false := by
    rw [List.any_eq_false]
    intro e he
    simpa using hpipe e he
  rw [run, event_next (decide_eq_true hn), State.mxStart]
  simp only [hfind, hruns, hmay, free, hclear, Bool.not_true, Bool.or_false, Bool.false_eq_true, if_false]

theorem mxStart_none {n : Nat} {s : State} (hn : n < 529) (h : ∀ c ∈ (s.core n).mxq, c.started = true) :
    exec (.mxCommandStart n) s = .next s := by
  have run : exec (.mxCommandStart n) s = event (decide (n < 529)) (s.mxStart n) := rfl
  have none_waits : (s.core n).mxq.find? (fun c => !c.started) = none := by
    rw [List.find?_eq_none]
    intro c hc
    simp [h c hc]
  rw [run, event_next (decide_eq_true hn), State.mxStart]
  simp only [none_waits]

theorem cpStart_starts {n : Nat} {s : State} {c : Cmd} (hn : n < 529) (hruns : (s.core n).cpRuns = true)
    (hmay : s.mayStart ⟨n, c.ctx⟩ = true)
    (hfind : (s.core n).cpq.find? (fun c => !c.started && decide (c.port ≠ 0x26C)) = some c)
    (hfew : ((s.core n).cpq.filter fun c => c.started).length < 4) (hclear : (s.core n).clear c = true) :
    exec (.cpCommandStart n) s = .next (s.updCore n fun k => { k with cpq := startCmd k.cpq c.id }) := by
  have run : exec (.cpCommandStart n) s = event (decide (n < 529)) (s.cpStart n) := rfl
  have few : decide (4 ≤ ((s.core n).cpq.filter Cmd.started).length) = false := decide_eq_false (Nat.not_le.mpr hfew)
  rw [run, event_next (decide_eq_true hn), State.cpStart]
  simp only [hfind, hruns, hmay, few, hclear, Bool.not_true, Bool.or_false, Bool.false_eq_true, if_false]

/-- A waiting copy command whose bytes an earlier one holds does not start (R98). -/
theorem cpStart_waits {n : Nat} {s : State} {c e : Cmd} (hn : n < 529)
    (hfind : (s.core n).cpq.find? (fun c => !c.started && decide (c.port ≠ 0x26C)) = some c) (he : e ∈ (s.core n).cpq)
    (hearlier : e.id < c.id) (hwaits : c.waitsFor e = true) : exec (.cpCommandStart n) s = .next s := by
  have run : exec (.cpCommandStart n) s = event (decide (n < 529)) (s.cpStart n) := rfl
  have held : (s.core n).clear c = false := by
    rw [Core.clear, Bool.not_eq_false', List.any_eq_true]
    exact ⟨e, List.mem_append_right _ he, by simp [hearlier, hwaits]⟩
  rw [run, event_next (decide_eq_true hn), State.cpStart]
  simp only [hfind, held, Bool.not_false, Bool.or_true, if_true]

theorem markerRetire_ends {n id : Nat} {s : State} {m : Cmd} (hn : n < 529)
    (hfind : (s.core n).cpq.find? (fun c => decide (c.port = 0x26C) && decide (c.id = id)) = some m) :
    ((∀ c ∈ (s.core n).cpq, c.ctx = m.ctx → c.id < id → c.port = 0x26C) →
      exec (.closeMarkerRetire n id) s = .next (s.updCore n fun k => { k with cpq := dropCmd k.cpq id })) ∧
    ((∃ c ∈ (s.core n).cpq, c.ctx = m.ctx ∧ c.id < id ∧ c.port ≠ 0x26C) → exec (.closeMarkerRetire n id) s = .next s) := by
  have run : exec (.closeMarkerRetire n id) s = event (decide (n < 529)) (s.markerRetire n id) := rfl
  rw [run, event_next (decide_eq_true hn), State.markerRetire]
  simp only [hfind]
  have earlier : ((s.core n).cpq.any fun c => decide (c.ctx = m.ctx) && decide (c.id < id) && decide (c.port ≠ 0x26C)) = true ↔
      ∃ c ∈ (s.core n).cpq, c.ctx = m.ctx ∧ c.id < id ∧ c.port ≠ 0x26C := by
    simp [and_assoc]
  refine ⟨fun h => ?_, fun h => ?_⟩
  · rw [if_neg]
    rw [earlier]
    exact fun ⟨c, hc, hctx, hid, hport⟩ => hport (h c hc hctx hid)
  · rw [if_pos (earlier.mpr h)]

/-! ### Memory-side commands (R329, R331) -/

theorem msFirst_iff {q : List Cmd} {c : Cmd} :
    msFirst q c = true ↔ ∀ e ∈ q, e.ctx = c.ctx → e.stack = c.stack → c.id ≤ e.id := by
  simp [msFirst, and_imp]

/-- A memory-side command whose turn it is is performed; another waits. -/
theorem msArrive_eq {s : State} {n : Nat} {c : Cmd} {ports : List Nat}
    (hfind : (s.core n).msq.find? (fun d => decide (d.id = c.id) && ports.contains d.port) = some c) :
    s.msArrive n c.id ports = if msFirst (s.core n).msq c then s.msDone n c else s := by
  rw [State.msArrive]
  simp only [hfind]

theorem State.poisoned_eq_false {s : State} {ps : List Piece} :
    s.poisoned ps = false ↔ ∀ p ∈ ps, lineOf p.key ∉ s.store.poison := by
  simp [State.poisoned, linesOf, List.mem_eraseDups]

theorem msDone_performs {s : State} {n : Nat} {c : Cmd} (h : s.poisoned (c.reads ++ c.writes) = false) :
    s.msDone n c = (s.settle (s.msPerform n c) n false c).updCore n fun k => { k with msq := dropCmd k.msq c.id } := by
  have clean : s.poisoned (c.reads ++ if c.port = 0x2A9 then [] else c.writes) = false := by
    rw [State.poisoned_eq_false] at h ⊢
    intro p hp
    split_ifs at hp
    · exact h p (List.mem_append_left _ (by simpa using hp))
    · exact h p hp
  rw [State.msDone, clean, Bool.and_false, if_neg Bool.false_ne_true]

/-- The events by which memory-side commands arrive, with the ports of each. -/
def isMsArrival (ports : List Nat) (i : Nat → Nat → Instr) : Prop := (ports, i) ∈
  [([0x2A2, 0x2A3, 0x2A4, 0x2A5, 0x2A6], Instr.msOpArrive), ([0x2A9], .msRedComplete), ([0x2AB], .msMarkFire)]

theorem exec_msArrival {ports : List Nat} {i : Nat → Nat → Instr} (h : isMsArrival ports i) {n : Nat} (hn : n < 529)
    (id : Nat) (s : State) : exec (i n id) s = .next (s.msArrive n id ports) := by
  simp only [isMsArrival, List.mem_cons, List.not_mem_nil, or_false, Prod.mk.injEq] at h
  obtain ⟨rfl, rfl⟩ | ⟨rfl, rfl⟩ | ⟨rfl, rfl⟩ := h
  · exact event_next (decide_eq_true hn) _
  · exact event_next (decide_eq_true hn) _
  · exact event_next (decide_eq_true hn) _

section
variable {ports : List Nat} {i : Nat → Nat → Instr} (hports : isMsArrival ports i) {n : Nat} (hn : n < 529) {s : State}
  {c : Cmd} (hfind : (s.core n).msq.find? (fun d => decide (d.id = c.id) && ports.contains d.port) = some c)
include hports hn hfind

/-- The first memory-side command of a context to its stack is performed and gone. -/
theorem exec_msArrival_first (hpoison : s.poisoned (c.reads ++ c.writes) = false)
    (hfirst : ∀ e ∈ (s.core n).msq, e.ctx = c.ctx → e.stack = c.stack → c.id ≤ e.id) : exec (i n c.id) s =
      .next ((s.settle (s.msPerform n c) n false c).updCore n fun k => { k with msq := dropCmd k.msq c.id }) := by
  rw [exec_msArrival hports hn, msArrive_eq hfind, if_pos (msFirst_iff.mpr hfirst), msDone_performs hpoison]

/-- A memory-side command behind another of its context to its stack waits. -/
theorem exec_msArrival_waits (h : ∃ e ∈ (s.core n).msq, e.ctx = c.ctx ∧ e.stack = c.stack ∧ e.id < c.id) :
    exec (i n c.id) s = .next s := by
  obtain ⟨e, he, hctx, hstack, hid⟩ := h
  rw [exec_msArrival hports hn, msArrive_eq hfind, if_neg]
  rw [msFirst_iff]
  exact fun first => absurd (first e he hctx hstack) (Nat.not_le.mpr hid)

end

/-- An add of 64 bits outside an ordered launch leaves its sum where it was sent, and changes no other byte. -/
theorem msPerform_add {s : State} {n : Nat} {c : Cmd} {p : Piece}
    (hordered : (s.viewerOf c.react).ordered = false) (hp : (s.viewerOf c.react).plain p) (hport : c.port = 0x2A3)
    (hwrites : c.writes = [p]) (hlen : p.n = 8) (hpin : s.pinSpanIn s.pinned [p]
      (leBytes 8 ((leNat (cellsRead s.store.mem p.key 8) + c.t.word.toNat) % 2 ^ 64)) = none) :
    (s.msPerform n c).store.mem =
      cellsWrite s.store.mem p.key (leBytes 8 ((leNat (cellsRead s.store.mem p.key 8) + c.t.word.toNat) % 2 ^ 64)) := by
  have hview : (s.cmdViewer c).plain p := hp
  have old : (s.readPieces ⟨n, c.ctx⟩ (s.cmdViewer c) [p]).1 = cellsRead s.store.mem p.key 8 := by
    rw [readPieces_plain s _ [p] (by simpa using hview), ← hlen]
    simp
  have sum (a b : Nat) : leBytes MsUpd.addS64.width (MsUpd.addS64.apply a c.t.word.toNat b) =
      leBytes 8 ((a + c.t.word.toNat) % 2 ^ 64) := rfl
  have op : msUpdOf c.port = .addS64 := by rw [hport]; rfl
  have ord : (s.cmdViewer c).ordered = false := hordered
  have applies : s.msPerform n c = s.msApply ⟨n, c.ctx⟩ (s.cmdViewer c) c := by
    simp [State.msPerform, hport, ord]
  rw [applies]
  simp only [State.msApply, State.msUpdate, op, hwrites, old, sum, hpin, State.writePieces]
  rw [writePiece_plain_mem _ _ _ _ hview, hlen, List.take_of_length_le (by simp)]

section
variable {n : Nat} {s : State} {c : Cmd} (hn : n < 529)
  (hfirst : ∀ e ∈ (s.core n).msq, e.ctx = c.ctx → e.stack = c.stack → c.id ≤ e.id)
include hn hfirst

theorem exec_msOpArrive_add {p : Piece} (hsound : s.sound) (hfind : (s.core n).msq.find? (fun d => decide (d.id = c.id) &&
      [0x2A2, 0x2A3, 0x2A4, 0x2A5, 0x2A6].contains d.port) = some c)
    (hordered : (s.viewerOf c.react).ordered = false) (hp : (s.viewerOf c.react).plain p) (hport : c.port = 0x2A3)
    (hreads : c.reads = []) (hwrites : c.writes = [p]) (hlen : p.n = 8) (hpoison : s.poisoned [p] = false)
    (hpin : s.pinSpanIn s.pinned [p]
      (leBytes 8 ((leNat (cellsRead s.store.mem p.key 8) + c.t.word.toNat) % 2 ^ 64)) = none) :
    ∃ t, exec (.msOpArrive n c.id) s = .next t ∧
      cellsRead t.store.mem p.key 8 = leBytes 8 ((leNat (cellsRead s.store.mem p.key 8) + c.t.word.toNat) % 2 ^ 64) ∧
      ∀ a, inPieces [p] a = false → cellGet t.store.mem a = cellGet s.store.mem a := by
  have clean : s.poisoned (c.reads ++ c.writes) = false := by rw [hreads, hwrites]; exact hpoison
  refine ⟨_, exec_msArrival_first (ports := [0x2A2, 0x2A3, 0x2A4, 0x2A5, 0x2A6]) (i := .msOpArrive) (by simp [isMsArrival]) hn
    hfind clean hfirst, ?_⟩
  rw [State.updCore_store, State.settle_mem, msPerform_add hordered hp hport hwrites hlen hpin]
  refine ⟨?_, fun a ha => cellGet_cellsWrite_other _ _ _ _ ?_⟩
  · simpa only [leBytes_length] using cellsRead_cellsWrite s.store.mem p.key
      (leBytes 8 ((leNat (cellsRead s.store.mem p.key 8) + c.t.word.toNat) % 2 ^ 64)) hsound
  · rw [leBytes_length, ← hlen]
    exact inPieces_eq_false.mp ha p (List.mem_singleton_self p)

theorem exec_msMarkFire_adds (hfind : (s.core n).msq.find? (fun d => decide (d.id = c.id) && [0x2AB].contains d.port) = some c)
    (hcmd : c.react = none) (hctx : (s.ctx ⟨n, c.ctx⟩).react = none) (hreads : c.reads = []) (hwrites : c.writes = [])
    (hflits : s.ctxFlits ⟨n, c.ctx⟩ = false) : ∃ t, exec (.msMarkFire n c.id) s = .next t ∧
      t.counters = (s.applyAdd ⟨n, c.ctx⟩ (s.cmdSel ⟨n, c.ctx⟩ c) c.count).counters := by
  have clean : s.poisoned (c.reads ++ c.writes) = false := by rw [hreads, hwrites]; rfl
  have hport : c.port = 0x2AB := by simpa using List.find?_some hfind
  have performs : s.msPerform n c = s.complete ⟨n, c.ctx⟩ c := by simp [State.msPerform, hport]
  have adds : s.complete ⟨n, c.ctx⟩ c = s.applyAdd ⟨n, c.ctx⟩ (s.cmdSel ⟨n, c.ctx⟩ c) c.count := by
    cases hsel : c.sel with
    | none => rw [State.complete_none hsel, State.cmdSel, hsel]; rfl
    | some w =>
      rw [State.complete_some hsel, completionAdd_atOnce hflits (hctx.trans hcmd.symm) (.inr (.inl hcmd)), State.cmdSel, hsel]
  refine ⟨_, exec_msArrival_first (ports := [0x2AB]) (i := .msMarkFire) (by simp [isMsArrival]) hn hfind clean hfirst, ?_⟩
  have settled := State.settle_counters s (s.msPerform n c) n false c
  rw [performs, adds] at settled
  rw [performs, adds]
  exact settled

end

end Sys2Proof.Machine
end

section
/-!
PROOFS of 14_matrix and 16_copy: the bytes that engine commands make (R274, R285-R287, R302, R306, R310).
-/

namespace Sys2Proof.Machine

/-! ### Blocks of one length laid end to end -/

section
variable {α β : Type} {f : β → List α} {len : Nat}

theorem drop_flatMap_blocks (l : List β) (h : ∀ b ∈ l, (f b).length = len) :
    ∀ i, (l.flatMap f).drop (i * len) = (l.drop i).flatMap f := by
  induction l with
  | nil => simp
  | cons b l ih =>
    obtain ⟨hb, hl⟩ := List.forall_mem_cons.mp h
    intro i
    cases i with
    | zero => simp
    | succ i =>
      have past : (i + 1) * len = (f b).length + i * len := by rw [hb]; ring
      rw [List.flatMap_cons, past, List.drop_length_add_append, ih hl, List.drop_succ_cons]

variable {l : List β} (h : ∀ b ∈ l, (f b).length = len)
include h

theorem drop_flatMap_block {i : Nat} (hi : i < l.length) :
    (l.flatMap f).drop (i * len) = f l[i] ++ (l.drop (i + 1)).flatMap f := by
  rw [drop_flatMap_blocks l h, List.drop_eq_getElem_cons hi, List.flatMap_cons]

/-- A part of one block. -/
theorem take_drop_flatMap_block {i k m : Nat} (hi : i < l.length) (hkm : k + m ≤ len) :
    ((l.flatMap f).drop (i * len + k)).take m = ((f l[i]).drop k).take m := by
  have hlen : (f l[i]).length = len := h _ (List.getElem_mem hi)
  rw [← List.drop_drop, drop_flatMap_block h hi, List.drop_append_of_le_length (by omega),
    List.take_append_of_le_length (by rw [List.length_drop]; omega)]

/-- One block. -/
theorem take_drop_flatMap {i : Nat} (hi : i < l.length) : ((l.flatMap f).drop (i * len)).take len = f l[i] := by
  have hlen : (f l[i]).length = len := h _ (List.getElem_mem hi)
  rw [drop_flatMap_block h hi, List.take_append_of_le_length hlen.ge, List.take_of_length_le hlen.le]

theorem length_flatMap_blocks : (l.flatMap f).length = l.length * len := by
  rw [List.length_flatMap, List.map_congr_left h, List.map_const', List.sum_replicate, smul_eq_mul]

end

section
variable {α : Type} {f : Nat → List α} {n len : Nat} (h : ∀ i < n, (f i).length = len)
include h

theorem take_drop_range_block {i k m : Nat} (hi : i < n) (hkm : k + m ≤ len) :
    (((List.range n).flatMap f).drop (i * len + k)).take m = ((f i).drop k).take m := by
  have part := take_drop_flatMap_block (l := List.range n) (fun b hb => h b (List.mem_range.mp hb))
    (by rwa [List.length_range]) hkm
  rwa [List.getElem_range] at part

theorem take_drop_range {i : Nat} (hi : i < n) : (((List.range n).flatMap f).drop (i * len)).take len = f i := by
  have block := take_drop_flatMap (l := List.range n) (fun b hb => h b (List.mem_range.mp hb)) (by rwa [List.length_range])
  rwa [List.getElem_range] at block

theorem getD_range_block {i k : Nat} (hi : i < n) (hk : k < len) (d : α) :
    ((List.range n).flatMap f).getD (i * len + k) d = (f i).getD k d := by
  have hlen := h i hi
  have split := drop_flatMap_block (l := List.range n) (fun b hb => h b (List.mem_range.mp hb)) (i := i)
    (by rwa [List.length_range])
  rw [List.getElem_range] at split
  rw [List.getD_eq_getElem?_getD, ← List.getElem?_drop, split, List.getElem?_append_left (by omega),
    ← List.getD_eq_getElem?_getD]

theorem length_range_blocks : ((List.range n).flatMap f).length = n * len := by
  rw [length_flatMap_blocks fun b hb => h b (List.mem_range.mp hb), List.length_range]

end

/-- A part of a list made of a range. -/
theorem take_drop_map_range {α : Type} (f : Nat → α) {n i m : Nat} (h : i + m ≤ n) :
    (((List.range n).map f).drop i).take m = (List.range m).map fun k => f (i + k) := by
  apply List.ext_getElem
  · simp; omega
  · intro k _ _
    simp

/-! ### Patterns (R302) -/

theorem patternBytes_getD (w : Word) {n i : Nat} (hi : i < n) :
    (patternBytes w n).getD i 0 = BitVec.ofNat 8 (w.toNat / 2 ^ (8 * (i % 8))) := by
  rw [patternBytes, List.getD_eq_getElem _ _ (by simpa using hi), List.getElem_map, List.getElem_range, bitsOf]
  apply BitVec.eq_of_toNat_eq
  simp

/-! ### Words of a tile (R275) -/

theorem Tile.slice_eq {t : Tile} {off n : Nat} (h : off + n ≤ t.bytes.length) :
    t.slice off n = (t.bytes.drop off).take n := by
  apply List.ext_getElem
  · simp [Tile.slice]; omega
  · intro k h1 h2
    have hk : k < n := by simpa [Tile.slice] using h1
    simp only [Tile.slice, List.getElem_map, List.getElem_range, List.getElem_take, List.getElem_drop]
    exact List.getD_eq_getElem _ _ (by omega)

/-- The bytes of 64 rows of 64 words. -/
def wordBytes (w : Nat → Nat → Nat) : List Byte :=
  (List.range 64).flatMap fun r => (List.range 64).flatMap fun j => leBytes 4 (w r j)

theorem wordRow_length (w : Nat → Nat → Nat) (r : Nat) : ((List.range 64).flatMap fun j => leBytes 4 (w r j)).length = 256 :=
  length_range_blocks fun j _ => leBytes_length 4 (w r j)

theorem wordBytes_length (w : Nat → Nat → Nat) : (wordBytes w).length = 64 * 256 :=
  length_range_blocks fun r _ => wordRow_length w r

/-- A word of a tile that holds words. -/
theorem f32_wordBytes {t : Tile} {w : Nat → Nat → Nat} (ht : t.bytes = wordBytes w) {r j : Nat} (hr : r < 64) (hj : j < 64) :
    t.f32 (64 * r + j) = w r j % 2 ^ 32 := by
  have at_ : 4 * (64 * r + j) = r * 256 + j * 4 := by ring
  rw [Tile.f32, Tile.slice_eq (by rw [ht, wordBytes_length]; omega), ht, at_, wordBytes,
    take_drop_range_block (fun r _ => wordRow_length w r) hr (by omega),
    take_drop_range (fun j _ => leBytes_length 4 (w r j)) hj, leNat_leBytes]

/-! ### Stored tiles (R285) -/

theorem cstBytes_element (r : FmtRec) (a : Tile) {i j : Nat} (hi : i < 64) (hj : j < 64) (hbx : r.bx = none) :
    ((cstBytes r a).drop ((64 * i + j) * r.esize)).take r.esize =
      leBytes r.esize (r.round (Num.ofBits Num.fp32 (a.f32 (64 * i + j)))) := by
  have elem (v : Num.FVal) : (leBytes r.esize (r.round v)).length = r.esize := leBytes_length ..
  have row (i : Nat) : (((List.range 64).map fun j => Num.ofBits Num.fp32 (a.f32 (64 * i + j))).flatMap fun v =>
      leBytes r.esize (r.round v)).length = 64 * r.esize := by
    rw [length_flatMap_blocks fun v _ => elem v, List.length_map, List.length_range]
  have at_ : (64 * i + j) * r.esize = i * (64 * r.esize) + j * r.esize := by ring
  have fits : j * r.esize + r.esize ≤ 64 * r.esize := by
    rw [← Nat.succ_mul]
    exact Nat.mul_le_mul_right _ hj
  rw [cstBytes]
  simp only [hbx]
  rw [at_, take_drop_range_block (fun i _ => row i) hi fits, take_drop_flatMap (fun v _ => elem v) (by simpa using hj)]
  simp

/-! ### Tiles of BX blocks (R274) -/

theorem blockBytes_le {fmt : Nat} {b : Num.BxFmt} (h : bxOf fmt = some b) : b.blockBytes ≤ 32 := by
  unfold bxOf at h
  split at h
  · obtain rfl := Option.some.inj h
    decide
  · obtain rfl := Option.some.inj h
    decide
  · obtain rfl := Option.some.inj h
    decide
  · cases h

/-- Block `r` of a tile's source with its exponents behind it. -/
def bxRow (b : Num.BxFmt) (src : List Byte) (r : Nat) : List Byte := (src.drop ((b.blockBytes + 2) * r)).take (b.blockBytes + 2)

theorem bxRow_getD (b : Num.BxFmt) (src : List Byte) (r : Nat) {i : Nat} (hi : i < b.blockBytes + 2) :
    (bxRow b src r).getD i 0 = src.getD ((b.blockBytes + 2) * r + i) 0 := by
  simp only [bxRow, List.getD_eq_getElem?_getD, List.getElem?_take_of_lt hi, List.getElem?_drop]

/-- The bytes of the elements of a tile's blocks. -/
def bxElements (b : Num.BxFmt) (src : List Byte) : List Byte := (List.range 64).flatMap fun r => (bxRow b src r).take b.blockBytes

theorem bxTileBytes_eq (b : Num.BxFmt) (src : List Byte) : bxTileBytes b src = bxElements b src ++
    List.replicate (2048 - (bxElements b src).length) 0#8 ++ (List.range 64).flatMap fun r => (bxRow b src r).drop b.blockBytes := by
  simp only [bxTileBytes, bxElements, bxRow, List.flatMap_map]

section
variable {b : Num.BxFmt} {src : List Byte} (hsrc : src.length = 64 * (b.blockBytes + 2))
include hsrc

theorem bxRow_length {r : Nat} (hr : r < 64) : (bxRow b src r).length = b.blockBytes + 2 := by
  have fits : (b.blockBytes + 2) * (r + 1) ≤ (b.blockBytes + 2) * 64 := Nat.mul_le_mul_left _ hr
  rw [bxRow, List.length_take, List.length_drop, hsrc]
  rw [Nat.mul_succ] at fits
  omega

theorem bxElements_row {r : Nat} (hr : r < 64) : ((bxRow b src r).take b.blockBytes).length = b.blockBytes := by
  rw [List.length_take, bxRow_length hsrc hr]
  omega

theorem bxElements_length : (bxElements b src).length = 64 * b.blockBytes :=
  length_range_blocks fun _ hr => bxElements_row hsrc hr

variable {r i : Nat} (hr : r < 64)
include hr

/-- A byte of the elements of row `r`. -/
theorem bxTileBytes_element (hi : i < b.blockBytes) :
    (bxTileBytes b src).getD (b.blockBytes * r + i) 0 = src.getD ((b.blockBytes + 2) * r + i) 0 := by
  have inside : b.blockBytes * r + i < (bxElements b src).length := by
    have fits : b.blockBytes * (r + 1) ≤ b.blockBytes * 64 := Nat.mul_le_mul_left _ hr
    rw [Nat.mul_succ] at fits
    rw [bxElements_length hsrc]
    omega
  rw [bxTileBytes_eq, List.append_assoc, List.getD_append _ _ _ _ inside, bxElements, Nat.mul_comm b.blockBytes r,
    getD_range_block (fun _ hr => bxElements_row hsrc hr) hr hi, ← bxRow_getD b src r (by omega)]
  simp only [List.getD_eq_getElem?_getD, List.getElem?_take_of_lt hi]

/-- An exponent of row `r`. -/
theorem bxTileBytes_exponent (hb : b.blockBytes ≤ 32) (hi : i < 2) :
    (bxTileBytes b src).getD (2048 + 2 * r + i) 0 = src.getD ((b.blockBytes + 2) * r + b.blockBytes + i) 0 := by
  have row {r : Nat} (hr : r < 64) : ((bxRow b src r).drop b.blockBytes).length = 2 := by
    rw [List.length_drop, bxRow_length hsrc hr]
    omega
  have front : (bxElements b src ++ List.replicate (2048 - (bxElements b src).length) 0#8).length = 2048 := by
    rw [List.length_append, List.length_replicate, bxElements_length hsrc]
    omega
  have at_ : 2048 + 2 * r + i - 2048 = r * 2 + i := by omega
  rw [bxTileBytes_eq, List.getD_append_right _ _ _ _ (by omega), front, at_, getD_range_block (fun _ hr => row hr) hr hi,
    Nat.add_assoc, ← bxRow_getD b src r (by omega)]
  simp only [List.getD_eq_getElem?_getD, List.getElem?_drop]

end

/-! ### Rows and grids (R306, R310) -/

theorem FmtRec.block_length (r : FmtRec) (b : Num.BxFmt) (x : List Num.FVal) :
    ((r.block b x).1 ++ (r.block b x).2).length = b.blockBytes + 2 := by
  simp [FmtRec.block]

theorem FmtRec.writeRow_length {r : FmtRec} (hbx : r.bx = none) (vals : List Num.FVal) :
    (r.writeRow vals).length = vals.length * r.esize := by
  rw [FmtRec.writeRow, hbx]
  exact length_flatMap_blocks fun v _ => leBytes_length ..

theorem FmtRec.writeRow_bx_length {r : FmtRec} {b : Num.BxFmt} (hbx : r.bx = some b) (vals : List Num.FVal) :
    (r.writeRow vals).length = vals.length / 32 * (b.blockBytes + 2) := by
  rw [FmtRec.writeRow, hbx]
  exact length_range_blocks fun k _ => r.block_length b _

/-- An element of a row of an IEEE or integer format. -/
theorem FmtRec.writeRow_element {r : FmtRec} (hbx : r.bx = none) {vals : List Num.FVal} {x : Nat} (hx : x < vals.length) :
    ((r.writeRow vals).drop (x * r.esize)).take r.esize = leBytes r.esize (r.round vals[x]) := by
  rw [FmtRec.writeRow, hbx]
  exact take_drop_flatMap (fun v _ => leBytes_length ..) hx

/-- A block of a row of a BX format. -/
theorem FmtRec.writeRow_block {r : FmtRec} {b : Num.BxFmt} (hbx : r.bx = some b) {vals : List Num.FVal} {k : Nat}
    (hk : k < vals.length / 32) : ((r.writeRow vals).drop (k * (b.blockBytes + 2))).take (b.blockBytes + 2) =
      (r.block b ((vals.drop (32 * k)).take 32)).1 ++ (r.block b ((vals.drop (32 * k)).take 32)).2 := by
  rw [FmtRec.writeRow, hbx]
  exact take_drop_range (fun k _ => r.block_length b _) hk

/-- A part of one row of the rows of a grid. -/
theorem take_drop_grid {row : Nat → Nat → List Byte} {ny nz len : Nat} (h : ∀ z y, (row z y).length = len) {y z k m : Nat}
    (hy : y < ny) (hz : z < nz) (hkm : k + m ≤ len) :
    (((List.range nz).flatMap fun z => (List.range ny).flatMap fun y => row z y).drop ((y + ny * z) * len + k)).take m =
      ((row z y).drop k).take m := by
  have plane (z : Nat) : ((List.range ny).flatMap fun y => row z y).length = ny * len := length_range_blocks fun y _ => h z y
  have at_ : (y + ny * z) * len + k = z * (ny * len) + (y * len + k) := by ring
  have fits : y * len + k + m ≤ ny * len := by
    have := Nat.mul_le_mul_right len hy
    rw [Nat.succ_mul] at this
    omega
  rw [at_, take_drop_range_block (fun z _ => plane z) hz fits, take_drop_range_block (fun y _ => h z y) hy hkm]

/-- The descriptor of a grid command. -/
def Cmd.grid (c : Cmd) : GridDesc := gridDesc (c.recs.headD [])

/-- The format record of a grid command's destination. -/
def Cmd.gridDst (c : Cmd) : FmtRec := fmtRec (c.recs.getD 3 [])

/-- The exact value of an output point of a grid command from its source bytes (R306, R310). -/
def gridValue (c : Cmd) (bytes : List Byte) (x y z : Nat) : Num.FVal :=
  let sr := fmtRec (c.recs.getD 2 [])
  let t := stencil (c.recs.getD 1 [])
  let g := sr.grid (c.grid.my * c.grid.mz) c.grid.mx bytes
  let old := c.gridDst.grid (c.grid.ny * c.grid.nz) c.grid.nx (bytes.drop (c.grid.my * c.grid.mz * sr.rowBytes c.grid.mx))
  if c.port = 0x267 then (g.getD (y + c.grid.my * z) []).getD x (.fin false 0 0)
  else
    gridPoint t c.grid (decide (c.port = 0x26A)) g
      (if t.lvl = 1 then some ((old.getD (y + c.grid.ny * z) []).getD x (.fin false 0 0)) else none) x y z

/-- The bytes of an output row of a grid command. -/
def gridRow (c : Cmd) (bytes : List Byte) (z y : Nat) : List Byte :=
  c.gridDst.writeRow ((List.range c.grid.nx).map fun x => gridValue c bytes x y z)

theorem gridOut_eq (c : Cmd) (bytes : List Byte) : gridOut c bytes =
    (List.range c.grid.nz).flatMap fun z => (List.range c.grid.ny).flatMap fun y => gridRow c bytes z y := rfl

section
variable {c : Cmd} {bytes : List Byte} {x y z : Nat} (hx : x < c.grid.nx) (hy : y < c.grid.ny) (hz : z < c.grid.nz)
include hx hy hz

theorem gridOut_element (hbx : c.gridDst.bx = none) :
    ((gridOut c bytes).drop ((x + c.grid.nx * (y + c.grid.ny * z)) * c.gridDst.esize)).take c.gridDst.esize =
      leBytes c.gridDst.esize (c.gridDst.round (gridValue c bytes x y z)) := by
  have row (z y : Nat) : (gridRow c bytes z y).length = c.grid.nx * c.gridDst.esize := by
    rw [gridRow, FmtRec.writeRow_length hbx, List.length_map, List.length_range]
  have at_ : (x + c.grid.nx * (y + c.grid.ny * z)) * c.gridDst.esize =
      (y + c.grid.ny * z) * (c.grid.nx * c.gridDst.esize) + x * c.gridDst.esize := by ring
  have fits : x * c.gridDst.esize + c.gridDst.esize ≤ c.grid.nx * c.gridDst.esize := by
    rw [← Nat.succ_mul]
    exact Nat.mul_le_mul_right _ hx
  rw [gridOut_eq, at_, take_drop_grid row hy hz fits, gridRow, FmtRec.writeRow_element hbx (by simpa using hx)]
  simp

theorem gridOut_block {b : Num.BxFmt} (hbx : c.gridDst.bx = some b) (hnx : c.grid.nx % 32 = 0) (hx32 : x % 32 = 0) :
    ((gridOut c bytes).drop ((x / 32 + c.grid.nx / 32 * (y + c.grid.ny * z)) * (b.blockBytes + 2))).take (b.blockBytes + 2) =
      (c.gridDst.block b ((List.range 32).map fun i => gridValue c bytes (x + i) y z)).1 ++
        (c.gridDst.block b ((List.range 32).map fun i => gridValue c bytes (x + i) y z)).2 := by
  have row (z y : Nat) : (gridRow c bytes z y).length = c.grid.nx / 32 * (b.blockBytes + 2) := by
    rw [gridRow, FmtRec.writeRow_bx_length hbx, List.length_map, List.length_range]
  have at_ : (x / 32 + c.grid.nx / 32 * (y + c.grid.ny * z)) * (b.blockBytes + 2) =
      (y + c.grid.ny * z) * (c.grid.nx / 32 * (b.blockBytes + 2)) + x / 32 * (b.blockBytes + 2) := by ring
  have inRow : x / 32 < c.grid.nx / 32 := by omega
  have fits : x / 32 * (b.blockBytes + 2) + (b.blockBytes + 2) ≤ c.grid.nx / 32 * (b.blockBytes + 2) := by
    rw [← Nat.succ_mul]
    exact Nat.mul_le_mul_right _ inRow
  have start : 32 * (x / 32) = x := by omega
  rw [gridOut_eq, at_, take_drop_grid row hy hz fits, gridRow,
    FmtRec.writeRow_block hbx (by simpa using inRow), start, take_drop_map_range _ (by omega)]

end

end Sys2Proof.Machine
end

section
/-!
PROOFS of 14_matrix: what a completed matrix command leaves (R279, R283-R287).
-/

namespace Sys2Proof.Machine

/-! ### Contexts that go on once their tiles are free (R279) -/

/-- Queues, counters and tiles stand alike in two states. -/
structure State.tilesAlike (s t : State) : Prop where
  counters : t.counters = s.counters
  queues : s.sameQueues t
  tiles : ∀ y, (t.ctx y).at8 = (s.ctx y).at8 ∧ (t.ctx y).ct4 = (s.ctx y).ct4

theorem State.tilesAlike.trans {s t u : State} (h : s.tilesAlike t) (h' : t.tilesAlike u) : s.tilesAlike u :=
  ⟨h'.counters.trans h.counters, h.queues.trans h'.queues,
    fun y => ⟨(h'.tiles y).1.trans (h.tiles y).1, (h'.tiles y).2.trans (h.tiles y).2⟩⟩

theorem State.tilesAlike.of_cores {s t : State} (hctr : t.counters = s.counters) (h : t.cores = s.cores) : s.tilesAlike t :=
  ⟨hctr, .of_cores h, fun y => by rw [State.ctx_congr h]; exact ⟨rfl, rfl⟩⟩

theorem State.tilesAlike.refl (s : State) : s.tilesAlike s := .of_cores rfl rfl

theorem State.updCtx_tilesAlike (s : State) (x : CtxRef) {f : Ctx → Ctx} (h : ∀ k, (f k).at8 = k.at8 ∧ (f k).ct4 = k.ct4) :
    s.tilesAlike (s.updCtx x f) := by
  refine ⟨rfl, fun n u => State.core_queue_updCtx .., fun y => ?_⟩
  obtain same | changed := s.ctx_updCtx_or x y f
  · rw [same]
    exact h _
  · rw [changed]
    exact ⟨rfl, rfl⟩

theorem State.event_tilesAlike (s : State) (x : CtxRef) (ev n : Nat) : s.tilesAlike (s.event x ev n) := by
  obtain same | ⟨r, e, spent, -⟩ := s.event_eq x ev n
  · rw [same]
    exact .refl s
  · rw [spent]
    have regs : s.tilesAlike { s with regs := r } := .of_cores rfl rfl
    exact regs.trans (State.updCtx_tilesAlike _ x (f := Ctx.spend e) fun _ => ⟨rfl, rfl⟩)

theorem State.setStatus_tilesAlike (s : State) (x : CtxRef) (st : Status) : s.tilesAlike (s.setStatus x st) :=
  s.updCtx_tilesAlike x (f := fun c => { c with status := st }) fun _ => ⟨rfl, rfl⟩

theorem Ctx.halt_tiles (c : Ctx) : c.halt.at8 = c.at8 ∧ c.halt.ct4 = c.ct4 := by
  unfold Ctx.halt
  split <;> exact ⟨rfl, rfl⟩

theorem Core.unfrozen_queue (due : Bool) (k : Core) (u : Unit11) : (k.unfrozen due).queue u = k.queue u := by
  cases due <;> cases u <;> rfl

theorem State.dropFreeze_tilesAlike (s : State) (n : Nat) : s.tilesAlike (s.dropFreeze n) := by
  refine ⟨?_, ?_, fun y => ?_⟩
  · obtain ⟨same, -⟩ | ⟨o, hs, dropped⟩ := s.dropFreeze_eq n
    · rw [same]
    · rw [dropped]
  · obtain ⟨same, -⟩ | dropped := s.dropFreeze_cores n
    · rw [same]
      exact .of_cores rfl
    · exact .trans (s.core_queue_updCore n (Core.unfrozen_queue _)) (.of_cores dropped)
  · obtain same | halted := s.dropFreeze_ctx n y
    · rw [same]
      exact ⟨rfl, rfl⟩
    · rw [halted]
      exact Ctx.halt_tiles _

theorem State.tilesFree_tilesAlike (s : State) (n : Nat) : s.tilesAlike (s.tilesFree n) := by
  refine List.foldlRecOn (motive := fun t => s.tilesAlike t) (List.range 4) _ (.refl s) fun t ht i _ => ?_
  split
  · split
    · exact ht
    · exact ht.trans ((t.setStatus_tilesAlike ⟨n, i⟩ .ready).trans (State.dropFreeze_tilesAlike ..))
  · exact ht

/-! ### Matrix commands that end (R278) -/

/-- A matrix command runs, its engine too, and its sources are on this device and not poisoned. -/
def State.mxReady (s : State) (n : Nat) (c : Cmd) : Prop := n < 529 ∧ s.sound ∧ (s.core n).mxRuns = true ∧
  (s.core n).mxq.find? (fun d => d.started && (inArray d == inArray c)) = some c ∧ c.sent = false ∧
  s.poisoned c.reads = false ∧ ∀ p ∈ c.reads, ∀ e r m, p.page ≠ .remote e r m

theorem mxComplete_none {n : Nat} {array : Bool} {s : State} (hn : n < 529)
    (h : ∀ c ∈ (s.core n).mxq, c.started = false ∨ inArray c ≠ array) : exec (.mxCommandComplete n array) s = .next s := by
  have run : exec (.mxCommandComplete n array) s = event (decide (n < 529)) (s.mxComplete n array) := rfl
  have none_runs : (s.core n).mxq.find? (fun c => c.started && (inArray c == array)) = none := by
    rw [List.find?_eq_none]
    intro c hc
    obtain h | h := h c hc <;> simp [h]
  rw [run, event_next (decide_eq_true hn), State.mxComplete]
  simp only [none_runs, ite_self]

/-- A matrix command that is ready ends once its effect is made, and what waited for its tiles goes on. -/
theorem mxComplete_ends {s t : State} {n : Nat} {c : Cmd} (h : s.mxReady n c) (heffect : s.mxEffect n c = some t)
    (hqueues : s.sameQueues t) (haway : c.away = false) :
    exec (.mxCommandComplete n (inArray c)) s = .next ((s.cmdEnd t n 0 0 c).tilesFree n) := by
  obtain ⟨hn, -, hruns, hfind, hsent, hpoison, hreads⟩ := h
  have run : exec (.mxCommandComplete n (inArray c)) s = event (decide (n < 529)) (s.mxComplete n (inArray c)) := rfl
  rw [run, event_next (decide_eq_true hn), State.mxComplete]
  simp only [hfind, hruns, Bool.not_true, Bool.false_eq_true, if_false]
  rw [State.cmdFinish_ends (effect := fun s c => s.mxEffect n c) hsent hreads hpoison
    (.inl (List.mem_of_find?_eq_some hfind)) heffect hqueues haway]

/-- What the end of a matrix command without a counter leaves of its effect. -/
theorem mxEnd_keeps (s t : State) (n : Nat) {c : Cmd} (hsel : c.sel = none) :
    goneFrom (((s.cmdEnd t n 0 0 c).tilesFree n).core n).mxq c ∧ ((s.cmdEnd t n 0 0 c).tilesFree n).store.mem = t.store.mem ∧
      ((s.cmdEnd t n 0 0 c).tilesFree n).counters = t.counters ∧
      ∀ y, (((s.cmdEnd t n 0 0 c).tilesFree n).ctx y).at8 = (t.ctx y).at8 ∧
        (((s.cmdEnd t n 0 0 c).tilesFree n).ctx y).ct4 = (t.ctx y).ct4 := by
  have free := (s.cmdEnd t n 0 0 c).tilesFree_tilesAlike n
  refine ⟨?_, by simp, free.counters.trans (State.cmdEnd_counters hsel), fun y => ?_⟩
  · have queue : (((s.cmdEnd t n 0 0 c).tilesFree n).core n).mxq = ((s.cmdEnd t n 0 0 c).core n).mxq := free.queues n .mx
    rw [queue]
    exact State.cmdEnd_gone s t n 0 0 c (u := .mx) (.inl rfl)
  · have ended : (s.cmdEnd t n 0 0 c).ctx y = t.ctx y := by
      rw [State.cmdEnd_eq, State.complete_none hsel, State.ctx_congr (State.settle_onlyStore ..).cores]
      exact t.ctx_updCore_ctxs n (f := Core.without c) (fun _ => rfl) y
    rw [← ended]
    exact free.tiles y

/-- `mx.cst` leaves the rounded tile in memory (R285). -/
theorem mxComplete_cst {s : State} {n : Nat} {c : Cmd} (h : s.mxReady n c) (hport : c.port = 0x224) (hsel : c.sel = none)
    (hst : s.stores c (cstBytes (fmtRec (c.recs.headD [])) ⟨c.recs.getD 1 [], c.tag, c.taint⟩)) :
    ∃ t, exec (.mxCommandComplete n (inArray c)) s = .next t ∧ goneFrom (t.core n).mxq c ∧
      s.leaves t c (cstBytes (fmtRec (c.recs.headD [])) ⟨c.recs.getD 1 [], c.tag, c.taint⟩) ∧ t.counters = s.counters := by
  obtain ⟨t, hwrite, hstore, hleaves⟩ := State.cmdWrite_leaves h.2.1 hst (.refl s) rfl ⟨n, c.ctx⟩ c.taint
  have heffect : s.mxEffect n c = some t := by
    rw [State.mxEffect]
    simpa only [hport] using hwrite
  have haway := Cmd.away_local fun p hp => (hst.1 p hp).2.2
  obtain ⟨gone, mem, ctr, -⟩ := mxEnd_keeps s t n hsel
  exact ⟨_, mxComplete_ends h heffect (.of_cores hstore.cores) haway, gone, hleaves.of_mem mem, ctr.trans hstore.counters⟩

/-! ### Tiles set (R275) -/

@[simp] theorem Ctx.aTile_setA (k : Ctx) (n : Nat) (t : Tile) : (k.setA n t).aTile n = t := by
  simp [Ctx.aTile, Ctx.setA]

@[simp] theorem Ctx.cTile_setC (k : Ctx) (n : Nat) (t : Tile) : (k.setC n t).cTile n = t := by
  simp [Ctx.cTile, Ctx.setC]

theorem Ctx.cTile_congr {k k' : Ctx} (h : k'.ct4 = k.ct4) (n : Nat) : k'.cTile n = k.cTile n := by
  rw [Ctx.cTile, Ctx.cTile, h]

theorem Ctx.aTile_congr {k k' : Ctx} (h : k'.at8 = k.at8) (n : Nat) : k'.aTile n = k.aTile n := by
  rw [Ctx.aTile, Ctx.aTile, h]

/-! ### Effects on tiles (R283-R287) -/

/-- The bytes that a load puts into an A tile from its sources. -/
def aTileBytes (c : Cmd) (src : List Byte) : List Byte :=
  match (fmtRec (c.recs.headD [])).bx with
  | some b => if c.port = 0x222 then bxTileBytes b src else src
  | none => src

/-- What a load or a scaling makes of its context's tiles from its sources and their taint. -/
def Cmd.fillTile (c : Cmd) (src : List Byte) (taint : Bool) (k : Ctx) : Ctx :=
  let d := c.t.word.toNat % 4
  if c.port = 0x223 then k.setC d ⟨src, c.tag, taint⟩
  else if c.port = 0x22B then k.setC d ⟨sclBytes (k.cTile d) src, c.tag, taint || (k.cTile d).taint⟩
  else k.setA (c.t.word.toNat % 8) ⟨aTileBytes c src, c.tag, taint⟩

/-- Word `j` of row `r` of what a step leaves in its accumulator tile (R287). -/
def State.stepWord (s : State) (x : CtxRef) (c : Cmd) (r j : Nat) : Nat :=
  (Num.addV Num.fp32 .rne
    (Num.ofBits Num.fp32 (((s.ctx x).cTile (c.t.word.toNat / 16 % 4)).f32 (64 * r + j)))
    (Num.ofBits Num.fp32 (Num.dot32 (tileRow c.sfmt ((s.ctx x).aTile (c.t.word.toNat % 8)) r)
      (s.canopyCol x c.sfmt c.slot j)))).1

/-- The tile that a step leaves. -/
def State.stepTile (s : State) (x : CtxRef) (c : Cmd) : Tile :=
  ⟨wordBytes (s.stepWord x c), c.tag, c.taint || ((s.ctx x).cTile (c.t.word.toNat / 16 % 4)).taint ||
    ((s.ctx x).aTile (c.t.word.toNat % 8)).taint || s.slotTaint x c.sfmt c.slot⟩

theorem State.stepEffect_eq (s : State) (x : CtxRef) (c : Cmd) : s.stepEffect x c =
    (s.updCtx x fun k => k.setC (c.t.word.toNat / 16 % 4) (s.stepTile x c)).event x 0x08 1 := by
  have a : bitsOf c.t.word.toNat 0 3 = c.t.word.toNat % 8 := bitsOf_zero ..
  have d : bitsOf c.t.word.toNat 4 2 = c.t.word.toNat / 16 % 4 := rfl
  have zip (f : Nat → List Num.FVal → List Byte) : (List.zipWith f (List.range 64)
      ((List.range 64).map (s.canopyCol x c.sfmt c.slot))).flatten =
        (List.range 64).flatMap fun j => f j (s.canopyCol x c.sfmt c.slot j) := by
    rw [List.zipWith_map_right, List.zipWith_self, List.flatMap_def]
  simp only [State.stepEffect, a, d, zip]
  rfl

section
variable {s : State} {n : Nat} {c : Cmd} (hreact : (s.ctx ⟨n, c.ctx⟩).react = c.react)
include hreact

theorem mxEffect_zero (hport : c.port = 0x225) : s.mxEffect n c =
    some (s.updCtx ⟨n, c.ctx⟩ fun k => k.setC (bitsOf c.t.word.toNat 0 2) ⟨[], c.tag, c.taint⟩) := by
  rw [State.mxEffect]
  simp only [hport, hreact, decide_true, if_true]

theorem mxEffect_step (hport : c.port = 0x226) : s.mxEffect n c = some (s.stepEffect ⟨n, c.ctx⟩ c) := by
  rw [State.mxEffect]
  simp only [hport, hreact, decide_true, if_true]

theorem mxEffect_fill (hport : c.port ∉ [0x224, 0x225, 0x226]) : s.mxEffect n c = some ((s.cmdLease c).updCtx ⟨n, c.ctx⟩
    (c.fillTile (s.cmdRead ⟨n, c.ctx⟩ c).2.1 (c.taint || (s.cmdRead ⟨n, c.ctx⟩ c).2.2))) := by
  rw [State.mxEffect]
  split
  next h => exact absurd (by simp [h]) hport
  next h => exact absurd (by simp [h]) hport
  next h => exact absurd (by simp [h]) hport
  next =>
    have a : bitsOf c.t.word.toNat 0 3 = c.t.word.toNat % 8 := bitsOf_zero ..
    have d : bitsOf c.t.word.toNat 0 2 = c.t.word.toNat % 4 := bitsOf_zero ..
    simp only [hreact, decide_true, Bool.not_true, Bool.false_eq_true, if_false, a, d]
    rfl

omit hreact in
/-- `mx.cst` without destinations writes nothing. -/
theorem mxEffect_cst_none (hport : c.port = 0x224) (hwrites : c.writes = []) : ∃ t, s.mxEffect n c = some t ∧ s.onlyStore t ∧
    t.store.mem = s.store.mem := by
  refine ⟨s.unpoison (s.cmdViewer c) [], ?_, ⟨_, rfl⟩, rfl⟩
  rw [State.mxEffect]
  simp only [hport, State.cmdWrite, hwrites]
  rfl

/-- A matrix command without destinations in memory has an effect, and it leaves memory, counters and queues. -/
theorem mxEffect_keeps (hwrites : c.writes = []) : ∃ t, s.mxEffect n c = some t ∧ t.store.mem = s.store.mem ∧
    t.counters = s.counters ∧ s.sameQueues t := by
  have ctxOnly (f : Ctx → Ctx) (u : State) (h : s.onlyStore u) : s.sameQueues (u.updCtx ⟨n, c.ctx⟩ f) :=
    .trans (.of_cores h.cores) fun m q => u.core_queue_updCtx ⟨n, c.ctx⟩ f m q
  by_cases hcst : c.port = 0x224
  · obtain ⟨t, heffect, hstore, hmem⟩ := mxEffect_cst_none (n := n) hcst hwrites
    exact ⟨t, heffect, hmem, hstore.counters, .of_cores hstore.cores⟩
  by_cases hzero : c.port = 0x225
  · exact ⟨_, mxEffect_zero hreact hzero, rfl, rfl, ctxOnly _ s (.refl s)⟩
  by_cases hstep : c.port = 0x226
  · let f (k : Ctx) : Ctx := k.setC (c.t.word.toNat / 16 % 4) (s.stepTile ⟨n, c.ctx⟩ c)
    have spent := State.event_tilesAlike (s.updCtx ⟨n, c.ctx⟩ f) ⟨n, c.ctx⟩ 0x08 1
    refine ⟨_, mxEffect_step hreact hstep, State.stepEffect_mem .., ?_, ?_⟩
    · rw [State.stepEffect_eq]
      exact spent.counters
    · rw [State.stepEffect_eq]
      exact (ctxOnly f s (.refl s)).trans spent.queues
  · exact ⟨_, mxEffect_fill hreact (by simp [hcst, hzero, hstep]), State.cmdLease_mem s c, rfl,
      ctxOnly _ _ (s.cmdLease_onlyStore c)⟩

end

/-- A matrix command without destinations in memory and without a counter, when it ends: it is gone, memory and counters are as
before, and its context's tiles are those of its effect. -/
theorem mxComplete_tiles {s : State} {n : Nat} {c : Cmd} (h : s.mxReady n c) (hreact : (s.ctx ⟨n, c.ctx⟩).react = c.react)
    (hwrites : c.writes = []) (hsel : c.sel = none) : ∃ t u, exec (.mxCommandComplete n (inArray c)) s = .next t ∧
      goneFrom (t.core n).mxq c ∧ t.store.mem = s.store.mem ∧ t.counters = s.counters ∧ s.mxEffect n c = some u ∧
      (∀ i, (t.ctx ⟨n, c.ctx⟩).aTile i = (u.ctx ⟨n, c.ctx⟩).aTile i) ∧
      ∀ i, (t.ctx ⟨n, c.ctx⟩).cTile i = (u.ctx ⟨n, c.ctx⟩).cTile i := by
  obtain ⟨u, heffect, hmem, hctr, hqueues⟩ := mxEffect_keeps (n := n) hreact hwrites
  have haway : c.away = false := by rw [Cmd.away, hwrites]; rfl
  obtain ⟨gone, mem, ctr, tiles⟩ := mxEnd_keeps s u n hsel
  exact ⟨_, u, mxComplete_ends h heffect hqueues haway, gone, mem.trans hmem, ctr.trans hctr, heffect,
    Ctx.aTile_congr (tiles _).1, Ctx.cTile_congr (tiles _).2⟩

section
variable {s u : State} {n : Nat} {c : Cmd} (hreact : (s.ctx ⟨n, c.ctx⟩).react = c.react) (heffect : s.mxEffect n c = some u)
include hreact heffect

/-- `mx.zero` leaves a tile of zeros (R285). -/
theorem mxEffect_zero_tile (hport : c.port = 0x225) :
    (u.ctx ⟨n, c.ctx⟩).cTile (c.t.word.toNat % 4) = ⟨[], c.tag, c.taint⟩ := by
  rw [mxEffect_zero hreact hport] at heffect
  obtain rfl := Option.some.inj heffect
  rw [State.ctx_updCtx, bitsOf_zero]
  exact Ctx.cTile_setC ..

/-- `mx.step` leaves its sums (R287). -/
theorem mxEffect_step_tile (hport : c.port = 0x226) :
    (u.ctx ⟨n, c.ctx⟩).cTile (c.t.word.toNat / 16 % 4) = s.stepTile ⟨n, c.ctx⟩ c := by
  rw [mxEffect_step hreact hport, State.stepEffect_eq] at heffect
  obtain rfl := Option.some.inj heffect
  rw [Ctx.cTile_congr ((State.event_tilesAlike ..).tiles _).2, State.ctx_updCtx, Ctx.cTile_setC]

variable (hreads : ∀ p ∈ c.reads, (s.viewerOf c.react).plain p)
include hreads

/-- What a load or a scaling makes of its context (R283, R284, R286). -/
theorem mxEffect_fill_ctx (hport : c.port ∉ [0x224, 0x225, 0x226]) :
    ∃ taint, u.ctx ⟨n, c.ctx⟩ = c.fillTile (s.sources c) taint (s.ctx ⟨n, c.ctx⟩) := by
  rw [mxEffect_fill hreact hport] at heffect
  obtain rfl := Option.some.inj heffect
  refine ⟨c.taint || (s.cmdRead ⟨n, c.ctx⟩ c).2.2, ?_⟩
  rw [State.ctx_updCtx, State.cmdRead_bytes hreads]
  rfl

/-- `mx.cld` leaves its source in an accumulator tile (R284). -/
theorem mxEffect_cld_tile (hport : c.port = 0x223) :
    ((u.ctx ⟨n, c.ctx⟩).cTile (c.t.word.toNat % 4)).bytes = s.sources c ∧
      ((u.ctx ⟨n, c.ctx⟩).cTile (c.t.word.toNat % 4)).tag = c.tag := by
  obtain ⟨taint, hctx⟩ := mxEffect_fill_ctx hreact heffect hreads (by simp [hport])
  rw [hctx, Cmd.fillTile, if_pos hport, Ctx.cTile_setC]
  exact ⟨rfl, rfl⟩

/-- `mx.tld` and `mx.xa` leave their source in an A tile (R283). -/
theorem mxEffect_load_tile (hport : c.port = 0x22A ∨ c.port = 0x222) :
    ((u.ctx ⟨n, c.ctx⟩).aTile (c.t.word.toNat % 8)).bytes = aTileBytes c (s.sources c) ∧
      ((u.ctx ⟨n, c.ctx⟩).aTile (c.t.word.toNat % 8)).tag = c.tag := by
  obtain ⟨taint, hctx⟩ := mxEffect_fill_ctx hreact heffect hreads (by obtain h | h := hport <;> simp [h])
  rw [hctx, Cmd.fillTile, if_neg (by omega), if_neg (by omega), Ctx.aTile_setA]
  exact ⟨rfl, rfl⟩

/-- `mx.scl` leaves its tile scaled row by row (R286). -/
theorem mxEffect_scl_tile (hport : c.port = 0x22B) :
    ((u.ctx ⟨n, c.ctx⟩).cTile (c.t.word.toNat % 4)).bytes =
        sclBytes ((s.ctx ⟨n, c.ctx⟩).cTile (c.t.word.toNat % 4)) (s.sources c) ∧
      ((u.ctx ⟨n, c.ctx⟩).cTile (c.t.word.toNat % 4)).tag = c.tag := by
  obtain ⟨taint, hctx⟩ := mxEffect_fill_ctx hreact heffect hreads (by simp [hport])
  rw [hctx, Cmd.fillTile, if_neg (by omega), if_pos hport, Ctx.cTile_setC]
  exact ⟨rfl, rfl⟩

end

theorem aTileBytes_plain {c : Cmd} (h : c.port = 0x22A ∨ c.port = 0x222 ∧ (fmtRec (c.recs.headD [])).bx = none)
    (src : List Byte) : aTileBytes c src = src := by
  rw [aTileBytes]
  obtain hport | ⟨-, hbx⟩ := h
  · split
    · rw [if_neg (by omega)]
    · rfl
  · rw [hbx]

theorem aTileBytes_bx {c : Cmd} {b : Num.BxFmt} (hport : c.port = 0x222) (hbx : (fmtRec (c.recs.headD [])).bx = some b)
    (src : List Byte) : aTileBytes c src = bxTileBytes b src := by
  rw [aTileBytes, hbx]
  exact if_pos hport

/-- Word `j` of row `r` of a scaled tile (R286). -/
def sclWord (t : Tile) (scale : List Byte) (r j : Nat) : Nat :=
  (Num.mulV Num.fp32 .rne (Num.ofBits Num.fp32 (t.f32 (64 * r + j)))
    (Num.ofBits Num.fp32 (leNat ((scale.drop (4 * r)).take 4)))).1

theorem sclBytes_eq (t : Tile) (scale : List Byte) : sclBytes t scale = wordBytes (sclWord t scale) := rfl

end Sys2Proof.Machine
end

section
/-!
PROOFS of 16_copy: canopy fills (R304).
-/

namespace Sys2Proof.Machine

/-! ### Where a block of a fill goes (R93, R304) -/

/-- The slots that a block of a record's format takes. -/
def FmtRec.fillSlots (r : FmtRec) : Nat := if r.bx.isSome then 1 else 2

theorem fillSlots_eq {r : FmtRec} (hlo : 1 ≤ r.fmt) (hhi : r.fmt ≤ 5) : slotsPerStep r.fmt = r.fillSlots := by
  have cases : r.fmt = 1 ∨ r.fmt = 2 ∨ r.fmt = 3 ∨ r.fmt = 4 ∨ r.fmt = 5 := by omega
  obtain h | h | h | h | h := cases <;> rw [slotsPerStep, FmtRec.fillSlots, FmtRec.bx, h] <;> rfl

/-- The second key that a block of a fill writes from: its exponents, or its second slot. -/
def fillKey (x : CtxRef) (r : FmtRec) (j slot : Nat) : Nat :=
  if r.bx.isSome then canopyExpKey x j slot else canopyKey x j (slot + 1) 0

/-- The bytes written there. -/
def FmtRec.fillRest (r : FmtRec) : Nat := if r.bx.isSome then 2 else 32

/-- Whether a block of a fill writes a key. -/
def inFill (x : CtxRef) (r : FmtRec) (q : Nat × Nat) (k : Nat) : Prop :=
  (canopyKey x q.1 q.2 0 ≤ k ∧ k < canopyKey x q.1 q.2 0 + 32) ∨
    (fillKey x r q.1 q.2 ≤ k ∧ k < fillKey x r q.1 q.2 + r.fillRest)

/-- A slice and a slot of it where a block fits. -/
def fits (r : FmtRec) (q : Nat × Nat) : Prop := q.1 < 64 ∧ q.2 + r.fillSlots ≤ 2048

/-- A fill writes keys of the canopy alone. -/
theorem keyKind_of_inFill {x : CtxRef} {r : FmtRec} {q : Nat × Nat} {k : Nat} (hq : fits r q) (h : inFill x r q k) :
    keyKind k = Kind.canopyElem.num ∨ keyKind k = Kind.canopyExp.num := by
  obtain ⟨hj, hslot⟩ := hq
  simp only [inFill, fillKey, FmtRec.fillRest, FmtRec.fillSlots, canopyKey, canopyExpKey, keyOf, keyKind, Kind.num] at *
  generalize x.core * 4 + x.ctx = owner at *
  split_ifs at * <;> omega

/-- Blocks at different places write different keys. -/
theorem inFill_apart {x : CtxRef} {r : FmtRec} {q q' : Nat × Nat} {k : Nat} (hq : fits r q) (hq' : fits r q')
    (h : q.1 < q'.1 ∨ q.1 = q'.1 ∧ q.2 + r.fillSlots ≤ q'.2) (hk : inFill x r q k) : ¬ inFill x r q' k := by
  obtain ⟨hj, hslot⟩ := hq
  obtain ⟨hj', hslot'⟩ := hq'
  simp only [inFill, fillKey, FmtRec.fillRest, FmtRec.fillSlots, canopyKey, canopyExpKey, keyOf, Kind.num] at *
  generalize x.core * 4 + x.ctx = owner at *
  split_ifs at * <;> omega

/-- The two parts of a block lie apart. -/
theorem fillKey_apart (x : CtxRef) (r : FmtRec) {j slot : Nat} (h : fits r (j, slot)) :
    canopyKey x j slot 0 + 32 ≤ fillKey x r j slot := by
  obtain ⟨hj, hslot⟩ := h
  simp only [fillKey, FmtRec.fillSlots, canopyKey, canopyExpKey, keyOf, Kind.num] at *
  generalize x.core * 4 + x.ctx = owner at *
  split_ifs at * <;> omega

/-! ### One block (R304) -/

/-- The bytes of a block that its first slot takes. -/
def FmtRec.fillHead (r : FmtRec) (bytes : List Byte) : List Byte :=
  match r.bx with
  | some b => bytes.take b.blockBytes ++ List.replicate (32 - b.blockBytes) 0#8
  | none => bytes.take 32

/-- The bytes of a block behind those. -/
def FmtRec.fillTail (r : FmtRec) (bytes : List Byte) : List Byte :=
  match r.bx with
  | some b => bytes.drop b.blockBytes
  | none => bytes.drop 32

theorem FmtRec.fillHead_length {r : FmtRec} {bytes : List Byte} (h : bytes.length = r.fillBytes) :
    (r.fillHead bytes).length = 32 := by
  rw [FmtRec.fillBytes] at h
  rw [FmtRec.fillHead]
  cases hbx : r.bx with
  | some b =>
    have hb : b.blockBytes ≤ 32 := blockBytes_le hbx
    simp only [hbx] at h
    simp [h]
    omega
  | none =>
    simp only [hbx] at h
    simp [h]

theorem FmtRec.fillTail_length {r : FmtRec} {bytes : List Byte} (h : bytes.length = r.fillBytes) :
    (r.fillTail bytes).length = r.fillRest := by
  rw [FmtRec.fillBytes] at h
  rw [FmtRec.fillTail, FmtRec.fillRest]
  cases hbx : r.bx with
  | some b =>
    simp only [hbx] at h
    simp [h]
  | none =>
    simp only [hbx] at h
    simp [h]

theorem fillBlock_mem (s : State) (x : CtxRef) (r : FmtRec) (j slot : Nat) (bytes : List Byte) (taint : Bool) :
    (s.fillBlock x r j slot bytes taint).store.mem =
      cellsWrite (cellsWrite s.store.mem (canopyKey x j slot 0) (r.fillHead bytes)) (fillKey x r j slot) (r.fillTail bytes) := by
  rw [State.fillBlock, FmtRec.fillHead, FmtRec.fillTail, fillKey]
  cases r.bx <;> rfl

theorem fillBlock_onlyStore (s : State) (x : CtxRef) (r : FmtRec) (j slot : Nat) (bytes : List Byte) (taint : Bool) :
    s.onlyStore (s.fillBlock x r j slot bytes taint) := by
  rw [State.fillBlock]
  split <;> exact ⟨_, rfl⟩

/-- The slots of a place hold a block. -/
def holdsBlock (m : List Host.Cell) (x : CtxRef) (r : FmtRec) (q : Nat × Nat) (bytes : List Byte) : Prop :=
  cellsRead m (canopyKey x q.1 q.2 0) 32 = r.fillHead bytes ∧ cellsRead m (fillKey x r q.1 q.2) r.fillRest = r.fillTail bytes

theorem holdsBlock_congr {m m' : List Host.Cell} {x : CtxRef} {r : FmtRec} {q : Nat × Nat} {bytes : List Byte}
    (h : ∀ k, inFill x r q k → cellGet m' k = cellGet m k) (hm : holdsBlock m x r q bytes) : holdsBlock m' x r q bytes := by
  obtain ⟨hhead, htail⟩ := hm
  refine ⟨?_, ?_⟩
  · rw [← hhead]
    exact cellsRead_congr fun k h1 h2 => h k (.inl ⟨h1, h2⟩)
  · rw [← htail]
    exact cellsRead_congr fun k h1 h2 => h k (.inr ⟨h1, h2⟩)

section
variable {s : State} {x : CtxRef} {r : FmtRec} {q : Nat × Nat} {bytes : List Byte} (hlen : bytes.length = r.fillBytes)
include hlen

theorem fillBlock_frame (taint : Bool) {k : Nat} (hk : ¬ inFill x r q k) :
    cellGet (s.fillBlock x r q.1 q.2 bytes taint).store.mem k = cellGet s.store.mem k := by
  rw [inFill, not_or] at hk
  rw [fillBlock_mem, cellGet_cellsWrite_other _ _ _ _ (by rw [FmtRec.fillTail_length hlen]; exact hk.2),
    cellGet_cellsWrite_other _ _ _ _ (by rw [FmtRec.fillHead_length hlen]; exact hk.1)]

theorem fillBlock_holds (hsound : s.sound) (hq : fits r q) (taint : Bool) :
    holdsBlock (s.fillBlock x r q.1 q.2 bytes taint).store.mem x r q bytes := by
  have apart := fillKey_apart x r hq
  have headLen := FmtRec.fillHead_length hlen
  have tailLen := FmtRec.fillTail_length hlen
  rw [fillBlock_mem]
  refine ⟨?_, ?_⟩
  · have head := cellsRead_cellsWrite s.store.mem (canopyKey x q.1 q.2 0) (r.fillHead bytes) hsound
    rw [headLen] at head
    exact (cellsRead_congr fun k _ h2 => cellGet_cellsWrite_other _ _ _ _ (by omega)).trans head
  · rw [← tailLen]
    exact cellsRead_cellsWrite _ _ _ (cellsWrite_wf _ _ _ hsound)

end

/-! ### Blocks in order (R304) -/

/-- The first pieces that make up a block are that block's. -/
theorem takePieces_append {ps : List Piece} (rest : List Piece) {n : Nat} (hsum : (ps.map Piece.n).sum = n)
    (hpos : ∀ p ∈ ps, 0 < p.n) : takePieces (ps ++ rest) n = (ps, rest) := by
  induction ps generalizing n with
  | nil =>
    obtain rfl : 0 = n := hsum
    cases rest <;> rfl
  | cons p ps ih =>
    obtain ⟨hp, hps⟩ := List.forall_mem_cons.mp hpos
    rw [List.map_cons, List.sum_cons] at hsum
    rw [List.cons_append, takePieces, if_neg (by omega)]
    simp only [ih (n := n - p.n) (by omega) hps]

/-- The bytes of a block's pieces in a memory. -/
def blockBytesIn (m : List Host.Cell) (ps : List Piece) : List Byte := ps.flatMap fun p => cellsRead m p.key p.n

theorem blockBytesIn_length (m : List Host.Cell) (ps : List Piece) : (blockBytesIn m ps).length = (ps.map Piece.n).sum := by
  simp [blockBytesIn, List.length_flatMap]

/-- A piece that no fill of a canopy writes: within its sector, elsewhere than in a canopy. -/
def offCanopy (p : Piece) : Prop :=
  p.key % 32 + p.n ≤ 32 ∧ keyKind p.key ≠ Kind.canopyElem.num ∧ keyKind p.key ≠ Kind.canopyExp.num

/-- Two memories agree outside canopies. -/
def agreeOffCanopy (m m' : List Host.Cell) : Prop :=
  ∀ k, keyKind k ≠ Kind.canopyElem.num → keyKind k ≠ Kind.canopyExp.num → cellGet m' k = cellGet m k

theorem cellsRead_offCanopy {m m' : List Host.Cell} (h : agreeOffCanopy m m') {p : Piece} (hp : offCanopy p) :
    cellsRead m' p.key p.n = cellsRead m p.key p.n := by
  obtain ⟨hn, helem, hexp⟩ := hp
  refine cellsRead_congr fun k h1 h2 => ?_
  have same : keyKind k = keyKind p.key := by
    simp only [keyKind]
    omega
  exact h k (same ▸ helem) (same ▸ hexp)

theorem blockBytesIn_offCanopy {m m' : List Host.Cell} (h : agreeOffCanopy m m') {ps : List Piece}
    (hps : ∀ p ∈ ps, offCanopy p) : blockBytesIn m' ps = blockBytesIn m ps :=
  List.flatMap_congr fun p hp => cellsRead_offCanopy h (hps p hp)

/-- The pieces of one block of a fill: as many bytes as it moves, all outside canopies. -/
def isBlock (v : Viewer) (r : FmtRec) (ps : List Piece) : Prop :=
  (ps.map Piece.n).sum = r.fillBytes ∧ ∀ p ∈ ps, 0 < p.n ∧ v.plain p ∧ offCanopy p

section
variable {x : CtxRef} {v : Viewer} {r : FmtRec} {c : Cmd} {m : List Host.Cell}

/-- One block of a fill made, from a memory that agrees with the one before the fill outside canopies. -/
theorem fillBlocks_cons {s : State} {q : Nat × Nat} {l : List (Nat × Nat)} {b : List Piece} (hb : isBlock v r b)
    (hagree : agreeOffCanopy m s.store.mem) (rest : List Piece) :
    ∃ taint, s.fillBlocks x v r c (q :: l) (b ++ rest) =
      (s.fillBlock x r q.1 q.2 (blockBytesIn m b) taint).fillBlocks x v r c l rest := by
  obtain ⟨hsum, hps⟩ := hb
  have read : (s.readPieces (cmdAgent x.core c.id) v b).1 = blockBytesIn m b :=
    (readPieces_plain s _ b fun p hp => (hps p hp).2.1).trans (blockBytesIn_offCanopy hagree fun p hp => (hps p hp).2.2)
  refine ⟨c.taint || (s.readPieces (cmdAgent x.core c.id) v b).2, ?_⟩
  obtain ⟨j, slot⟩ := q
  rw [State.fillBlocks]
  simp only [takePieces_append rest hsum fun p hp => (hps p hp).1, read]

/-- A fill changes its store alone, no key that none of its blocks writes, and leaves each block at its place. -/
theorem fillBlocks_holds (l : List (Nat × Nat)) : ∀ (s : State) (bl : List (List Piece)), s.sound → bl.length = l.length →
    (∀ b ∈ bl, isBlock v r b) → (∀ q ∈ l, fits r q) → (l.Pairwise fun q q' => ∀ k, inFill x r q k → ¬ inFill x r q' k) →
    agreeOffCanopy m s.store.mem →
    s.onlyStore (s.fillBlocks x v r c l bl.flatten) ∧
      (∀ k, (∀ q ∈ l, ¬ inFill x r q k) → cellGet (s.fillBlocks x v r c l bl.flatten).store.mem k = cellGet s.store.mem k) ∧
      ∀ (i : Nat) (q : Nat × Nat) (b : List Piece), l[i]? = some q → bl[i]? = some b →
        holdsBlock (s.fillBlocks x v r c l bl.flatten).store.mem x r q (blockBytesIn m b) := by
  induction l with
  | nil => exact fun s bl _ _ _ _ _ _ => ⟨.refl s, fun _ _ => rfl, fun i q b hq => by simp at hq⟩
  | cons q l ih =>
    intro s bl hsound hlen hbl hl hapart hagree
    obtain ⟨b, bl, rfl⟩ := List.exists_cons_of_length_eq_add_one hlen
    obtain ⟨hb, hbl⟩ := List.forall_mem_cons.mp hbl
    obtain ⟨hq, hl⟩ := List.forall_mem_cons.mp hl
    obtain ⟨hqapart, hapart⟩ := List.pairwise_cons.mp hapart
    obtain ⟨taint, step⟩ := fillBlocks_cons (x := x) (c := c) (q := q) (l := l) hb hagree bl.flatten
    have len : (blockBytesIn m b).length = r.fillBytes := (blockBytesIn_length m b).trans hb.1
    have sound : (s.fillBlock x r q.1 q.2 (blockBytesIn m b) taint).sound := by
      rw [State.sound, fillBlock_mem]
      exact cellsWrite_wf _ _ _ (cellsWrite_wf _ _ _ hsound)
    have agree : agreeOffCanopy m (s.fillBlock x r q.1 q.2 (blockBytesIn m b) taint).store.mem := fun k h7 h8 => by
      rw [fillBlock_frame len taint fun hk => (keyKind_of_inFill hq hk).elim h7 h8, hagree k h7 h8]
    obtain ⟨hstore, hframe, hholds⟩ := ih _ bl sound (by simpa using hlen) hbl hl hapart agree
    rw [List.flatten_cons, step]
    refine ⟨(fillBlock_onlyStore ..).trans hstore, fun k hk => ?_, fun i q' b' hq' hb' => ?_⟩
    · obtain ⟨hkq, hkl⟩ := List.forall_mem_cons.mp hk
      rw [hframe k hkl, fillBlock_frame len taint hkq]
    · cases i with
      | zero =>
        obtain rfl : q = q' := by simpa using hq'
        obtain rfl : b = b' := by simpa using hb'
        exact holdsBlock_congr (fun k hk => hframe k fun q' hq' => hqapart q' hq' k hk) (fillBlock_holds len hsound hq taint)
      | succ i => exact hholds i q' b' (by simpa using hq') (by simpa using hb')

end

/-! ### A fill's blocks (R304) -/

/-- The places of a fill's blocks: slices, then the blocks of each. -/
def fillPlaces (r : FmtRec) (slot nb : Nat) : List (Nat × Nat) :=
  (List.range 64).flatMap fun j => (List.range nb).map fun m => (j, slot + m * r.fillSlots)

theorem mem_fillPlaces {r : FmtRec} {slot nb : Nat} {q : Nat × Nat} :
    q ∈ fillPlaces r slot nb ↔ ∃ j < 64, ∃ m < nb, q = (j, slot + m * r.fillSlots) := by
  simp [fillPlaces, eq_comm]

theorem fillPlaces_get (r : FmtRec) (slot : Nat) {nb j m : Nat} (hj : j < 64) (hm : m < nb) :
    (fillPlaces r slot nb)[j * nb + m]? = some (j, slot + m * r.fillSlots) := by
  have row (j : Nat) : ((List.range nb).map fun m => (j, slot + m * r.fillSlots)).length = nb := by simp
  have part := take_drop_range_block (fun j _ => row j) hj (k := m) (m := 1) hm
  have first := congrArg (fun l => l[0]?) part
  simpa [fillPlaces, hm, List.getElem?_take] using first

section
variable {r : FmtRec} {slot nb : Nat} (hfit : slot + nb * r.fillSlots ≤ 2048)
include hfit

theorem fits_fillPlaces : ∀ q ∈ fillPlaces r slot nb, fits r q := by
  intro q hq
  obtain ⟨j, hj, m, hm, rfl⟩ := mem_fillPlaces.mp hq
  have last : (m + 1) * r.fillSlots ≤ nb * r.fillSlots := Nat.mul_le_mul_right _ hm
  rw [Nat.succ_mul] at last
  exact ⟨hj, by show _ + _ ≤ _; omega⟩

theorem fillPlaces_apart (x : CtxRef) :
    (fillPlaces r slot nb).Pairwise fun q q' => ∀ k, inFill x r q k → ¬ inFill x r q' k := by
  have ordered : (fillPlaces r slot nb).Pairwise fun q q' => q.1 < q'.1 ∨ q.1 = q'.1 ∧ q.2 + r.fillSlots ≤ q'.2 := by
    rw [fillPlaces, List.pairwise_flatMap]
    refine ⟨fun j _ => ?_, List.pairwise_lt_range.imp fun {j j'} hj q hq q' hq' => ?_⟩
    · rw [List.pairwise_map]
      refine List.pairwise_lt_range.imp fun {m m'} hm => .inr ⟨rfl, ?_⟩
      have next : (m + 1) * r.fillSlots ≤ m' * r.fillSlots := Nat.mul_le_mul_right _ hm
      rw [Nat.succ_mul] at next
      show _ + _ ≤ _
      omega
    · obtain ⟨_, -, rfl⟩ := List.mem_map.mp hq
      obtain ⟨_, -, rfl⟩ := List.mem_map.mp hq'
      exact .inl hj
  refine ordered.imp_of_mem fun hq hq' h k => ?_
  exact inFill_apart (fits_fillPlaces hfit _ hq) (fits_fillPlaces hfit _ hq') h

end

/-! ### The fill command (R304) -/

section
variable {s : State} {n : Nat} {c : Cmd} {r : FmtRec} {slot nb : Nat} {bl : List (List Piece)} (hsound : s.sound)
  (hr : fmtRec (c.recs.headD []) = r) (hslot : c.t.word.toNat % 2 ^ 12 = slot) (hnb : c.t.word.toNat / 2 ^ 12 % 2 ^ 12 = nb)
  (hslots : slotsPerStep r.fmt = r.fillSlots) (hreads : c.reads = bl.flatten) (hlen : bl.length = 64 * nb)
  (hbl : ∀ b ∈ bl, isBlock (s.viewerOf c.react) r b) (hfit : slot + nb * r.fillSlots ≤ 2048)
include hsound hr hslot hnb hslots hreads hlen hbl hfit

/-- A fill changes its store alone and leaves each block at its place. -/
theorem canopyEffect_holds : s.onlyStore (s.canopyEffect ⟨n, c.ctx⟩ c) ∧ ∀ j m, j < 64 → m < nb →
    holdsBlock (s.canopyEffect ⟨n, c.ctx⟩ c).store.mem ⟨n, c.ctx⟩ r (j, slot + m * r.fillSlots)
      (blockBytesIn s.store.mem (bl.getD (j * nb + m) [])) := by
  have places : (List.range 64).flatMap (fun j => (List.range (bitsOf c.t.word.toNat 12 12)).map fun m =>
      (j, bitsOf c.t.word.toNat 0 12 + m * slotsPerStep r.fmt)) = fillPlaces r slot nb := by
    have hnb' : bitsOf c.t.word.toNat 12 12 = nb := hnb
    rw [bitsOf_zero, hslot, hnb', hslots]
    rfl
  have effect : s.canopyEffect ⟨n, c.ctx⟩ c =
      (s.fillBlocks ⟨n, c.ctx⟩ (s.cmdViewer c) r c (fillPlaces r slot nb) bl.flatten).cmdLease c := by
    rw [State.canopyEffect, hr, places, hreads]
  have len : (fillPlaces r slot nb).length = 64 * nb := length_range_blocks fun j _ => by simp
  obtain ⟨hstore, -, hholds⟩ := fillBlocks_holds (x := ⟨n, c.ctx⟩) (v := s.cmdViewer c) (r := r) (c := c) (m := s.store.mem)
    (fillPlaces r slot nb) s bl hsound (hlen.trans len.symm) hbl (fits_fillPlaces hfit) (fillPlaces_apart hfit _) fun _ _ _ => rfl
  rw [effect]
  refine ⟨hstore.trans (State.cmdLease_onlyStore _ c), fun j m hj hm => ?_⟩
  have inside : j * nb + m < bl.length := by
    have row : (j + 1) * nb ≤ 64 * nb := Nat.mul_le_mul_right _ hj
    rw [Nat.succ_mul] at row
    omega
  rw [State.cmdLease_mem]
  refine hholds (j * nb + m) _ _ (fillPlaces_get r slot hj hm) ?_
  rw [List.getD_eq_getElem _ _ inside]
  exact List.getElem?_eq_getElem inside

/-- A canopy fill that ends has left its blocks in their slots, is gone, and has made its count. -/
theorem cpComplete_canopy (h : s.cpReady n c) (hport : c.port = 0x268) (hreact : (s.ctx ⟨n, c.ctx⟩).react = c.react)
    (hwrites : ∀ p ∈ c.writes, ∀ e r m, p.page ≠ .remote e r m) :
    ∃ t, exec (.cpCommandComplete n c.id) s = .next t ∧ goneFrom (t.core n).cpq c ∧ s.counts t n c ∧ ∀ j m, j < 64 → m < nb →
      holdsBlock t.store.mem ⟨n, c.ctx⟩ r (j, slot + m * r.fillSlots)
        (blockBytesIn s.store.mem (bl.getD (j * nb + m) [])) := by
  obtain ⟨hstore, hholds⟩ := canopyEffect_holds (n := n) hsound hr hslot hnb hslots hreads hlen hbl hfit
  have heffect : s.cpEffect n c = some (s.canopyEffect ⟨n, c.ctx⟩ c) := by
    rw [State.cpEffect]
    simp only [hport, hreact, if_true]
  refine ⟨_, cpComplete_ends h heffect (.of_cores hstore.cores) (Cmd.away_local hwrites),
    State.cmdEnd_gone s _ n _ _ c (u := .cp) (.inr rfl), State.cmdEnd_counts (hstore.addsAlike _) _ _, ?_⟩
  rw [State.cmdEnd_mem]
  exact hholds

end

/-- A block of a 16-bit format in its two slots. -/
theorem holdsBlock_half {m : List Host.Cell} {x : CtxRef} {r : FmtRec} {j slot : Nat} {bytes : List Byte} (hbx : r.bx = none)
    (h : holdsBlock m x r (j, slot) bytes) :
    cellsRead m (canopyKey x j slot 0) 32 = bytes.take 32 ∧ cellsRead m (canopyKey x j (slot + 1) 0) 32 = bytes.drop 32 := by
  simpa [holdsBlock, fillKey, FmtRec.fillRest, FmtRec.fillHead, FmtRec.fillTail, hbx] using h

/-- A BX block in its slot. -/
theorem holdsBlock_bx {m : List Host.Cell} {x : CtxRef} {r : FmtRec} {j slot : Nat} {bytes : List Byte} {b : Num.BxFmt}
    (hbx : r.bx = some b) (hlen : bytes.length = r.fillBytes) (h : holdsBlock m x r (j, slot) bytes) :
    cellsRead m (canopyKey x j slot 0) b.blockBytes = bytes.take b.blockBytes ∧
      cellsRead m (canopyExpKey x j slot) 2 = bytes.drop b.blockBytes := by
  have hb : b.blockBytes ≤ 32 := blockBytes_le hbx
  have hlen : bytes.length = b.blockBytes + 2 := by rw [hlen, FmtRec.fillBytes, hbx]
  obtain ⟨hhead, htail⟩ := h
  refine ⟨?_, by simpa [fillKey, FmtRec.fillRest, FmtRec.fillTail, hbx] using htail⟩
  have part := take_drop_cellsRead m (canopyKey x j slot 0) 32 0 b.blockBytes (by omega)
  simp only [hhead, FmtRec.fillHead, hbx, List.drop_zero, Nat.add_zero] at part
  rw [← part, List.take_append_of_le_length (by simp [hlen]), List.take_take, Nat.min_self]

end Sys2Proof.Machine
end

section
/-!
PROOFS of 14_matrix, 16_copy and 18_clearing: queued commands start in order, and completed ones have left their results.
-/

namespace Sys2Proof.Machine

theorem msArrival_gone (s : State) (n : Nat) (c : Cmd) :
    goneFrom ((s.updCore n fun k => { k with msq := dropCmd k.msq c.id }).core n).msq c := by
  rw [State.core_updCore]
  exact dropCmd_gone _ c

/-- Settles O50: starts and ends by the engine's own turns, each result by the effect of its command. -/
theorem engineCommandsRun : Obligations.EngineCommandsRun := by
  unfold Obligations.EngineCommandsRun
  intro gone src plain stored leaves mxReady cpReady counted
  refine ⟨?mxStart, ?mxStartNone, ?cpStart, ?cpStartWaits, ?mxTiles, ?cst, ?cstElement, ?mxNone, ?cpLeaves, ?pattern, ?grid,
    ?canopy, ?stbl, ?marker, ?msArrival, ?msAdd, ?msMark⟩
  case mxStart => exact fun n s c hn hruns hfind hpipe hclear hmay => mxStart_starts hn hruns hfind hpipe hclear hmay
  case mxStartNone => exact fun n s hn h => mxStart_none hn h
  case cpStart => exact fun n s c hn hruns hmay hfind hfew hclear => cpStart_starts hn hruns hmay hfind hfew hclear
  case cpStartWaits => exact fun n s c e hn hfind he _ hid hwaits => cpStart_waits hn hfind he hid hwaits
  case mxTiles =>
    intro n s c hready hreact hwrites hsel
    obtain ⟨t, u, run, hgone, hmem, hctr, heffect, hA, hC⟩ := mxComplete_tiles hready hreact hwrites hsel
    refine ⟨t, run, hgone, hmem, hctr, ?_⟩
    intro w k k' el
    refine ⟨fun hport => ?_, fun hport => ?_, fun hplain => ?_⟩
    · exact (hC _).trans (mxEffect_zero_tile hreact heffect hport)
    · have tile := (hC (w / 16 % 4)).trans (mxEffect_step_tile hreact heffect hport)
      refine ⟨congrArg Tile.tag tile, fun r j hr hj => ?_⟩
      exact f32_wordBytes (congrArg Tile.bytes tile) hr hj
    intro b
    refine ⟨fun hport => ?_, fun hport => ?_, fun f hport hbx hlen => ?_, fun hport => ?_⟩
    · exact hC (w % 4) ▸ mxEffect_cld_tile hreact heffect hplain hport
    · rw [← aTileBytes_plain hport (src s c)]
      exact hA (w % 8) ▸ mxEffect_load_tile hreact heffect hplain (hport.imp_right And.left)
    · obtain ⟨bytes, tag⟩ := mxEffect_load_tile hreact heffect hplain (.inr hport)
      have tile : (k'.aTile (w % 8)).bytes = bxTileBytes f (src s c) := by
        rw [← aTileBytes_bx hport hbx]
        exact (congrArg Tile.bytes (hA (w % 8))).trans bytes
      refine ⟨(congrArg Tile.tag (hA (w % 8))).trans tag, fun r hr => ⟨fun i hi => ?_, fun i hi => ?_⟩⟩
      · rw [tile]
        exact bxTileBytes_element hlen hr hi
      · rw [tile]
        exact bxTileBytes_exponent hlen hr (blockBytes_le hbx) hi
    · obtain ⟨bytes, tag⟩ := mxEffect_scl_tile hreact heffect hplain hport
      refine ⟨(congrArg Tile.tag (hC (w % 4))).trans tag, fun r j hr hj => ?_⟩
      exact f32_wordBytes ((congrArg Tile.bytes (hC (w % 4))).trans (bytes.trans (sclBytes_eq _ _))) hr hj
  case cst => exact fun n s c hready hport _ hsel hst => mxComplete_cst hready hport hsel hst
  case cstElement => exact fun r a i j hi hj hbx => cstBytes_element r a hi hj hbx
  case mxNone => exact fun n array s hn h => mxComplete_none hn h
  case cpLeaves =>
    rintro n s c bytes hready hport hreads rfl hst
    exact cpComplete_leaves hready hport hreads hst
  case pattern => exact fun w n i hi => patternBytes_getD w hi
  case grid =>
    intro c bytes x y z d sr ds g old tbl at_ v hx hy hz
    exact ⟨fun hbx => gridOut_element hx hy hz hbx, fun b hbx hnx hx32 => gridOut_block hx hy hz hbx hnx hx32⟩
  case canopy =>
    intro n s c bl hready hport hreact r slot nb x hreads hlen hbl hplain hwrites hlo hhi hfit
    have hslots := fillSlots_eq hlo hhi
    have blocks : ∀ b ∈ bl, isBlock (s.viewerOf c.react) r b := fun b hb =>
      ⟨(hbl b hb).1, fun p hp => by
        have hread : p ∈ c.reads := hreads ▸ List.mem_flatten.mpr ⟨b, hb, hp⟩
        obtain ⟨hpl, helem, hexp⟩ := hplain p hread
        exact ⟨(hbl b hb).2 p hp, hpl, hpl.1, helem, hexp⟩⟩
    obtain ⟨t, run, hgone, hcounts, hholds⟩ := cpComplete_canopy hready.2.1 rfl rfl rfl hslots hreads hlen blocks
      (hslots ▸ hfit) hready hport hreact hwrites
    refine ⟨t, run, hgone, hcounts, fun j m hj hm => ?_⟩
    have block := hholds j m hj hm
    refine ⟨fun hbx => holdsBlock_half hbx (hslots ▸ block), fun b hbx => ?_⟩
    have one : r.fillSlots = 1 := by rw [FmtRec.fillSlots, hbx]; rfl
    rw [one, Nat.mul_one] at block
    have inside : j * nb + m < bl.length := by
      have row : (j + 1) * nb ≤ 64 * nb := Nat.mul_le_mul_right _ hj
      rw [Nat.succ_mul] at row
      omega
    have mem : bl.getD (j * nb + m) [] ∈ bl := List.getD_eq_getElem bl [] inside ▸ List.getElem_mem inside
    exact holdsBlock_bx hbx ((blockBytesIn_length _ _).trans (blocks _ mem).1) block
  case stbl => exact fun n s c hready hport _ hwrites hsel => cpComplete_stbl hready hport hwrites hsel
  case marker => exact fun n id s m hn hfind => markerRetire_ends hn hfind
  case msArrival =>
    intro n s c ports i hports hn hfind
    exact ⟨fun hpoison hfirst => ⟨_, exec_msArrival_first hports hn hfind hpoison hfirst, msArrival_gone _ n c⟩,
      fun h => exec_msArrival_waits hports hn hfind h⟩
  case msAdd =>
    intro n s c p hsound hn hfind hfirst hordered hversioned hport hreads hwrites hlen hsector hremote hpoison hpin
    have hp : (s.viewerOf c.react).plain p := ⟨by omega, hversioned, hremote⟩
    exact exec_msOpArrive_add hn hfirst hsound hfind hordered hp hport hreads hwrites hlen hpoison hpin
  case msMark =>
    intro n s c hn hfind hfirst hcmd hctx hreads hwrites hflits
    exact exec_msMarkFire_adds hn hfirst hfind hcmd hctx hreads hwrites hflits

end Sys2Proof.Machine
end

section
/-!
PROOFS of 16_copy: copy commands that join the copy queue (16_copy R296-R311).
-/

namespace Sys2Proof.Machine

/-! ### Completion selectors (R298) -/

/-- A completion selector that lets a copy command through: that of none, or of a counter that may be added to (R298). -/
def State.goodSel (s : State) (w : Nat) : Prop := w = 0xFFFFFFFF ∨ s.selFault s.cur (BitVec.ofNat 64 w) = none

theorem withSel_good {s : State} {w : Nat} (h : s.goodSel w) (read : Bool) (k : Option Byte → MoveR) :
    withSel read s (cselOf w) k = k none := by
  by_cases hw : w = 0xFFFFFFFF
  · rw [cselOf, if_pos hw, withSel]
  · rw [cselOf, if_neg hw, withSel]
    simp only [h.resolve_left hw]

theorem cpForm_of_good {bad : Bool} (h : bad = false) (k : MoveR) : cpForm bad k = k := by
  rw [cpForm, if_neg (by simp [h])]

theorem cpForm_of_bad {bad : Bool} (h : bad = true) (k : MoveR) : cpForm bad k = .trap 0x81 5 0 := if_pos h

/-! ### A copy command at the end of its queue (R297) -/

/-- Beside its command at the end of its queue, a trigger leaves the hardware as it was. -/
theorem State.enqueue_sameHardware {s t : State} {u : Unit11} {c : Cmd} (h : s.enqueue u c = .ok t) :
    (s.updCore s.cur.core fun k => k.push u (s.resolved c)).sameHardware t := by
  rw [State.enqueue] at h
  split_ifs at h
  cases h
  split_ifs
  · exact .trans ⟨_, _, rfl⟩ (State.irrev_sameHardware _ _)
  · exact ⟨_, _, rfl⟩
  · exact State.irrev_sameHardware _ _
  · exact .refl _

theorem State.enqueue_ctx {s t : State} {u : Unit11} {c : Cmd} (h : s.enqueue u c = .ok t) (x : CtxRef) : t.ctx x = s.ctx x := by
  rw [State.ctx_congr (State.enqueue_sameHardware h).cores, State.ctx_updCore_ctxs s _ fun k => k.push_ctxs u _]

theorem Ctx.sameRegs.trans {b c d : Ctx} (h : b.sameRegs c) (h' : c.sameRegs d) : b.sameRegs d := by
  simp only [Ctx.sameRegs] at *
  simp only [h, h', and_self]

/-- A queued command beside a change of a context that its registers do not show. -/
theorem State.joined.updCtx {v t : State} {u : Unit11} {c : Cmd} (h : v.joined t u c) {f : Ctx → Ctx}
    (hf : ∀ d, (f d).sameRegs d) (y : CtxRef) : v.joined (t.updCtx y f) u c := by
  obtain ⟨hqueue, hmem, hctr, hregs⟩ := h
  refine ⟨?_, hmem, hctr, fun x => ?_⟩
  · rw [State.core_queue_updCtx, hqueue]
  · obtain h | h := State.ctx_updCtx_or t y x f <;> rw [h]
    · exact (hf _).trans (hregs x)
    · exact hregs x

/-- What a queued copy command completes: its selector resolved for the die of its trigger, and its count (R191, R298). -/
def State.completesOn (s : State) (sel : Option Nat) (n : Nat) (c : Cmd) : Prop :=
  c.sel = (sel.map fun w => (s.sel s.cur (BitVec.ofNat 64 w)).word) ∧ c.count = BitVec.ofNat 64 n

/-- A copy command that finds room stands last in its queue, and all but `cp.stbl` make their count the context's latest (R301). -/
theorem State.cpEnqueue_joins {s : State} (port : Nat) (x : Opnds) (recs : List (List Byte)) (taint : Bool) (sel : Option Nat)
    (n : Nat) (rd wr : List Piece) (hroom : queueFull (s.core s.cur.core).cpq = false) :
    ∃ t c, s.cpEnqueue port x recs taint sel n rd wr = .ok t ∧ s.joined t .cp c ∧ c.carries port x recs rd wr ∧
      c.ctx = s.cur.ctx ∧ (t.ctx s.cur).lastCnt = (if port = 0x269 then s.me.lastCnt else c.count) ∧ s.completesOn sel n c := by
  let c := { s.newCmd port x with
    recs := recs, reads := rd, writes := wr, taint := (s.newCmd port x).taint || taint, sel := sel, count := BitVec.ofNat 64 n }
  obtain ⟨u, hok, hcur, hjoin⟩ := State.enqueue_joins (s := s) (u := .cp) (c := c) (.inr (.inl rfl)) hroom
  have entered : s.cpEnqueue port x recs taint sel n rd wr =
      .ok (if port = 0x269 then u else u.updCtx u.cur fun t => { t with lastCnt := BitVec.ofNat 64 n }) := by
    rw [State.cpEnqueue]
    simp only [c] at hok
    simp only [hok]
  refine ⟨_, s.resolved c, entered, ?_, ⟨rfl, rfl, rfl, rfl, rfl, rfl, rfl, rfl, rfl⟩, rfl, ?_, rfl, rfl⟩
  all_goals split_ifs
  · exact hjoin
  · exact hjoin.updCtx (f := fun t => { t with lastCnt := BitVec.ofNat 64 n }) (fun d => .refl d) _
  · rw [State.enqueue_ctx hok, State.me]
  · rw [hcur, State.ctx_updCtx]
    rfl

/-- A copy trigger whose checks left `v` and that ends in the queueing of its command has queued it. -/
theorem queues_of_cpEnqueue {i : Instr} {s v : State} {m : BitVec 24} {port : Nat} {x : Opnds} {recs : List (List Byte)}
    {rd wr : List Piece} {taint : Bool} {sel : Option Nat} {n : Nat} (hroom : queueFull (v.core v.cur.core).cpq = false)
    (run : exec i s = finish s m (v.cpEnqueue port x recs taint sel n rd wr)) :
    queues i s v .cp port x recs rd wr (v.completesOn sel n) := by
  obtain ⟨t, c, hok, hjoin, hcarries, hctx, hcnt, hends⟩ := State.cpEnqueue_joins port x recs taint sel n rd wr hroom
  rw [hok, finish_ok] at run
  exact ⟨t.retired, c, run, rfl, hjoin, hcarries, hctx, fun _ => hcnt, hends⟩

/-! ### The commands (R302-R310) -/

/-- The fields of a length word: bytes, and completion selector (R302). -/
theorem lengthWord (w : Word) : bitsOf w.toNat 0 32 = w.toNat % 2 ^ 32 ∧ bitsOf w.toNat 32 32 = w.toNat / 2 ^ 32 :=
  ⟨bitsOf_zero .., bitsOf_high w⟩

/-- The form that the linear copy and the fill share: `spans` from operands and length. -/
def linearOp (port : Nat) (spans : Opnds → List Span) (a : Opnds) (s : State) : MoveR :=
  cpForm (decide (a.t.word.toNat % 2 ^ 32 = 0)) <| withSel false s (cselOf (a.t.word.toNat / 2 ^ 32)) fun gate =>
    admitData cCpLevel gate (spans a) s fun s rd wr =>
      s.cpEnqueue port a [] false (cselOf (a.t.word.toNat / 2 ^ 32)) (a.t.word.toNat % 2 ^ 32) rd wr

theorem linearOp_queues {port : Nat} {spans : Opnds → List Span} {x : Opnds} {s v : State} {rd wr : List Piece}
    (hlen : 0 < x.t.word.toNat % 2 ^ 32) (hsel : s.goodSel (x.t.word.toNat / 2 ^ 32)) (hdata : s.dataPass (spans x) v rd wr) :
    linearOp port spans x s = v.cpEnqueue port x [] false (cselOf (x.t.word.toNat / 2 ^ 32)) (x.t.word.toNat % 2 ^ 32) rd wr := by
  rw [linearOp, cpForm_of_good (decide_eq_false hlen.ne'), withSel_good hsel, admitData_passes hdata]

theorem linOp_eq : linOp = linearOp 0x262 fun x =>
    [⟨x.o.word.toNat, x.t.word.toNat % 2 ^ 32, false⟩, ⟨x.p.word.toNat, x.t.word.toNat % 2 ^ 32, true⟩] := by
  funext a s
  rw [linOp, linearOp, (lengthWord a.t.word).1, (lengthWord a.t.word).2]

theorem fillOp_eq : fillOp = linearOp 0x266 fun x => [⟨x.p.word.toNat, x.t.word.toNat % 2 ^ 32, true⟩] := by
  funext a s
  rw [fillOp, linearOp, (lengthWord a.t.word).1, (lengthWord a.t.word).2]

theorem exec_cpLin (a : Src) (g : Guard) (s : State) : exec (.cpLin a g) s = trigger .cp 0x262 .opt (linearOp 0x262 fun x =>
    [⟨x.o.word.toNat, x.t.word.toNat % 2 ^ 32, false⟩, ⟨x.p.word.toNat, x.t.word.toNat % 2 ^ 32, true⟩]) a g s := by
  rw [← linOp_eq]
  rfl

theorem exec_cpFill (a : Src) (g : Guard) (s : State) : exec (.cpFill a g) s =
    trigger .cp 0x266 .opt (linearOp 0x266 fun x => [⟨x.p.word.toNat, x.t.word.toNat % 2 ^ 32, true⟩]) a g s := by
  rw [← fillOp_eq]
  rfl

theorem strOp_reads {port dims : Nat} {x : Opnds} {s u : State} {bs : List Byte} {taint : Bool}
    (halign : x.t.word.toNat % 64 = 0) (hread : s.recordRead x.t.word.toNat 64 u bs taint) :
    strOp port dims x s = if (strided bs).bad dims = true then faultRead 0x81 x.t.word.toNat
      else withSel true u (cselOf (strided bs).csel) fun gate =>
        admitData cCpLevel gate (pairSpans (2 ^ (strided bs).esz) (strided bs).pairs) u fun s rd wr =>
          s.cpEnqueue port x [bs] taint (cselOf (strided bs).csel)
            ((strided bs).n0 * (strided bs).n1 * max 1 (strided bs).n2 * 2 ^ (strided bs).esz) rd wr := by
  rw [strOp, cpForm_of_good (by simp [halign]), readRecord_reads hread]
  rfl

/-- A grid command once its descriptor, table and records are read and in form. -/
theorem gridBody_queues {port : Nat} {x : Opnds} {gb tb sb db : List Byte} {taint add : Bool} {d : GridDesc} {drec : Nat}
    {s v : State} {rd wr : List Piece} (hsel : s.goodSel d.csel) (hsrc : (fmtRec sb).valid = true) (hdst : (fmtRec db).valid = true)
    (hrow : (fmtRec db).bx.isSome = true → d.nx % 32 = 0)
    (hdata : s.dataPass ((fmtRec sb).gridSpans (d.my * d.mz) d.mx false ++
      (if add then (fmtRec db).gridSpans (d.ny * d.nz) d.nx false else []) ++ (fmtRec db).gridSpans (d.ny * d.nz) d.nx true) v rd wr) :
    gridBody port x [gb, tb, sb, db] taint none add d drec s =
      v.cpEnqueue port x [gb, tb, sb, db] taint (cselOf d.csel) (d.count (fmtRec db)) rd wr := by
  have place : ¬(!(fmtRec db).valid || ((fmtRec db).bx.isSome && decide (d.nx % 32 ≠ 0))) = true := by
    rw [hdst]
    simpa using hrow
  rw [gridBody]
  simp only [withSel_good hsel, List.getD_cons_succ, List.getD_cons_zero]
  rw [if_neg (by simp [hsrc]), if_neg place, admitData_passes hdata]

/-- The records of the 16-bit and the BX formats, and the slots that a step of one takes (R272, R304). -/
theorem canopyFormat {r : FmtRec} (lo : 1 ≤ r.fmt) (hi : r.fmt ≤ 5) : (r.half || r.bx.isSome) = true := by
  rw [halfOrBx_eq, decide_eq_true_iff]
  omega

theorem canopyOp_queues {x : Opnds} {s u v : State} {bs : List Byte} {taint : Bool} {rd wr : List Piece} {n : Nat}
    (hslot : x.t.word.toNat % 2 ^ 12 < 2048) (hnb : 0 < x.t.word.toNat / 2 ^ 12 % 2 ^ 12)
    (hnb' : x.t.word.toNat / 2 ^ 12 % 2 ^ 12 ≤ 2048) (hword : x.t.word.toNat < 2 ^ 48) (halign : x.o.word.toNat % 32 = 0)
    (hread : s.recordRead x.o.word.toNat 32 u bs taint) (hsel : u.goodSel x.p.word.toNat) (hvalid : (fmtRec bs).valid = true)
    (lo : 1 ≤ (fmtRec bs).fmt) (hi : (fmtRec bs).fmt ≤ 5) (hn : n = x.t.word.toNat / 2 ^ 12 % 2 ^ 12 * slotsPerStep (fmtRec bs).fmt)
    (hcnb : x.t.word.toNat % 2 ^ 12 + n ≤ u.me.alloc.cnb / 32)
    (hdata : u.dataPass (canopySpans (fmtRec bs) (x.t.word.toNat / 2 ^ 12 % 2 ^ 12) (x.t.word.toNat / 2 ^ 24)) v rd wr) :
    canopyOp x s = v.cpEnqueue 0x268 x [bs] taint (cselOf x.p.word.toNat)
      (64 * (x.t.word.toNat / 2 ^ 12 % 2 ^ 12) * (fmtRec bs).fillBytes) rd [canopyPiece v.cur (x.t.word.toNat % 2 ^ 12) n] := by
  have slot : bitsOf x.t.word.toNat 0 12 = x.t.word.toNat % 2 ^ 12 := bitsOf_zero ..
  have nb : bitsOf x.t.word.toNat 12 12 = x.t.word.toNat / 2 ^ 12 % 2 ^ 12 := rfl
  have kb : bitsOf x.t.word.toNat 24 24 = x.t.word.toNat / 2 ^ 24 := Nat.mod_eq_of_lt (by omega)
  rw [canopyOp]
  dsimp only
  rw [slot, nb, kb, cpForm_of_good (decide_eq_false (by omega)), readRecord_reads hread, withSel_good hsel,
    if_neg (by simp [hvalid, canopyFormat lo hi]), ← hn, if_neg (Nat.not_lt.mpr hcnb), admitData_passes hdata]

/-- A gather whose descriptor and index list are in form. -/
theorem cgathOp_queues {x : Opnds} {s u w v : State} {bs ix : List Byte} {t1 t2 : Bool} {rd wr : List Piece}
    (halign : x.t.word.toNat % 64 = 0) (hread : s.recordRead x.t.word.toNat 64 u bs t1)
    (hindex : u.recordRead (strided bs).idx (4 * (strided bs).n0) w ix t2) (hform : (strided bs).bad 0 = false)
    (hoffs : ∀ e, e < (strided bs).n0 → (gatherOffsets ix (strided bs).n0).getD e 0 = 0xFFFFFFFF ∨
      (gatherOffsets ix (strided bs).n0).getD e 0 % 2 ^ (strided bs).esz = 0) (hsel : w.goodSel (strided bs).csel)
    (hdata : w.dataPass (pairSpans (2 ^ (strided bs).esz) ((strided bs).gathered (gatherOffsets ix (strided bs).n0))) v rd wr) :
    cgathOp x s = v.cpEnqueue 0x265 x [bs, ix] (t1 || t2) (cselOf (strided bs).csel)
      ((strided bs).n0 * 2 ^ (strided bs).esz) rd wr := by
  have aligned : ((List.range (strided bs).n0).find? fun e =>
      decide ((gatherOffsets ix (strided bs).n0).getD e 0 ≠ 0xFFFFFFFF) &&
        decide ((gatherOffsets ix (strided bs).n0).getD e 0 % 2 ^ (strided bs).esz ≠ 0)) = none := by
    rw [List.find?_eq_none]
    intro e he
    have := hoffs e (List.mem_range.mp he)
    simp only [Bool.and_eq_true, decide_eq_true_iff]
    tauto
  rw [cgathOp, cpForm_of_good (by simp [halign]), readRecord_reads hread]
  dsimp only
  rw [readRecord_reads hindex, if_neg (by simp [hform])]
  simp only [aligned]
  rw [withSel_good hsel, admitData_passes hdata]

theorem cvtOp_reads {x : Opnds} {s u1 u2 u3 : State} {b1 b3 b4 : List Byte} {t1 t3 t4 : Bool}
    (halign : x.t.word.toNat % 64 = 0) (hread : s.recordRead x.t.word.toNat 64 u1 b1 t1) (hsrec : (gridDesc b1).srec % 32 = 0)
    (hdrec : (gridDesc b1).drec % 32 = 0) (hsrc : u1.recordRead (gridDesc b1).srec 32 u2 b3 t3)
    (hdst : u2.recordRead (gridDesc b1).drec 32 u3 b4 t4) (hform : (gridDesc b1).bad = false)
    (hx : (gridDesc b1).mx = (gridDesc b1).nx) (hy : (gridDesc b1).my = (gridDesc b1).ny) (hz : (gridDesc b1).mz = (gridDesc b1).nz) :
    cvtOp x s = gridBody 0x267 x [b1, [], b3, b4] (t1 || t3 || t4) none false (gridDesc b1) (gridDesc b1).drec u3 := by
  rw [cvtOp, cpForm_of_good (by simp [halign]), readRecord_reads hread]
  dsimp only
  rw [if_neg (by simp [hsrec, hdrec]), readRecord_reads hsrc, readRecord_reads hdst, if_neg (by simp [hform, hx, hy, hz])]

theorem levelOp_reads {port : Nat} {x : Opnds} {s u1 u2 u3 u4 : State} {b1 b2 b3 b4 : List Byte} {t1 t2 t3 t4 : Bool}
    (halign : x.t.word.toNat % 64 = 0) (halign' : x.o.word.toNat % 128 = 0) (hread : s.recordRead x.t.word.toNat 64 u1 b1 t1)
    (hsrec : (gridDesc b1).srec % 32 = 0) (htable : u1.recordRead x.o.word.toNat 128 u2 b2 t2) (hdrec : (stencil b2).drec % 32 = 0)
    (hsrc : u2.recordRead (gridDesc b1).srec 32 u3 b3 t3) (hdst : u3.recordRead (stencil b2).drec 32 u4 b4 t4)
    (hform : levelFault (gridDesc b1) (stencil b2) x.t.word.toNat x.o.word.toNat = none) :
    levelOp port x s = gridBody port x [b1, b2, b3, b4] (t1 || t2 || t3 || t4) none (decide ((stencil b2).lvl = 1)) (gridDesc b1)
      (stencil b2).drec u4 := by
  rw [levelOp]
  dsimp only
  rw [cpForm_of_good (by simp [halign, halign']), readRecord_reads hread, if_neg (by simp [hsrec]), readRecord_reads htable,
    if_neg (by simp [hdrec]), readRecord_reads hsrc, readRecord_reads hdst, hform]

theorem stblOp_queues {x : Opnds} {s u : State} {bs : List Byte} {taint : Bool} (halign : x.t.word.toNat % 128 = 0)
    (hread : s.recordRead x.t.word.toNat 128 u bs taint) (hdrec : (stencil bs).drec % 32 = 0) (hform : (stencil bs).bad = false) :
    stblOp x s = u.cpEnqueue 0x269 x [bs] taint none 0 [] [] := by
  rw [stblOp, cpForm_of_good (by simp [halign]), readRecord_reads hread, if_neg (by simp [hdrec, hform])]

/-- A trigger that is carried out ends as its operation does. -/
theorem exec_of_op {u : Unit11} {d : Nat} {us : Uses} {i : Src → Guard → Instr} {body : Opnds → State → MoveR}
    (run : ∀ a g s, exec (i a g) s = trigger u d us body a g s) {a : Src} {g : Guard} {s : State} {r : MoveR}
    (hfires : fires u d us a g s = true) (hop : body (s.operands u us a) s = r) : exec (i a g) s = finish s (slotOf a d g) r := by
  rw [run, trigger_fires hfires, hop]

/-- Settles O44: each command by its operation, once its operands, its descriptor, its records and its data have passed. -/
theorem copyCommandsJoinTheQueue : Obligations.CopyCommandsJoinTheQueue := by
  unfold Obligations.CopyCommandsJoinTheQueue
  intro room csel selOk with_ len sel linear strides level
  have linear_of {d : Nat} {i : Src → Guard → Instr} {spans : Opnds → List Span}
      (run : ∀ a g s, exec (i a g) s = trigger .cp d .opt (linearOp d spans) a g s) : linear d i spans := by
    refine ⟨?_, trapsIf_of_op run fun x s h => ?_⟩
    · intro a g s v rd wr hfires x hlen hsel hdata hroom
      exact queues_of_cpEnqueue hroom (exec_of_op run hfires (linearOp_queues hlen hsel hdata))
    · exact cpForm_of_bad (decide_eq_true h) _
  have strides_of {d dims : Nat} {i : Src → Guard → Instr}
      (run : ∀ a g s, exec (i a g) s = trigger .cp d .t (strOp d dims) a g s) : strides d dims i := by
    refine ⟨?_, trapsIf_of_op run fun x s h => ?_⟩
    · intro a g s u v bs taint rd wr hfires x k halign hread
      have reads := exec_of_op run hfires (strOp_reads halign hread)
      refine ⟨fun hform hsel hdata hroom => ?_, fun hform => ?_⟩
      · rw [if_neg (by simp [k, hform]), withSel_good hsel, admitData_passes hdata] at reads
        exact queues_of_cpEnqueue hroom reads
      · rw [reads, if_pos hform]
    · exact cpForm_of_bad (decide_eq_true h) _
  have level_of {d : Nat} {i : Src → Guard → Instr} (run : ∀ a g s, exec (i a g) s = trigger .cp d .ot (levelOp d) a g s) :
      level d i := by
    intro a g s u1 u2 u3 u4 v b1 b2 b3 b4 t1 t2 t3 t4 rd wr hfires x k t src dst out halign halign' hread hsrec htable hdrec
      hsrc hdst hform hsel hsrc' hdst' hrow hdata hroom
    have reads := levelOp_reads (port := d) halign halign' hread hsrec htable hdrec hsrc hdst hform
    exact queues_of_cpEnqueue hroom (exec_of_op run hfires (reads.trans
      (gridBody_queues hsel hsrc' hdst' hrow (by simpa only [decide_eq_true_eq] using hdata))))
  refine ⟨linear_of exec_cpLin, linear_of exec_cpFill, strides_of fun _ _ _ => rfl,
    strides_of fun _ _ _ => rfl, level_of fun _ _ _ => rfl, level_of fun _ _ _ => rfl, ?gath, ?canopy, ?cvt, ?stbl, ?stblForm⟩
  case gath =>
    intro a g s u w v bs ix t1 t2 rd wr hfires x k offs halign hread hindex hform hoffs hsel hdata hroom
    exact queues_of_cpEnqueue hroom (exec_of_op (body := cgathOp) (fun _ _ _ => rfl) hfires
      (cgathOp_queues halign hread hindex hform hoffs hsel hdata))
  case canopy =>
    intro a g s u v bs taint rd wr hfires x slot nb r n hslot hnb hnb' hword halign hread hsel hvalid lo hi hcnb hdata hroom
    exact queues_of_cpEnqueue hroom (exec_of_op (body := canopyOp) (fun _ _ _ => rfl) hfires
      (canopyOp_queues hslot hnb hnb' hword halign hread hsel hvalid lo hi rfl hcnb hdata))
  case cvt =>
    intro a g s u1 u2 u3 v b1 b3 b4 t1 t3 t4 rd wr hfires x k src dst halign hread hsrec hdrec hsrc hdst hform hx hy hz hsel
      hsrc' hdst' hrow hdata hroom
    have reads := cvtOp_reads halign hread hsrec hdrec hsrc hdst hform hx hy hz
    exact queues_of_cpEnqueue hroom (exec_of_op (body := cvtOp) (fun _ _ _ => rfl) hfires
      (reads.trans (gridBody_queues hsel hsrc' hdst' hrow hdata)))
  case stbl =>
    intro a g s u bs taint hfires x halign hread hdrec hform hroom
    exact queues_of_cpEnqueue hroom (exec_of_op (body := stblOp) (fun _ _ _ => rfl) hfires
      (stblOp_queues halign hread hdrec hform))
  case stblForm => exact trapsIf_of_op (fun _ _ _ => rfl) fun x s h => cpForm_of_bad (decide_eq_true h) _

end Sys2Proof.Machine
end

section
/-!
PROOFS of 16_copy: batches of copy commands (R299).
-/

namespace Sys2Proof.Machine

/-- The machine after reset with no core listed, as core 0's context 0 executes: every core stands as at reset. -/
def unlisted : State := { State.reset with cores := [], cur := ⟨0, 0⟩ }

theorem fires_unlisted : fires .cp 0x26C .none_ (.short 0) .always unlisted = true := by decide +kernel

/-- A close without an open batch gives the core back as it was, and thereby lists it. -/
theorem exec_cpClose_unlisted : exec (.cpClose (.short 0) .always) unlisted =
    .next ({ unlisted with cores := [(0, Core.resetAt 0)] } : State).retired :=
  trigger_fires (body := closeOp) fires_unlisted

/-- Refutes O45: a `cp.close` without an open batch writes its core back, and so changes the state where the core executing is
none of those listed (one that is not listed stands as at reset): the state after it lists core 0, the state before lists none. -/
theorem not_copyBatches : ¬ Obligations.CopyBatches := by
  unfold Obligations.CopyBatches
  rintro ⟨close, -⟩
  have idle := (close (.short 0) .always unlisted fires_unlisted).2.2 fun ⟨c, hc, _⟩ => absurd hc List.not_mem_nil
  rw [exec_cpClose_unlisted] at idle
  have cores := congrArg State.cores (Host.Outcome.next.inj idle)
  exact absurd cores (List.cons_ne_nil _ _)

end Sys2Proof.Machine
end

section
/-!
PROOFS of 18_clearing: memory-side operations (R329-R334).
-/

namespace Sys2Proof.Machine

/-! ### Accesses that pass their checks (R334) -/

theorem msAdmit_passes {s t : State} {watched : List Watched} {l : List Span} {ps : List SpanP} {k : State → List SpanP → MoveR}
    (h : s.passesMs watched l t ps) : msAdmit s watched l k = k t ps := by
  obtain ⟨r, hwatch, hpieces, hside, hroom, hclean⟩ := h
  rw [msAdmit, hwatch]
  simp only [hpieces, hside, hroom]
  rw [if_neg (by simp [hclean])]

/-! ### What a queued operation leaves (R78, R382) -/

/-- A queued command beside an operation counted and an irreversible point passed. -/
theorem State.joined.msIssued {v t : State} {u : Unit11} {c : Cmd} (h : v.joined t u c) : v.joined t.msIssued u c := by
  have irrev {w : State} (h : v.joined w u c) (x : CtxRef) : v.joined (w.irrev x) u c := by
    have same := State.irrev_sameHardware w x
    obtain ⟨hqueue, hmem, hctr, hregs⟩ := h
    exact ⟨by rw [State.core_congr same.cores, hqueue], by rw [State.irrev_store, hmem], by rw [same.counters, hctr],
      fun y => by rw [State.ctx_congr same.cores]; exact hregs y⟩
  rw [State.msIssued]
  refine irrev ?_ _
  obtain same | ⟨r, e, spent, -⟩ := t.event_eq t.cur 0x0A 1
  · rw [same]
    exact h
  · rw [spent]
    exact State.joined.updCtx (t := { t with regs := r }) h (f := Ctx.spend e) (fun d => .refl d) _

/-- The command of a memory-side trigger before what its kind adds. -/
def State.msCmd (s : State) (port : Nat) (x : Opnds) (recs : List (List Byte)) (rd wr : List Piece) (taint : Bool)
    (sel : Option Nat) (n : Word) (stack : Nat) : Cmd :=
  { s.newCmd port x with
    recs := recs, reads := rd, writes := wr, taint := taint, sel := sel, count := n, stack := stack }

/-- A memory-side command enters its queue and stands last in it. -/
def State.queuesMs (s : State) (c : Cmd) : Prop := ∃ t, s.enqueue .ms c = .ok t ∧ s.joined t .ms (s.resolved c)

theorem State.queuesMs_of_room {s : State} (c : Cmd) (hroom : queueFull (s.core s.cur.core).msq = false) : s.queuesMs c := by
  obtain ⟨t, hok, -, hjoin⟩ := State.enqueue_joins (s := s) (u := .ms) (c := c) (.inr (.inr rfl)) hroom
  exact ⟨t, hok, hjoin⟩

/-- A trigger whose operation has queued its command and counted it. -/
theorem queues_of_msCmd {i : Instr} {s v t : State} {m : BitVec 24} {port : Nat} {x : Opnds} {recs : List (List Byte)}
    {rd wr : List Piece} {taint : Bool} {sel : Option Nat} {n : Word} {stack : Nat} {D : Cmd → Prop}
    (run : exec i s = finish s m (.ok t.msIssued)) (hjoin : v.joined t .ms (v.resolved (v.msCmd port x recs rd wr taint sel n stack)))
    (hD : D (v.resolved (v.msCmd port x recs rd wr taint sel n stack))) : queues i s v .ms port x recs rd wr D :=
  ⟨t.msIssued.retired, _, run, rfl, hjoin.msIssued, ⟨rfl, rfl, rfl, rfl, rfl, rfl, rfl, rfl, rfl⟩, rfl, nofun, hD⟩

/-! ### Updates (R330, R331) -/

/-- What an update queues: its operands, and the pieces it changes. -/
def State.updCmd (s : State) (port : Nat) (x : Opnds) (pcs : List Piece) : Cmd :=
  s.msCmd port x [] [] pcs (x.taint || s.me.ctaint || (s.viewer s.cur).open_) none 0#64 (stackOf pcs)

/-- An update whose access passes joins the queue, and is logged too in an ordered launch (R329). -/
theorem msUpdOp_ok {port : Nat} {x : Opnds} {s v t : State} {ps : List SpanP} (halign : x.o.word.toNat % (msUpdOf port).width = 0)
    (hpass : s.passesMs [⟨x.o.word.toNat, (msUpdOf port).width, true, true⟩] [⟨x.o.word.toNat, (msUpdOf port).width, true⟩] v ps)
    (hok : v.enqueue .ms (v.updCmd port x (ps.flatMap SpanP.ps)) = .ok t) :
    msUpdOp port x s = .ok (if (v.viewer v.cur).ordered = true then
      (t.msLog t.cur (v.viewer v.cur) (msUpdOf port) (((ps.flatMap SpanP.ps).head?.map Piece.key).getD 0) x.t.word x.p.word
        (x.taint || v.me.ctaint || (v.viewer v.cur).open_)).msIssued else t.msIssued) := by
  rw [msUpdOp]
  dsimp only
  rw [if_neg (not_not.mpr halign), msAdmit_passes hpass]
  rw [State.updCmd, State.msCmd] at hok
  simp only [State.newCmd] at hok ⊢
  rw [hok]

/-- The new values of the updates of words (R331). -/
theorem apply_words (v t : Word) : MsUpd.apply .addS64 v.toNat t.toNat 0 = (v + t).toNat ∧
    MsUpd.apply .orB64 v.toNat t.toNat 0 = (v ||| t).toNat ∧
    MsUpd.apply .maxS64 v.toNat t.toNat 0 = (if v.toInt ≤ t.toInt then t else v).toNat ∧
    MsUpd.apply .minS64 v.toNat t.toNat 0 = (if t.toInt ≤ v.toInt then t else v).toNat := by
  have same (a b : Word) (h : a.toInt ≤ b.toInt) (h' : ¬a.toInt < b.toInt) : a = b := BitVec.eq_of_toInt_eq (by omega)
  refine ⟨(BitVec.toNat_add ..).symm, (BitVec.toNat_or ..).symm, ?_, ?_⟩
  all_goals
    simp only [MsUpd.apply, BitVec.ofNat_toNat, BitVec.setWidth_eq]
    split_ifs with lt le le
  · rfl
  · omega
  · rw [same v t le lt]
  · rfl
  · rfl
  · omega
  · rw [same t v le lt]
  · rfl

theorem apply_addF32 (v t : BitVec 32) : MsUpd.apply .addF32 v.toNat t.toNat 0 =
    (Num.addV Num.fp32 .rne (Num.f32 v) (Num.f32 t)).1 := by
  simp only [MsUpd.apply, Nat.mod_eq_of_lt v.isLt, Nat.mod_eq_of_lt t.isLt, Num.f32]

/-! ### Swaps (R331) -/

theorem msUpdOf_swap : msUpdOf 0x2A7 = .swap := rfl

theorem msUpdOf_cas : msUpdOf 0x2A8 = .cas := rfl

/-- `ms.swap` and `ms.cas` in an open launch, once their access has passed and would change no pinned entry. -/
theorem msSwapOp_passes {port : Nat} {x : Opnds} {s v : State} {ps : List SpanP} (halign : x.o.word.toNat % 8 = 0)
    (hpass : s.passesMs [⟨x.o.word.toNat, 8, true, true⟩] [⟨x.o.word.toNat, 8, true⟩] v ps) :
    let pcs := ps.flatMap SpanP.ps
    let dr := v.msDrain v.cur (stackOf pcs)
    msSwapOp port x s = (match dr.msPinned dr.cur (v.viewer v.cur) (msUpdOf port) pcs x.t.word x.p.word with
      | some (e, va) => if isSup dr.cur.core then .trap 0xC6 5 e else .trap 0xC0 5 va
      | none =>
        let taint := x.taint || v.me.ctaint || (v.viewer v.cur).open_
        let old := dr.readPieces dr.cur (v.viewer v.cur) pcs
        let new : State :=
          if (v.viewer v.cur).ordered then
            ({ dr with store := pcs.foldl (fun st p => st.lease dr.devid (v.viewer v.cur) p) dr.store } : State).msLog dr.cur
              (v.viewer v.cur) (msUpdOf port) ((pcs.head?.map Piece.key).getD 0) x.t.word x.p.word taint
          else (dr.msUpdate dr.cur (v.viewer v.cur) (msUpdOf port) pcs x.t.word x.p.word taint).1
        .ok (new.msIssued.landVar (.port .msq) 32 (.scalar (BitVec.ofNat 64 (leNat old.1)) x.tag (taint || old.2)) 0#6 6
          x.o.word.toNat)) := by
  intro pcs dr
  rw [msSwapOp]
  dsimp only
  rw [if_neg (not_not.mpr halign), msAdmit_passes hpass]
  split <;> rename_i hpin
  · simp only [dr, pcs, hpin]
    rfl
  · simp only [dr, pcs, hpin]
    split_ifs <;> rfl

/-! ### Reductions (R332) -/

theorem redRead_reads {va : Nat} {s r : State} {bp : SpanP} {k : State → SpanP → List Byte → Bool → MoveR}
    (hwatch : s.watchSpans s.cur [⟨va, 64, false⟩] = (r, none)) (hpieces : r.resolveSpans r.cur [⟨va, 64, false⟩] = .ok [bp])
    (hhere : r.missingRemote r.cur [bp] = none) :
    redRead va s k = k ((r.readBefore bp).1.recordLate va) bp (r.readBefore bp).2.1 (r.readBefore bp).2.2 := by
  rw [redRead, hwatch]
  simp only [hpieces, hhere]

/-- What a reduction queues: its block, and the pieces it reads and writes. -/
def State.redCmd (s : State) (x : Opnds) (bytes : List Byte) (taint : Bool) (ps : List SpanP) : Cmd :=
  let wr := (ps.filter fun p => p.span.write).flatMap SpanP.ps
  s.msCmd 0x2A9 x [bytes] ((ps.filter fun p => !p.span.write).flatMap SpanP.ps) wr
    (x.taint || s.me.ctaint || taint || (s.viewer s.cur).open_) (cselOf (redBlock bytes).csel) (redBlock bytes).inc (stackOf wr)

/-- A reduction whose checks have all passed joins the queue; in an open launch nothing else is done yet. -/
theorem redIssue_ok {x : Opnds} {v t : State} {bytes : List Byte} {taint : Bool} {ps : List SpanP}
    (hok : v.enqueue .ms (v.redCmd x bytes taint ps) = .ok t) :
    ∃ u, v.redIssue x (redBlock bytes) bytes taint (cselOf (redBlock bytes).csel) ps = .ok u ∧
      ((v.viewer v.cur).ordered = false → u = t.msIssued) := by
  rw [State.redCmd, State.msCmd] at hok
  rw [State.redIssue]
  simp only [State.newCmd] at hok ⊢
  simp only [hok]
  split_ifs with ho
  · exact ⟨_, rfl, fun h => absurd ho (by simp [h])⟩
  · exact ⟨_, rfl, fun _ => rfl⟩

/-- A reduction whose block is in form and on one stack, and whose accesses pass, is issued. -/
theorem msRedOp_passes {x : Opnds} {s r u v : State} {bp : SpanP} {ps qs : List SpanP} (halign : x.t.word.toNat % 64 = 0)
    (hwatch : s.watchSpans s.cur [⟨x.t.word.toNat, 64, false⟩] = (r, none))
    (hpieces : r.resolveSpans r.cur [⟨x.t.word.toNat, 64, false⟩] = .ok [bp]) (hhere : r.missingRemote r.cur [bp] = none) :
    let w := (r.readBefore bp).1.recordLate x.t.word.toNat
    let bs := (r.readBefore bp).2.1
    (redBlock bs).bad = false → w.redStacks w.cur (redBlock bs) = false → w.goodSel (redBlock bs).csel →
    w.passesMs ((redBlock bs).spans.map Span.watched) (redBlock bs).spans u ps → u.admitSpans u.cur [bp] = .ok v qs →
    msRedOp x s = v.redIssue x (redBlock bs) bs (r.readBefore bp).2.2 (cselOf (redBlock bs).csel) ps := by
  intro w bs hform hstack hsel hpass hblock
  have sel : ((cselOf (redBlock bs).csel).bind fun c => w.selFault w.cur (BitVec.ofNat 64 c)) = none := by
    by_cases h : (redBlock bs).csel = 0xFFFFFFFF
    · rw [cselOf, if_pos h, Option.bind_none]
    · rw [cselOf, if_neg h, Option.bind_some, hsel.resolve_left h]
  rw [msRedOp]
  dsimp only
  rw [if_neg (not_not.mpr halign), redRead_reads hwatch hpieces hhere]
  rw [if_neg (by simp [w, bs] at hform hstack ⊢; simp [hform, hstack])]
  simp only [w, bs] at sel hpass
  rw [sel]
  simp only [msAdmit_passes hpass, hblock, bs]

/-! ### Fences and marks (R333) -/

/-- A store of a context at another device, or a message about one, that no command has made. -/
theorem OutFlit.ofAccess_iff (o : OutFlit) (x : CtxRef) : o.ofAccess x = true ↔
    o.core = x.core ∧ o.ctx = x.ctx ∧ o.cmd = none ∧ (o.flit.fk = 1 ∨ o.flit.fk = 7) := by
  have notLoad (h : o.flit.fk = 1 ∨ o.flit.fk = 7) : o.flit.fk ≠ 2 ∧ o.flit.fk ≠ 9 := by
    obtain h | h := h <;> rw [h] <;> decide
  simp only [OutFlit.ofAccess, OutFlit.ofCtx, Bool.and_eq_true, Bool.or_eq_true, decide_eq_true_iff, bne_iff_ne, beq_iff_eq]
  tauto

/-- What a mark queues: the counter it adds to, and how much. -/
def State.markCmd (s : State) (x : Opnds) (pcs : List Piece) : Cmd :=
  s.msCmd 0x2AB x [] [] [] (x.taint || s.me.ctaint) (some x.o.word.toNat) x.p.word (stackOf pcs)

theorem msMarkOp_ok {x : Opnds} {s r t : State} {ps : List SpanP}
    (hwatch : s.watchSpans s.cur [⟨x.t.word.toNat, 1, false⟩] = (r, none))
    (hpieces : r.resolveSpans r.cur [⟨x.t.word.toNat, 1, false⟩] = .ok ps) (hsel : r.selFault r.cur x.o.word = none)
    (hside : firstPlain ps = none) (hok : r.enqueue .ms (r.markCmd x (ps.flatMap SpanP.ps)) = .ok t) :
    msMarkOp x s = .ok t.msIssued := by
  rw [State.markCmd, State.msCmd] at hok
  rw [msMarkOp, hwatch]
  simp only [hpieces, hsel, hside, State.newCmd] at hok ⊢
  simp only [hok]

/-- Settles O46: each operation once its accesses have passed, and the values of R331 by the update that each port carries out. -/
theorem memorySideOperations : Obligations.MemorySideOperations := by
  unfold Obligations.MemorySideOperations
  intro room any upd swap
  have upd_of {d : Nat} {i : Src → Guard → Instr} (run : ∀ a g s, exec (i a g) s = trigger .ms d .ot (msUpdOp d) a g s) :
      upd d (msUpdOf d).width i := by
    refine ⟨?_, trapsIf_of_op run fun x s h => if_pos h⟩
    intro a g s v ps hfires x halign hpass hroom
    let pcs := ps.flatMap SpanP.ps
    obtain ⟨t, hok, hjoin⟩ := State.queuesMs_of_room (v.updCmd d x pcs) hroom
    have done := exec_of_op run hfires (msUpdOp_ok halign hpass hok)
    refine ⟨fun hopen => ?_, _, done, rfl⟩
    rw [if_neg (by simp [hopen])] at done
    exact queues_of_msCmd done hjoin trivial
  have swap_of {d : Nat} {us : Uses} {i : Src → Guard → Instr} {new : Nat → Opnds → Nat}
      (run : ∀ a g s, exec (i a g) s = trigger .ms d us (msSwapOp d) a g s) (hwidth : (msUpdOf d).width = 8)
      (hnew : ∀ (v : Nat) (x : Opnds), (msUpdOf d).apply v x.t.word.toNat x.p.word.toNat = new v x) : swap d us i new := by
    refine ⟨?_, trapsIf_of_op run fun x s h => if_pos h⟩
    intro a g s v ps hfires x pcs halign hpass dr pin
    have passed := exec_of_op run hfires (msSwapOp_passes halign hpass)
    refine ⟨fun hpin => ?_, fun e va hpin => ?_, fun hopen hpin hdr => ?_⟩
    · simp only [pin, dr, pcs, x] at hpin
      rw [hpin] at passed
      exact ⟨_, passed, rfl⟩
    · simp only [pin, dr, pcs, x] at hpin
      rw [hpin] at passed
      exact passed
    · have hdr' : v.msDrain v.cur (stackOf (ps.flatMap SpanP.ps)) = v := hdr
      simp only [pin, dr, pcs, x] at hpin
      rw [hpin] at passed
      simp only [hdr', hopen, Bool.false_eq_true, if_false, State.msUpdate, hwidth, hnew, finish_ok, State.msIssued] at passed
      exact passed
  have swaps := swap_of (d := 0x2A7) (us := .ot) (i := .msSwapB64) (new := fun _ x => x.t.word.toNat) (fun _ _ _ => rfl)
    (congrArg MsUpd.width msUpdOf_swap) fun v x => by rw [msUpdOf_swap, MsUpd.apply]
  have compares := swap_of (d := 0x2A8) (us := .opt) (i := .msCasB64)
    (new := fun v x => if v = x.p.word.toNat then x.t.word.toNat else v) (fun _ _ _ => rfl)
    (congrArg MsUpd.width msUpdOf_cas) fun v x => by rw [msUpdOf_cas, MsUpd.apply]
  refine ⟨upd_of (d := 0x2A2) fun _ _ _ => rfl, upd_of (d := 0x2A3) fun _ _ _ => rfl, upd_of (d := 0x2A4) fun _ _ _ => rfl,
    upd_of (d := 0x2A5) fun _ _ _ => rfl, upd_of (d := 0x2A6) fun _ _ _ => rfl, swaps, compares,
    apply_words, apply_addF32, ?red, ?redForm, ?fence, ?waits, ?mark, ?flits⟩
  case redForm => exact trapsIf_of_op (body := msRedOp) (fun _ _ _ => rfl) fun x s h => if_pos h
  case red =>
    intro a g s r u v bp ps qs hfires x w bs b halign hwatch hpieces hhere hform hstack hsel hpass hblock hroom
    obtain ⟨t, hok, hjoin⟩ := State.queuesMs_of_room (v.redCmd x bs (r.readBefore bp).2.2 ps) hroom
    obtain ⟨u', hissue, hopen⟩ := redIssue_ok hok
    have done := exec_of_op (i := .msRed) (body := msRedOp) (fun _ _ _ => rfl) hfires
      ((msRedOp_passes halign hwatch hpieces hhere hform hstack hsel hpass hblock).trans hissue)
    refine ⟨fun ho => ?_, _, done, rfl⟩
    rw [hopen ho] at done
    exact queues_of_msCmd done hjoin rfl
  case fence =>
    exact completesIf_of_op (body := msFenceOp) (fun _ _ _ => rfl) fun x s h => if_pos ((s.msSettled_iff s.cur).mpr h)
  case waits =>
    intro a g s hfires hleft
    have unsettled : ¬s.msSettled s.cur = true := by
      rw [State.msSettled_iff]
      rintro ⟨hq, hf⟩
      obtain ⟨c, hc, hctx⟩ | ⟨o, ho, hof⟩ := hleft
      · exact hq c hc hctx
      · exact absurd hof (by simp [hf o ho])
    exact exec_of_op (i := .msFence) (body := msFenceOp) (fun _ _ _ => rfl) hfires (if_neg unsettled)
  case mark =>
    intro a g s r ps hfires x hwatch hpieces hsel hside hroom
    obtain ⟨t, hok, hjoin⟩ := State.queuesMs_of_room (r.markCmd x (ps.flatMap SpanP.ps)) hroom
    have done := exec_of_op (i := .msMark) (body := msMarkOp) (fun _ _ _ => rfl) hfires
      (msMarkOp_ok hwatch hpieces hsel hside hok)
    refine queues_of_msCmd done hjoin ⟨?_, rfl⟩
    simp [State.resolved, State.msCmd]
  case flits => exact OutFlit.ofAccess_iff

end Sys2Proof.Machine
end

section
/-!
PROOFS of 21_spaces: the supervisor unit (R355, R358-R363).
-/

namespace Sys2Proof.Machine

/-! ### Launches (R358) -/

/-- A record that passes its access is read, and a new launch made of it but in standby (R406). -/
theorem launchOp_reads {x : Opnds} {s u : State} {p : SpanP} (lo : 0 < x.o.word.toNat) (hi : x.o.word.toNat < 2 ^ 16)
    (halign : x.t.word.toNat % 64 = 0) (hsel : (s.sel s.cur x.p.word).shared = true)
    (hvet : s.vetFor s.cur .record [[⟨x.t.word.toNat, 512, false⟩]] = .ok u [p]) :
    launchOp x s = .ok (if u.stby = true then (u.readSpan u.cur p).1
      else (u.readSpan u.cur p).1.submit (BitVec.ofNat 16 x.o.word.toNat) x.p.word.toNat u.cur.core (u.readSpan u.cur p).2.1) := by
  rw [launchOp]
  dsimp only
  rw [if_neg (by omega), if_neg (by simp [State.sharedSel, hsel]), hvet]

theorem launchOp_form {x : Opnds} {s : State} (h : x.o.word.toNat = 0 ∨ 2 ^ 16 ≤ x.o.word.toNat ∨ x.t.word.toNat % 64 ≠ 0) :
    launchOp x s = .trap 0xC3 5 0 := if_pos h

theorem launchOp_selector {x : Opnds} {s : State} (lo : 0 < x.o.word.toNat) (hi : x.o.word.toNat < 2 ^ 16)
    (halign : x.t.word.toNat % 64 = 0) (hsel : (s.sel s.cur x.p.word).shared = false) : launchOp x s = .trap 0x25 5 0 := by
  rw [launchOp]
  dsimp only
  rw [if_neg (by omega), if_pos (by simp [State.sharedSel, hsel])]
  rfl

theorem State.abort_none {s : State} {n : Nat} (h : ∀ l ∈ s.launches, l.record.status = n → l.phase = .ended) : s.abort n = s := by
  have none_ : (s.launches.find? fun l => decide (l.record.status = n) && decide (l.phase ≠ .ended)) = none := by
    rw [List.find?_eq_none]
    intro l hl
    simpa using h l hl
  rw [State.abort, none_]

/-! ### Registers (R355, R359) -/

section
variable {w : Word} {write : Bool} {s : State} {k : RegAddr → MoveR}

theorem withReg_form (h : regAddr w = none) : withReg w write s k = .trap 0xC3 5 0 := by
  rw [withReg, h]
  rfl

theorem withReg_open {r : RegAddr} (hr : regAddr w = some r)
    (h : s.judged.mayAccess r.die (48 + r.blk) (s.master s.cur.core) write = true) : withReg w write s k = k r := by
  rw [withReg, hr]
  exact if_pos h

theorem withReg_denied {r : RegAddr} (hr : regAddr w = some r)
    (h : ¬s.judged.mayAccess r.die (48 + r.blk) (s.master s.cur.core) write = true) : withReg w write s k = .trap 0xC5 5 w.toNat := by
  rw [withReg, hr]
  exact if_neg h

end

theorem swrOp_form {x : Opnds} {s : State} (h : regAddr x.t.word = none) : swrOp x s = .trap 0xC3 5 0 := by
  rw [swrOp, h]
  rfl

theorem swrOp_value {x : Opnds} {s : State} {r : RegAddr} (hr : regAddr x.t.word = some r) (h : s.writeForm r x.o.word = true) :
    swrOp x s = .trap 0xC3 5 0 := by
  rw [swrOp, hr]
  exact if_pos h

theorem swrOp_writes {x : Opnds} {s : State} {r : RegAddr} (hr : regAddr x.t.word = some r) (h : s.writeForm r x.o.word = false) :
    swrOp x s = withReg x.t.word true s fun r => .ok (s.regWrite s.cur r x.o.word) := by
  rw [swrOp, hr]
  exact if_neg (by simp [h])

/-! ### Walks (R345, R359) -/

section
variable {s : State} {x : CtxRef} {sid va : Nat}

theorem State.selfWalk_high (h : 2 ^ 55 ≤ va) : s.selfWalk x sid va = .fault 0xC4 4 := if_pos h

theorem State.selfWalk_denied (h : va < 2 ^ 55) (hdenied : s.walkDenied (s.master x.core) (s.walk (dieOf x.core) sid va) = true) :
    s.selfWalk x sid va =
      .denied (4 - (s.walk (dieOf x.core) sid va).read.findIdx fun a => !s.mayHbm a (s.master x.core) false false) := by
  rw [State.selfWalk, if_neg (Nat.not_le.mpr h)]
  exact if_pos hdenied

/-- A walk that the access tables allow and that meets no poisoned line ends as its last entry says, on this device. -/
theorem State.selfWalk_ends (h : va < 2 ^ 55) (hopen : s.walkDenied (s.master x.core) (s.walk (dieOf x.core) sid va) = false)
    (hclean : s.walkPoison (s.walk (dieOf x.core) sid va) = false) :
    let w := s.walk (dieOf x.core) sid va
    (w.ending = .leaf → s.selfWalk x sid va = .leaf w.entry w.lvl w.read) ∧
      (w.ending = .node → s.selfWalk x sid va = .fault 0xC4 w.lvl) ∧
      (w.ending = .migrating → s.selfWalk x sid va = .migrating w.lvl) := by
  intro w
  rw [State.selfWalk, if_neg (Nat.not_le.mpr h)]
  dsimp only
  rw [if_neg (by simp [hopen]), if_neg (by simp [hclean])]
  refine ⟨fun hend => ?_, fun hend => ?_, fun hend => ?_⟩
  all_goals
    simp only [w] at hend
    simp only [hend, w]

end

/-- The word that `sv.walk` lands of a walk that neither waits nor resets (R359). -/
def SelfWalk.shows (devid va : Nat) (r : Word) : SelfWalk → Prop
  | .leaf e lvl _ => r = walkOk devid (pteFrame e + va % pageSize lvl) (pteDev e)
  | .fault c lvl => r = walkFail c lvl
  | .migrating lvl => r = walkFail 0xC4 lvl
  | .denied lvl => r = walkFail 0xC5 lvl
  | .wait _ => False
  | .reset => False

/-- A scalar result of the supervisor unit with its operands' tag and taint. -/
def Opnds.putSv (x : Opnds) (lat : Nat) (w : Word) (s : State) : State :=
  s.landVar (.port .svq) lat (.scalar w x.tag x.taint) 0#6 7 0

theorem walkOp_physical {x : Opnds} {s : State} (h : x.o.word.toNat = 0) : walkOp x s =
    .ok (x.putSv 32 (if s.physOk x.t.word.toNat then walkOk s.devid x.t.word.toNat s.devid else walkFail 0xC4 4) s) := by
  rw [walkOp]
  dsimp only
  rw [if_neg (by omega), if_pos h]
  rfl

theorem walkOp_shows {x : Opnds} {s : State} {r : Word} (lo : 0 < x.o.word.toNat) (hi : x.o.word.toNat < 2 ^ 16)
    (h : (s.selfWalk s.cur x.o.word.toNat x.t.word.toNat).shows s.devid x.t.word.toNat r) : walkOp x s = .ok (x.putSv 32 r s) := by
  rw [walkOp]
  dsimp only
  rw [if_neg (by omega), if_neg (by omega)]
  cases hw : s.selfWalk s.cur x.o.word.toNat x.t.word.toNat <;> rw [hw] at h
  case leaf | fault | migrating | denied => rw [show r = _ from h]; rfl
  case wait | reset => exact h.elim

theorem walkFail_root : walkFail 0xC4 4 = 0x80000000000004C4 := by
  simp [walkFail]

/-- The words that `sv.walk` lands (R345, R348, R359, R397; logs 97 and 164). -/
theorem walkOp_lands {x : Opnds} {s : State} {r : Word} (h :
    let w := s.walk (dieOf s.cur.core) x.o.word.toNat x.t.word.toNat
    x.o.word.toNat = 0 ∧ r = (if s.physOk x.t.word.toNat = true then
      BitVec.ofNat 64 (x.t.word.toNat % 2 ^ 39 + s.devid * 2 ^ 56) else 0x80000000000004C4) ∨
    0 < x.o.word.toNat ∧ x.o.word.toNat < 2 ^ 16 ∧
    (2 ^ 55 ≤ x.t.word.toNat ∧ r = 0x80000000000004C4 ∨
      x.t.word.toNat < 2 ^ 55 ∧ s.walkDenied (s.master s.cur.core) w = true ∧ r = BitVec.ofNat 64 (0xC5 + 2 ^ 63 +
        (4 - w.read.findIdx fun e => !s.mayHbm e (s.master s.cur.core) false false) * 2 ^ 8) ∨
      x.t.word.toNat < 2 ^ 55 ∧ s.walkDenied (s.master s.cur.core) w = false ∧ s.walkPoison w = false ∧
      (w.ending = .leaf ∧ r = BitVec.ofNat 64 ((pteFrame w.entry + x.t.word.toNat % pageSize w.lvl) % 2 ^ 39 +
          pteDev w.entry * 2 ^ 56 + if pteDev w.entry = s.devid then 0 else 2 ^ 62) ∨
        (w.ending = .node ∨ w.ending = .migrating) ∧ r = BitVec.ofNat 64 (0xC4 + w.lvl * 2 ^ 8 + 2 ^ 63)))) :
    walkOp x s = .ok (x.putSv 32 r s) := by
  obtain ⟨hsid, rfl⟩ | ⟨lo, hi, h⟩ := h
  · rw [walkOp_physical hsid, walkOk, if_pos rfl, walkFail_root, Nat.add_zero]
  · refine walkOp_shows lo hi ?_
    obtain ⟨hhigh, rfl⟩ | ⟨hlow, hdenied, rfl⟩ | ⟨hlow, hopen, hclean, h⟩ := h
    · rw [State.selfWalk_high hhigh, SelfWalk.shows, walkFail_root]
    · rw [State.selfWalk_denied hlow hdenied, SelfWalk.shows, walkFail, Nat.add_right_comm]
    · obtain ⟨leaf, node, migrating⟩ := State.selfWalk_ends (x := s.cur) hlow hopen hclean
      obtain ⟨hend, rfl⟩ | ⟨hend | hend, rfl⟩ := h
      · rw [leaf hend, SelfWalk.shows, walkOk]
      · rw [node hend, SelfWalk.shows, walkFail]
      · rw [migrating hend, SelfWalk.shows, walkFail]

/-! ### Table multicasts (R353, R360) -/

/-- Whether a multicast is the one that a context's `sv.ptmc` asks for again. -/
def State.sameMulticast (s : State) (x : Opnds) (p : Ptmc) : Bool :=
  p.x == s.cur && p.open_ && decide (p.addr = x.o.word.toNat) && p.value == x.t.word && decide (p.sel = x.p.word.toNat)

section
variable {x : Opnds} {s : State}

theorem ptmcOp_form (h : x.o.word.toNat % 8 ≠ 0 ∨ s.physOk x.o.word.toNat = false) : ptmcOp x s = .trap 0xC3 5 0 :=
  if_pos (by simpa using h)

variable (halign : x.o.word.toNat % 8 = 0) (hphys : s.physOk x.o.word.toNat = true) (hsel : s.sel s.cur x.p.word ≠ .bad)
include halign hphys hsel

theorem ptmcOp_new (hnew : s.ptmcs.find? (s.sameMulticast x) = none) : ptmcOp x s =
    if (s.die (dieOf s.cur.core)).podmask.getLsbD s.devid && !s.judged.mayHbm x.o.word.toNat (s.master s.cur.core) true false
    then .trap 0xC5 5 x.o.word.toNat else .block (.ptmc x.o.word.toNat x.t.word x.p.word.toNat) := by
  rw [ptmcOp]
  dsimp only
  rw [if_neg (by simp [halign, hphys]), if_neg (by simpa using hsel)]
  unfold State.sameMulticast at hnew
  rw [hnew]
  rfl

theorem ptmcOp_decided {p : Ptmc} (hp : s.ptmcs.find? (s.sameMulticast x) = some p) (hdecided : p.decided = true) : ptmcOp x s =
    if p.pinned then .trap 0xC6 5 x.o.word.toNat
    else .ok { s with ptmcs := s.ptmcs.map fun q => if q.id = p.id then { q with open_ := false } else q } := by
  rw [ptmcOp]
  dsimp only
  rw [if_neg (by simp [halign, hphys]), if_neg (by simpa using hsel)]
  unfold State.sameMulticast at hp
  rw [hp]
  exact if_neg (by simp [hdecided])

end

/-! ### Pins (R360) -/

theorem pinOp_form {x : Opnds} {s : State} (h : x.o.word.toNat = 0 ∨ x.t.word.toNat = 0 ∨ x.o.word.toNat % 65536 ≠ 0 ∨
    x.t.word.toNat % 65536 ≠ 0 ∨ 2 ^ 55 < x.o.word.toNat + x.t.word.toNat ∨ s.sidOf s.cur = 0) : pinOp x s = .trap 0xC3 5 0 :=
  if_pos (by tauto)

/-- Pages whose walks give leaves are pinned in the lowest free slot; where there is none all ones are landed. -/
theorem pinOp_walked {x : Opnds} {s : State} {es : List Nat} (hlen : 0 < x.t.word.toNat) (hbase : 0 < x.o.word.toNat)
    (halign : x.o.word.toNat % 65536 = 0) (hpages : x.t.word.toNat % 65536 = 0) (hend : x.o.word.toNat + x.t.word.toNat ≤ 2 ^ 55)
    (hsid : s.sidOf s.cur ≠ 0) (hwalk : s.pinWalk s.cur (s.sidOf s.cur)
      ((List.range (x.t.word.toNat / 65536)).map fun i => x.o.word.toNat + 65536 * i) = .ok es) :
    (∀ k, s.freePin = some k →
      pinOp x s = .ok (x.putSv 32 (BitVec.ofNat 64 k) { s with pins := s.pins ++ [(k, es.eraseDups)] })) ∧
    (s.freePin = none → pinOp x s = .ok (x.putSv 32 (BitVec.allOnes 64) s)) := by
  have good : ¬(x.t.word.toNat = 0 ∨ x.o.word.toNat = 0 ∨ x.o.word.toNat % 65536 ≠ 0 ∨ x.t.word.toNat % 65536 ≠ 0 ∨
      2 ^ 55 < x.o.word.toNat + x.t.word.toNat ∨ s.sidOf s.cur = 0) := by omega
  rw [pinOp]
  dsimp only
  rw [if_neg good, hwalk]
  refine ⟨fun k hk => ?_, fun hk => ?_⟩
  all_goals
    simp only [hk]
    rfl

/-- Settles O47: each operation by what its operands' form, the access tables and the walks let it do. -/
theorem supervisorOperations : Obligations.SupervisorOperations := by
  unfold Obligations.SupervisorOperations
  intro sc may
  refine ⟨?launch, ?launchForm, ?launchSel, ?abort, fun s n h => State.abort_none h, ?srd, ?srdForm, ?srdDenied, ?swr, ?swrForm,
    ?swrValue, ?swrDenied, fun s r v h => if_pos h, ?space, ?spaceForm, ?walk, ?walkForm, ?ptmc, ?tinv, ?pin, ?pinForm, ?unpin,
    ?unpinNone, ?tfq, ?tres, ?tresForm, ?tent, ?tentForm, ?eret, ?eretForm, ?hirq, ?hirqForm, ?hirqDenied, ?idle⟩
  case launch =>
    intro a g s u p hfires x l lo hi halign hsel hvet
    have done := exec_of_op (i := .svLaunch) (body := launchOp) (fun _ _ _ => rfl) hfires (launchOp_reads lo hi halign hsel hvet)
    refine ⟨fun hstby => ?_, fun hstby => ?_⟩
    · rw [if_pos hstby] at done
      exact done
    · rw [if_neg (by simp [hstby])] at done
      exact ⟨_, done, rfl, _, rfl, rfl, rfl, rfl, rfl, rfl, rfl, rfl, rfl⟩
  case launchForm => exact trapsIf_of_op (body := launchOp) (fun _ _ _ => rfl) fun x s h => launchOp_form h
  case launchSel =>
    exact trapsIf_of_op (body := launchOp) (fun _ _ _ => rfl) fun x s ⟨lo, hi, halign, hsel⟩ => launchOp_selector lo hi halign hsel
  case abort => exact completesIf_of_op (body := abortOp) (fun _ _ _ => rfl) fun x s _ => rfl
  case srd => exact fun r => completesIf_of_op (body := srdOp) (fun _ _ _ => rfl) fun x s ⟨hr, h⟩ => withReg_open hr h
  case srdForm => exact trapsIf_of_op (body := srdOp) (fun _ _ _ => rfl) fun x s h => withReg_form h
  case srdDenied => exact fun r => trapsIf_of_op (body := srdOp) (fun _ _ _ => rfl) fun x s ⟨hr, h⟩ => withReg_denied hr h
  case swr =>
    exact fun r => completesIf_of_op (body := swrOp) (fun _ _ _ => rfl) fun x s ⟨hr, hv, h⟩ =>
      (swrOp_writes hr hv).trans (withReg_open hr h)
  case swrForm => exact trapsIf_of_op (body := swrOp) (fun _ _ _ => rfl) fun x s h => swrOp_form h
  case swrValue => exact fun r => trapsIf_of_op (body := swrOp) (fun _ _ _ => rfl) fun x s ⟨hr, h⟩ => swrOp_value hr h
  case swrDenied =>
    exact fun r => trapsIf_of_op (body := swrOp) (fun _ _ _ => rfl) fun x s ⟨hr, hv, h⟩ =>
      (swrOp_writes hr hv).trans (withReg_denied hr h)
  case space => exact completesIf_of_op (body := spaceOp) (fun _ _ _ => rfl) fun x s h => if_neg (Nat.not_le.mpr h)
  case spaceForm => exact trapsIf_of_op (body := spaceOp) (fun _ _ _ => rfl) fun x s h => if_pos h
  case walk =>
    exact fun r => completesIf_of_op (body := walkOp) (fun _ _ _ => rfl) fun x s h => walkOp_lands h
  case walkForm => exact trapsIf_of_op (body := walkOp) (fun _ _ _ => rfl) fun x s h => if_pos h
  case ptmc =>
    intro a g s hfires x mine
    have run {r : MoveR} (h : ptmcOp x s = r) : exec (.svPtmc a g) s = finish s (slotOf a 0x2C8 g) r :=
      exec_of_op (i := .svPtmc) (body := ptmcOp) (fun _ _ _ => rfl) hfires h
    refine ⟨fun h => run (ptmcOp_form h), fun halign hphys hsel => ⟨?_, ?_⟩⟩
    · intro hnew denied
      have new := run (ptmcOp_new halign hphys hsel hnew)
      exact ⟨fun h => by rw [new, if_pos h], fun h => by rw [new, if_neg (Bool.eq_false_iff.mp h)]⟩
    · intro p hp hdecided
      have decided := run (ptmcOp_decided halign hphys hsel hp hdecided)
      refine ⟨fun h => by rw [decided, if_pos h], fun h => ?_⟩
      rw [if_neg (by simp [h])] at decided
      exact ⟨_, decided, rfl, rfl, rfl, rfl⟩
  case tinv => exact completesIf_of_op (body := tinvOp) (fun _ _ _ => rfl) fun x s h => if_neg (Nat.not_le.mpr h)
  case pin =>
    intro a g s es hfires x base len hlen hbase halign hpages hend hsid hwalk
    obtain ⟨free, full⟩ := pinOp_walked hlen hbase halign hpages hend hsid hwalk
    exact ⟨fun k hk => exec_of_op (i := .svPin) (body := pinOp) (fun _ _ _ => rfl) hfires (free k hk),
      fun hk => exec_of_op (i := .svPin) (body := pinOp) (fun _ _ _ => rfl) hfires (full hk)⟩
  case pinForm => exact trapsIf_of_op (body := pinOp) (fun _ _ _ => rfl) fun x s h => pinOp_form h
  case unpin => exact completesIf_of_op (body := unpinOp) (fun _ _ _ => rfl) fun x s h => if_neg (Nat.not_le.mpr h)
  case unpinNone => exact completesIf_of_op (body := unpinOp) (fun _ _ _ => rfl) fun x s h => if_pos h
  case tfq => exact completesIf_of_op (body := tfqOp) (fun _ _ _ => rfl) fun x s _ => rfl
  case tres =>
    refine completesIf_of_op (body := tresOp) (fun _ _ _ => rfl) fun x s ⟨hway, htag⟩ => ?_
    rw [tresOp, if_neg (by omega), if_neg (by omega)]
    rfl
  case tresForm => exact trapsIf_of_op (body := tresOp) (fun _ _ _ => rfl) fun x s h => if_pos h
  case tent => exact completesIf_of_op (body := tentOp) (fun _ _ _ => rfl) fun x s h => if_neg (not_not.mpr h)
  case tentForm => exact trapsIf_of_op (body := tentOp) (fun _ _ _ => rfl) fun x s h => if_pos h
  case eret => exact completesIf_of_op (body := eretOp) (fun _ _ _ => rfl) fun x s h => if_neg (by simp [h])
  case eretForm => exact trapsIf_of_op (body := eretOp) (fun _ _ _ => rfl) fun x s h => if_pos (by simp [h])
  case hirq =>
    refine completesIf_of_op (body := hirqOp) (fun _ _ _ => rfl) fun x s ⟨hn, hmay⟩ => ?_
    rw [hirqOp]
    dsimp only
    rw [if_neg (Nat.not_lt.mpr hn), if_neg (by simp [hmay])]
  case hirqForm => exact trapsIf_of_op (body := hirqOp) (fun _ _ _ => rfl) fun x s h => if_pos h
  case hirqDenied =>
    refine trapsIf_of_op (body := hirqOp) (fun _ _ _ => rfl) fun x s ⟨hn, hmay⟩ => ?_
    rw [hirqOp]
    dsimp only
    rw [if_neg (Nat.not_lt.mpr hn), if_pos (by simp [hmay])]
    rfl
  case idle => exact completesIf_of_op (body := idleOp) (fun _ _ _ => rfl) fun x s _ => rfl

end Sys2Proof.Machine
end

section
/-!
PROOFS of 23_system: listed cores changed together, and the registers of one die.
-/

namespace Sys2Proof.Machine

/-! ### Listed cores changed together (R362, R376, R400, R409) -/

/-- Every listed core changed, each by its number. -/
def State.mapListed (s : State) (f : Nat → Core → Core) : State := { s with cores := s.cores.map fun q => (q.1, f q.1 q.2) }

theorem alGet_map {α : Type} (l : List (Nat × α)) (f : Nat → α → α) (k : Nat) :
    alGet (l.map fun q => (q.1, f q.1 q.2)) k = (alGet l k).map (f k) := by
  induction l with
  | nil => rfl
  | cons p l ih =>
    rw [List.map_cons, alGet_cons, alGet_cons, ih]
    split_ifs with h
    · rw [Option.map_some, ← h]
    · rfl

theorem alGet_isSome_iff {α : Type} (l : List (Nat × α)) (k : Nat) : (alGet l k).isSome = true ↔ k ∈ l.map Prod.fst := by
  induction l with
  | nil => simp [alGet]
  | cons p l ih =>
    rw [alGet_cons, List.map_cons, List.mem_cons, ← ih]
    split_ifs with h
    · simp [h]
    · simp [Ne.symm h]

theorem State.core_mapListed (s : State) (f : Nat → Core → Core) (n : Nat) :
    (s.mapListed f).core n = if n ∈ s.cores.map Prod.fst then f n (s.core n) else s.core n := by
  have listed := alGet_isSome_iff s.cores n
  rw [State.core, State.mapListed, alGet_map, State.core]
  cases h : alGet s.cores n <;> simp only [h, Option.isSome_none, Option.isSome_some, Bool.false_eq_true, false_iff, true_iff] at listed
  · rw [if_neg listed]
    rfl
  · rw [if_pos listed]
    rfl

/-- What every listed core's contexts keep, every context keeps. -/
theorem State.ctx_mapListed {R : Ctx → Ctx → Prop} (same : ∀ c, R c c) {f : Nat → Core → Core}
    (h : ∀ n c k, R ((f n c).ctx k) (c.ctx k)) (s : State) (x : CtxRef) : R ((s.mapListed f).ctx x) (s.ctx x) := by
  rw [State.ctx, State.core_mapListed, State.ctx]
  split_ifs
  · exact h ..
  · exact same _

/-- Cores changed where their number says so, told by their number. -/
theorem map_if_eq (l : List (Nat × Core)) (p : Nat → Prop) [DecidablePred p] (g : Core → Core) :
    (l.map fun q => if p q.1 then (q.1, g q.2) else q) = l.map fun q => (q.1, if p q.1 then g q.2 else q.2) := by
  refine List.map_congr_left fun q _ => ?_
  split_ifs <;> rfl

/-! ### The registers of one die -/

theorem State.die_updDie (s : State) (d : Nat) (f : DieRegs → DieRegs) : (s.updDie d f).die d = f (s.die d) := by
  simp [State.die, State.updDie]

/-- A word put into a number: its bits, between those that stand. -/
theorem testBit_putWord (old i : Nat) {w : Nat} (hw : w < 2 ^ 64) (k : Nat) : (putWord old w i).testBit k =
    if k < 64 * i then old.testBit k else if k < 64 * i + 64 then w.testBit (k - 64 * i) else old.testBit k := by
  have parts : putWord old w i = 2 ^ (64 * i) * (2 ^ 64 * (old / 2 ^ (64 * (i + 1))) + w) + old % 2 ^ (64 * i) := by
    rw [putWord, Nat.mul_add 64, mul_one, pow_add]
    generalize 2 ^ (64 * i) = a, (2 : Nat) ^ 64 = b
    ring
  rw [parts, Nat.testBit_two_pow_mul_add _ (Nat.mod_lt _ (Nat.two_pow_pos _)), Nat.testBit_two_pow_mul_add _ hw,
    Nat.testBit_mod_two_pow, Nat.testBit_div_two_pow]
  clear parts hw
  split_ifs with below within inside inside
  · simp [below]
  · rfl
  · omega
  · omega
  · congr 1
    omega

/-- A word of a register of `n` words replaced: it reads as written, and the other bits stand. -/
theorem ofNat_putWord (n old i : Nat) {w : Nat} (hw : w < 2 ^ 64) (hi : 64 * i + 64 ≤ n) :
    (BitVec.ofNat n (putWord old w i)).toNat / 2 ^ (64 * i) % 2 ^ 64 = w ∧
      ∀ k, k < n → (k < 64 * i ∨ 64 * i + 64 ≤ k) → (BitVec.ofNat n (putWord old w i)).getLsbD k = old.testBit k := by
  refine ⟨Nat.eq_of_testBit_eq fun j => ?_, fun k hk hout => ?_⟩
  · rw [BitVec.toNat_ofNat, Nat.testBit_mod_two_pow, Nat.testBit_div_two_pow, Nat.testBit_mod_two_pow, testBit_putWord _ _ hw]
    by_cases hj : j < 64
    · rw [if_neg (by omega), if_pos (by omega)]
      simp [hj, show j + 64 * i < n by omega]
    · simp [hj, Nat.testBit_lt_two_pow (lt_of_lt_of_le hw (Nat.pow_le_pow_right two_pos (Nat.not_lt.mp hj)))]
  · rw [BitVec.getLsbD_ofNat, testBit_putWord _ _ hw, decide_eq_true hk, Bool.true_and]
    split_ifs
    · rfl
    · omega
    · rfl

end Sys2Proof.Machine
end

section
/-!
PROOFS of 23_system: the host port and the routes (R389-R393, R409).
-/

namespace Sys2Proof.Machine

/-! ### Bytes that the host writes (R389) -/

/-- Where a byte of the rings goes: into stack 0, from WBASE on. -/
def State.ringByte (s : State) (off : Nat) : Nat := (s.die 0).wbase.toNat * 2 ^ 17 + (off - 0x10000)

section
variable {s : State} {off : Nat} {b : Byte} (lo : 0x10000 ≤ off) (hi : off < 0x30000)
include lo hi

/-- A ring byte that may be written is put where it goes. -/
theorem State.hostByte_ring (hstack : s.ringByte off < 2 ^ 36) (hphys : s.physOk (s.ringByte off) = true)
    (hmay : s.mayHbm (s.ringByte off) 8 true false = true) (hpin : s.pinHit (s.ringByte off) [b] = none) :
    s.hostByte off b = { s.note none false [sectorOf (s.ringByte off)] with
      store := (s.note none false [sectorOf (s.ringByte off)]).store.put (s.ringByte off) [b] false } := by
  have good : s.ringByte off < 2 ^ 36 ∧ s.physOk (s.ringByte off) = true ∧
      s.mayHbm (s.ringByte off) hostMaster true false = true ∧ (s.pinHit (s.ringByte off) [b]).isNone = true :=
    ⟨hstack, hphys, hmay, by rw [hpin]; rfl⟩
  unfold State.ringByte at good ⊢
  rw [State.hostByte, if_pos ⟨lo, hi⟩]
  dsimp only
  rw [if_pos good]

theorem State.hostByte_denied (hmay : s.mayHbm (s.ringByte off) 8 true false = false) : s.hostByte off b = s := by
  have bad : ¬(s.ringByte off < 2 ^ 36 ∧ s.physOk (s.ringByte off) = true ∧
      s.mayHbm (s.ringByte off) hostMaster true false = true ∧ (s.pinHit (s.ringByte off) [b]).isNone = true) := by
    rintro ⟨-, -, h, -⟩
    rw [hostMaster, hmay] at h
    cases h
  unfold State.ringByte at bad
  rw [State.hostByte, if_pos ⟨lo, hi⟩]
  dsimp only
  rw [if_neg bad]

end

/-- A byte of the MSI-X table. -/
theorem State.hostByte_msix {s : State} {off : Nat} {b : Byte} (lo : 0x80000 ≤ off) (hi : off < 0x88000) : s.hostByte off b =
    { s with host := { s.host with msixTable := cellPut s.host.msixTable (off - 0x80000) b } } := by
  rw [State.hostByte, if_neg (by omega), if_pos ⟨lo, hi⟩]

/-- A host write of one byte, and the lines that it unpoisons. -/
theorem exec_hostRingWrite_byte {off : Nat} (h : off < 0xFFFFF) (b : Byte) (s : State) :
    exec (.hostRingWrite off [b]) s = .next ((s.hostByte off b).hostUnpoison off 1) :=
  event_ok (decide_eq_true (Nat.succ_le_of_lt (Nat.lt_of_lt_of_le h (by decide)))) _

/-! ### Doorbells (R389-R391, R409; log 92) -/

/-- What a wake event of a die does to a core: the contexts of its supervisor and management cores are told. -/
def wakeCore (die n : Nat) (k : Core) : Core := if 512 ≤ n ∧ dieOf n = die then k.mapCtx fun c => { c with wake := true } else k

theorem State.wakeDie_eq (s : State) (die : Nat) : s.wakeDie die = s.mapListed (wakeCore die) :=
  congrArg (fun l => ({ s with cores := l } : State))
    (map_if_eq s.cores (fun n => 512 ≤ n ∧ dieOf n = die) fun k => k.mapCtx fun c => { c with wake := true })

/-- A wake event leaves what a program sees of every context, and every status. -/
theorem State.wakeDie_keeps (s : State) (die : Nat) (x : CtxRef) :
    ((s.wakeDie die).ctx x).sameRegs (s.ctx x) ∧ ((s.wakeDie die).ctx x).status = (s.ctx x).status := by
  rw [State.wakeDie_eq]
  refine State.ctx_mapListed (R := fun c d => c.sameRegs d ∧ c.status = d.status) (fun c => ⟨.refl c, rfl⟩) (fun n c k => ?_) s x
  rw [wakeCore]
  split_ifs
  · rw [Core.ctx_mapCtx]
    exact ⟨.refl _, rfl⟩
  · exact ⟨.refl _, rfl⟩

theorem State.wakeDie_wakes {s : State} {n : Nat} (hn : n ∈ [512, 513, 528]) (hlisted : n ∈ s.cores.map Prod.fst) (k : Nat) :
    ((s.wakeDie 0).ctx ⟨n, k⟩).wake = true := by
  have here : 512 ≤ n ∧ dieOf n = 0 := by
    clear hlisted
    revert n
    decide
  rw [State.wakeDie_eq, State.ctx, State.core_mapListed, if_pos hlisted, wakeCore, if_pos here, Core.ctx_mapCtx]

/-- A host write of H2DTAIL within its bounds: the tail moved, its wake event, and the end of standby and parking. -/
theorem State.hostDoorbell_good {s : State} {v : Word} (lo : s.host.h2dtail.toNat ≤ v.toNat)
    (hi : v.toNat ≤ s.host.h2dhead.toNat + 512) : s.hostDoorbell v =
      (if v = s.host.h2dtail then { s with host := { s.host with h2dtail := v } }
        else ({ s with host := { s.host with h2dtail := v } } : State).wakeDie 0).wakeAll :=
  if_neg (by omega)

/-! ### Routes (R393) -/

theorem State.routeWrite_good {s : State} {off : Nat} (d : Nat) (v : Word) (lo : 0x40 ≤ off) (hi : off < 0x60) : s.routeWrite d off v =
    s.updDie d fun r => { r with route := BitVec.ofNat 256 (putWord r.route.toNat v.toNat ((off - 0x40) / 8)) } :=
  if_pos ⟨lo, hi⟩

/-- Settles O53: each write by the bounds of its register, and what it leaves. -/
theorem hostPortAndRoutes : Obligations.HostPortAndRoutes := by
  unfold Obligations.HostPortAndRoutes
  intro ring
  refine ⟨?ring, ?denied, ?msix, ?doorbell, ?d2hhead, ?d2hheadOut, ?d2htail, ?h2dhead, ?route⟩
  case ring =>
    intro off b s hsound lo hi hstack hphys hmay hpin
    have run := exec_hostRingWrite_byte (off := off) (by omega) b s
    rw [State.hostByte_ring lo hi hstack hphys hmay hpin] at run
    refine ⟨_, run, ?_, fun a ha => ?_, rfl, fun x => .refl _⟩
    · exact cellGet_cellPut_same _ _ _ hsound
    · exact cellGet_cellPut_other _ _ _ _ ha
  case denied =>
    intro off b s lo hi hmay
    have run := exec_hostRingWrite_byte (off := off) (by omega) b s
    rw [State.hostByte_denied lo hi hmay] at run
    exact ⟨_, run, rfl⟩
  case msix =>
    intro off b s lo hi
    have run := exec_hostRingWrite_byte (off := off) (by omega) b s
    rw [State.hostByte_msix lo hi] at run
    exact ⟨_, run, rfl, rfl, rfl⟩
  case doorbell =>
    refine fun v s => ⟨fun lo hi => ?_, fun hout => congrArg _ (if_pos hout)⟩
    have run : exec (.hostDoorbell v) s = .next (s.hostDoorbell v) := rfl
    rw [State.hostDoorbell_good lo hi] at run
    split_ifs at run with same
    · exact ⟨_, run, rfl, rfl, rfl, rfl, rfl, rfl, fun h => absurd same h, fun x => ⟨.refl _, rfl⟩⟩
    · exact ⟨_, run, rfl, rfl, rfl, rfl, rfl, rfl, fun _ n k hn hlisted => State.wakeDie_wakes hn hlisted k,
        fun x => State.wakeDie_keeps _ 0 x⟩
  case d2hhead => exact fun v s lo hi => congrArg _ (if_neg (by omega))
  case d2hheadOut => exact fun v s hout => congrArg _ (if_pos hout)
  case d2htail =>
    exact fun x v s hx => ⟨fun lo hi => (event_ok hx _).trans (congrArg _ (if_neg (by omega))),
      fun hout => (event_ok hx _).trans (congrArg _ (if_pos hout))⟩
  case h2dhead =>
    exact fun x v s hx => ⟨fun lo hi => (event_ok hx _).trans (congrArg _ (if_neg (by omega))),
      fun hout => (event_ok hx _).trans (congrArg _ (if_pos hout))⟩
  case route =>
    intro x d off v s hx hd lo hi hword
    have run : exec (.routeWrite x d off v) s = .next (s.routeWrite d off v) := event_ok (by simp [hx, hd]) _
    rw [State.routeWrite_good d v lo hi] at run
    have place : 8 * (off - 0x40) = 64 * ((off - 0x40) / 8) := by omega
    obtain ⟨reads, stands⟩ := ofNat_putWord 256 (s.die d).route.toNat ((off - 0x40) / 8) v.isLt (by omega)
    refine ⟨_, run, rfl, ?_, fun k hk hout => ?_⟩
    all_goals rw [State.die_updDie]
    · rw [place]
      exact reads
    · exact stands k hk (by omega)

end Sys2Proof.Machine
end

section
/-!
PROOFS of 21_spaces and 22_observation: the core cycle (R384, 21_spaces R355).
-/

namespace Sys2Proof.Machine

/-- A machine that lists core 5 before core 3, of which core 3 has a context that waits in `sv.idle`. -/
def unordered : State :=
  let s : State := ({ State.reset with cores := [] } : State).setStatus ⟨3, 0⟩ (.blocked .idle)
  { s with cores := (5, Core.resetAt 5) :: s.cores }

theorem exec_coreCycle (s : State) : exec .coreCycle s = .next s.coreCycle := rfl

/-- The turn of core 3 writes core 3 back, and the write stands before core 5: the lists of agents before and after differ. -/
theorem unordered_turn : unordered.coreCycle.turn ≠ unordered.agents := by decide +kernel

/-- Refutes O52 in its last clause: where the cores are not listed in rising order, the core that a turn writes back is listed
again at its place, and the agents that have the next turns are not those listed before the cycle. -/
theorem not_translationAndObservationEvents : ¬ Obligations.TranslationAndObservationEvents := by
  unfold Obligations.TranslationAndObservationEvents
  rintro ⟨-, -, -, -, -, -, -, -, -, -, -, -, -, -, -, -, -, cycle⟩
  obtain ⟨t, step, -, turn, -⟩ := cycle unordered
  rw [exec_coreCycle] at step
  obtain rfl := Host.Outcome.next.inj step
  exact unordered_turn turn

end Sys2Proof.Machine
end

section
/-!
PROOFS of 23_system: the storage port (R395).
-/

namespace Sys2Proof.Machine

/-- The entry of an NVMe Read of one byte into the first byte of die 7's scratchpad. -/
def readEntry : List Byte := [2] ++ zeros 23 ++ leBytes 8 0xFF000010000000 ++ [1, 0, 0] ++ zeros 29

/-- The piece that the buffer of `readEntry` is, at the storage port. -/
def readPiece : Piece := ⟨0xFF000010000000, 1, keyOf .dsp 7 0, .dsp⟩

/-- The machine after reset with the storage port let write die 7's scratchpad, queue pair 0 on as an I/O queue, `readEntry`
submitted there, and a memory that lists the byte of `readPiece` twice. -/
def listedTwice : State :=
  let s : State := State.reset.updDie 7 fun r => { r with access := Vector.replicate 57 0xFFFFFFFF }
  { s with
    storage := { s.storage with qpairs := [(0, { QPair.reset with depth := 1, qid := 1 })], pending := [(0, readEntry)] }
    store := { s.store with mem := [(readPiece.key, 1), (readPiece.key, 1)] } }

/-- `listedTwice` once the Read is sent. -/
def listedTwiceSent : State := (listedTwice.popCmd 0).sendCmd 0 readEntry []

theorem readEntry_buffer : sglOf readEntry = (0xFF000010000000, 1) := by decide +kernel

theorem listedTwice_next : listedTwice.nextCmd 0 .read = some readEntry := by decide +kernel

theorem listedTwiceSent_pieces : listedTwiceSent.portPieces 0 .w 0xFF000010000000 1 = .ok [readPiece] := by decide +kernel

theorem listedTwiceSent_pins : listedTwiceSent.pinSpan [readPiece] [0] = none := by decide +kernel

/-- The write of a 0 takes the first of the two bytes listed away; the second one is read after it. -/
theorem listedTwice_read : cellGet (listedTwice.nvmeRead 0 []).store.mem readPiece.key = 1 := by decide +kernel

theorem exec_nvmeRead_listedTwice : exec (.nvmeRead 0 []) listedTwice = .next (listedTwice.nvmeRead 0 []) := rfl

/-- Refutes O55 in its clause on Read: in a memory that is not in canonical form, here one that lists the buffer's byte twice,
the 0 that came back is not what is read after it. -/
theorem not_storagePort : ¬ Obligations.StoragePort := by
  unfold Obligations.StoragePort
  rintro ⟨next, -, -, -, -, -, -, -, -, -, -, -, -, -, -, -, -, -, -, -, -, read, -⟩
  have due := (next listedTwice 0 .read readEntry).1 listedTwice_next
  obtain ⟨t, step, -, filled, -⟩ := (read 0 listedTwice readEntry [] (by decide) rfl due).2 readPiece
    (by rw [readEntry_buffer]; exact listedTwiceSent_pieces) (by rw [readEntry_buffer]; exact listedTwiceSent_pins)
    (fun _ _ _ h => nomatch h)
  rw [exec_nvmeRead_listedTwice] at step
  obtain rfl := Host.Outcome.next.inj step
  have byte := filled 0 (by decide) (by rw [readEntry_buffer]; decide)
  rw [Nat.add_zero, listedTwice_read, readEntry_buffer] at byte
  exact absurd byte (by decide)

end Sys2Proof.Machine
end

section
/-!
PROOFS of 23_system: boot, updates, identity and the services of the management port (R387, R388, R396, R402-R406).
-/

namespace Sys2Proof.Machine

/-! ### Supervisor cores released (R400, R402) -/

/-- Supervisor cores released, by their numbers from 512 on. -/
def State.releaseSups (s : State) (l : List Nat) : State := l.foldl (fun s i => s.releaseSup (512 + i)) s

/-- A release touches the cores alone. -/
theorem State.releaseSups_cores (l : List Nat) (s : State) : ∃ cs, s.releaseSups l = { s with cores := cs } := by
  induction l generalizing s with
  | nil => exact ⟨s.cores, rfl⟩
  | cons i l ih =>
    obtain ⟨cs, h⟩ := ih (s.releaseSup (512 + i))
    exact ⟨cs, h⟩

theorem State.ctx_releaseSup (s : State) (m n k : Nat) :
    (s.releaseSup m).ctx ⟨n, k⟩ = if n = m then supStart else s.ctx ⟨n, k⟩ := by
  rw [State.ctx, State.ctx, State.releaseSup]
  split_ifs with h
  · rw [h, State.core_updCore, Core.ctx_mapCtx]
  · rw [State.core_updCore_other _ _ _ _ h]

/-- The contexts of the cores released start at 0, all others stand. -/
theorem State.ctx_releaseSups (l : List Nat) (s : State) (n k : Nat) :
    (s.releaseSups l).ctx ⟨n, k⟩ = if n ∈ l.map (512 + ·) then supStart else s.ctx ⟨n, k⟩ := by
  induction l generalizing s with
  | nil => rfl
  | cons i l ih =>
    rw [State.releaseSups, List.foldl_cons]
    refine (ih (s.releaseSup (512 + i))).trans ?_
    rw [State.ctx_releaseSup, List.map_cons]
    by_cases here : n = 512 + i <;> simp [here]

theorem supStart_ready : supStart.status = .ready ∧ supStart.pc = 0 ∧ supStart.sid = 0 := ⟨rfl, rfl, rfl⟩

/-! ### Boot (R387, R402) -/

/-- The machine booted from an image and a bin record, before the supervisors are released. -/
def State.booted (s : State) (i : FwImage) (b : BinRecord) : State :=
  { s.afterReset with
    mgmt := { s.afterReset.mgmt with fw := some i }, regs := bootDies b s.flash.devid, boot := .done }

theorem exec_packageReset_boots {s : State} {i : FwImage} {b : BinRecord} (hfw : s.flash.accepted = some i)
    (hbin : s.flash.bin = some b) (good : binOk b = true) : exec .packageReset s = .next ((s.booted i b).releaseSups (List.range 16)) := by
  have hfw' : s.afterReset.flash.accepted = some i := hfw
  have hbin' : s.afterReset.flash.bin.filter binOk = some b := by
    show s.flash.bin.filter binOk = some b
    rw [hbin, Option.filter_some, if_pos good]
  refine (event_ok rfl _).trans (congrArg _ ?_)
  rw [State.packageReset]
  dsimp only
  rw [hfw', hbin']
  rfl

theorem exec_packageReset_waits {s : State}
    (bad : s.flash.accepted = none ∨ ∀ b, s.flash.bin = some b → binOk b = false) : exec .packageReset s =
      .next { s.afterReset with mgmt := { s.afterReset.mgmt with fw := s.flash.accepted }, boot := .updateOnly } := by
  refine (event_ok rfl _).trans (congrArg _ ?_)
  rw [State.packageReset]
  dsimp only
  split
  next i b hfw hbin =>
    obtain ⟨hbin, good⟩ := Option.filter_eq_some_iff.1 hbin
    obtain none | bad := bad
    · exact absurd (hfw.symm.trans none) (Option.some_ne_none i)
    · rw [bad b hbin] at good
      cases good
  next => rfl

/-- The registers of a die after boot. -/
theorem State.booted_die (s : State) (i : FwImage) (b : BinRecord) {d : Nat} (hd : d < 8) :
    (s.booted i b).die d = bootDie b s.flash.devid d := by
  simp [State.die, State.booted, bootDies, Nat.mod_eq_of_lt hd]

/-- The core rail lies within 300 to 450 mV (R408; log 140). -/
theorem bootDie_vcore (b : BinRecord) (v : BitVec 6) (d : Nat) :
    300 ≤ (bootDie b v d).vcore.toNat ∧ (bootDie b v d).vcore.toNat ≤ 450 := by
  have rail : (bootDie b v d).vcore.toNat = (300 + Config.railSetpoint d % 151) % 2 ^ 9 := BitVec.toNat_ofNat ..
  omega

/-- Slot 0 is taken where its image verifies, else slot 1 (R402). -/
theorem Flash.accepted_eq (f : Flash) : f.accepted = (f.slot0.filter fwOk).or (f.slot1.filter fwOk) := by
  rw [Flash.accepted]
  cases f.slot0.filter fwOk <;> rfl

theorem Flash.accepted_slot0 {f : Flash} {i : FwImage} (h : f.slot0 = some i) (good : fwOk i = true) : f.accepted = some i := by
  rw [Flash.accepted_eq, h, Option.filter_some, if_pos good, Option.some_or]

theorem Flash.accepted_verifies {f : Flash} {i : FwImage} (h : f.accepted = some i) :
    fwOk i = true ∧ (f.slot0 = some i ∨ f.slot1 = some i) := by
  rw [Flash.accepted_eq, Option.or_eq_some_iff] at h
  obtain h | ⟨-, h⟩ := h
  · exact ⟨(Option.filter_eq_some_iff.1 h).2, .inl (Option.filter_eq_some_iff.1 h).1⟩
  · exact ⟨(Option.filter_eq_some_iff.1 h).2, .inr (Option.filter_eq_some_iff.1 h).1⟩

/-! ### Services and signed objects (R396, R403-R406) -/

theorem State.served_done {s : State} (h : s.boot = .done) (k : State → State) : s.served k = k s := if_pos h

theorem State.served_waits {s : State} (h : s.boot ≠ .done) (k : State → State) : s.served k = s := if_neg h

theorem State.objOk_iff (s : State) (k : Nat) (o : SignedObj) : s.objOk k o = true ↔ Config.objKind o.body = k ∧
    Config.pssVerifies (o.names ++ o.body) o.sig = true ∧
      o.names = if s.sec = .unprovisioned then Config.deviceKeyDigest else Config.certSerial := by
  rw [State.objOk, Bool.and_eq_true, Bool.and_eq_true, decide_eq_true_iff, decide_eq_true_iff, and_assoc]

/-! ### The services before and after boot (R387, R396, R402) -/

theorem exec_redfishGet_done {s : State} (h : s.boot = .done) (r : RedfishRes) :
    exec (.redfishGet r) s = .next (s.redfish 200) := by
  have apart : ¬(r = .updateService ∧ s.boot = .updateOnly) := fun ⟨_, e⟩ => nomatch h.symm.trans e
  exact (event_ok rfl _).trans (by rw [State.redfishGet, if_neg apart, State.served_done h])

theorem exec_redfishGet_waits {s : State} (h : s.boot ≠ .done) {r : RedfishRes} (hr : r ≠ .updateService) :
    exec (.redfishGet r) s = .next s :=
  (event_ok rfl _).trans (by rw [State.redfishGet, if_neg fun e => hr e.1, State.served_waits h])

theorem exec_redfishGet_update {s : State} (h : s.boot = .updateOnly) :
    exec (.redfishGet .updateService) s = .next (s.redfish 200) :=
  (event_ok rfl _).trans (by rw [State.redfishGet, if_pos ⟨rfl, h⟩])

/-- What a service answers once booted. -/
theorem exec_served_done {i : Instr} {s : State} {k : State → State} (he : exec i s = .next (s.served k)) (h : s.boot = .done) :
    exec i s = .next (k s) := by rw [he, State.served_done h]

theorem exec_spdmServed_done {i : Instr} {s : State} {c : Nat} (he : exec i s = .next (s.spdmServed c)) (h : s.boot = .done) :
    exec i s = .next (s.spdm c) := exec_served_done he h

/-- Before the boot a service does nothing. -/
theorem exec_served_waits {i : Instr} {s : State} {k : State → State} (he : exec i s = .next (s.served k)) (h : s.boot ≠ .done) :
    exec i s = .next s := by rw [he, State.served_waits h]

theorem exec_challenge_done {s : State} (h : s.boot = .done) (n : List Byte) :
    exec (.challenge n) s = .next (if s.sec = .provisioned then s.spdm 0x03 else s.respond .spdmError) :=
  exec_served_done (k := fun s => if s.sec = .provisioned then s.spdm 0x03 else s.respond .spdmError) rfl h

theorem exec_updateService_bin (b : BinRecord) (s : State) : exec (.updateService (.bin b)) s = .next
    (if binOk b then ({ s with flash := { s.flash with bin := some b } } : State).redfish 200 else s.refuse) := rfl

theorem exec_provision_done {s : State} (h : s.boot = .done) (o : SignedObj) : exec (.provision o) s = .next
    (if s.objOk 0 o then
      ({ s with
        flash := { s.flash with
          sealedKey := some (Config.sealedKey s.mgmt.provisions), chain := some (Config.certChain s.mgmt.provisions), revoked := false }
        sec := .provisioned, mgmt := { s.mgmt with provisions := s.mgmt.provisions + 1 } } : State).redfish 200
    else s.refuse) := by
  refine (exec_served_done rfl h).trans ?_
  cases s.objOk 0 o <;> rfl

theorem exec_revoke_done {s : State} (h : s.boot = .done) (o : SignedObj) : exec (.revoke o) s = .next
    (if s.objOk 1 o = true ∧ s.dbg = .locked then
      ({ s with flash := { s.flash with sealedKey := none, revoked := true }, sec := .revoked } : State).redfish 200
    else s.refuse) := by
  refine (exec_served_done rfl h).trans ?_
  cases s.objOk 1 o <;> by_cases locked : s.dbg = .locked <;> simp [locked]

theorem exec_debugUnlock_done {s : State} (h : s.boot = .done) (o : SignedObj) : exec (.debugUnlock o) s = .next
    (if s.objOk 2 o = true ∧ s.sec ≠ .revoked then ({ s with dbg := .full } : State).redfish 200 else s.refuse) := by
  refine (exec_served_done rfl h).trans ?_
  cases s.objOk 2 o <;> by_cases revoked : s.sec = .revoked <;> simp [revoked]

/-- Settles O56: each service is its equation before and after boot, and a package reset the state after it with the supervisors
released. -/
theorem managementAndSecurity : Obligations.ManagementAndSecurity := by
  unfold Obligations.ManagementAndSecurity
  intro say red spdm ok refused answers
  have refuses (i : Instr) (s : State) (h : exec i s = .next s.refuse) : refused i s :=
    ⟨_, h, ⟨_, ⟨_, rfl⟩, rfl, rfl, rfl, rfl⟩, rfl, rfl, rfl, rfl⟩
  have gives (i : Instr) (s : State) (n : Nat) (h : exec i s = .next (s.redfish n)) : answers i s (red n) :=
    ⟨_, h, ⟨_, ⟨_, rfl⟩, rfl, rfl, rfl, rfl⟩, rfl, rfl, rfl⟩
  have codes (i : Instr) (s : State) (c : Nat) (h : exec i s = .next (s.spdm c)) : answers i s (spdm c) :=
    ⟨_, h, ⟨_, ⟨_, rfl⟩, rfl, rfl, rfl, rfl⟩, rfl, rfl, rfl⟩
  have tells (i : Instr) (s : State) (r : MgmtResp) (h : exec i s = .next (s.respond r)) : answers i s (fun m => m = r) :=
    ⟨_, h, ⟨_, rfl, rfl, rfl, rfl, rfl⟩, rfl, rfl, rfl⟩
  have okIff (s : State) (k : Nat) (o : SignedObj) : ok s k o ↔ s.objOk k o = true := (s.objOk_iff k o).symm
  refine ⟨?early, ?waits, fun s h => gives _ s _ (exec_redfishGet_update h), ?served, ?measured, ?firmware, ?bin, ?devid, ?objects,
    ?boots, ?updateOnly, fun f => ⟨fun i => Flash.accepted_slot0, fun i => Flash.accepted_verifies⟩⟩
  case early =>
    intro s i h hi
    fin_cases hi <;> exact exec_served_waits rfl h
  case waits =>
    intro s o v c r n idx h hv hlo hhi
    exact ⟨exec_served_waits rfl h, exec_served_waits rfl h, exec_served_waits rfl h,
      exec_served_waits (event_ok (decide_eq_true hv) _) h, exec_redfishGet_waits h, exec_served_waits rfl h,
      exec_served_waits (event_ok (decide_eq_true ⟨hlo, hhi⟩) _) h, exec_served_waits rfl h⟩
  case served =>
    intro s r c n h
    refine ⟨gives _ s _ (exec_redfishGet_done h r), codes _ s _ (exec_spdmServed_done rfl h), codes _ s _ (exec_spdmServed_done rfl h),
      codes _ s _ (exec_spdmServed_done rfl h), codes _ s _ (exec_spdmServed_done rfl h), codes _ s _ (exec_spdmServed_done rfl h),
      tells _ s _ (exec_served_done (k := fun s => s.respond .spdmUnsupported) rfl h), fun sec => codes _ s _ ?_,
      fun sec => tells _ s _ ?_⟩
    · exact (exec_challenge_done h n).trans (congrArg _ (if_pos sec))
    · exact (exec_challenge_done h n).trans (congrArg _ (if_neg sec))
  case measured =>
    intro s idx n h hlo hhi
    have run : exec (.getMeasurements idx n) s = .next _ := exec_served_done (event_ok (decide_eq_true ⟨hlo, hhi⟩) _) h
    constructor
    · intro sec
      exact ⟨_, run.trans (congrArg _ (if_pos sec)), ⟨_, ⟨_, rfl⟩, rfl, rfl, rfl, rfl⟩, rfl, rfl, rfl⟩
    · intro sec
      exact tells _ s _ (run.trans (congrArg _ (if_neg sec)))
  case firmware =>
    exact fun s i => ⟨⟨_, rfl, ⟨_, ⟨_, rfl⟩, rfl, rfl, rfl, rfl⟩, rfl⟩, _, rfl, ⟨_, ⟨_, rfl⟩, rfl, rfl, rfl, rfl⟩, rfl⟩
  case bin =>
    intro s b
    constructor
    · intro good
      exact ⟨_, (exec_updateService_bin b s).trans (congrArg _ (if_pos good)), ⟨_, ⟨_, rfl⟩, rfl, rfl, rfl, rfl⟩, rfl⟩
    · intro bad
      exact refuses _ s ((exec_updateService_bin b s).trans (congrArg _ (if_neg (by rw [bad]; decide))))
  case devid =>
    intro s v h hv
    exact ⟨_, exec_served_done (event_ok (decide_eq_true hv) _) h, ⟨_, ⟨_, rfl⟩, rfl, rfl, rfl, rfl⟩, rfl, rfl⟩
  case objects =>
    intro s o h
    simp only [okIff]
    refine ⟨fun good => ?_, fun bad => ?_, fun good locked => ?_, fun bad => ?_, fun good live => ?_, fun bad => ?_⟩
    · exact ⟨_, (exec_provision_done h o).trans (congrArg _ (if_pos good)), ⟨_, ⟨_, rfl⟩, rfl, rfl, rfl, rfl⟩, rfl, rfl⟩
    · exact refuses _ s ((exec_provision_done h o).trans (congrArg _ (if_neg bad)))
    · exact ⟨_, (exec_revoke_done h o).trans (congrArg _ (if_pos ⟨good, locked⟩)), ⟨_, ⟨_, rfl⟩, rfl, rfl, rfl, rfl⟩, rfl, rfl, rfl⟩
    · exact refuses _ s ((exec_revoke_done h o).trans (congrArg _ (if_neg (by tauto))))
    · exact ⟨_, (exec_debugUnlock_done h o).trans (congrArg _ (if_pos ⟨good, live⟩)), ⟨_, ⟨_, rfl⟩, rfl, rfl, rfl, rfl⟩, rfl, rfl⟩
    · exact refuses _ s ((exec_debugUnlock_done h o).trans (congrArg _ (if_neg (by tauto))))
  case boots =>
    intro s i b hfw hbin good
    obtain ⟨cs, kept⟩ := State.releaseSups_cores (List.range 16) (s.booted i b)
    have die (d : Nat) (hd : d < 8) : ((s.booted i b).releaseSups (List.range 16)).die d = bootDie b s.flash.devid d := by
      rw [kept]
      exact State.booted_die s i b hd
    refine ⟨_, exec_packageReset_boots hfw hbin good, by rw [kept]; rfl, by rw [kept]; rfl, by rw [kept]; rfl,
      by rw [State.devid, die 0 (by decide)]; rfl, by rw [kept]; rfl, by rw [kept]; rfl, by rw [kept]; rfl, by rw [kept]; rfl,
      fun d hd => ?_, fun k c hk hlo hhi => ?_⟩
    · rw [die d hd]
      exact ⟨rfl, bootDie_vcore b _ d⟩
    · rw [State.ctx_releaseSups, if_pos (List.mem_map.2 ⟨c - 512, List.mem_range.2 (by omega), by omega⟩)]
      exact supStart_ready
  case updateOnly =>
    intro s bad
    exact ⟨_, exec_packageReset_waits bad, rfl, State.reset_ctx_status⟩

end Sys2Proof.Machine
end

section
/-!
PROOFS of 23_system: what the end of a launch leaves of the package, and partition resets (R400).
-/

namespace Sys2Proof.Machine

/-! ### The package outside its cores, memory and links -/

/-- States with the same registers of dies, the same host port and PARK, and the same resets under way. -/
def State.samePackage (s t : State) : Prop := t.regs = s.regs ∧ t.host = s.host ∧ t.park = s.park ∧ t.resetting = s.resetting

theorem State.samePackage.refl (s : State) : s.samePackage s := ⟨rfl, rfl, rfl, rfl⟩

theorem State.samePackage.trans {s t u : State} (h : s.samePackage t) (h' : t.samePackage u) : s.samePackage u := by
  obtain ⟨regs, host, park, resetting⟩ := h
  obtain ⟨regs', host', park', resetting'⟩ := h'
  exact ⟨regs'.trans regs, host'.trans host, park'.trans park, resetting'.trans resetting⟩

theorem State.samePackage.die {s t : State} (h : s.samePackage t) (d : Nat) : t.die d = s.die d := by
  rw [State.die, h.1, State.die]

/-- A core's partition is told by the registers of its die. -/
theorem State.partOf_congr {s t : State} (h : ∀ d, (t.die d).corep = (s.die d).corep ∧ (t.die d).supp = (s.die d).supp) (n : Nat) :
    t.partOf n = s.partOf n := by
  rw [State.partOf, State.partOf, (h _).1, (h _).2]

theorem State.samePackage.partOf {s t : State} (h : s.samePackage t) (n : Nat) : t.partOf n = s.partOf n :=
  State.partOf_congr (fun d => by rw [h.die d]; exact ⟨rfl, rfl⟩) n

theorem State.samePackage_foldl {α : Type} (f : State → α → State) (h : ∀ (s : State) a, s.samePackage (f s a)) (l : List α) (s : State) :
    s.samePackage (l.foldl f s) := by
  induction l generalizing s with
  | nil => exact .refl s
  | cons a l ih => exact (h s a).trans (ih _)

theorem State.sameButFabric.samePackage {s t : State} (h : s.sameButFabric t) : s.samePackage t := by
  obtain ⟨f, ds, rfl⟩ := h
  exact ⟨rfl, rfl, rfl, rfl⟩

/-! ### The end of a launch (R232, R358) -/

theorem State.dropFreeze_samePackage (s : State) (n : Nat) : s.samePackage (s.dropFreeze n) := by
  obtain ⟨h, -⟩ | ⟨o, hs, h⟩ := s.dropFreeze_eq n
  · rw [h]
    exact .refl s
  · rw [h]
    exact ⟨rfl, rfl, rfl, rfl⟩

theorem State.releaseCtx_samePackage (s : State) (x : CtxRef) (keep : Bool) : s.samePackage (s.releaseCtx x keep) := by
  have thawed : s.samePackage (s.thawed x) := by
    unfold State.thawed
    split
    · exact s.dropFreeze_samePackage _
    · exact .refl s
  obtain ⟨w, f, h⟩ := s.releaseCtx_eq x keep
  rw [h]
  exact thawed.trans ⟨rfl, rfl, rfl, rfl⟩

theorem State.releaseReact_samePackage (s : State) (r : Reaction) (keep : Bool) : s.samePackage (s.releaseReact r keep) :=
  State.samePackage_foldl (fun s (p : CtxRef × Nat) => s.releaseCtx p.1 keep) (fun s p => s.releaseCtx_samePackage p.1 keep) _ s

theorem State.applyAdd_samePackage (s : State) (x : CtxRef) (c : Sel) (n : Word) : s.samePackage (s.applyAdd x c n) := by
  cases c with
  | bad => exact .refl s
  | loc i => exact ⟨rfl, rfl, rfl, rfl⟩
  | gang i =>
    unfold State.applyAdd
    dsimp only
    split <;> exact ⟨rfl, rfl, rfl, rfl⟩
  | die d i => exact ⟨rfl, rfl, rfl, rfl⟩
  | remote v d i => exact (s.sendFor_sameButFabric ..).samePackage

theorem State.raiseDone_samePackage (s : State) (l : Launch) : s.samePackage (s.raiseDone l) := by
  unfold State.raiseDone
  split
  · exact .refl s
  · exact State.samePackage.trans ⟨rfl, rfl, rfl, rfl⟩ (State.applyAdd_samePackage ..)

theorem State.putStatus_samePackage (s : State) (l : Launch) (p : Piece) (v : Nat) : s.samePackage (s.putStatus l p v) := by
  unfold State.putStatus
  dsimp only
  split
  · split <;> exact ⟨rfl, rfl, rfl, rfl⟩
  · exact ((State.sendFor_sameButFabric ..).trans (State.sendFor_sameButFabric ..)).samePackage
  · exact .refl s

theorem State.writeStatus_samePackage {s t : State} {l : Launch} {v : Nat} (h : s.writeStatus l v = .ok t) : s.samePackage t := by
  unfold State.writeStatus at h
  dsimp only at h
  split at h
  · cases h
    exact .refl s
  · split at h <;> cases h
    · exact s.putStatus_samePackage ..
    · exact .refl s
    · exact (s.resetSoon_sameButFabric l.core).samePackage

theorem State.noteWalk_samePackage (s : State) (x : CtxRef) (die : Nat) : s.samePackage (s.noteWalk x die) := by
  unfold State.noteWalk
  split <;> exact ⟨rfl, rfl, rfl, rfl⟩

theorem State.finishLaunch_samePackage (s : State) (lid : Nat) : s.samePackage (s.finishLaunch lid) := by
  unfold State.finishLaunch
  split
  · exact .refl s
  · split
    · dsimp only
      split
      · exact (State.ask_sameButFabric ..).samePackage
      · exact s.noteWalk_samePackage ..
      · next written =>
        refine State.samePackage.trans ?_ (State.raiseDone_samePackage ..)
        refine (State.writeStatus_samePackage written).trans ?_
        exact State.samePackage.trans ⟨rfl, rfl, rfl, rfl⟩ (State.tellPeers_sameButFabric ..).samePackage
    · exact s.raiseDone_samePackage _
    · exact .refl s

theorem State.endLaunch_samePackage (s : State) (lid : Nat) (rep : Option Report) (nother : Nat) :
    s.samePackage (s.endLaunch lid rep nother) := by
  unfold State.endLaunch
  split
  · exact .refl s
  · split
    · exact .refl s
    · next l _ _ =>
      refine State.samePackage.trans ?_ (State.finishLaunch_samePackage ..)
      exact (State.samePackage_foldl _ (fun s r => s.releaseReact_samePackage r false) l.reacts s).trans ⟨rfl, rfl, rfl, rfl⟩

theorem State.endRaised_samePackage (s : State) (lid core : Nat) (rep : Report) : s.samePackage (s.endRaised lid core rep) := by
  unfold State.endRaised
  dsimp only
  split
  · obtain ⟨o, h⟩ := s.record_obs (traceNat s ⟨core, 0⟩ rep.cause.toNat false 0 0 rep.stamp rep.info.toNat)
    rw [h]
    exact State.samePackage.trans ⟨rfl, rfl, rfl, rfl⟩ (State.endLaunch_samePackage ..)
  · exact s.endLaunch_samePackage ..

/-! ### One bit of PARK or PRESET -/

theorem getLsbD_two_pow (p q : Nat) : (BitVec.ofNat 8 (2 ^ p)).getLsbD q = (decide (q < 8) && decide (p = q)) := by
  rw [BitVec.getLsbD_ofNat, Nat.testBit_two_pow]

theorem getLsbD_setBit (b : BitVec 8) {p : Nat} (hp : p < 8) : (b ||| BitVec.ofNat 8 (2 ^ p)).getLsbD p = true := by
  rw [BitVec.getLsbD_or, getLsbD_two_pow, decide_eq_true hp, decide_eq_true rfl, Bool.and_self, Bool.or_true]

theorem getLsbD_setBit_other (b : BitVec 8) {p q : Nat} (h : q ≠ p) :
    (b ||| BitVec.ofNat 8 (2 ^ p)).getLsbD q = b.getLsbD q := by
  rw [BitVec.getLsbD_or, getLsbD_two_pow, decide_eq_false (Ne.symm h), Bool.and_false, Bool.or_false]

theorem getLsbD_clearBit (b : BitVec 8) (p : Nat) : (b &&& ~~~(BitVec.ofNat 8 (2 ^ p))).getLsbD p = false := by
  by_cases hp : p < 8 <;> simp only [BitVec.getLsbD_and, BitVec.getLsbD_not, getLsbD_two_pow, hp, decide_true, decide_false,
    Bool.and_self, Bool.not_true, Bool.and_false, Bool.false_and]

theorem getLsbD_clearBit_other (b : BitVec 8) {p q : Nat} (hq : q < 8) (h : q ≠ p) :
    (b &&& ~~~(BitVec.ofNat 8 (2 ^ p))).getLsbD q = b.getLsbD q := by
  rw [BitVec.getLsbD_and, BitVec.getLsbD_not, getLsbD_two_pow, decide_eq_true hq, decide_eq_false (Ne.symm h), Bool.and_false,
    Bool.not_false, Bool.and_true, Bool.and_true]

/-! ### A partition reset (R400; log 132) -/

theorem mem_addOnce (l : List Nat) (p q : Nat) : q ∈ addOnce l p ↔ q ∈ l ∨ q = p := by
  unfold addOnce
  split_ifs with h
  · have : p ∈ l := List.contains_iff_mem.1 h
    exact ⟨.inl, fun h => h.elim id fun h => h ▸ this⟩
  · rw [List.mem_append, List.mem_singleton]

/-- Fields of the registers of a die changed, die by die, touch the registers alone. -/
theorem State.updDies_regs (g : Nat → DieRegs → DieRegs) (l : List Nat) (s : State) :
    ∃ rs, l.foldl (fun t d => t.updDie d (g d)) s = { s with regs := rs } := by
  induction l generalizing s with
  | nil => exact ⟨s.regs, rfl⟩
  | cons d l ih =>
    obtain ⟨rs, h⟩ := ih (s.updDie d (g d))
    exact ⟨rs, h⟩

/-- The fields of a partition reset touch the registers, the host port's SVHALT and PARK. -/
theorem State.resetFields_eq (s : State) (p : Nat) : ∃ rs hs, s.resetFields p =
    { s with regs := rs, host := { s.host with svhalt := hs }, park := s.park &&& ~~~(BitVec.ofNat 8 (2 ^ p)) } := by
  unfold State.resetFields
  dsimp only
  generalize List.foldl _ s.host.svhalt _ = hs
  obtain ⟨rs, h⟩ := State.updDies_regs (fun d r => { r with perf := r.perf.filter (s.perfKept p d) }) (List.range 8)
    { s with host := { s.host with svhalt := hs }, park := s.park &&& ~~~(BitVec.ofNat 8 (2 ^ p)) }
  exact ⟨rs, hs, h⟩

/-- The cores of a partition at reset, its PRESET bit set, and its reset under way. -/
def State.resetCores (s : State) (p : Nat) : State :=
  { s with
    cores := s.cores.map fun q => if s.partOf q.1 = some p then (q.1, Core.resetAt q.1) else q
    host := { s.host with preset := s.host.preset ||| BitVec.ofNat 8 (2 ^ p) }
    resetting := addOnce s.resetting p
    haltDue := s.haltDue.filter fun n => decide (s.partOf n ≠ some p) }

/-- The launches that a partition reset hits, ended. -/
def State.endHit (s : State) (p : Nat) : State :=
  (s.launches.filter fun l => decide (l.phase ≠ .ended) && decide (l.phase ≠ .ending) && s.launchIn p l).foldl
    (fun s l => s.endRaised l.lid l.core ⟨cMachineCheck, 0, 0, 0, 0#64, 0, false⟩) s

theorem State.endHit_samePackage (s : State) (p : Nat) : s.samePackage (s.endHit p) :=
  State.samePackage_foldl (fun s (l : Launch) => s.endRaised l.lid l.core ⟨cMachineCheck, 0, 0, 0, 0#64, 0, false⟩)
    (fun s _ => s.endRaised_samePackage ..) _ s

theorem State.resetPartition_eq (s : State) (p : Nat) : s.resetPartition p = ((s.endHit p).resetCores p).resetFields p := rfl

theorem State.resetPartition_park (s : State) (p : Nat) : (s.resetPartition p).park = s.park &&& ~~~(BitVec.ofNat 8 (2 ^ p)) := by
  obtain ⟨-, -, park, -⟩ := s.endHit_samePackage p
  obtain ⟨rs, hs, fields⟩ := ((s.endHit p).resetCores p).resetFields_eq p
  rw [State.resetPartition_eq, fields, ← park]
  rfl

theorem State.resetPartition_preset (s : State) (p : Nat) :
    (s.resetPartition p).host.preset = s.host.preset ||| BitVec.ofNat 8 (2 ^ p) := by
  obtain ⟨-, host, -, -⟩ := s.endHit_samePackage p
  obtain ⟨rs, hs, fields⟩ := ((s.endHit p).resetCores p).resetFields_eq p
  rw [State.resetPartition_eq, fields, ← host]
  rfl

theorem State.resetPartition_resetting (s : State) (p : Nat) : (s.resetPartition p).resetting = addOnce s.resetting p := by
  obtain ⟨-, -, -, resetting⟩ := s.endHit_samePackage p
  obtain ⟨rs, hs, fields⟩ := ((s.endHit p).resetCores p).resetFields_eq p
  rw [State.resetPartition_eq, fields, ← resetting]
  rfl

/-- A core of the partition stands at reset. -/
theorem State.resetPartition_core {s : State} {p n : Nat} {c : Core} (hc : (n, c) ∈ (s.resetPartition p).cores)
    (hp : s.partOf n = some p) : c = Core.resetAt n := by
  obtain ⟨rs, hs, fields⟩ := ((s.endHit p).resetCores p).resetFields_eq p
  rw [State.resetPartition_eq, fields] at hc
  obtain ⟨q, -, hq⟩ := List.mem_map.1 hc
  split_ifs at hq with mine
  · cases hq
    rfl
  · rw [hq, (s.endHit_samePackage p).partOf, hp] at mine
    exact absurd rfl mine

/-- Every partition of those reset has its reset under way. -/
theorem State.mem_resetPartitions (l : List Nat) (s : State) (q : Nat) :
    q ∈ (l.foldl State.resetPartition s).resetting ↔ q ∈ s.resetting ∨ q ∈ l := by
  induction l generalizing s with
  | nil => simp
  | cons p l ih => rw [List.foldl_cons, ih, State.resetPartition_resetting, mem_addOnce, List.mem_cons, or_assoc]

end Sys2Proof.Machine
end

section
/-!
PROOFS of 23_system: errors, partitions and power (R397-R409).
-/

namespace Sys2Proof.Machine

/-! ### A field of a die that a change leaves -/

theorem State.updDie_field {α : Type} (s : State) (d : Nat) {f : DieRegs → DieRegs} (g : DieRegs → α) (h : ∀ r, g (f r) = g r)
    (e : Nat) : g ((s.updDie d f).die e) = g (s.die e) := by
  by_cases same : Fin.ofNat 8 d = Fin.ofNat 8 e
  · have die (t : State) : t.die e = t.die d := by simp only [State.die, same]
    rw [die, die, State.die_updDie, h]
  · rw [State.die, State.updDie, State.die]
    simp only [Fin.getElem_fin]
    rw [Vector.getElem_set_ne _ _ fun h => same (Fin.ext h)]
    rfl

theorem State.updDie_congr {s : State} {d : Nat} {f g : DieRegs → DieRegs} (h : f (s.die d) = g (s.die d)) :
    s.updDie d f = s.updDie d g := by rw [State.updDie, h, State.updDie]

/-- The partitions of a die are told by its core table and its partition tables. -/
theorem State.dieParts_updDie (s : State) (d : Nat) {f : DieRegs → DieRegs} (hcorep : ∀ r, (f r).corep = r.corep)
    (hsupp : ∀ r, (f r).supp = r.supp) (hcfg : ∀ r, (f r).cfg = r.cfg) (e : Nat) :
    (s.updDie d f).dieParts e = s.dieParts e := by
  have part : (s.updDie d f).partOf = s.partOf := funext <| State.partOf_congr fun k =>
    ⟨s.updDie_field d DieRegs.corep hcorep k, s.updDie_field d DieRegs.supp hsupp k⟩
  have present : (s.updDie d f).present = s.present := funext fun n => by
    rw [State.present, State.present, s.updDie_field d DieRegs.cfg hcfg]
  rw [State.dieParts, State.dieParts, part, present]

/-! ### Soft errors (R400, R401) -/

/-- A count goes up by one and saturates. -/
theorem satInc_toNat (w : Word) : (satInc w).toNat = min (2 ^ 64 - 1) (w.toNat + 1) := by
  have bound := w.isLt
  rw [satInc]
  split_ifs with full
  · rw [full, BitVec.toNat_allOnes]
    omega
  · have room : w.toNat ≠ 2 ^ 64 - 1 := fun h => full (BitVec.eq_of_toNat_eq (h.trans (BitVec.toNat_allOnes).symm))
    rw [BitVec.toNat_add]
    simp only [BitVec.toNat_ofNat]
    omega

/-- A die's uncorrected errors counted. -/
def State.countError (s : State) (d : Nat) : State := s.updDie d fun r => { r with uecnt := satInc r.uecnt }

theorem State.countError_field {α : Type} (s : State) (d : Nat) (g : DieRegs → α)
    (h : ∀ r : DieRegs, g { r with uecnt := satInc r.uecnt } = g r) (e : Nat) : g ((s.countError d).die e) = g (s.die e) :=
  s.updDie_field d g h e

theorem State.sliceOwner_countError (s : State) (d k : Nat) : (s.countError d).sliceOwner d k = s.sliceOwner d k := by
  rw [State.sliceOwner, s.countError_field d DieRegs.slicep (fun _ => rfl), State.sliceOwner]

theorem State.pchOwner_countError (s : State) (d c : Nat) : (s.countError d).pchOwner d c = s.pchOwner d c := by
  rw [State.pchOwner, s.countError_field d DieRegs.pchp (fun _ => rfl), State.pchOwner]

theorem exec_sramDouble {d : Nat} {at_ : SramPlace} (hd : d < 8) (ha : at_.wf = true) (s : State) :
    exec (.sramDoubleBitError d at_) s = .next (s.sramDouble d at_) :=
  event_ok (by rw [decide_eq_true hd, ha]; rfl) _

/-! ### Throttle and temperature (R407) -/

/-- The step that a die takes next. -/
def State.newStep (s : State) (d : Nat) : Nat :=
  nextStep ((s.die d).stepDue.getD (s.die d).step).toNat (s.die d).temp.toNat (s.die d).twarn.toNat (s.die d).thys.toNat s.power
    (s.die 0).plimit.toNat

/-- Whether a die's step is due: in each 2^20th cycle, once. -/
def State.stepIsDue (s : State) (d : Nat) : Prop := s.timebase.toNat % 2 ^ 20 = 0 ∧ d ∉ s.stepped

theorem nextStep_le {step : Nat} (h : step ≤ 7) (temp twarn thys power plimit : Nat) :
    nextStep step temp twarn thys power plimit ≤ 7 := by
  unfold nextStep
  split_ifs <;> omega

theorem State.newStep_le (s : State) (d : Nat) : s.newStep d ≤ 7 :=
  nextStep_le (Nat.le_of_lt_succ (BitVec.isLt _)) ..

theorem State.moveStep_waits {s : State} {d : Nat} (h : ¬s.stepIsDue d) : s.moveStep d = s := by
  refine if_pos ?_
  by_cases hd : d ∈ s.stepped
  · exact .inr (List.contains_iff_mem.2 hd)
  · exact .inl fun hm => h ⟨hm, hd⟩

theorem State.moveStep_moves {s : State} {d : Nat} (h : s.stepIsDue d) : s.moveStep d =
    ({ s with stepped := d :: s.stepped } : State).updDie d fun r =>
      if s.halted ≠ [] then { r with stepDue := some (BitVec.ofNat 3 (s.newStep d)) }
      else { r with step := BitVec.ofNat 3 (s.newStep d) } := by
  have due : ¬(s.timebase.toNat % 2 ^ 20 ≠ 0 ∨ s.stepped.contains d = true) := by
    rintro (hm | hd)
    · exact hm h.1
    · exact h.2 (List.contains_iff_mem.1 hd)
  rw [State.moveStep, if_neg due]
  refine State.updDie_congr ?_
  by_cases halted : s.halted = [] <;> simp [halted] <;> rfl

theorem State.moveStep_keeps (s : State) (d : Nat) : (s.moveStep d).store = s.store ∧ (s.moveStep d).cores = s.cores ∧
    (s.moveStep d).launches = s.launches ∧ (s.moveStep d).power = s.power ∧ (s.moveStep d).stby = s.stby ∧
    (s.moveStep d).park = s.park ∧ (s.moveStep d).resetting = s.resetting := by
  unfold State.moveStep
  dsimp only
  split <;> exact ⟨rfl, rfl, rfl, rfl, rfl, rfl, rfl⟩

theorem State.moveStep_halted {s : State} {d : Nat} (h : s.stepIsDue d) (halted : s.halted ≠ []) :
    (s.moveStep d).die d = { s.die d with stepDue := some (BitVec.ofNat 3 (s.newStep d)) } := by
  rw [State.moveStep_moves h, State.die_updDie, if_pos halted]
  rfl

theorem State.moveStep_running {s : State} {d : Nat} (h : s.stepIsDue d) (running : s.halted = []) :
    (s.moveStep d).die d = { s.die d with step := BitVec.ofNat 3 (s.newStep d) } := by
  rw [State.moveStep_moves h, State.die_updDie, if_neg fun halted => halted running]
  rfl

theorem State.moveStep_temp (s : State) (d : Nat) : ((s.moveStep d).die d).temp = (s.die d).temp := by
  by_cases due : s.stepIsDue d
  · by_cases running : s.halted = []
    · rw [State.moveStep_running due running]
    · rw [State.moveStep_halted due running]
  · rw [State.moveStep_waits due]

/-- A die's temperature. -/
def State.setTemp (s : State) (d : Nat) (temp : Byte) : State := s.updDie d fun r => { r with temp := temp }

theorem State.setTemp_die (s : State) (d : Nat) (temp : Byte) : (s.setTemp d temp).die d = { s.die d with temp := temp } :=
  s.die_updDie d _

theorem State.thermal_cool {s : State} {d : Nat} {temp : Byte} (h : temp.toNat < (s.die d).tcrit.toNat) :
    s.thermal d temp = s.setTemp d temp := by
  refine if_pos ?_
  rw [s.die_updDie d]
  exact h

theorem State.thermal_hot {s : State} {d : Nat} {temp : Byte} (h : (s.die d).tcrit.toNat ≤ temp.toNat) : s.thermal d temp =
    { (s.dieParts d).foldl State.resetPartition (s.setTemp d temp) with stby := true, park := 0xFF } := by
  rw [← s.dieParts_updDie d (f := fun r => { r with temp := temp }) (fun _ => rfl) (fun _ => rfl) (fun _ => rfl) d]
  refine if_neg ?_
  rw [s.die_updDie d]
  exact Nat.not_lt.mpr h

/-- At TCRIT the package enters standby, and every partition of the die has its reset under way. -/
theorem State.throttle_hot {s : State} {d : Nat} {temp : Byte} (h : (s.die d).tcrit.toNat ≤ temp.toNat) (power : Nat) :
    (s.throttle d temp power).stby = true ∧ (s.throttle d temp power).park = 0xFF ∧
      ∀ p ∈ s.dieParts d, p ∈ (s.throttle d temp power).resetting := by
  obtain ⟨-, -, -, -, stby, park, resetting⟩ := (({ s with power := power } : State).thermal d temp).moveStep_keeps d
  have hot := State.thermal_hot (s := { s with power := power }) h
  rw [State.throttle, stby, park, resetting, hot]
  exact ⟨rfl, rfl, fun p hp => (State.mem_resetPartitions _ _ p).2 (.inr hp)⟩

/-- The step of a die below TCRIT after an update of its temperature and of the package power. -/
theorem State.throttle_cool {s : State} {d : Nat} {temp : Byte} (h : temp.toNat < (s.die d).tcrit.toNat) (power : Nat) :
    s.throttle d temp power = (({ s with power := power } : State).setTemp d temp).moveStep d := by
  rw [State.throttle, State.thermal_cool (s := { s with power := power }) h]

/-- The step that a die takes next with a temperature and a package power. -/
theorem State.newStep_setTemp (s : State) (d : Nat) (temp : Byte) (power : Nat) :
    (({ s with power := power } : State).setTemp d temp).newStep d = nextStep ((s.die d).stepDue.getD (s.die d).step).toNat
      temp.toNat (s.die d).twarn.toNat (s.die d).thys.toNat power (s.die 0).plimit.toNat := by
  have plimit : ((({ s with power := power } : State).setTemp d temp).die 0).plimit = (s.die 0).plimit :=
    State.updDie_field { s with power := power } d (f := fun r => { r with temp := temp }) DieRegs.plimit (fun _ => rfl) 0
  rw [State.newStep, plimit, State.setTemp_die]
  rfl

/-! ### Debug states and partitions (R399, R404) -/

theorem State.dbgWrite_locks {s : State} {v : Word} (h : v.toNat / 2 ^ 59 % 4 = 0) (running : s.halted = []) :
    s.dbgWrite v = { s with dbg := .locked } := by
  have resumed : (List.range 8).foldl State.resumePartition s = s := by
    refine List.foldl_fixed' (fun p => ?_) _
    rw [State.resumePartition, running]
    rfl
  have bits : bitsOf v.toNat 59 2 = 0 := h
  rw [State.dbgWrite, bits, resumed]
  rfl

theorem State.dbgWrite_user {s : State} {v : Word} (h : v.toNat / 2 ^ 59 % 4 = 1) (live : s.sec ≠ .revoked) :
    s.dbgWrite v = { s with dbg := .user } := by
  have bits : bitsOf v.toNat 59 2 = 1 := h
  rw [State.dbgWrite, bits]
  exact if_neg live

theorem State.dbgWrite_discards {s : State} {v : Word} (h : 2 ≤ v.toNat / 2 ^ 59 % 4) : s.dbgWrite v = s := by
  have bits : 2 ≤ bitsOf v.toNat 59 2 := h
  rw [State.dbgWrite]
  split
  · omega
  · omega
  · rfl

theorem putWord_zero_mod (old : Nat) {w : Nat} : putWord old w 0 % 2 ^ 6 = w % 64 := by
  rw [putWord]
  omega

/-- A write of SUPP: discarded with PERR where it would move a supervisor core into or out of a partition with a launch. -/
theorem State.assignWrite_supp (s : State) (d : Nat) (v : Word) : s.assignWrite d 0x18 v =
    if (movedFields (s.die d).supp.toNat (v.toNat % 64) 2).any fun m => s.launchOn m.1 || s.launchOn m.2 then
      s.updDie d fun r => { r with perr := true }
    else s.updDie d fun r => { r with supp := BitVec.ofNat 6 (v.toNat % 64) } := by
  rw [State.assignWrite]
  dsimp only
  rw [if_neg (by decide), if_pos rfl, putWord_zero_mod]

theorem exec_partitionAssignWrite {x : CtxRef} {d : Nat} (hx : x.wf = true) (hd : d < 8) (off : Nat) (v : Word) (s : State) :
    exec (.partitionAssignWrite x d off v) s = .next (s.assignWrite d off v) :=
  event_ok (by rw [hx, decide_eq_true hd]; rfl) _

theorem State.launchOn_of_anyLaunch {s : State} (h : s.anyLaunch = false) (p : Nat) : s.launchOn p = false := by
  rw [State.launchOn, List.any_eq_false]
  intro l hl
  have ended := List.any_eq_false.1 h l hl
  rw [Bool.and_eq_true]
  exact fun both => ended both.1

/-! ### Access tables (R397) -/

theorem exec_accessTableWrite {x : CtxRef} {d : Nat} (hx : x.wf = true) (hd : d < 8) (off : Nat) (v : Word) (s : State) :
    exec (.accessTableWrite x d off v) s = .next (s.accessWrite x d off v) :=
  event_ok (by rw [hx, decide_eq_true hd]; rfl) _

/-- An entry of a die's access table after a write of two of them by the management core. -/
theorem State.accessWrite_entry (s : State) {k d off i : Nat} (v : Word) (hi : i < 57) :
    ((s.accessWrite ⟨528, k⟩ d off v).die d).access.toList.getD i 0 =
      if i = off / 4 then BitVec.ofNat 32 v.toNat
      else if i = off / 4 + 1 then BitVec.ofNat 32 (bitsOf v.toNat 32 32)
      else (s.die d).access.toList.getD i 0 := by
  rw [State.accessWrite, if_neg (fun h => h rfl), State.die_updDie]
  simp [hi]

/-! ### Parking and standby (R406, R409) -/

theorem exec_partitionPark {x : CtxRef} {p : Nat} (hx : x.wf = true) (hp : p < 8) (s : State) :
    exec (.partitionPark x p) s = .next (s.parkPartition x p) := event_ok (by rw [hx, decide_eq_true hp]; rfl) _

theorem exec_partitionUnpark {x : CtxRef} {p : Nat} (hx : x.wf = true) (hp : p < 8) (s : State) :
    exec (.partitionUnpark x p) s = .next (s.unparkPartition x p) := event_ok (by rw [hx, decide_eq_true hp]; rfl) _

/-- A context of a core that is not gated may park a partition without a launch, and no other one. -/
theorem State.parkPartition_eq {s : State} {x : CtxRef} (active : (s.core x.core).gated = false) (p : Nat) :
    s.parkPartition x p = if s.launchOn p then s else { s with park := s.park ||| BitVec.ofNat 8 (2 ^ p) } := by
  simp [State.parkPartition, State.parked, active]

theorem State.standbyEnter_eq {s : State} {x : CtxRef} (active : (s.core x.core).gated = false) :
    s.standbyEnter x = if s.anyLaunch then s else { s with stby := true, park := 0xFF } := by
  simp [State.standbyEnter, State.parked, active]

/-- A context of a core that is not gated may unpark a partition, and leave standby. -/
theorem State.unparkPartition_active {s : State} {x : CtxRef} (active : (s.core x.core).gated = false) (p : Nat) :
    s.unparkPartition x p = s.unpark p :=
  if_neg (by rw [State.parked, active]; decide)

theorem State.standbyExit_active {s : State} {x : CtxRef} (active : (s.core x.core).gated = false) :
    s.standbyExit x = s.wakeAll :=
  if_neg (by rw [State.parked, active]; decide)

/-- A PARK bit cleared, and the others left. -/
theorem State.unpark_park (s : State) (p : Nat) : (s.unpark p).park.getLsbD p = false ∧
    ∀ q, q < 8 → q ≠ p → (s.unpark p).park.getLsbD q = s.park.getLsbD q :=
  ⟨getLsbD_clearBit _ p, fun _ hq apart => getLsbD_clearBit_other _ hq apart⟩

theorem Ctx.gate_not_ready (c : Ctx) : c.gate.status ≠ .ready := by
  unfold Ctx.gate
  split <;> simp_all

/-- A core of a parked partition, which is neither gated nor frozen, is gated. -/
theorem State.parkGate_gates {s : State} {n p : Nat} (part : s.partOf n = some p) (parked : s.park.getLsbD p = true)
    (active : (s.core n).gated = false) (thawed : (s.core n).freeze = none) :
    s.parkGate n = s.updCore n fun k => { k.mapCtx Ctx.gate with gated := true } := by
  simp [State.parkGate, part, parked, active, thawed]

theorem State.parkGate_active {s : State} {n p : Nat} (part : s.partOf n = some p) (active : s.park.getLsbD p = false) :
    s.parkGate n = s := by
  simp [State.parkGate, part, active]

/-- Whether a core comes back at the return of partition `p`: it is of that partition, which is not parked. -/
def State.comesBack (s : State) (n p : Nat) : Bool := decide (s.partOf n = some p) && !s.park.getLsbD p

/-- A core gated no more. -/
def Core.ungated (k : Core) : Core := if k.gated then { k.mapCtx Ctx.ungate with gated := false } else k

theorem Core.ungated_gated (k : Core) : k.ungated.gated = false := by
  unfold Core.ungated
  split_ifs with h
  · rfl
  · exact Bool.eq_false_of_not_eq_true h

/-- The gated cores of a partition run again, if the partition is not parked. -/
def State.returnPart (s : State) (p : Nat) : State := if s.park.getLsbD p then s else s.mapCores p Core.ungated

theorem State.returnToActive_eq (s : State) : s.returnToActive = (List.range 8).foldl State.returnPart s := rfl

/-- The return of a partition changes listed cores. -/
theorem State.returnPart_eq (s : State) (p : Nat) :
    s.returnPart p = s.mapListed fun n k => if s.comesBack n p then k.ungated else k := by
  unfold State.returnPart State.comesBack
  split_ifs with parked
  · simp [parked, State.mapListed]
  · rw [State.mapCores, map_if_eq s.cores (fun n => s.partOf n = some p) Core.ungated]
    simp [parked, State.mapListed]

theorem State.returnPart_gated (s : State) (p : Nat) {n : Nat} (hn : n ∈ s.cores.map Prod.fst) :
    ((s.returnPart p).core n).gated = ((s.core n).gated && !s.comesBack n p) := by
  rw [State.returnPart_eq, State.core_mapListed, if_pos hn]
  cases s.comesBack n p
  · exact (Bool.and_true _).symm
  · exact (Core.ungated_gated _).trans (Bool.and_false _).symm

/-- The return of partitions leaves the cores that are listed, and all but cores. -/
theorem State.returnParts_keeps (l : List Nat) (s : State) : ∃ cs, l.foldl State.returnPart s = { s with cores := cs } ∧
    cs.map Prod.fst = s.cores.map Prod.fst := by
  induction l generalizing s with
  | nil => exact ⟨s.cores, rfl, rfl⟩
  | cons p l ih =>
    obtain ⟨cs, h, keys⟩ := ih (s.returnPart p)
    rw [State.returnPart_eq] at h keys
    refine ⟨cs, ?_, keys.trans ?_⟩
    · rw [List.foldl_cons, State.returnPart_eq, h]
      rfl
    · simp [State.mapListed]

/-- A listed core is gated after the return of partitions if it was and comes back with none of them. -/
theorem State.returnParts_gated (l : List Nat) (s : State) {n : Nat} (hn : n ∈ s.cores.map Prod.fst) :
    ((l.foldl State.returnPart s).core n).gated = ((s.core n).gated && l.all fun p => !s.comesBack n p) := by
  induction l generalizing s with
  | nil => exact (Bool.and_true _).symm
  | cons p l ih =>
    obtain ⟨cs, h, keys⟩ := State.returnParts_keeps [p] s
    have same : (s.returnPart p).comesBack n = s.comesBack n := by
      rw [show s.returnPart p = { s with cores := cs } from h]
      rfl
    rw [List.foldl_cons, ih _ (by rw [show s.returnPart p = { s with cores := cs } from h]; exact keys ▸ hn),
      State.returnPart_gated s p hn, same, List.all_cons, Bool.and_assoc]

theorem State.returnToActive_gated {s : State} {n p : Nat} (hn : n ∈ s.cores.map Prod.fst) (hp : p < 8)
    (part : s.partOf n = some p) (active : s.park.getLsbD p = false) : (s.returnToActive.core n).gated = false := by
  have back : (List.range 8).all (fun p => !s.comesBack n p) = false := by
    refine List.all_eq_false.2 ⟨p, List.mem_range.2 hp, ?_⟩
    rw [State.comesBack, active, decide_eq_true part]
    decide
  rw [State.returnToActive_eq, State.returnParts_gated _ s hn, back, Bool.and_false]

/-! ### The end of a partition reset (R400, R402; log 88) -/

/-- A reset no longer under way, and the partition's PRESET bit set. -/
def State.resetOver (s : State) (p : Nat) : State :=
  { s with
    resetting := s.resetting.filter fun q => q != p
    host := { s.host with preset := s.host.preset ||| BitVec.ofNat 8 (2 ^ p) } }

/-- The supervisor cores of a partition, by their numbers from 512 on. -/
def State.supsOf (s : State) (p : Nat) : List Nat := (List.range 16).filter fun i => decide (s.partOf (512 + i) = some p)

theorem State.resetComplete_eq {s : State} {p : Nat} (h : p ∈ s.resetting) : s.resetComplete p =
    if s.boot ≠ .done then s.resetOver p else (s.resetOver p).releaseSups (s.supsOf p) :=
  if_neg (by rw [List.contains_iff_mem.2 h]; decide)

theorem State.resetComplete_waits {s : State} {p : Nat} (h : p ∉ s.resetting) : s.resetComplete p = s :=
  if_pos (by rw [Bool.eq_false_of_not_eq_true fun e => h (List.contains_iff_mem.1 e)]; rfl)


/-- The supervisor contexts of a partition are ready at 0 after its reset, once the device has booted. -/
theorem State.resetComplete_ctx {s : State} {p c : Nat} (due : p ∈ s.resetting) (booted : s.boot = .done) (lo : 512 ≤ c)
    (hi : c < 528) (part : s.partOf c = some p) (k : Nat) : (s.resetComplete p).ctx ⟨c, k⟩ = supStart := by
  have mine : c ∈ (s.supsOf p).map (512 + ·) := by
    refine List.mem_map.2 ⟨c - 512, List.mem_filter.2 ⟨List.mem_range.2 (by omega), ?_⟩, by omega⟩
    rw [show 512 + (c - 512) = c by omega, part]
    exact decide_eq_true rfl
  rw [State.resetComplete_eq due, if_neg fun h => h booted, State.ctx_releaseSups, if_pos mine]

/-- The end of a partition reset changes cores, and these once the device has booted alone. -/
theorem State.resetComplete_keeps {s : State} {p : Nat} (due : p ∈ s.resetting) :
    ∃ cs, s.resetComplete p = { s.resetOver p with cores := cs } ∧ (s.boot ≠ .done → cs = s.cores) := by
  rw [State.resetComplete_eq due]
  split_ifs with early
  · exact ⟨s.cores, rfl, fun _ => rfl⟩
  · obtain ⟨cs, kept⟩ := State.releaseSups_cores (s.supsOf p) (s.resetOver p)
    exact ⟨cs, kept, fun h => absurd h early⟩

end Sys2Proof.Machine
end

section
/-!
PROOFS of 23_system: errors, partitions and power settled (R397-R409).
-/

namespace Sys2Proof.Machine

/-- Settles O57: each event is one change of the state, given by the lemmas on soft errors, steps, partitions and parking. -/
theorem errorsPartitionsAndPower : Obligations.ErrorsPartitionsAndPower := by
  unfold Obligations.ErrorsPartitionsAndPower
  intro regsOnly open_
  refine ⟨?single, ?core, ?slice, ?sliceLine, ?hbm, ?scrub, ?cool, ?hot, ?reset, ?critical, ?debug, ?assign, ?moved, ?entries, ?denied,
    ?park, ?standby, ?gated, ?gate, ?ungate, ?back, ?early, ?wake, ?complete⟩
  case single =>
    intro d s hd
    refine ⟨_, event_ok (decide_eq_true hd) _, ⟨rfl, rfl, rfl⟩, ?_⟩
    rw [State.sramSingle, State.die_updDie]
    exact satInc_toNat _
  case core =>
    intro d c s hd hc
    refine ⟨s.countError d, ?_, ⟨rfl, rfl, rfl⟩, exec_sramDouble (at_ := .core c) hd (decide_eq_true hc) s⟩
    rw [State.countError, State.die_updDie]
    exact satInc_toNat _
  case slice =>
    intro d k s hd hk
    refine ⟨s.countError d, ⟨rfl, rfl, rfl⟩, ?_⟩
    rw [exec_sramDouble (at_ := .slice k) hd (decide_eq_true hk), ← s.sliceOwner_countError d k]
    rfl
  case sliceLine =>
    intro d k off s hd hk
    refine ⟨s.countError d, ⟨rfl, rfl, rfl⟩, ?_⟩
    rw [exec_sramDouble (at_ := .sliceLine k off) hd (decide_eq_true hk), ← s.pchOwner_countError d, ← s.countError_field d DieRegs.cfg (fun _ => rfl)]
    rfl
  case hbm =>
    intro st off s hst
    exact ⟨_, event_ok (decide_eq_true hst) _, mem_numPut .., rfl, rfl⟩
  case scrub =>
    intro s
    refine ⟨_, event_ok rfl _, ?_, fun active => ?_⟩
    · unfold State.scrubRead
      split <;> exact ⟨rfl, rfl, rfl⟩
    · rw [State.scrubRead, if_neg (by rw [active]; decide)]
      split_ifs with low
      · exact Nat.mod_eq_of_lt low
      · rfl
  case cool =>
    intro d temp power s hd low
    let u := ({ s with power := power } : State).setTemp d temp
    have die : u.die d = { s.die d with temp := temp } := State.setTemp_die ..
    have next : u.newStep d = nextStep ((s.die d).stepDue.getD (s.die d).step).toNat temp.toNat (s.die d).twarn.toNat
        (s.die d).thys.toNat power (s.die 0).plimit.toNat := State.newStep_setTemp ..
    obtain ⟨store, cores, launches, hpower, -⟩ := u.moveStep_keeps d
    have run : exec (.throttleStepUpdate d temp power) s = .next (u.moveStep d) :=
      (event_ok (decide_eq_true hd) _).trans (congrArg _ (State.throttle_cool low power))
    refine ⟨_, run, ⟨store, cores, launches⟩, ?_, hpower, fun wait => ?_, fun due halted => ?_, fun due running => ?_⟩
    · rw [State.moveStep_temp, die]
    · rw [State.moveStep_waits (s := u) wait, die]
      exact ⟨rfl, rfl⟩
    · rw [State.moveStep_halted (s := u) due halted, die, next]
      exact ⟨rfl, rfl⟩
    · rw [State.moveStep_running (s := u) due running]
      refine (BitVec.toNat_ofNat ..).trans ((Nat.mod_eq_of_lt (Nat.lt_succ_of_le (u.newStep_le d))).trans ?_)
      rw [next]
      rfl
  case hot =>
    intro d temp power s hd high
    exact ⟨_, event_ok (decide_eq_true hd) _, State.throttle_hot high power⟩
  case reset =>
    intro p s hp t
    have park := s.resetPartition_park p
    have preset := s.resetPartition_preset p
    have resetting := s.resetPartition_resetting p
    refine ⟨?_, ?_, ?_, fun q hq apart => ?_, fun n c hc part => State.resetPartition_core hc part⟩
    · exact resetting ▸ (mem_addOnce ..).2 (.inr rfl)
    · exact preset ▸ getLsbD_setBit _ hp
    · exact park ▸ getLsbD_clearBit _ p
    · exact (congrArg (BitVec.getLsbD · q) park).trans (getLsbD_clearBit_other _ hq apart)
  case critical =>
    intro d temp s hd
    refine ⟨fun low => ⟨_, (event_ok (decide_eq_true hd) _).trans (congrArg _ (State.thermal_cool low)), ⟨rfl, rfl, rfl⟩, ?_⟩,
      fun high => (event_ok (decide_eq_true hd) _).trans (congrArg _ (State.thermal_hot high))⟩
    rw [State.setTemp_die]
  case debug =>
    intro x d v s hx hd live running
    have run : exec (.dbgWrite x d v) s = .next (s.dbgWrite v) := event_ok (by rw [hx, decide_eq_true hd]; rfl) _
    rw [run]
    exact ⟨fun h => congrArg _ (State.dbgWrite_user h live), fun h => congrArg _ (State.dbgWrite_locks h running),
      fun h => congrArg _ (State.dbgWrite_discards h)⟩
  case assign =>
    intro x d v s hx hd none
    have free : ((movedFields (s.die d).supp.toNat (v.toNat % 64) 2).any fun m => s.launchOn m.1 || s.launchOn m.2) = false := by
      simp [State.launchOn_of_anyLaunch none]
    refine ⟨_, exec_partitionAssignWrite hx hd 0x18 v s, ?_⟩
    rw [State.assignWrite_supp, if_neg (by rw [free]; decide), State.die_updDie]
    exact ⟨⟨rfl, rfl, rfl⟩, BitVec.eq_of_toNat_eq (by simp), rfl⟩
  case moved =>
    intro x d v s p q hx hd moves busy
    have held : ((movedFields (s.die d).supp.toNat (v.toNat % 64) 2).any fun m => s.launchOn m.1 || s.launchOn m.2) = true :=
      List.any_eq_true.2 ⟨(p, q), moves, Bool.or_eq_true_iff.2 busy⟩
    refine ⟨_, exec_partitionAssignWrite hx hd 0x18 v s, ?_⟩
    rw [State.assignWrite_supp, if_pos held, State.die_updDie]
    exact ⟨⟨rfl, rfl, rfl⟩, rfl, rfl⟩
  case entries =>
    intro k d off v s hk hd aligned hoff
    have hx : (⟨528, k⟩ : CtxRef).wf = true := by simp [CtxRef.wf, hk]
    refine ⟨_, exec_accessTableWrite hx hd off v s, ⟨rfl, rfl, rfl⟩, ?_, ?_⟩
    · rw [State.accessWrite_entry _ _ (by omega), if_pos rfl]
    · rw [State.accessWrite_entry _ _ (by omega), if_neg (by omega), if_pos rfl]
      exact BitVec.eq_of_toNat_eq (by simp [bitsOf])
  case denied =>
    intro x d off v s hx hd hcore
    exact (exec_accessTableWrite hx hd off v s).trans (congrArg _ (if_pos hcore))
  case park =>
    rintro x p s ⟨hx, active⟩ hp
    refine ⟨fun free => ?_, fun busy => ?_, _, exec_partitionUnpark hx hp s, ?_⟩
    · refine ⟨_, exec_partitionPark hx hp s, ?_⟩
      rw [State.parkPartition_eq active, free]
      exact ⟨⟨rfl, rfl, rfl⟩, getLsbD_setBit _ hp, fun q _ apart => getLsbD_setBit_other _ apart⟩
    · rw [exec_partitionPark hx hp, State.parkPartition_eq active, if_pos busy]
    · rw [State.unparkPartition_active active]
      exact ⟨⟨rfl, rfl, rfl⟩, s.unpark_park p⟩
  case standby =>
    rintro x s ⟨hx, active⟩
    have enter : exec (.standbyEnter x) s = .next (s.standbyEnter x) := event_ok hx _
    rw [enter, State.standbyEnter_eq active]
    refine ⟨fun free => by rw [free]; rfl, fun busy => by rw [if_pos busy], ?_⟩
    exact (event_ok hx _).trans (congrArg _ (State.standbyExit_active active))
  case gated =>
    intro x p s hx hp parked
    have first {q : Prop} : s.parked x = true ∨ q := .inl parked
    exact ⟨(exec_partitionPark hx hp s).trans (congrArg _ (if_pos first)),
      (exec_partitionUnpark hx hp s).trans (congrArg _ (if_pos parked)),
      (event_ok hx _).trans (congrArg _ (if_pos first)), (event_ok hx _).trans (congrArg _ (if_pos parked))⟩
  case gate =>
    intro n s p hn part parked active thawed
    refine ⟨_, event_ok (decide_eq_true hn) _, ?_⟩
    rw [State.parkGate_gates part parked active thawed]
    refine ⟨by rw [State.core_updCore], rfl, fun k _ => ?_⟩
    rw [State.ctx_updCore]
    exact (congrArg Ctx.status ((s.core n).ctx_mapCtx Ctx.gate k)).trans_ne (Ctx.gate_not_ready _)
  case ungate =>
    intro n s p hn part active
    exact (event_ok (decide_eq_true hn) _).trans (congrArg _ (State.parkGate_active part active))
  case back =>
    intro s
    obtain ⟨cs, kept, -⟩ := State.returnParts_keeps (List.range 8) s
    refine ⟨_, event_ok rfl _, ?_, ?_, fun n p part hp active hn => State.returnToActive_gated hn hp part active⟩
    · rw [State.returnToActive_eq, kept]
    · rw [State.returnToActive_eq, kept]
  case early =>
    intro p s hp early
    exact exec_served_waits (event_ok (decide_eq_true hp) _) early
  case wake =>
    intro p s hp booted
    exact ⟨_, exec_served_done (event_ok (decide_eq_true hp) _) booted, ⟨rfl, rfl, rfl⟩, s.unpark_park p⟩
  case complete =>
    intro p s hp
    constructor
    · intro due
      have run : exec (.partitionResetComplete p) s = .next (s.resetComplete p) := event_ok (decide_eq_true hp) _
      obtain ⟨cs, kept, early⟩ := State.resetComplete_keeps due
      refine ⟨_, run, ?_, ?_, ?_, fun booted c k lo hi _ part => ?_, fun waits => ?_⟩
      · rw [kept]
        exact fun h => absurd (List.mem_filter.1 h).2 (by simp)
      · rw [kept]
        exact getLsbD_setBit _ hp
      · rw [kept]
        rfl
      · rw [State.resetComplete_ctx due booted lo hi part]
        exact ⟨supStart_ready.1, supStart_ready.2.1⟩
      · rw [kept]
        exact early waits
    · intro idle
      exact (event_ok (decide_eq_true hp) _).trans (congrArg _ (State.resetComplete_waits idle))

end Sys2Proof.Machine
end
